-- ==== Sys2Proof/Word.lean ====
section
/-! DEFINITION. The word types of the DM9 model and nothing else: every width below is one that the
manual names. Bit 0 is the least significant bit (R3). -/

namespace Sys2Proof

/-- One byte of any memory. -/
abbrev Byte := BitVec 8
/-- A 32-bit register, lane or instruction immediate. -/
abbrev Word := BitVec 32
/-- A 64-bit scalar register or record word. -/
abbrev DWord := BitVec 64
/-- A SHA-384 digest. -/
abbrev Digest := BitVec 384
/-- A status code (R12): 8 bits wide. -/
abbrev Status := BitVec 8

/-- A sparse table: keys strictly rising, and no entry equal to the table's default value.
Every memory, register file and table of the model is one of these. -/
abbrev Tab (α : Type) := List (Nat × α)

end Sys2Proof
end

