-- ==== Sys2Proof/Syntax.lean ====
section
/-! DEFINITION. The commands of the DM9 block: one constructor of `Instr` per row of the manual's
operation and event table (spec/opcode_table.json), with the operands that the manual names for it. A
record that the outside hands to the module (a Running Order, a request descriptor, a sealed message)
is a structure whose fields are the manual's fields. Where the outside's bytes carry a check that only
a cryptographic engine can make, the record carries the verdict (`tagOk`, `sigOk`): see
notes/assumptions/5.md. -/

namespace Sys2Proof

/-- R174: the operand fields of an Isvex instruction word. `a` to `d` are bits 51–47, 46–42, 41–37 and
36–32, and `imm` is bits 31–0. -/
structure Fields where
  a : BitVec 5
  b : BitVec 5
  c : BitVec 5
  d : BitVec 5
  imm : Word
deriving DecidableEq, Repr

/-- The kinds of physical unit that FAIL_UNIT names (R445, R732). -/
inductive UnitKind where
  | engine | stagehand | sampler | flat | stack | peer | video | walker | phy | port | clock | unknown
deriving DecidableEq, Repr

/-- A physical unit (R445): kind, cluster, and slot, flat, stack or rank. -/
structure UnitRef where
  kind : UnitKind
  cluster : Nat
  slot : Nat
deriving DecidableEq, Repr

/-- The way an inbound command came, by which its reply and its results leave (R30, R550). -/
inductive Route where
  | pcie (fn qp : Nat) (cid : BitVec 16)
  | roce (qpn : Nat)
  | internal
deriving DecidableEq, Repr

/-- A mailbox or video command (R384): the 64-byte header as it reaches the control hub, with the
partition that the transport fixes. `inline` is bytes 32–59; `argBytes` is the length of what follows
the header. -/
structure Cmd where
  part : Nat
  route : Route
  job : DWord
  seq : DWord
  opcode : BitVec 16
  tag : Word
  argLen : Word
  obj : DWord
  beat : DWord
  inline : List Byte
  resvOk : Bool
  crcOk : Bool
deriving DecidableEq, Repr

/-- The request descriptor of a SUBMIT (R391). -/
structure ReqDesc where
  jobId : DWord
  variant : Byte
  ncand : Byte
  prioFlags : Byte
  promptLen : Word
  prompt : DWord
  maxNew : Word
  temp : Word
  topP : Word
  topK : BitVec 16
  window : BitVec 16
  pres : Word
  freq : Word
  rep : Word
  seed : DWord
  stop : List Word
  resvOk : Bool
  crcOk : Bool
deriving DecidableEq, Repr

/-- The variant record of a VARIANT_LOAD (R408). -/
structure VariantRec where
  magic : Word
  npriv : BitVec 16
  routeK : Byte
  vocab : Word
  kvTokenBytes : Word
  baseId : DWord
  expertTbl : DWord
  draftProg : DWord
  prefillProg : DWord
  decodeProg : DWord
  maxCtx : Word
  resvOk : Bool
  crcOk : Bool
deriving DecidableEq, Repr

/-- The head-spread record of a SPREAD_REG (R370). -/
structure SpreadRec where
  setId : Word
  nmod : Byte
  rank : Byte
  ngroup : BitVec 16
  timeoutBeats : Byte
  qps : List Word
  resvOk : Bool
deriving DecidableEq, Repr

/-- The open descriptor of a STREAM_OPEN (R497). -/
structure OpenDesc where
  stream : Byte
  kind : Byte
  flags : Byte
  nbuf : Byte
  width : BitVec 16
  height : BitVec 16
  frameUs : Word
  tileFmt : Byte
  cropX : BitVec 16
  cropY : BitVec 16
  cropW : BitVec 16
  cropH : BitVec 16
  tileBase : DWord
  refBase : DWord
  refLen : Word
  rate : Word
  qp : Byte
  refresh : Byte
  keyInt : BitVec 16
  jobId : DWord
  readyCl : BitVec 16
  recCl : BitVec 16
  resvOk : Bool
  /-- the codec, profile, level or byte-stream format asked for is one that R490 and R491 allow -/
  codecOk : Bool
deriving DecidableEq, Repr

/-- A sealed message (R574): its header, its size on the wire, the verdict of the AES-256-GCM tag under
the key that the header names, and the plaintext. -/
structure Sealed where
  jobId : DWord
  keyEpoch : Word
  version : Byte
  kind : Byte
  stream : Byte
  flags : Byte
  seq : DWord
  length : Word
  sender : Byte
  resvOk : Bool
  size : Nat
  tagOk : Bool
  plain : List Byte
deriving DecidableEq, Repr

/-- A submission queue entry (R546). -/
structure SqEntry where
  kind : Byte
  cid : BitVec 16
  length : Word
  addr : DWord
  resvOk : Bool
deriving DecidableEq, Repr

/-- R50: the Running Order header. `resv` holds bytes 84–123. -/
structure RoHeader where
  beatNo : DWord
  entryCount : BitVec 16
  xlistCount : BitVec 16
  periodUs : Word
  eBudgetUj : Word
  eDrawUj : Word
  walkonUj : Word
  walkonEus : Word
  configDigest : Digest
  coefGen : Word
  resv : List Byte
  crc : Word
deriving DecidableEq, Repr

/-- R51: a Running Order entry as its eight 64-bit words. -/
structure Entry where
  w0 : DWord
  w1 : DWord
  w2 : DWord
  w3 : DWord
  w4 : DWord
  w5 : DWord
  w6 : DWord
  w7 : DWord
deriving DecidableEq, Repr

/-- R427: a Sampler job descriptor, and the cluster whose Sampler takes it. -/
structure SamplerJob where
  cluster : Nat
  stepId : BitVec 16
  part : Nat
  nrows : Nat
  waitCl : Nat
  waitCnt : Nat
  doneCl : Nat
  doneInc : Nat
  flat0 : Nat
  flat1 : Nat
  flat2 : Nat
  walkon : Bool
  logits : Nat
  rowStride : Nat
  vocab : Nat
  rowmap : Nat
  outAddr : Nat
  beatKey : DWord
  resvOk : Bool
  crcOk : Bool
deriving DecidableEq, Repr

/-- What the plan holds for one step beside its entries: its commit group, its requests, the frames
that R328 reserves, the pages that R329 maps fresh, and how many log tokens of each request the step
covers. -/
structure StepPlan where
  stepId : BitVec 16
  part : Nat
  reqs : List Nat
  /-- KV tokens that the step writes for each request, in the order of `reqs` -/
  ntok : List Nat
  /-- virtual addresses of the KV pages that the Stage Manager maps fresh -/
  fresh : List Nat
  /-- frames reserved for pages that the step may copy -/
  copies : Nat
  train : Bool
  retry : Bool
  /-- Walk-on slot planned as an ordinary step under R71 -/
  slot : Option Nat
deriving DecidableEq, Repr

/-- One flat of the Beat's flat map (R247): its holder code and whether it is lent. -/
structure FlatUse where
  holder : Nat
  lent : Bool
deriving DecidableEq, Repr

/-- What the Stage Manager plans for one entry beside its 64 bytes: the engine time of its program at step 0 and the time of its
transfers at the full memory bandwidth, in ns (R827), whether the prediction includes a partition clear (R27, R60), the counts n[k]
of the 16 energy classes, and the argument block that it writes: the Cue Light window (R120) and bytes 64–255 (R117). -/
structure EntryPlan where
  clockNs : Nat
  memNs : Nat
  clear : Bool
  counts : List Nat
  clBase : Nat
  clCount : Nat
  args : List Byte
deriving DecidableEq, Repr

/-- A Running Order with everything that the Stage Manager publishes beside it: the extension list,
the Sampler job list (R426), the step plans, the flat map of the Beat (R247), and what it plans for each entry. -/
structure Order where
  hdr : RoHeader
  entries : List Entry
  xlist : List Word
  jobs : List SamplerJob
  steps : List StepPlan
  flats : List FlatUse
  plans : List EntryPlan
deriving DecidableEq, Repr

/-- Kinds of IEEE 1588 message that a slave-only clock with the end-to-end mechanism acts on (R35): a Sync with its origin time, and
the answer to its own Delay_Req. -/
inductive PtpKind where
  | sync | delayResp | other
deriving DecidableEq, Repr

/-- An IEEE 1588 message that arrives for the slave-only clock (R35, R36). -/
structure PtpMsg where
  port : Nat
  domain : Byte
  layer2 : Bool
  /-- it belongs to the peer-to-peer delay mechanism -/
  peerDelay : Bool
  kind : PtpKind
  /-- the master's time that the message gives, in ns: when it sent the Sync, or when the Delay_Req reached it -/
  masterNs : Nat
  /-- the device's own time, in ns: when the Sync arrived, or when it sent the Delay_Req -/
  localNs : Nat
deriving DecidableEq, Repr

/-- Where a management command came from (R606): an SPDM session or a House frame. -/
inductive MgmtSrc where
  | session (id : Nat)
  | house
deriving DecidableEq, Repr

/-- The common part of a management command body (R606). -/
structure Mgmt where
  src : MgmtSrc
  target : Byte
  tag : Word
deriving DecidableEq, Repr

/-- The header of a pairing-link message (R634) and the verdict of its ICV or tag (R635). -/
structure PairHdr where
  sender : Byte
  part : Byte
  lseq : DWord
  beat : DWord
  ok : Bool
deriving DecidableEq, Repr

/-- The heartbeat body (R642). -/
structure HbBody where
  state : Nat
  mode : Nat
  tookOver : Bool
  orderLate : Bool
  selfcheckFail : Bool
  phaseUs : Word
  leMap : Word
  lsMap : DWord
  clk : BitVec 128
  reserveMj : Int
  coefGen : Word
  configDigest : Digest
deriving DecidableEq, Repr

/-- The digest body (R648). -/
structure DigestBody where
  beat : DWord
  output : Digest
  state : Digest
  config : Digest
  count : Word
  slackUs : Word
  late : Word
deriving DecidableEq, Repr

/-- The configuration record (R660). -/
structure ConfigRec where
  bundle : Word
  parts : Digest
  settings : Digest
  weights : Digest
  leMap : Word
  lsMap : DWord
  samplers : Byte
  walkers : Byte
  videos : Byte
  ports : Byte
  lcRetired : Word
deriving DecidableEq, Repr

/-- What R633 asks of a partner beside its configuration record: whether it holds a House key, the tenant bindings of its enabled
partitions, the key slots that it fills, the FREEZE_LEAD in force on it, and the PTP domain from which it takes its edges. -/
structure JoinFacts where
  house : Bool
  bindings : List (Nat × Digest)
  keys : List Nat
  lead : Nat
  ptpDomain : Option Nat
deriving DecidableEq, Repr

/-- A CONFIG message (R635): the record, the energy coefficients when it carries them (R642), and what the partner tells of itself for
R633. -/
structure ConfigMsg where
  record : ConfigRec
  coefs : Option (List Nat)
  facts : Option JoinFacts
deriving DecidableEq, Repr

/-- The body of a House frame, by class (R585). -/
inductive HouseBody where
  | heartbeat (b : HbBody)
  | telemetry
  | digest (b : DigestBody)
  | config (c : ConfigRec)
  | mgmtCmd
  | mgmtReply
  | spdm
  | accounting
  /-- a wall-clock time, in ns of the PTP timescale: R103 and R105 let management give it, and give it no class and no layout -/
  | wallTime (ns : Nat)
  | other
deriving DecidableEq, Repr

/-- A House frame (R585) and the verdict of its ICV. -/
structure HouseFrame where
  version : Byte
  cls : Byte
  serial : Word
  hseq : DWord
  beat : DWord
  icvOk : Bool
  body : HouseBody
deriving DecidableEq, Repr

/-- One piece of a resynchronisation STATE message (R653): a page of a partition, a table delta, the
naming of the cutover Beat, or the end of the final delta. -/
inductive StateChunk where
  | page (va : Nat) (frame : Nat) (bytes : List (Nat × Byte))
  | table (entries : List (Nat × DWord))
  | cutover (beat : DWord)
  | finalDelta
  /-- a request table entry (R394), by its index -/
  | request (index : Nat) (entry : List Byte)
  /-- a prefix tree node (R401), by its partition's key and its index, with the partner's frames of its page list -/
  | node (index : Nat) (bytes : List Byte) (pages : List Nat)
deriving DecidableEq, Repr

/-- A decrypted compressed payload for a stream, with the prefix of R502. -/
structure AccessUnit where
  part : Nat
  job : DWord
  stream : Byte
  flags : Byte
  frameNo : Word
  captureUs : DWord
  bytes : Nat
deriving DecidableEq, Repr

/-- What decoding a frame found (R501, R511): whether it is good, whether it is a random access point
or completes a recovery point, film grain, and the reconstructed planes with their bit depth and the
colour matrix and range that the stream signals, when it does. -/
structure Decoded where
  good : Bool
  randomAccess : Bool
  recoveryPoint : Bool
  filmGrain : Bool
  depth : Nat
  colour : Option (Nat × Bool)
  luma : List Nat
  cb : List Nat
  cr : List Nat
deriving DecidableEq, Repr

/-- What a descriptor, a table and a set of checks of a start found (R736 to R775): the outcome of each
step as the hardware's tests report it. -/
structure StartResults where
  /-- outcome of R593 and R594 for slots A and B: `none` passes, `some k` refuses manifest index k -/
  slotCheck : List (Option Nat)
  /-- unit slots, Samplers, video engines, Prefix Walkers and flats that fail step 6 -/
  failDie : List UnitRef
  smPairsFail : Nat
  /-- pseudo-channels (32 m + k) that fail training, and those that fail the check of R759 -/
  failTrain : List Nat
  failCheck : List Nat
  /-- rows that fail a retention hold, and pseudo-channels that fail a March or report an error -/
  holdRows : List (Nat × Nat)
  failMarch : List Nat
  failBcast : List UnitRef
  /-- a firmware part that reaches no receiver of its kind -/
  bcastNone : Bool
  failKat : List UnitRef
  /-- reported stack temperatures, °C -/
  stackTemps : List Int
  storeValid : List Bool
  /-- measured coefficients of R774: per cluster, c_static and classes 0–14, in 2⁻¹⁶ µJ -/
  coefs : List (List Nat)
  shIdleUw : List Nat
  durationMs : Nat
  /-- a trigger of a device reset that abandons the start before step 16 (R738): whether it is DEVICE_RESET -/
  abandoned : Option Bool
deriving DecidableEq, Repr

/-- A device in the service port, as the RoT finds it (R783 to R785): whether it is a Mass Storage Class device, whether a hub lies between,
the block size, whether its volume is FAT32, where the volume lies (from block 0, or the first partition of an MBR table with its type),
and the bytes of `DM9UPD.BDX` in the root directory. -/
structure Stick where
  massStorage : Bool
  hub : Bool
  blockBytes : Nat
  fat32 : Bool
  atBlock0 : Bool
  mbrType : Byte
  file : Option (List Byte)
deriving DecidableEq, Repr

/-- A self-test slice (R706, R731): its test code, slice number, unit, credit and predicted time. -/
structure Slice where
  test : Nat
  slice : Nat
  unit : UnitRef
  planned : Bool
  predUs : Nat
  entryIndex : Nat
deriving DecidableEq, Repr

/-- Why a slice is aborted (R726). -/
inductive AbortTrigger where
  | service | limit | edge | reset
deriving DecidableEq, Repr

/-- Which work hangs (R674 to R676). -/
inductive HangKind where
  | entry | helper | sampler
deriving DecidableEq, Repr

/-- A sensor of R818 that is read every 10 µs. -/
inductive Sensor where
  | engine (k : Nat) | shGroup (g : Nat) | video (k : Nat) | phy (m : Nat)
deriving DecidableEq, Repr

/-- Where an access comes from, for translation (R319) and its record (R665). -/
structure Access where
  part : Nat
  stepId : BitVec 16
  req : BitVec 16
  index : BitVec 12
  le : Byte
  origin : Byte
deriving DecidableEq, Repr

/-- The SPDM transport of a request (R600 to R602). -/
inductive SpdmPort where
  | doe | mgmt
deriving DecidableEq, Repr

/-- One command or event of the DM9: exactly the rows of spec/opcode_table.json, in its order. `e` is a
physical engine slot (9 c + k for Cc.Ek), `sh` a physical Stagehand slot (18 c + k), `fn` a PCIe
function (0 the physical function, k + 1 the function of Pk), `c` a mailbox command. -/
inductive Instr where
  /-- BEAT_EDGE (R42): The Beat unit places the next Beat edge, raises the Beat number, latches the Call Board edge words and begins cutting the ending Beat's entries and dispatching the new Running Order. -/
  | beatEdge
  /-- BEAT_OUT_PULSE_END (R40): BEAT_OUT falls after being held high for 1 µs. -/
  | beatOutPulseEnd
  /-- CUT_COMPLETE (R73): All cuts of the edge have completed, within 4 µs. -/
  | cutComplete
  /-- FLAT_CLEAR_DONE (R253): The clear of the changed flats completes within 1 µs, and entries that name them may become ready. -/
  | flatClearDone
  /-- AGE_PROMOTE (R81): A request whose age reaches MAX_WAIT is promoted to Walk-on class for one step. -/
  | agePromote (req : Nat)
  /-- HEAD_SPREAD_TIMEOUT (R378): After TIMEOUT_BEATS edges without commit and with a contribution missing, the request fails with ST_PEER_TIMEOUT and ABORT is sent. -/
  | headSpreadTimeout (req : Nat)
  /-- THE_HALF (R45): At FREEZE_LEAD (clamped to half the period) before the edge, the next Running Order is frozen and copied to staging, and loans are returned. -/
  | theHalf
  /-- PUBLISH_RUNNING_ORDER (R47): The Stage Manager publishes a Running Order to the Beat unit before The Half. -/
  | publishRunningOrder (o : Order)
  /-- BEAT_IN_EDGE (R847): A rising BEAT_IN edge within ±0.9 µs of the expected time places the Beat edge within 50 ns. -/
  | beatInEdge (offsetNs : Int) (highNs : Nat)
  /-- PTP_MESSAGE (R35): A PTP message on N0 is handled by the slave-only ordinary clock, and the servo is disciplined. -/
  | ptpMessage (m : PtpMsg)
  /-- HOLDOVER (R37): Three missed edges or a PTP servo outside ±1 µs put the device in holdover on the internal timer. -/
  | holdover
  /-- LOCK_TIMEOUT_READY (R778): If the source has not locked within 10 s of step 16, the device declares readiness on the internal timer as DEGRADED. -/
  | lockTimeoutReady
  /-- ENTRY_DISPATCH (R57): An idle engine takes the head of its queue, or the lowest-INDEX ready 'any' entry, once it is ready. -/
  | entryDispatch (e : Nat)
  /-- PARTITION_CLEAR_DONE (R27): The clear of a unit's state and local memory on a change of partition completes within 2 µs. -/
  | partitionClearDone (unit : UnitRef)
  /-- ENTRY_RETIRE (R139): CTRL.END retires once all XFERs and helper jobs are done and FL writes are visible, and then the signals are added. -/
  | entryRetire (e : Nat)
  /-- HANG (R674): An entry, Walk-on, helper job or Sampler job still running at its hang deadline is abandoned, and a HANG record is written. -/
  | hang (kind : HangKind) (unit : Nat)
  /-- ENTRY_DRAIN_DONE (R157): The drain of an abandoned entry's in-flight XFERs completes within 4 µs. -/
  | entryDrainDone (e : Nat)
  /-- UNIT_STOP_TIMEOUT (R679): A unit that has not stopped within 4 µs after an abandonment is reset with CAUSE 3. -/
  | unitStopTimeout (unit : UnitRef)
  /-- HARDWARE_EXCEPTION (R159): An LM_ECC or ARRAY_CHECK error abandons the entry and resets the unit. -/
  | hardwareException (e : Nat) (arrayCheck : Bool) (addr : Nat)
  /-- WALKON_GO (R462): A Call Board write with GO = 1 to slot word 0 takes REQ and ARG, runs the checks, and moves the slot to PENDING or REFUSED. -/
  | walkonGo (slot : Nat) (w : Word)
  /-- WALKON_DOORBELL (R560): An 8-byte write to NET_Pn_WALKON_DB requests a Walk-on of a slot, with the ownership check first. -/
  | walkonDoorbell (fn : Nat) (db : DWord)
  /-- WALKON_DB_HALF_WRITE (R562): A 4-byte write to either half of the doorbell has no effect and counts in BAD_WR. -/
  | walkonDbHalfWrite (fn : Nat) (high : Bool) (val : Word)
  /-- WALKON_DISPATCH (R69): The dispatcher writes the argument block into the lowest open window that fits, and the first instruction issues within 1.0 µs. -/
  | walkonDispatch (slot : Nat)
  /-- WINDOW_OPEN (R67): A Walk-on window opens, after a 2 µs clear when the engine's previous partition differs. -/
  | windowOpen (index : Nat)
  /-- WALKON_SET_FREE (R259): A Walk-on set is cleared and freed within 1 µs after its Walk-on ends. -/
  | walkonSetFree (set : Nat)
  /-- LEDGER_CLOSE (R88): Within 30 µs after the edge, the ledger of the last Beat closes from the rail samples and updates the reserve. -/
  | ledgerClose
  /-- CTRL_NOP (R174): Does nothing for one cycle. -/
  | ctrlNop (e : Nat) (f : Fields)
  /-- CTRL_END (R139): Ends the entry under retirement rules. -/
  | ctrlEnd (e : Nat) (f : Fields)
  /-- CTRL_FENCE (R184): Stalls issue until the XFERs, helper jobs or FL writes selected by MASK have completed. -/
  | ctrlFence (e : Nat) (f : Fields)
  /-- ADD (R174): rd = rs1 + rs2 modulo 2⁶⁴. -/
  | add (e : Nat) (f : Fields)
  /-- SUB (R174): rd = rs1 − rs2. -/
  | sub (e : Nat) (f : Fields)
  /-- AND (R174): Bitwise AND of two scalars. -/
  | and (e : Nat) (f : Fields)
  /-- OR (R174): Bitwise OR of two scalars. -/
  | or (e : Nat) (f : Fields)
  /-- XOR (R174): Bitwise XOR of two scalars. -/
  | xor (e : Nat) (f : Fields)
  /-- SLL (R174): Left shift by rs2[5:0]. -/
  | sll (e : Nat) (f : Fields)
  /-- SRL (R174): Logical right shift by rs2[5:0]. -/
  | srl (e : Nat) (f : Fields)
  /-- SRA (R174): Arithmetic right shift by rs2[5:0]. -/
  | sra (e : Nat) (f : Fields)
  /-- MUL (R174): Low 64 bits of the product. -/
  | mul (e : Nat) (f : Fields)
  /-- MULHU (R174): High 64 bits of the unsigned product. -/
  | mulhu (e : Nat) (f : Fields)
  /-- MULH (R174): High 64 bits of the signed product. -/
  | mulh (e : Nat) (f : Fields)
  /-- DIVU (R185): Unsigned quotient, all ones for a divisor of 0. -/
  | divu (e : Nat) (f : Fields)
  /-- REMU (R185): Unsigned remainder, the dividend for a divisor of 0. -/
  | remu (e : Nat) (f : Fields)
  /-- SLT (R174): Signed set-less-than. -/
  | slt (e : Nat) (f : Fields)
  /-- SLTU (R174): Unsigned set-less-than. -/
  | sltu (e : Nat) (f : Fields)
  /-- MIN (R174): Signed minimum. -/
  | min (e : Nat) (f : Fields)
  /-- MAX (R174): Signed maximum. -/
  | max (e : Nat) (f : Fields)
  /-- MINU (R174): Unsigned minimum. -/
  | minu (e : Nat) (f : Fields)
  /-- MAXU (R174): Unsigned maximum. -/
  | maxu (e : Nat) (f : Fields)
  /-- SEL (R174): rd = rs3 ≠ 0 ? rs1 : rs2. -/
  | sel (e : Nat) (f : Fields)
  /-- ADDI (R186): rd = rs1 + sext(IMM). -/
  | addi (e : Nat) (f : Fields)
  /-- ANDI (R186): rd = rs1 & sext(IMM). -/
  | andi (e : Nat) (f : Fields)
  /-- ORI (R186): rd = rs1 | sext(IMM). -/
  | ori (e : Nat) (f : Fields)
  /-- XORI (R186): rd = rs1 ^ sext(IMM). -/
  | xori (e : Nat) (f : Fields)
  /-- SLLI (R186): Left shift by IMM[5:0]. -/
  | slli (e : Nat) (f : Fields)
  /-- SRLI (R186): Logical right shift by IMM[5:0]. -/
  | srli (e : Nat) (f : Fields)
  /-- SRAI (R186): Arithmetic right shift by IMM[5:0]. -/
  | srai (e : Nat) (f : Fields)
  /-- SLTI (R186): Signed compare with sext(IMM). -/
  | slti (e : Nat) (f : Fields)
  /-- SLTIU (R186): Unsigned compare with sext(IMM). -/
  | sltiu (e : Nat) (f : Fields)
  /-- MOVHI (R186): Replaces the high 32 bits of rs1 with IMM. -/
  | movhi (e : Nat) (f : Fields)
  /-- BEQ (R187): Branches when rs1 = rs2. -/
  | beq (e : Nat) (f : Fields)
  /-- BNE (R187): Branches when rs1 ≠ rs2. -/
  | bne (e : Nat) (f : Fields)
  /-- BLT (R187): Branches on signed less-than. -/
  | blt (e : Nat) (f : Fields)
  /-- BGE (R187): Branches on signed greater-or-equal. -/
  | bge (e : Nat) (f : Fields)
  /-- BLTU (R187): Branches on unsigned less-than. -/
  | bltu (e : Nat) (f : Fields)
  /-- BGEU (R187): Branches on unsigned greater-or-equal. -/
  | bgeu (e : Nat) (f : Fields)
  /-- JMP (R187): Branches always. -/
  | jmp (e : Nat) (f : Fields)
  /-- DBNZ (R188): Decrements s[A] and branches when the result is non-zero. -/
  | dbnz (e : Nat) (f : Fields)
  /-- LM_LD_B (R189): Loads 1 byte from LM, sign-extended. -/
  | lmLdB (e : Nat) (f : Fields)
  /-- LM_LD_BU (R189): Loads 1 byte from LM, zero-extended. -/
  | lmLdBu (e : Nat) (f : Fields)
  /-- LM_LD_H (R189): Loads 2 bytes from LM, sign-extended. -/
  | lmLdH (e : Nat) (f : Fields)
  /-- LM_LD_HU (R189): Loads 2 bytes from LM, zero-extended. -/
  | lmLdHu (e : Nat) (f : Fields)
  /-- LM_LD_W (R189): Loads 4 bytes from LM, sign-extended. -/
  | lmLdW (e : Nat) (f : Fields)
  /-- LM_LD_WU (R189): Loads 4 bytes from LM, zero-extended. -/
  | lmLdWu (e : Nat) (f : Fields)
  /-- LM_LD_D (R189): Loads 8 bytes from LM. -/
  | lmLdD (e : Nat) (f : Fields)
  /-- LM_ST_B (R189): Stores the low byte to LM. -/
  | lmStB (e : Nat) (f : Fields)
  /-- LM_ST_H (R189): Stores the low 2 bytes to LM. -/
  | lmStH (e : Nat) (f : Fields)
  /-- LM_ST_W (R189): Stores the low 4 bytes to LM. -/
  | lmStW (e : Nat) (f : Fields)
  /-- LM_ST_D (R189): Stores 8 bytes to LM. -/
  | lmStD (e : Nat) (f : Fields)
  /-- LM_VLD (R189): Loads 512 bytes into a v register. -/
  | lmVld (e : Nat) (f : Fields)
  /-- LM_VST (R189): Stores a v register to LM. -/
  | lmVst (e : Nat) (f : Fields)
  /-- LM_VLD_BC (R189): Loads 4 bytes into every lane. -/
  | lmVldBc (e : Nat) (f : Fields)
  /-- LM_PLD (R189): Loads a predicate from 16 bytes. -/
  | lmPld (e : Nat) (f : Fields)
  /-- LM_PST (R189): Stores a predicate as 16 bytes. -/
  | lmPst (e : Nat) (f : Fields)
  /-- LM_CPY (R191): Copies s[C] bytes within LM in ascending order, 256 bytes at a time. -/
  | lmCpy (e : Nat) (f : Fields)
  /-- LM_FILL (R192): Fills s[C] bytes of LM with a repeated 64-bit value. -/
  | lmFill (e : Nat) (f : Fields)
  /-- XFER_LD (R194): Issues an asynchronous transfer from DV to LM, contiguous or shaped. -/
  | xferLd (e : Nat) (f : Fields)
  /-- XFER_ST (R194): Issues an asynchronous transfer from LM to DV, contiguous or shaped. -/
  | xferSt (e : Nat) (f : Fields)
  /-- COPY_ON_WRITE (R326): A write to a COW or KV page of another step copies the page into a reserved frame, updates the leaf and journal, and then lets the write proceed. -/
  | copyOnWrite (x : Access) (va : Nat)
  /-- XFER_COMPLETE (R138): An XFER completes when its data is in LM or accepted by the controllers, and its completion Cue Light is signalled. `e` as for cueWaitTimeout. -/
  | xferComplete (e : Nat)
  /-- XFER_FAULT (R156): An XFER meets a translation or permission fault, which stops issue as a deferred exception. `e` as for cueWaitTimeout. -/
  | xferFault (e : Nat)
  /-- MX_MUL (R202): Forms or accumulates A × Bᵀ in an accumulator with exact block dots and a fixed tree. -/
  | mxMul (e : Nat) (f : Fields)
  /-- MX_ZERO (R174): Sets the accumulators selected by MASK to +0.0. -/
  | mxZero (e : Nat) (f : Fields)
  /-- MX_DRAIN (R204): Converts accumulator rows to a format and writes them as a tile. -/
  | mxDrain (e : Nat) (f : Fields)
  /-- MX_FILL (R205): Loads accumulator rows from an FP32 tile. -/
  | mxFill (e : Nat) (f : Fields)
  /-- MX_ROWR (R206): Reads one accumulator row into a v register. -/
  | mxRowr (e : Nat) (f : Fields)
  /-- MX_ROWW (R206): Writes a v register into one accumulator row. -/
  | mxRoww (e : Nat) (f : Fields)
  /-- VADD (R207): Lane-wise addition on active lanes. -/
  | vadd (e : Nat) (f : Fields)
  /-- VSUB (R207): Lane-wise subtraction. -/
  | vsub (e : Nat) (f : Fields)
  /-- VMUL (R878): Lane-wise multiplication. -/
  | vmul (e : Nat) (f : Fields)
  /-- VFMA (R207): Fused multiply-add with one rounding, FP32. -/
  | vfma (e : Nat) (f : Fields)
  /-- VMAX (R275): Lane-wise maximum. -/
  | vmax (e : Nat) (f : Fields)
  /-- VMIN (R275): Lane-wise minimum. -/
  | vmin (e : Nat) (f : Fields)
  /-- VAND (R877): Lane-wise bitwise AND. -/
  | vand (e : Nat) (f : Fields)
  /-- VOR (R877): Lane-wise bitwise OR. -/
  | vor (e : Nat) (f : Fields)
  /-- VXOR (R877): Lane-wise bitwise XOR. -/
  | vxor (e : Nat) (f : Fields)
  /-- VSHL (R877): Lane-wise left shift. -/
  | vshl (e : Nat) (f : Fields)
  /-- VSHR (R877): Lane-wise right shift. -/
  | vshr (e : Nat) (f : Fields)
  /-- VEXP (R208): Applies exp_ref per lane. -/
  | vexp (e : Nat) (f : Fields)
  /-- VLOG (R208): Applies log_ref per lane. -/
  | vlog (e : Nat) (f : Fields)
  /-- VRCP (R208): Applies rcp_ref per lane. -/
  | vrcp (e : Nat) (f : Fields)
  /-- VRSQRT (R208): Applies rsqrt_ref per lane. -/
  | vrsqrt (e : Nat) (f : Fields)
  /-- VCMP (R209): Compares lanes into a predicate. -/
  | vcmp (e : Nat) (f : Fields)
  /-- VSEL (R207): Selects lanes by predicate. -/
  | vsel (e : Nat) (f : Fields)
  /-- VBC (R207): Broadcasts a scalar to every lane. -/
  | vbc (e : Nat) (f : Fields)
  /-- VLANE (R206): Extracts one lane into a scalar. -/
  | vlane (e : Nat) (f : Fields)
  /-- VCVT_DN (R210): Converts 128 FP32 lanes to a narrow format, packed. -/
  | vcvtDn (e : Nat) (f : Fields)
  /-- VCVT_UP (R210): Converts a packed narrow row to 128 FP32 lanes. -/
  | vcvtUp (e : Nat) (f : Fields)
  /-- VRSUM (R211): Tree-sums the active lanes into lane 0. -/
  | vrsum (e : Nat) (f : Fields)
  /-- VRMAX (R211): Reduces the active lanes by maximum into lane 0. -/
  | vrmax (e : Nat) (f : Fields)
  /-- VRMIN (R211): Reduces the active lanes by minimum into lane 0. -/
  | vrmin (e : Nat) (f : Fields)
  /-- PAND (R877): Predicate AND. -/
  | pand (e : Nat) (f : Fields)
  /-- POR (R877): Predicate OR. -/
  | por (e : Nat) (f : Fields)
  /-- PNOT (R877): Predicate NOT. -/
  | pnot (e : Nat) (f : Fields)
  /-- PFIRST (R877): Sets predicate lanes below s[B]. -/
  | pfirst (e : Nat) (f : Fields)
  /-- VPHILOX (R212): Computes Philox4x32-10 per group of four lanes. -/
  | vphilox (e : Nat) (f : Fields)
  /-- ATTN_SCORE (R217): Computes scaled masked scores into an accumulator, or marks it skipped for SUM 1. -/
  | attnScore (e : Nat) (f : Fields)
  /-- ATTN_SMAX (R219): Performs the online softmax update of the row maximum, row sum, P and output scaling. -/
  | attnSmax (e : Nat) (f : Fields)
  /-- ATTN_PV (R220): Adds P × V into the output accumulator. -/
  | attnPv (e : Nat) (f : Fields)
  /-- ATTN_FIN (R221): Normalises the output and forms the LSE. -/
  | attnFin (e : Nat) (f : Fields)
  /-- ATTN_RECOMP (R222): Recomputes the probabilities from the saved LSE. -/
  | attnRecomp (e : Nat) (f : Fields)
  /-- CUE_SIG (R141): Posts a SIG to a window Cue Light after earlier FL writes are visible. -/
  | cueSig (e : Nat) (f : Fields)
  /-- CUE_WAIT (R141): Waits until a Cue Light reaches a target count. -/
  | cueWait (e : Nat) (f : Fields)
  /-- CUE_WAITD (R141): Waits for a target count and subtracts it. -/
  | cueWaitd (e : Nat) (f : Fields)
  /-- CUE_SET (R141): Posts a SET of a Cue Light count, clearing OVF. -/
  | cueSet (e : Nat) (f : Fields)
  /-- CUE_READ (R141): Returns a Cue Light's OVF and count. -/
  | cueRead (e : Nat) (f : Fields)
  /-- CUE_WAIT_T (R226): Timed WAIT that reports a timeout in a predicate. -/
  | cueWaitT (e : Nat) (f : Fields)
  /-- CUE_WAITD_T (R226): Timed WAITD that reports a timeout in a predicate. -/
  | cueWaitdT (e : Nat) (f : Fields)
  /-- CUE_WAIT_MET (R142): A pending wait's condition is met in a bank cycle, and WAITDs are served in port order. -/
  | cueWaitMet (cl : Nat)
  /-- CUE_WAIT_TIMEOUT (R149): A wait's timeout expires, which raises CUE_TIMEOUT or, for .T, clears the predicate and sets CUE_TMO. `e` is an engine slot, or 64 plus a Stagehand slot. -/
  | cueWaitTimeout (e : Nat)
  /-- CUE_OVF (R144): The bank reports a program cue.sig saturation as a deferred exception. -/
  | cueOvf (e : Nat)
  /-- FLY_LD_W (R229): Loads 4 bytes from FL. -/
  | flyLdW (e : Nat) (f : Fields)
  /-- FLY_LD_D (R229): Loads 8 bytes from FL. -/
  | flyLdD (e : Nat) (f : Fields)
  /-- FLY_ST_W (R229): Stores 4 bytes to FL. -/
  | flyStW (e : Nat) (f : Fields)
  /-- FLY_ST_D (R229): Stores 8 bytes to FL. -/
  | flyStD (e : Nat) (f : Fields)
  /-- FLY_VLD (R229): Loads 512 bytes from FL into a v register. -/
  | flyVld (e : Nat) (f : Fields)
  /-- FLY_VST (R229): Stores a v register to FL. -/
  | flyVst (e : Nat) (f : Fields)
  /-- FLY_ADD (R230): Atomic add on a Flies location, returning the old value. -/
  | flyAdd (e : Nat) (f : Fields)
  /-- FLY_MAX (R230): Atomic unsigned maximum. -/
  | flyMax (e : Nat) (f : Fields)
  /-- FLY_MIN (R230): Atomic unsigned minimum. -/
  | flyMin (e : Nat) (f : Fields)
  /-- FLY_AND (R230): Atomic AND. -/
  | flyAnd (e : Nat) (f : Fields)
  /-- FLY_OR (R230): Atomic OR. -/
  | flyOr (e : Nat) (f : Fields)
  /-- FLY_XCHG (R230): Atomic exchange. -/
  | flyXchg (e : Nat) (f : Fields)
  /-- FLY_CAS (R230): Atomic compare-and-swap. -/
  | flyCas (e : Nat) (f : Fields)
  /-- FLAT_TEST_RESTORE (R724): An access to a flat under test triggers a restore from the copy, completed within 0.5 µs, after which the access proceeds. -/
  | flatTestRestore (flat : Nat)
  /-- SYS_RDST (R232): Reads a status register. -/
  | sysRdst (e : Nat) (f : Fields)
  /-- SYS_WRST (R233): Writes st.round or clears st.flags bits. -/
  | sysWrst (e : Nat) (f : Fields)
  /-- SYS_TRAP (R154): Raises TRAP with a code. -/
  | sysTrap (e : Nat) (f : Fields)
  /-- SYS_HCALL (R234): Posts a 64-byte helper job descriptor to one of the engine's helpers. -/
  | sysHcall (e : Nat) (f : Fields)
  /-- HELPER_JOB_START (R167): A Stagehand starts a queued helper job in the posting entry's partition and windows, after clearing on a partition change. -/
  | helperJobStart (sh : Nat)
  /-- HELPER_JOB_COMPLETE (R165): A helper job completes and signals its completion Cue Light. -/
  | helperJobComplete (sh : Nat)
  /-- HELPER_FAULT (R171): A helper trap or unrunnable job raises a deferred HELPER_FAULT in the posting entry. -/
  | helperFault (sh : Nat)
  /-- ZSH_CSIG (R172): Stagehand SIG on a window Cue Light. -/
  | zshCsig (sh : Nat) (rs1 rs2 : BitVec 5)
  /-- ZSH_CWAIT (R172): Stagehand WAIT with timeout. -/
  | zshCwait (sh : Nat) (rd rs1 rs2 : BitVec 5)
  /-- ZSH_CWAITD (R172): Stagehand WAITD with timeout. -/
  | zshCwaitd (sh : Nat) (rd rs1 rs2 : BitVec 5)
  /-- ZSH_CSET (R172): Stagehand SET of a Cue Light. -/
  | zshCset (sh : Nat) (rs1 rs2 : BitVec 5)
  /-- ZSH_FLADD (R172): Stagehand 64-bit Flies atomic add. -/
  | zshFladd (sh : Nat) (rd rs1 rs2 : BitVec 5)
  /-- ZSH_FLCAS (R172): Stagehand 64-bit Flies compare-and-swap. -/
  | zshFlcas (sh : Nat) (rd rs1 rs2 : BitVec 5)
  /-- ZSH_XFER (R172): Stagehand DMA between DV and local memory. -/
  | zshXfer (sh : Nat) (rs1 rs2 : BitVec 5)
  /-- ZSH_MXPACK (R172): Packs 32 FP32 elements into an MX block. -/
  | zshMxpack (sh : Nat) (vd vs2 vs1 : BitVec 5)
  /-- ZSH_MXUNPACK (R172): Unpacks an MX block into FP32. -/
  | zshMxunpack (sh : Nat) (vd vs2 vs1 : BitVec 5)
  /-- ZSH_PHILOX (R172): Philox4x32-10 per 128-bit element group. -/
  | zshPhilox (sh : Nat) (vd vs2 vs1 : BitVec 5)
  /-- ZSH_CTX (R172): Reads the job's context tag. -/
  | zshCtx (sh : Nat) (rd : BitVec 5)
  /-- SAMPLER_JOB_START (R429): A Sampler job becomes ready when WAIT_CL reaches WAIT_CNT, takes that count with WAITD, and starts. -/
  | samplerJobStart (cluster : Nat)
  /-- SAMPLER_JOB_COMPLETE (R436): A Sampler job writes every row's result and signals DONE_CL. -/
  | samplerJobComplete (cluster : Nat)
  /-- STEP_COMMIT (R438): A commit group whose entries and jobs have all completed commits: the record is written and the tokens, logs, counts, result and state are updated. -/
  | stepCommit (part : Nat) (stepId : BitVec 16)
  /-- CARRY_LIMIT (R78): A request cut CARRY_LIMIT times in succession ends FAILED with ST_CARRIED. -/
  | carryLimit (req : Nat)
  /-- SUBMIT (R392): Admits a request after the checks, taking the lowest free index, filling the token log and the count table. -/
  | submit (c : Cmd) (d : ReqDesc)
  /-- PREFIX_WALK (R403): A Prefix Walker matches prompt chunks, raises the page counts, and the matched pages are mapped. -/
  | prefixWalk (req : Nat)
  /-- CANCEL (R441): Prevents an uncommitted step and ends the request DONE with ST_FW_CANCELLED once no step runs. -/
  | cancel (c : Cmd)
  /-- PAUSE (R390): Moves a request to PAUSED once no step of it is planned or running. -/
  | pause (c : Cmd)
  /-- RESUME (R390): Moves a PAUSED request to PREFILL or DECODE. -/
  | resume (c : Cmd)
  /-- APPEND (R390): Appends tokens to a PAUSED request's log and resumes it in PREFILL. -/
  | append (c : Cmd)
  /-- QUERY (R390): Returns a request's state, status, LEN and EMITTED. -/
  | query (c : Cmd)
  /-- PROG_LOAD (R123): Validates a program image and copies it into firmware memory. -/
  | progLoad (c : Cmd)
  /-- PROG_UNLOAD (R130): Unloads an image and replies once no Running Order refers to it. -/
  | progUnload (c : Cmd)
  /-- WALKON_REG (R65): Registers a Walk-on slot program with its templates and KV reservation. -/
  | walkonReg (c : Cmd)
  /-- WALKON_UNREG (R390): Unregisters a Walk-on slot at the next Beat edge. -/
  | walkonUnreg (c : Cmd)
  /-- WALKON_RESERVATION_REFILL (R880): After a Walk-on step ends, the slot's frame reservation is refilled, and the slot serves once it is whole. -/
  | walkonReservationRefill (slot : Nat)
  /-- MASK_REG (R358): Registers a mask object, canonicalising summary tiles. -/
  | maskReg (c : Cmd)
  /-- MASK_UNREG (R390): Unregisters a mask, replying once no frozen Running Order refers to it. -/
  | maskUnreg (c : Cmd)
  /-- MEM_MAP (R390): Maps zeroed fresh frames over an unmapped general range. -/
  | memMap (c : Cmd)
  /-- MEM_UNMAP (R337): Unmaps a range by an epoch command and replies on its completion. -/
  | memUnmap (c : Cmd)
  /-- MEM_PROTECT (R337): Changes range permissions by an epoch command. -/
  | memProtect (c : Cmd)
  /-- EPOCH_COMPLETE (R339): An epoch command completes once every old-epoch access of its space has completed. -/
  | epochComplete (space : Nat)
  /-- VARIANT_LOAD (R884): Loads a variant record and returns the variant number. -/
  | variantLoad (c : Cmd) (r : VariantRec)
  /-- VARIANT_UNLOAD (R415): Refuses new SUBMITs for the variant and replies once it is unused, removing its tree nodes. -/
  | variantUnload (c : Cmd)
  /-- EXPERT_PUBLISH (R419): Replaces the served private expert weights from the freeze for the named Beat. -/
  | expertPublish (c : Cmd)
  /-- TREE_FLUSH (R390): Removes every tree node of the partition at the next edge. -/
  | treeFlush (c : Cmd)
  /-- TREE_UPDATE (R404): Queued tree insertions and adoptions are applied once no walk is in progress, evicting leaves as needed. -/
  | treeUpdate (part : Nat)
  /-- SPREAD_REG (R370): Registers a head-spread set. -/
  | spreadReg (c : Cmd) (r : SpreadRec)
  /-- SPREAD_UNREG (R390): Unregisters a head-spread set once no request of it is live. -/
  | spreadUnreg (c : Cmd)
  /-- TRAIN_SUBMIT (R417): Queues fine-tuning of a variant's private experts. -/
  | trainSubmit (c : Cmd)
  /-- COLLECTIVE (R373): A sealed head-output contribution from a member is accepted and placed in rank order. -/
  | collective (m : Sealed)
  /-- ABORT (R380): A received ABORT ends the request with ST_PEER_TIMEOUT at the end of the step in progress. -/
  | abort (m : Sealed)
  /-- CALL_BOARD_BAD_WRITE (R453): A Call Board write to any word other than slot word 0 has no effect and counts in BAD_WR. -/
  | callBoardBadWrite (addr : Nat) (w : Word)
  /-- BEAT_LO_READ (R457): A read of Call Board word 0x004 latches word 0x005 for that reader. -/
  | beatLoRead (mirror : Bool)
  /-- CURTAIN_N_FALL (R474): CURTAIN_N held low for at least 100 ns closes every gate within 0.5 µs. -/
  | curtainNFall (lowNs : Nat)
  /-- CURTAIN_N_RISE (R475): With the last closing condition ended, the gates open within 1.0 µs and release held results in order. -/
  | curtainNRise
  /-- RESULT_AT_GATE (R886): A result reaches its gate and starts sending, is held under HOLD, or is dropped under DROP. -/
  | resultAtGate (id : Nat)
  /-- RESULT_PASSED (R886): The last bit of a result leaves its gate, and PASSED is recorded. -/
  | resultPassed (id : Nat)
  /-- HELD_RESULT_EXPIRE (R480): A held result is dropped at the 64th Beat edge after it reached its gate. -/
  | heldResultExpire (id : Nat)
  /-- STREAM_OPEN (R498): Opens a video stream after the checks and returns its number. -/
  | streamOpen (c : Cmd) (d : OpenDesc)
  /-- STREAM_CLOSE (R499): Moves a stream to DRAINING. -/
  | streamClose (c : Cmd)
  /-- STREAM_CLOSED (R499): A DRAINING stream closes after its frame in progress and its last bound Beat end. -/
  | streamClosed (stream : Nat)
  /-- GROUP_SET (R519): Forms an aligned group from up to 8 streams, effective at the next binding point. -/
  | groupSet (c : Cmd)
  /-- GROUP_ATTACH (R527): Attaches or detaches a request as a consumer of a group. -/
  | groupAttach (c : Cmd)
  /-- KEY_REQ (R531): Makes the next source frame of an encode stream an IDR picture, or starts a GDR wave. -/
  | keyReq (c : Cmd)
  /-- STREAM_QUERY (R496): Returns a stream's state, NEED_KEY, newest frame and STALE_BEATS. -/
  | streamQuery (c : Cmd)
  /-- VIDEO_AU (R503): A decrypted compressed payload is accepted into its stream or discarded. -/
  | videoAu (au : AccessUnit)
  /-- FRAME_DECODE_START (R507): An idle video engine takes the pending frame by the scheduling mode and loads the stream context. -/
  | frameDecodeStart (k : Nat)
  /-- FRAME_DECODE_DONE (R511): A good decoded frame becomes a model-input tile, or a bad frame frees its buffer, with the stream state updated. -/
  | frameDecodeDone (k : Nat) (r : Decoded)
  /-- BIND_POINT (R513): BIND_LEAD_US before the edge, the core fixes each group's frames for the Beat, marking late members stale and setting OMIT. -/
  | bindPoint
  /-- BIND_READY (R514): Once the record is visible and the bound tiles are complete, the ready Cue Light is set to 1. -/
  | bindReady (group : Nat)
  /-- ENCODE_FRAME_START (R528): After a WAITD on the source Cue Light, the core takes the source frame and signals the done Cue Light once it has been read. -/
  | encodeFrameStart (k : Nat) (stream : Nat)
  /-- ENCODE_RESULT (R529): An encoded slice or frame becomes a result with a per-stream sequence number. -/
  | encodeResult (k : Nat) (bytes : List Byte) (lastSlice : Bool)
  /-- VIDEO_ENGINE_FAIL (R510): The spare takes over a failed video engine, and its frame is processed again. -/
  | videoEngineFail (k : Nat)
  /-- SQ_TAIL_WRITE (R553): A host write of TAIL makes SQ entries available, or sets ERR when out of range. -/
  | sqTailWrite (fn k : Nat) (tail : Word)
  /-- CQ_HEAD_WRITE (R554): A host write of HEAD frees CQ entries, or sets ERR. -/
  | cqHeadWrite (fn k : Nat) (head : Word)
  /-- QUEUE_PAIR_DISABLE (R556): A clear of EN stops the queue pair within 10 µs. -/
  | queuePairDisable (fn k : Nat)
  /-- QUEUE_PAIR_ENABLE (R556): A set of EN resets the heads, tails and PHASE and clears ERR. -/
  | queuePairEnable (fn k : Nat)
  /-- SQ_FETCH (R547): The device fetches and acts on the next available SQ entry while the wait queue holds fewer than 128 events. -/
  | sqFetch (fn k : Nat) (x : SqEntry) (m : Sealed)
  /-- DATA (R575): A DATA message writes its payload at its DV address. -/
  | data (part : Nat) (plain : List Byte)
  /-- RXBUF (R549): The host posts a receive buffer for outbound messages. -/
  | rxbuf (fn k : Nat) (x : SqEntry)
  /-- OUTBOUND_EVENT (R557): A reply or result enters the wait queue and proceeds once RXBUFs and a CQ entry are available, or is dropped when full. -/
  | outboundEvent (fn k : Nat)
  /-- MSIX_COALESCE (R566): A CQ signals its vector when CNT entries accumulate or US µs pass. -/
  | msixCoalesce (fn k : Nat)
  /-- FUNCTION_LEVEL_RESET (R567): An FLR, hot reset or link down disables the function's queue pairs within 100 ms and drops their wait queues. -/
  | functionLevelReset (fn : Nat)
  /-- PERST_N_ASSERT (R695): PERST_N resets only the PCIe endpoint, as a link down. -/
  | perstNAssert
  /-- PERST_N_RELEASE (R854): The endpoint begins link training within 20 ms. -/
  | perstNRelease
  /-- BAR2_SIG (R539): A 4-byte BAR2 write at byte 0 SIGs a Cue Light after earlier BAR4 writes are visible, or is denied outside the grants. -/
  | bar2Sig (fn : Nat) (cl : Nat) (v : Word)
  /-- BAR2_SET (R539): A 4-byte BAR2 write at byte 4 SETs a Cue Light. -/
  | bar2Set (fn : Nat) (cl : Nat) (v : Word)
  /-- BAR4_READ (R542): An aperture read is translated through the partition's tables, returning all ones on a fault. -/
  | bar4Read (part : Nat) (off : Nat) (len : Nat)
  /-- BAR4_WRITE (R544): An aperture write is translated and merged, or discarded and counted on a fault. -/
  | bar4Write (part : Nat) (off : Nat) (bytes : List Byte)
  /-- ROCE_SEND (R571): An inbound RoCEv2 SEND carrying one sealed message is accepted, or RNR NAKed without a buffer. -/
  | roceSend (qpn : Nat) (m : Sealed)
  /-- ROCE_UNSUPPORTED_OP (R570): RDMA WRITE, READ or atomic requests are answered with a remote access error NAK. -/
  | roceUnsupportedOp (qpn : Nat)
  /-- RQP_CREATE (R572): Creates a RoCE queue pair from the context registers. -/
  | rqpCreate (fn : Nat)
  /-- RQP_DESTROY (R572): Destroys a RoCE queue pair. -/
  | rqpDestroy (fn : Nat) (qpn : Nat)
  /-- SPARE_PORT (R581): Starts takeover of a port role by N4, or releases it. -/
  | sparePort (m : Mgmt) (role : Nat)
  /-- SPARE_TAKEOVER_DONE (R582): N4 finishes training, takes the role's addresses and queue pairs, and retransmits. -/
  | spareTakeoverDone
  /-- HOUSE_FRAME (R587): A received House frame is checked and discarded or passed to its class. -/
  | houseFrame (port : Nat) (f : HouseFrame)
  /-- KEY_PUT_PART (R609): Installs a partition memory key in every controller. -/
  | keyPutPart (m : Mgmt) (key : BitVec 512)
  /-- KEY_DROP_PART (R611): At the edge after the next freeze, fails the partition's requests, resets it and clears its key slot. -/
  | keyDropPart (m : Mgmt)
  /-- KEY_PUT_JOB (R613): Installs a new job key epoch, keeping the previous one. -/
  | keyPutJob (m : Mgmt) (job : DWord) (epoch : Word) (key : BitVec 256)
  /-- KEY_DROP_JOB (R616): Stops inbound acceptance, and fails the job's requests at the next edge. -/
  | keyDropJob (m : Mgmt) (job : DWord)
  /-- JOB_KEY_ERASE (R616): A dropped job key is erased once every result committed before the edge has left or been dropped. -/
  | jobKeyErase (job : DWord)
  /-- KEY_LIST (R607): Lists jobs and their newest epochs. -/
  | keyList (m : Mgmt) (start : Nat)
  /-- APERTURE (R543): Writes NET_Pn_APERTURE.EN. -/
  | aperture (m : Mgmt) (en : Bool)
  /-- PERF_CONSENT (R626): Writes the partition's performance-monitor consent. -/
  | perfConsent (m : Mgmt) (consent : Bool)
  /-- ACCT_GET (R624): Returns the partition's coarsened line of a closed billing record. -/
  | acctGet (m : Mgmt) (period : Nat)
  /-- CLAIM (R603): Fuses the requester's root hash into the next claim slot. -/
  | claim (m : Mgmt)
  /-- RELEASE (R607): Revokes the active claim slot. -/
  | release (m : Mgmt)
  /-- PART_ENABLE (R245): Enables a partition with a tenant binding, or refuses it when the Flies pool is short. -/
  | partEnable (m : Mgmt) (part : Nat) (rootHash : Digest)
  /-- PART_DISABLE (R617): Disables a partition, failing its requests and erasing its keys and grants. -/
  | partDisable (m : Mgmt) (part : Nat)
  /-- GRANT (R607): Sets the shared-slot and PRIVILEGED_VIDEO grants. -/
  | grant (m : Mgmt) (part : Nat) (share : BitVec 4) (privVideo : Bool)
  /-- KEY_PUT_SHARED (R608): Installs a shared key slot. -/
  | keyPutShared (m : Mgmt) (slot : Nat) (key : BitVec 512)
  /-- KEY_PUT_HOUSE (R608): Installs the House key. -/
  | keyPutHouse (m : Mgmt) (key : BitVec 384)
  /-- DEBUG_UNLOCK (R629): Returns a nonce, or opens the debug port after erasing keys and resetting. -/
  | debugUnlock (m : Mgmt) (token : Option (DWord × Bool))
  /-- CAP_SET (R87): Sets the power cap, effective for the next freeze. -/
  | capSet (m : Mgmt) (watts : Nat)
  /-- CURTAIN (R885): Applies or ends the management close of the gates. -/
  | curtain (m : Mgmt) (close : Bool)
  /-- CURTAIN_POLICY (R478): Sets the HOLD mask, effective at the next edge. -/
  | curtainPolicy (m : Mgmt) (hold : Byte)
  /-- ACCT_RESEND (R607): Resends a billing period's ACCOUNTING frame. -/
  | acctResend (m : Mgmt) (period : Nat)
  /-- GET_VERSION (R600): SPDM version request answered. -/
  | getVersion (p : SpdmPort)
  /-- GET_CAPABILITIES (R600): SPDM capabilities request answered. -/
  | getCapabilities (p : SpdmPort)
  /-- NEGOTIATE_ALGORITHMS (R600): SPDM algorithm negotiation answered. -/
  | negotiateAlgorithms (p : SpdmPort) (ok : Bool)
  /-- GET_DIGESTS (R599): Returns certificate chain digests. -/
  | getDigests (p : SpdmPort)
  /-- GET_CERTIFICATE (R599): Returns the certificate chain. -/
  | getCertificate (p : SpdmPort)
  /-- CHALLENGE (R600): SPDM challenge signed by the alias key. -/
  | challenge (p : SpdmPort) (nonce : BitVec 256)
  /-- GET_MEASUREMENTS (R604): Returns measurements allowed by the session's role. -/
  | getMeasurements (p : SpdmPort) (session : Option Nat) (index : Nat)
  /-- KEY_EXCHANGE (R603): Starts a session requesting mutual authentication, or answers Busy. -/
  | keyExchange (p : SpdmPort)
  /-- FINISH (R603): Verifies the requester and gives the session its role. -/
  | finish (session : Nat) (chainOk sigOk : Bool) (rootHash : Digest)
  /-- SPDM_HEARTBEAT (R600): SPDM session heartbeat. -/
  | spdmHeartbeat (session : Nat)
  /-- KEY_UPDATE (R600): SPDM session key update. -/
  | keyUpdate (session : Nat)
  /-- END_SESSION (R600): Ends an SPDM session. -/
  | endSession (session : Nat)
  /-- GET_ENCAPSULATED_REQUEST (R600): Encapsulated request flow for mutual authentication. -/
  | getEncapsulatedRequest (session : Nat)
  /-- DELIVER_ENCAPSULATED_RESPONSE (R600): Delivers an encapsulated response for mutual authentication. -/
  | deliverEncapsulatedResponse (session : Nat) (chainOk : Bool)
  /-- PAIR_JOIN (R633): Starts resynchronisation after checking the join conditions. -/
  | pairJoin (m : Mgmt)
  /-- PAIR_SWAP (R659): Schedules a role swap at Beat B + 1. -/
  | pairSwap (m : Mgmt) (beat : DWord)
  /-- PAIR_LEAVE (R663): Stands the module down with reason 6. -/
  | pairLeave (m : Mgmt)
  /-- PAIR_ROLL (R663): Writes PAIR_CTRL.ROLL. -/
  | pairRoll (m : Mgmt) (roll : Bool)
  /-- HEARTBEAT_SEND (R642): Every 100 µs the module sends a heartbeat on the link and both management ports. -/
  | heartbeatSend
  /-- HEARTBEAT (R645): A partner heartbeat is received, and a returning split is resolved by stand-down. -/
  | heartbeat (onLink : Bool) (h : PairHdr) (b : HbBody)
  /-- PATH_SILENT (R643): A path has no heartbeat for 300 µs, which sets ALARM, or with both paths silent the partner is declared failed. -/
  | pathSilent (link : Bool)
  /-- ORDER (R637): The Understudy receives the Lead's Running Order and publishes it with its own flats. -/
  | order (h : PairHdr) (o : Order)
  /-- ORDER_DEADLINE (R637): At 150 µs after The Half with no order, the Understudy publishes its shadow order or enters RESYNC. -/
  | orderDeadline (shadow : Order)
  /-- INPUT (R638): The Understudy applies inbound messages in the Lead's INPUT order. -/
  | input (h : PairHdr) (job : DWord) (kind : Byte) (stream : Byte) (seq : DWord) (beat : DWord)
  /-- VERDICT (R640): The Understudy commits or discards a completed step on the Lead's verdict. -/
  | verdict (h : PairHdr) (stepId : BitVec 16) (req : BitVec 16) (commit : Bool) (beat : DWord)
  /-- BIND (R517): The Understudy uses the Lead's video binding. -/
  | bind (h : PairHdr) (beat : DWord) (frames : List (Nat × Nat))
  /-- PAIR_WALKON (R639): The Understudy runs a forwarded Walk-on with the Lead's dispatch Beat. -/
  | pairWalkon (h : PairHdr) (slot : Nat) (req : BitVec 14) (arg : BitVec 16) (beat : DWord)
  /-- DIGEST_SEND (R648): Within 500 µs of the edge, the module sends its Beat digest on the link and as a House frame. -/
  | digestSend
  /-- DIGEST (R649): A partner digest is compared, and on mismatch the gates close and the self-check is planned, or rehearsal progresses or ends. -/
  | digest (h : PairHdr) (b : DigestBody)
  /-- FETCH (R638): The Lead resends a missing inbound message to the Understudy. -/
  | fetch (h : PairHdr) (job : DWord) (kind : Byte) (seq : DWord)
  /-- STATE (R653): The joining module receives a state transfer chunk or a cutover notice. -/
  | state (h : PairHdr) (x : StateChunk)
  /-- RESYNC_ROUND (R653): A resync round ends, and the partner sends the dirtied pages or names the cutover Beat. -/
  | resyncRound
  /-- CONFIG (R662): A partner configuration record is received and compared. -/
  | config (h : PairHdr) (r : ConfigMsg)
  /-- SWAP (R659): The Understudy receives the Lead's role-swap Beat. -/
  | swap (h : PairHdr) (beat : DWord)
  /-- LOG_RECORD_WRITE (R669): The log writer completes a fault record from the FIFO, carrying the lost counts. -/
  | logRecordWrite
  /-- FAULT_LOG_IDX_WRITE (R669): Copies one log slot into the data window. -/
  | faultLogIdxWrite (fn : Nat) (v : Word)
  /-- WATCHDOG_RESET (R678): A unit that leaves a probe unanswered for 8 µs is reset. -/
  | watchdogReset (unit : UnitRef)
  /-- SM_TAKEOVER (R680): On a lockstep mismatch or watchdog expiry, the cold spare Stage Manager pair takes over within 35 µs. -/
  | smTakeover
  /-- UNIT_RESET_DONE (R686): A reset unit passes its check and returns to service, or escalates to retirement. -/
  | unitResetDone (unit : UnitRef) (pass : Bool)
  /-- CLUSTER_SWITCH_UE (R686): An uncorrectable error in a cluster switch or translation cache starts a cluster reset. -/
  | clusterSwitchUe (c : Nat)
  /-- CLUSTER_RESET_DONE (R686): A reset cluster passes its check and returns to service, or is fenced. -/
  | clusterResetDone (c : Nat) (pass : Bool)
  /-- CLUSTER_RESET_TIMEOUT (R696): A cluster not back within 40 µs is fenced. -/
  | clusterResetTimeout (c : Nat)
  /-- PART_RESET (R702): Fails a partition's requests, and resets the partition at the edge after the next freeze. -/
  | partReset (m : Mgmt) (part : Nat)
  /-- PARTITION_DRAIN_TIMEOUT (R696): A partition drain that has not completed in 20 µs causes a device reset. -/
  | partitionDrainTimeout (part : Nat)
  /-- DEVICE_RESET (R694): Resets the main domain, dropping held results, keys and requests. -/
  | deviceReset (m : Mgmt)
  /-- DARK_CLEAR (R701): Empties the escalation windows and starts a cold bring-up. -/
  | darkClear (m : Mgmt)
  /-- SAMPLE_COPY (R702): Copies a sealed sample into tenant memory. -/
  | sampleCopy (m : Mgmt) (sampleNo : Nat) (addr : Nat)
  /-- BIST_SLICE_START (R715): A planned or background slice starts when its unit is in window and its credit suffices. -/
  | bistSliceStart (x : Slice)
  /-- BIST_SLICE_END (R731): A slice ends, its unit is cleared and returned, and its result record is written. -/
  | bistSliceEnd (unit : UnitRef) (pass : Bool) (durNs : Nat) (detail : Word)
  /-- BIST_SLICE_ABORT (R726): A slice is aborted and its unit restored within 2 µs on a service, limit, edge or reset trigger. -/
  | bistSliceAbort (unit : UnitRef) (t : AbortTrigger)
  /-- BIST_RES_IDX_WRITE (R731): Copies one result ring slot into the data window. -/
  | bistResIdxWrite (fn : Nat) (v : Word)
  /-- STANDBY_POWER_ON (R736): 12 V standby applied: the RoT ROM starts and the bring-up sequence begins. -/
  | standbyPowerOn
  /-- SLOT_ID_SAMPLE (R839): SLOT_ID[4:0] is sampled 10 ms after standby becomes valid. -/
  | slotIdSample (pins : BitVec 5)
  /-- START_SEQUENCE (R736): The main-domain start runs verification, die test, training, memory test, fitting, broadcast, known-answer run and calibration. -/
  | startSequence (r : StartResults)
  /-- START_RETRY (R740): 10 s after a failed start, the RoT begins a new start. -/
  | startRetry
  /-- SPARE_FIT_DONE (R753): An in-service spare passes its known-answer run, the record is persisted, and it serves from the next edge. -/
  | spareFitDone (unit : UnitRef) (pass : Bool)
  /-- COLD_NEXT (R781): Forces the next start to be cold. -/
  | coldNext (m : Mgmt)
  /-- USB_STICK_INSERT (R790): The RoT reads a stick and checks the container header. -/
  | usbStickInsert (x : Stick)
  /-- USB_OVERCURRENT (R863): The port removes power until the device is unplugged. -/
  | usbOvercurrent
  /-- CONTAINER_STAGED (R793): Parts are copied and verified into the inactive slot, which becomes STAGED or EMPTY, and automatic activation follows. -/
  | containerStaged (partsOk slotOk : Bool)
  /-- UPDATE_ACTIVATE (R808): Activates the staged slot, live from Beat b or by restart. -/
  | updateActivate (m : Mgmt) (beat : DWord)
  /-- UPDATE_CONFIRM (R804): Confirms the trial slot and raises the fused minimum versions. -/
  | updateConfirm (m : Mgmt)
  /-- UPDATE_REVERT (R805): Falls back from TRIAL, or empties a STAGED slot. -/
  | updateRevert (m : Mgmt)
  /-- TRIAL_WINDOW_EXPIRE (R805): The trial window ends without confirmation, and the RoT falls back to the other slot. -/
  | trialWindowExpire
  /-- RAIL_SAMPLE (R813): Every 10 µs each rail meter takes an average power sample. Of each rail: its power in deciwatts, and whether it lies
  within ±3 % of its set point (R712). -/
  | railSample (us : Nat) (rails : List (Nat × Bool))
  /-- PEAK_GUARD_STEP (R816): Every 100 µs while the average stays above 850 W, engines step down again. -/
  | peakGuardStep
  /-- SENSOR_READ (R822): A die or stack sensor read above its threshold steps that unit down or raises the stack level. -/
  | sensorRead (x : Sensor) (tempC : Int)
  /-- AIR_SENSOR_READ (R820): Every 100 ms the inlet and outlet air are read, and a high inlet sets INLET_HIGH. -/
  | airSensorRead (inlet outlet : Int)
  /-- SHUTDOWN_RESTART (R831): No sooner than 60 s after a shutdown, with inlet at or below 45 °C, the main domain starts again. -/
  | shutdownRestart
  /-- SCRUB_READ (R305): The controllers read each in-service granule once per SCRUB_H hours. -/
  | scrubRead (granule : Nat)
  /-- REFRESH (R301): Each controller refreshes its stack at the JEDEC interval for its temperature. -/
  | refresh (stack : Nat)
  /-- STACK_TEMP_READ (R300): The stack temperature is read every 1 ms. -/
  | stackTempRead (stack : Nat) (tempC : Int)
  /-- HEAD_COUNT_REFRESH (R347): Every 32 fabric cycles each source port refreshes its head count per controller. -/
  | headCountRefresh (port : Nat) (counts : List Nat)
  /-- HBM_RETRAIN_REQ (R306): A host request for migration of a pseudo-channel. -/
  | hbmRetrainReq (fn : Nat) (v : Word)
  /-- MIGRATION_START (R307): A triggered migration starts copying rows once its stack and the two-stack limit allow. -/
  | migrationStart (stack : Nat)
  /-- MIGRATION_SWITCH (R310): After the last row is copied, the logical channel points at the spare. -/
  | migrationSwitch (stack : Nat)
  /-- RETRAIN_DONE (R311): The source finishes retraining and becomes a spare or is retired, retiring its logical channel when in service. -/
  | retrainDone (stack pc : Nat) (ok : Bool)
  /-- PWR_EN_LOW (R851): PWR_EN low for 10 µs causes a device reset with the regulators off. -/
  | pwrEnLow (lowUs : Nat)
  /-- PWR_EN_HIGH (R737): PWR_EN rises, allowing the main regulators to be enabled. -/
  | pwrEnHigh
  /-- BULK_UNDERVOLTAGE (R859): The bulk falling below 40.0 V turns the regulators off with a reset. -/
  | bulkUndervoltage
  /-- INPUT_RESTORED (R859): After the input has been in range for 100 ms with PWR_EN high, a start begins. -/
  | inputRestored
  /-- STANDBY_LOSS (R608): Loss of 12 V standby erases keys, the event log and billing sums. -/
  | standbyLoss
  /-- REGISTER_WRITE (R6): A write to a register field that has no row of its own acts under its access code and range rules. -/
  | registerWrite (fn : Nat) (addr : Nat) (wide : Bool) (v : DWord)
  /-- BLOCK_LOCK (R9): A write of 1 to a block's LOCK bit locks its RWL fields until a reset. -/
  | blockLock (fn : Nat) (addr : Nat)
  /-- RC_READ (R11): A read of an RC counter returns it and clears it. -/
  | rcRead (fn : Nat) (addr : Nat)
  /-- LO_WORD_READ (R872): A read of a LO word latches the HI word for that function. -/
  | loWordRead (fn : Nat) (addr : Nat)
  /-- BEAT_PERIOD_WRITE (R34): A write of a new period sets PERIOD_PENDING until the edge after the next The Half. -/
  | beatPeriodWrite (fn : Nat) (v : Word)
  /-- BEAT_FREEZE_WRITE (R46): A write of FREEZE_LEAD is pending until the edge after the next The Half. -/
  | beatFreezeWrite (fn : Nat) (v : Word)
  /-- ENERGY_BILL_BEATS_WRITE (R99): A new billing period length applies from the next billing boundary. -/
  | energyBillBeatsWrite (fn : Nat) (v : Word)
  /-- GUARANTEE_WRITE (R245): A guarantee write is accepted, or refused when it would exceed the pool, setting REFUSED. -/
  | guaranteeWrite (fn : Nat) (part : Nat) (v : Word)
  /-- SERVE_LIMIT_WRITE (R448): A REQ_MAX or TREE_MAX write is refused when the sums would exceed the limits. -/
  | serveLimitWrite (fn : Nat) (addr : Nat) (v : Word)
  /-- STAGEHAND_INSTRUCTION (R160): A Stagehand executes one RV64GC or Vector 1.0 instruction of a helper program or its runtime. -/
  | stagehandInstruction (sh : Nat) (w : Word)
  /-- PARTITION_RESET_DONE (R686): A partition reset finishes its drain and clear within 30 µs, after which the RoT returns frames and clears the key slot for KEY_DROP_PART. -/
  | partitionResetDone (part : Nat)
  /-- RESEND_REQUEST (R377): A head-spread member receives a peer's request to resend a step's contributions and resends them. -/
  | resendRequest (setId : Word) (req : Nat) (step : Nat) (rank : Nat)
  /-- RETRAIN_DAYS_ELAPSED (R306): RETRAIN_DAYS days pass since a pseudo-channel's last training, which triggers its migration. -/
  | retrainDaysElapsed (stack pc : Nat)
  /-- PORT_LINK_CHANGE (R583): An Ethernet port's link comes up or goes down or the port fails, updating LINK and service state and MODE DEGRADED. -/
  | portLinkChange (port : Nat) (up failed : Bool)
  /-- USB_STICK_REMOVE (R791): The stick is removed, which aborts a read in progress leaving the slot EMPTY, and restores port power after an overcurrent trip. -/
  | usbStickRemove
  /-- ROT_WATCHDOG (R806): The RoT watchdog expires and resets the RoT domain, clearing LOCK bits and keys, closing debug and counting a trial boot. -/
  | rotWatchdog
  /-- P54_OUT_OF_RANGE (R856): The 54 V input leaves its operating range or exceeds 60.0 V, driving ALERT_N and turning the regulators off above 60.0 V. -/
  | p54OutOfRange (milliVolt : Nat)
  /-- MAIN_RAIL_EXCURSION (R852): A main rail leaves ±5 % of its set point, and PWR_GOOD is pulled low within 5 µs. -/
  | mainRailExcursion (rail : Nat)
  /-- ROCE_ACK (R582): A RoCEv2 ACK or NAK for an outbound SEND arrives and advances or rewinds the queue pair's acknowledged PSN. -/
  | roceAck (qpn : Nat) (psn : BitVec 24) (nak : Bool)
  /-- CNP_RECEIVED (R569): A congestion notification packet arrives and reduces the queue pair's sending rate. -/
  | cnpReceived (qpn : Nat)
  /-- PRIORITY_FLOW_CONTROL (R569): An IEEE 802.1Qbb pause frame for the RoCE priority arrives and pauses or resumes sending on the port. -/
  | priorityFlowControl (port : Nat) (pause : Bool)
deriving DecidableEq, Repr

end Sys2Proof
end

