-- ==== Sys2Proof/WellFormed.lean ====
section
/-! DEFINITION. Well-formed commands: a command whose operands name units, partitions, functions, slots, streams and
ports that the DM9 has (R13 to R19, R394, R459, R497). What the manual checks when a command is acted on (reserved
bits, ranges, permissions) is not checked here: a command that fails such a check is well formed, and its meaning
gives the answer that the manual states. -/

namespace Sys2Proof

/-- Whether a unit reference names a unit of the module: 9 engine slots and 18 Stagehand slots a cluster (R16, R17),
5 Samplers, 128 flats, 8 stacks, 5 video engines, 3 Prefix Walkers, 5 ports. -/
def unitOk (u : UnitRef) : Bool :=
  match u.kind with
  | .engine => u.cluster < 4 && u.slot < 9
  | .stagehand => u.cluster < 4 && u.slot < 18
  | .sampler => u.slot < 5
  | .flat => u.slot < 128
  | .stack => u.slot < 8
  | .peer => true
  | .video => u.slot < 5
  | .walker => u.slot < 3
  | .phy => u.slot < 8
  | .port => u.slot < 5
  | .clock => true
  | .unknown => true

/-- Whether a sensor of R818 exists. -/
def sensorOk : Sensor → Bool
  | .engine k => k < 36
  | .shGroup g => g < 12
  | .video k => k < 5
  | .phy m => m < 8

/-- Whether a command names only what the module has. -/
def Instr.wf : Instr → Bool
  | .beatEdge => true
  | .beatOutPulseEnd => true
  | .cutComplete => true
  | .flatClearDone => true
  | .agePromote req => req < 8192
  | .headSpreadTimeout req => req < 8192
  | .theHalf => true
  | .publishRunningOrder _ => true
  | .beatInEdge _ _ => true
  | .ptpMessage _ => true
  | .holdover => true
  | .lockTimeoutReady => true
  | .entryDispatch e => e < 36
  | .partitionClearDone unit => unitOk unit
  | .entryRetire e => e < 36
  | .hang _ unit => unit < 72
  | .entryDrainDone e => e < 36
  | .unitStopTimeout unit => unitOk unit
  | .hardwareException e _ _ => e < 36
  | .walkonGo slot _ => slot < 128
  | .walkonDoorbell fn _ => fn ≤ 8
  | .walkonDbHalfWrite fn _ _ => fn ≤ 8
  | .walkonDispatch slot => slot < 128
  | .windowOpen index => index < 4096
  | .walkonSetFree set => set < 4
  | .ledgerClose => true
  | .ctrlNop e _ => e < 36
  | .ctrlEnd e _ => e < 36
  | .ctrlFence e _ => e < 36
  | .add e _ => e < 36
  | .sub e _ => e < 36
  | .and e _ => e < 36
  | .or e _ => e < 36
  | .xor e _ => e < 36
  | .sll e _ => e < 36
  | .srl e _ => e < 36
  | .sra e _ => e < 36
  | .mul e _ => e < 36
  | .mulhu e _ => e < 36
  | .mulh e _ => e < 36
  | .divu e _ => e < 36
  | .remu e _ => e < 36
  | .slt e _ => e < 36
  | .sltu e _ => e < 36
  | .min e _ => e < 36
  | .max e _ => e < 36
  | .minu e _ => e < 36
  | .maxu e _ => e < 36
  | .sel e _ => e < 36
  | .addi e _ => e < 36
  | .andi e _ => e < 36
  | .ori e _ => e < 36
  | .xori e _ => e < 36
  | .slli e _ => e < 36
  | .srli e _ => e < 36
  | .srai e _ => e < 36
  | .slti e _ => e < 36
  | .sltiu e _ => e < 36
  | .movhi e _ => e < 36
  | .beq e _ => e < 36
  | .bne e _ => e < 36
  | .blt e _ => e < 36
  | .bge e _ => e < 36
  | .bltu e _ => e < 36
  | .bgeu e _ => e < 36
  | .jmp e _ => e < 36
  | .dbnz e _ => e < 36
  | .lmLdB e _ => e < 36
  | .lmLdBu e _ => e < 36
  | .lmLdH e _ => e < 36
  | .lmLdHu e _ => e < 36
  | .lmLdW e _ => e < 36
  | .lmLdWu e _ => e < 36
  | .lmLdD e _ => e < 36
  | .lmStB e _ => e < 36
  | .lmStH e _ => e < 36
  | .lmStW e _ => e < 36
  | .lmStD e _ => e < 36
  | .lmVld e _ => e < 36
  | .lmVst e _ => e < 36
  | .lmVldBc e _ => e < 36
  | .lmPld e _ => e < 36
  | .lmPst e _ => e < 36
  | .lmCpy e _ => e < 36
  | .lmFill e _ => e < 36
  | .xferLd e _ => e < 36
  | .xferSt e _ => e < 36
  | .copyOnWrite x _ => x.part < 8
  | .xferComplete e => (e < 36 || (64 ≤ e && e < 136))
  | .xferFault e => (e < 36 || (64 ≤ e && e < 136))
  | .mxMul e _ => e < 36
  | .mxZero e _ => e < 36
  | .mxDrain e _ => e < 36
  | .mxFill e _ => e < 36
  | .mxRowr e _ => e < 36
  | .mxRoww e _ => e < 36
  | .vadd e _ => e < 36
  | .vsub e _ => e < 36
  | .vmul e _ => e < 36
  | .vfma e _ => e < 36
  | .vmax e _ => e < 36
  | .vmin e _ => e < 36
  | .vand e _ => e < 36
  | .vor e _ => e < 36
  | .vxor e _ => e < 36
  | .vshl e _ => e < 36
  | .vshr e _ => e < 36
  | .vexp e _ => e < 36
  | .vlog e _ => e < 36
  | .vrcp e _ => e < 36
  | .vrsqrt e _ => e < 36
  | .vcmp e _ => e < 36
  | .vsel e _ => e < 36
  | .vbc e _ => e < 36
  | .vlane e _ => e < 36
  | .vcvtDn e _ => e < 36
  | .vcvtUp e _ => e < 36
  | .vrsum e _ => e < 36
  | .vrmax e _ => e < 36
  | .vrmin e _ => e < 36
  | .pand e _ => e < 36
  | .por e _ => e < 36
  | .pnot e _ => e < 36
  | .pfirst e _ => e < 36
  | .vphilox e _ => e < 36
  | .attnScore e _ => e < 36
  | .attnSmax e _ => e < 36
  | .attnPv e _ => e < 36
  | .attnFin e _ => e < 36
  | .attnRecomp e _ => e < 36
  | .cueSig e _ => e < 36
  | .cueWait e _ => e < 36
  | .cueWaitd e _ => e < 36
  | .cueSet e _ => e < 36
  | .cueRead e _ => e < 36
  | .cueWaitT e _ => e < 36
  | .cueWaitdT e _ => e < 36
  | .cueWaitMet cl => cl < 65536
  | .cueWaitTimeout e => (e < 36 || (64 ≤ e && e < 136))
  | .cueOvf e => e < 36
  | .flyLdW e _ => e < 36
  | .flyLdD e _ => e < 36
  | .flyStW e _ => e < 36
  | .flyStD e _ => e < 36
  | .flyVld e _ => e < 36
  | .flyVst e _ => e < 36
  | .flyAdd e _ => e < 36
  | .flyMax e _ => e < 36
  | .flyMin e _ => e < 36
  | .flyAnd e _ => e < 36
  | .flyOr e _ => e < 36
  | .flyXchg e _ => e < 36
  | .flyCas e _ => e < 36
  | .flatTestRestore flat => flat < 128
  | .sysRdst e _ => e < 36
  | .sysWrst e _ => e < 36
  | .sysTrap e _ => e < 36
  | .sysHcall e _ => e < 36
  | .helperJobStart sh => sh < 72
  | .helperJobComplete sh => sh < 72
  | .helperFault sh => sh < 72
  | .zshCsig sh _ _ => sh < 72
  | .zshCwait sh _ _ _ => sh < 72
  | .zshCwaitd sh _ _ _ => sh < 72
  | .zshCset sh _ _ => sh < 72
  | .zshFladd sh _ _ _ => sh < 72
  | .zshFlcas sh _ _ _ => sh < 72
  | .zshXfer sh _ _ => sh < 72
  | .zshMxpack sh _ _ _ => sh < 72
  | .zshMxunpack sh _ _ _ => sh < 72
  | .zshPhilox sh _ _ _ => sh < 72
  | .zshCtx sh _ => sh < 72
  | .samplerJobStart cluster => cluster < 4
  | .samplerJobComplete cluster => cluster < 4
  | .stepCommit part _ => part < 8
  | .carryLimit req => req < 8192
  | .submit c _ => c.part < 8
  | .prefixWalk req => req < 8192
  | .cancel c => c.part < 8
  | .pause c => c.part < 8
  | .resume c => c.part < 8
  | .append c => c.part < 8
  | .query c => c.part < 8
  | .progLoad c => c.part < 8
  | .progUnload c => c.part < 8
  | .walkonReg c => c.part < 8
  | .walkonUnreg c => c.part < 8
  | .walkonReservationRefill slot => slot < 128
  | .maskReg c => c.part < 8
  | .maskUnreg c => c.part < 8
  | .memMap c => c.part < 8
  | .memUnmap c => c.part < 8
  | .memProtect c => c.part < 8
  | .epochComplete space => space < 9
  | .variantLoad c _ => c.part < 8
  | .variantUnload c => c.part < 8
  | .expertPublish c => c.part < 8
  | .treeFlush c => c.part < 8
  | .treeUpdate part => part < 8
  | .spreadReg c _ => c.part < 8
  | .spreadUnreg c => c.part < 8
  | .trainSubmit c => c.part < 8
  | .collective _ => true
  | .abort _ => true
  | .callBoardBadWrite _ _ => true
  | .beatLoRead _ => true
  | .curtainNFall _ => true
  | .curtainNRise => true
  | .resultAtGate _ => true
  | .resultPassed _ => true
  | .heldResultExpire _ => true
  | .streamOpen c _ => c.part < 8
  | .streamClose c => c.part < 8
  | .streamClosed stream => stream < 48
  | .groupSet c => c.part < 8
  | .groupAttach c => c.part < 8
  | .keyReq c => c.part < 8
  | .streamQuery c => c.part < 8
  | .videoAu au => au.part < 8
  | .frameDecodeStart k => k < 5
  | .frameDecodeDone k _ => k < 5
  | .bindPoint => true
  | .bindReady group => group < 48
  | .encodeFrameStart k stream => k < 5 && stream < 48
  | .encodeResult k _ _ => k < 5
  | .videoEngineFail k => k < 5
  | .sqTailWrite fn k _ => fn ≤ 8 && k < 16
  | .cqHeadWrite fn k _ => fn ≤ 8 && k < 16
  | .queuePairDisable fn k => fn ≤ 8 && k < 16
  | .queuePairEnable fn k => fn ≤ 8 && k < 16
  | .sqFetch fn k _ _ => fn ≤ 8 && k < 16
  | .data part _ => part < 8
  | .rxbuf fn k _ => fn ≤ 8 && k < 16
  | .outboundEvent fn k => fn ≤ 8 && k < 16
  | .msixCoalesce fn k => fn ≤ 8 && k < 16
  | .functionLevelReset fn => fn ≤ 8
  | .perstNAssert => true
  | .perstNRelease => true
  | .bar2Sig fn cl _ => fn ≤ 8 && cl < 65536
  | .bar2Set fn cl _ => fn ≤ 8 && cl < 65536
  | .bar4Read part _ _ => part < 8
  | .bar4Write part _ _ => part < 8
  | .roceSend _ _ => true
  | .roceUnsupportedOp _ => true
  | .rqpCreate fn => fn ≤ 8
  | .rqpDestroy fn _ => fn ≤ 8
  | .sparePort _ _ => true
  | .spareTakeoverDone => true
  | .houseFrame port _ => port < 5
  | .keyPutPart _ _ => true
  | .keyDropPart _ => true
  | .keyPutJob _ _ _ _ => true
  | .keyDropJob _ _ => true
  | .jobKeyErase _ => true
  | .keyList _ _ => true
  | .aperture _ _ => true
  | .perfConsent _ _ => true
  | .acctGet _ _ => true
  | .claim _ => true
  | .release _ => true
  | .partEnable _ _ _ => true
  | .partDisable _ _ => true
  | .grant _ _ _ _ => true
  | .keyPutShared _ _ _ => true
  | .keyPutHouse _ _ => true
  | .debugUnlock _ _ => true
  | .capSet _ _ => true
  | .curtain _ _ => true
  | .curtainPolicy _ _ => true
  | .acctResend _ _ => true
  | .getVersion _ => true
  | .getCapabilities _ => true
  | .negotiateAlgorithms _ _ => true
  | .getDigests _ => true
  | .getCertificate _ => true
  | .challenge _ _ => true
  | .getMeasurements _ _ _ => true
  | .keyExchange _ => true
  | .finish _ _ _ _ => true
  | .spdmHeartbeat _ => true
  | .keyUpdate _ => true
  | .endSession _ => true
  | .getEncapsulatedRequest _ => true
  | .deliverEncapsulatedResponse _ _ => true
  | .pairJoin _ => true
  | .pairSwap _ _ => true
  | .pairLeave _ => true
  | .pairRoll _ _ => true
  | .heartbeatSend => true
  | .heartbeat _ _ _ => true
  | .pathSilent _ => true
  | .order _ _ => true
  | .orderDeadline _ => true
  | .input _ _ _ _ _ _ => true
  | .verdict _ _ _ _ _ => true
  | .bind _ _ _ => true
  | .pairWalkon _ slot _ _ _ => slot < 128
  | .digestSend => true
  | .digest _ _ => true
  | .fetch _ _ _ _ => true
  | .state _ _ => true
  | .resyncRound => true
  | .config _ _ => true
  | .swap _ _ => true
  | .logRecordWrite => true
  | .faultLogIdxWrite fn _ => fn ≤ 8
  | .watchdogReset unit => unitOk unit
  | .smTakeover => true
  | .unitResetDone unit _ => unitOk unit
  | .clusterSwitchUe c => c < 4
  | .clusterResetDone c _ => c < 4
  | .clusterResetTimeout c => c < 4
  | .partReset _ _ => true
  | .partitionDrainTimeout part => part < 8
  | .deviceReset _ => true
  | .darkClear _ => true
  | .sampleCopy _ _ _ => true
  | .bistSliceStart x => unitOk x.unit
  | .bistSliceEnd unit _ _ _ => unitOk unit
  | .bistSliceAbort unit _ => unitOk unit
  | .bistResIdxWrite fn _ => fn ≤ 8
  | .standbyPowerOn => true
  | .slotIdSample _ => true
  | .startSequence _ => true
  | .startRetry => true
  | .spareFitDone unit _ => unitOk unit
  | .coldNext _ => true
  | .usbStickInsert _ => true
  | .usbOvercurrent => true
  | .containerStaged _ _ => true
  | .updateActivate _ _ => true
  | .updateConfirm _ => true
  | .updateRevert _ => true
  | .trialWindowExpire => true
  | .railSample _ _ => true
  | .peakGuardStep => true
  | .sensorRead x _ => sensorOk x
  | .airSensorRead _ _ => true
  | .shutdownRestart => true
  | .scrubRead granule => granule < 2 ^ 38 / 64
  | .refresh stack => stack < 8
  | .stackTempRead stack _ => stack < 8
  | .headCountRefresh port _ => port < 8
  | .hbmRetrainReq fn _ => fn ≤ 8
  | .migrationStart stack => stack < 8
  | .migrationSwitch stack => stack < 8
  | .retrainDone stack pc _ => stack < 8 && pc < 32
  | .pwrEnLow _ => true
  | .pwrEnHigh => true
  | .bulkUndervoltage => true
  | .inputRestored => true
  | .standbyLoss => true
  | .registerWrite fn _ _ _ => fn ≤ 8
  | .blockLock fn _ => fn ≤ 8
  | .rcRead fn _ => fn ≤ 8
  | .loWordRead fn _ => fn ≤ 8
  | .beatPeriodWrite fn _ => fn ≤ 8
  | .beatFreezeWrite fn _ => fn ≤ 8
  | .energyBillBeatsWrite fn _ => fn ≤ 8
  | .guaranteeWrite fn part _ => fn ≤ 8 && part < 8
  | .serveLimitWrite fn _ _ => fn ≤ 8
  | .stagehandInstruction sh _ => sh < 72
  | .partitionResetDone part => part < 8
  | .resendRequest _ req _ _ => req < 8192
  | .retrainDaysElapsed stack pc => stack < 8 && pc < 32
  | .portLinkChange port _ _ => port < 5
  | .usbStickRemove => true
  | .rotWatchdog => true
  | .p54OutOfRange _ => true
  | .mainRailExcursion rail => 1 ≤ rail && rail ≤ 12
  | .roceAck _ _ _ => true
  | .cnpReceived _ => true
  | .priorityFlowControl port _ => port < 5

end Sys2Proof
end

