-- ==== Sys2Proof/Config.lean ====
section
/-! DEFINITION. What the manual leaves open: free values (opaque constants with no body, so that a claim holds
whatever they are), and the functions of published standards that the manual uses without restating them. -/

namespace Sys2Proof.Config

/-- st.cycle (R232): the engine's cycle counter is a matter of timing. The arguments are the engine slot and the
number of reads of it so far (notes/assumptions/10.md). -/
opaque engineCycle : Nat → Nat → DWord

/-- The port number of a bank by which waiting WAITDs of the same bank cycle are served (R142). The argument is
the unit: engine slot k is k, Stagehand slot k is 64 + k, Sampler c is 256 + c (notes/assumptions/11.md). -/
opaque netPort : Nat → Nat

/-- SHA-384 of FIPS 180-4 (notes/assumptions/5.md). -/
opaque sha384 : List Byte → Digest

/-- The random nonce of a DEBUG_UNLOCK (R628), by the number of free values drawn so far. -/
opaque nonce : Nat → DWord

/-- Whether the planner sets an engine that qualifies to step-15 boost (R826 says that it may), by engine slot and
free values drawn so far (notes/assumptions/12.md). -/
opaque boostWanted : Nat → Nat → Bool

/-- What a Stagehand reads from a control and status register of the RISC-V architecture that the manual does not
describe, and what any RISC-V instruction outside the manual's own text computes (R160): a 64-bit result, by
instruction word, operands and free values drawn so far (notes/assumptions/13.md). -/
opaque riscv : Word → DWord → DWord → Nat → DWord

/-- The Cue Light range k (0 or 1) that the Stage Manager grants a partition when it is enabled, in the layout of
CUE_Pn_GRANTk: the manual leaves its choice to the Stage Manager (notes/assumptions/14.md). -/
opaque cueGrant : Nat → Nat → Nat → Word

/-- What a byte of a poisoned granule reads as, by physical address (R304; notes/assumptions/17.md). -/
opaque poisonByte : Nat → Byte

/-- Places of the fields of zsh.xfer's 32-byte descriptor (0 direction, 1 local memory address, 2 DV address, 3 length) and of
its second operand (4 window index, 5 increment), and, from 16 on by format code, the place of the scale in a packed MX block: the manual
gives no layout for any of them (R172; notes/assumptions/22.md, 25.md). -/
opaque zshPlace : Nat → Nat

/-- Measurement 1, the digest of the RoT's ROM, which is fused at manufacture (R597). -/
opaque romDigest : Digest

/-- AES-256-GCM of NIST SP 800-38D: the ciphertext and the tag, of a key, an initialisation vector, additional authenticated data and a
plaintext (R683; notes/assumptions/5.md). -/
opaque gcmSeal : List Byte → List Byte → List Byte → List Byte → List Byte

/-- The 64-byte header of a sealed sample by its SAMPLE_NO, RECORD_NO, UNIT, context word and plaintext length, whose places the manual
does not give (R683; notes/assumptions/42.md). -/
opaque sampleHeader : List Nat → List Byte

/-- The address of the BIST image in the firmware window (R706; notes/assumptions/44.md). -/
opaque bistImage : Nat

/-- The SHA-384 hashes of the Zhevost signing keys that are fused, each with its revocation bit (R590; notes/assumptions/108.md). -/
opaque signers : List (Digest × Bool)

/-- ECDSA P-384 of FIPS 186-5 and ML-DSA-87 of FIPS 204: whether a signature of a digest verifies under a public key (R593;
notes/assumptions/108.md). -/
opaque ecdsaVerify : List Byte → Digest → List Byte → Bool
opaque mldsaVerify : List Byte → Digest → List Byte → Bool

/-- The contents of the FRU EEPROM, by the module's serial and the byte's address: the manual names its format and not its fields
(R840; notes/assumptions/109.md). -/
opaque fruByte : Word → Nat → Byte

/-- HMAC-SHA-384 of FIPS 198-1, of a key and a message (R585, R634, R635; notes/assumptions/5.md). -/
opaque hmacSha384 : List Byte → List Byte → Digest

/-- The alias key of R599, by the digests of measurements 2 and 10: the module's device secret is in the function. Its certificate chain
in slot 0, and its ECDSA P-384 signature of a message, r ‖ s in 96 bytes (notes/assumptions/105.md). -/
opaque aliasKey : Digest → Digest → Digest
opaque aliasChain : Digest → List Byte
opaque aliasSign : Digest → List Byte → List Byte

/-- An SPDM message of DSP0274, or of DSP0277 when it is secured, by its response code and what it carries (R600 to R602;
notes/assumptions/105.md). -/
opaque spdmMessage : Bool → Nat → List Byte → List Byte

/-- The body of a pairing-link message by its TYPE and its fields, where the manual gives their names and not their places (R635;
notes/assumptions/106.md). -/
opaque linkBody : Nat → List Nat → List Byte

/-- BASE_ID of each base model in the shared slots, in slot order (R661): the operator loads the base models by means that the
manual does not describe (notes/assumptions/37.md). -/
opaque baseIds : List DWord

/-- Any other value that the manual does not state, by its purpose and the free values drawn so far. -/
opaque freeValue : Nat → Nat → DWord

/-- The CTU rows of the slice of an encoded picture that begins at a row, and the QP of that slice at a constant bit rate. They are
functions of the open descriptor's figures and of the source pictures so far, each with whether a key request or a refresh wave begins at
it (R495): rate control and slicing are the manual's to leave open (notes/assumptions/36.md). -/
opaque sliceRows : List Nat → List (List Byte × Bool) → Nat → Nat
opaque sliceQp : List Nat → List (List Byte × Bool) → Nat → Nat

/-- The bits of a slice (R494, R495): those of ITU-T H.265, of the descriptor's figures, the source pictures so far, whether the
picture is an I picture, the QP, the first CTU row and the number of rows. -/
opaque sliceBits : List Nat → List (List Byte × Bool) → Bool → Nat → Nat → Nat → List Byte

end Sys2Proof.Config
end

