-- ==== Sys2Proof/Machine/Bits.lean ====
section
/-! DEFINITION. Bit fields, sign extension and byte order. Multi-byte fields are little-endian (R4); bit 0 is
the least significant bit (R3). -/

namespace Sys2Proof.Machine

/-- Bits [hi:lo] of a number. -/
def nfld (x hi lo : Nat) : Nat := (x >>> lo) % 2 ^ (hi + 1 - lo)

/-- Bits [hi:lo] of a word. -/
def fld {n : Nat} (x : BitVec n) (hi lo : Nat) : Nat := nfld x.toNat hi lo

/-- Bit i of a word. -/
def bitAt {n : Nat} (x : BitVec n) (i : Nat) : Bool := x.getLsbD i

/-- `x` with bits [hi:lo] replaced. -/
def setFld {n : Nat} (x : BitVec n) (hi lo v : Nat) : BitVec n :=
  let m := BitVec.ofNat n ((2 ^ (hi + 1 - lo) - 1) <<< lo)
  (x &&& ~~~ m) ||| (BitVec.ofNat n ((v % 2 ^ (hi + 1 - lo)) <<< lo))

/-- One bit as a number. -/
def b2n (b : Bool) : Nat := if b then 1 else 0

/-- sext(IMM) of R186. -/
def sext (w : Word) : DWord := w.signExtend 64

/-- The number that little-endian bytes spell (R4). -/
def leNat : List Byte → Nat
  | [] => 0
  | b :: bs => b.toNat + 256 * leNat bs

/-- The `n` little-endian bytes of a number (R4). -/
def leBytes : Nat → Nat → List Byte
  | 0, _ => []
  | n + 1, x => BitVec.ofNat 8 x :: leBytes n (x / 256)

/-- The big-endian number that bytes spell, for fields that a standard defines so (R5). -/
def beNat (bs : List Byte) : Nat := leNat bs.reverse

/-- `len` bytes of a record from `off`, zero past its end. -/
def slice (bs : List Byte) (off len : Nat) : List Byte :=
  let x := (bs.drop off).take len
  x ++ List.replicate (len - x.length) 0

/-- A little-endian field of a record. -/
def leAt (bs : List Byte) (off len : Nat) : Nat := leNat (slice bs off len)

/-- The bit stream of R267: byte b >> 3, bit b mod 8. -/
def streamNat (bs : List Byte) : Nat := leNat bs

/-- Element i of width w in a bit stream (R267). -/
def streamElem (bs : List Byte) (w i : Nat) : Nat := nfld (streamNat bs) ((i + 1) * w - 1) (i * w)

/-- The bytes of a row of elements of width w (R267), least significant first. -/
def packStream (w : Nat) (xs : List Nat) : Nat :=
  xs.foldr (fun x acc => x % 2 ^ w + acc * 2 ^ w) 0

/-- Ceiling of a quotient. -/
def cdiv (a b : Nat) : Nat := (a + b - 1) / b

/-- The smaller of a value and a limit: a saturating counter. -/
def satAdd (limit a b : Nat) : Nat := if a + b ≤ limit then a + b else limit

/-- The sum of a list of numbers. -/
def sumNat (xs : List Nat) : Nat := xs.foldl (· + ·) 0

/-- Whether a list holds no value twice. -/
def noDup {α : Type} [DecidableEq α] : List α → Bool
  | [] => true
  | x :: xs => !xs.contains x && noDup xs

end Sys2Proof.Machine
end

