-- ==== Sys2Proof/Machine/Crc.lean ====
section
/-! DEFINITION. CRC-32C, and Philox4x32-10 of R283. The manual names CRC-32C without restating it: the
polynomial, the reflected bit order and the inversions are those of the published CRC (notes/assumptions/6.md). -/

namespace Sys2Proof.Machine

/-- One bit of the reflected CRC-32C register. -/
def crcBit (c : Nat) : Nat := if c % 2 = 1 then (c / 2) ^^^ 0x82F63B78 else c / 2

/-- One byte of the reflected CRC-32C register. -/
def crcByte (c : Nat) (b : Byte) : Nat :=
  crcBit (crcBit (crcBit (crcBit (crcBit (crcBit (crcBit (crcBit (c ^^^ b.toNat))))))))

/-- CRC-32C of bytes. PRESUMED: the published parameters. -/
def crc32c (bs : List Byte) : Nat := bs.foldl crcByte 0xFFFFFFFF ^^^ 0xFFFFFFFF

/-- The four words of a Philox counter. -/
abbrev Quad := Nat × Nat × Nat × Nat

/-- One round of R283. -/
def philoxRound (c : Quad) (k0 k1 : Nat) : Quad :=
  let p0 := 0xD2511F53 * c.1
  let p1 := 0xCD9E8D57 * c.2.2.1
  ((p1 / 2 ^ 32) ^^^ c.2.1 ^^^ k0, p1 % 2 ^ 32, (p0 / 2 ^ 32) ^^^ c.2.2.2 ^^^ k1, p0 % 2 ^ 32)

/-- `n` rounds of R283 with the key schedule between consecutive rounds. -/
def philoxRounds : Nat → Quad → Nat → Nat → Quad
  | 0, c, _, _ => c
  | n + 1, c, k0, k1 =>
    philoxRounds n (philoxRound c k0 k1) ((k0 + 0x9E3779B9) % 2 ^ 32) ((k1 + 0xBB67AE85) % 2 ^ 32)

/-- Philox4x32-10 (R283): the four output words. -/
def philox (c : Quad) (k0 k1 : Nat) : Quad := philoxRounds 10 c k0 k1

end Sys2Proof.Machine
end

