-- ==== Sys2Proof/Machine/Numerics.lean ====
section
/-! DEFINITION. Numerics and Reproducibility (R266 to R290): element formats, exact values, rounding,
conversions, MX blocks, the block-exact dot product, the reduction tree and the reference functions. Values are
exact dyadic numbers until the one rounding that a rule names. -/

namespace Sys2Proof.Machine

/-- st.round as R278 applies it. -/
inductive Rnd where
  | nearest
  | zero
  /-- stochastic, with the random word r of R282 -/
  | stoch (r : Nat)
deriving DecidableEq, Repr

/-- A value of a floating-point format: magnitude m times 2 to the e. -/
inductive Fp where
  | nan
  | inf (neg : Bool)
  | fin (neg : Bool) (m : Nat) (e : Int)
deriving DecidableEq, Repr

/-- Element width in bits (R266). -/
def fmtWidth (f : Nat) : Nat :=
  match f with
  | 0x0 => 32 | 0x1 => 16 | 0x2 => 16 | 0x7 => 6 | 0x8 => 6 | 0x9 => 4 | 0xC => 4 | _ => 8

/-- Mantissa bits (R266). -/
def fmtMan (f : Nat) : Nat :=
  match f with
  | 0x0 => 23 | 0x1 => 7 | 0x2 => 10 | 0x3 => 3 | 0x5 => 3 | 0x4 => 2 | 0x6 => 2 | 0x7 => 2 | 0x8 => 3 | 0x9 => 1
  | _ => 0

/-- Exponent bits (R266). -/
def fmtExp (f : Nat) : Nat :=
  match f with
  | 0x0 => 8 | 0x1 => 8 | 0x2 => 5 | 0x3 => 4 | 0x5 => 4 | 0x4 => 5 | 0x6 => 5 | 0x7 => 3 | 0x8 => 2 | 0x9 => 2
  | _ => 0

/-- Exponent bias (R266). -/
def fmtBias (f : Nat) : Nat :=
  match f with
  | 0x0 => 127 | 0x1 => 127 | 0x2 => 15 | 0x3 => 7 | 0x5 => 7 | 0x4 => 15 | 0x6 => 15 | 0x7 => 3 | 0x8 => 1
  | 0x9 => 1 | _ => 0

/-- MX formats: those whose tiles carry E8M0 scales. -/
def fmtMx (f : Nat) : Bool := f = 5 || f = 6 || f = 7 || f = 8 || f = 9 || f = 0xA
/-- Integer formats (R266). -/
def fmtInt (f : Nat) : Bool := f = 0xA || f = 0xB || f = 0xC
/-- Formats with infinities (R266). -/
def fmtInf (f : Nat) : Bool := f = 0 || f = 1 || f = 2 || f = 4 || f = 6
/-- E4M3, whose only NaN is S.1111.111 (R266). -/
def fmtE4m3 (f : Nat) : Bool := f = 3 || f = 5
/-- The format codes of R266 that are assigned. -/
def fmtValid (f : Nat) : Bool := f ≤ 0xC

/-- The exponent of the smallest subnormal of a format, or of the unit of an integer format (R266). -/
def fmtUnit (f : Nat) : Int :=
  if f = 0xA then -6 else if fmtInt f then 0 else 1 - (fmtBias f : Int) - (fmtMan f : Int)

/-- The exact value of an element (R266, R268). -/
def decodeElem (f x : Nat) : Fp :=
  if fmtInt f then
    let w := fmtWidth f
    if x < 2 ^ (w - 1) then .fin false x (fmtUnit f) else .fin true (2 ^ w - x) (fmtUnit f)
  else
    let m := fmtMan f
    let eb := fmtExp f
    let neg := x / 2 ^ (m + eb) % 2 = 1
    let ex := x / 2 ^ m % 2 ^ eb
    let ma := x % 2 ^ m
    if ex = 0 then .fin neg ma (fmtUnit f)
    else if fmtInf f && ex = 2 ^ eb - 1 then (if ma = 0 then .inf neg else .nan)
    else if fmtE4m3 f && ex = 15 && ma = 7 then .nan
    else .fin neg (2 ^ m + ma) (fmtUnit f + (ex - 1 : Nat))

/-- Number of bits of a number. -/
def bitLen (m : Nat) : Nat := if m = 0 then 0 else Nat.log2 m + 1

/-- Rounds m times 2 to the e to a multiple of 2 to the q, under R278 and R281. -/
def roundAt (r : Rnd) (m : Nat) (e q : Int) : Nat :=
  if q ≤ e then m * 2 ^ (e - q).toNat
  else
    let sh := (q - e).toNat
    let t := m / 2 ^ sh
    let rem := m % 2 ^ sh
    match r with
    | .zero => t
    | .nearest =>
      if 2 * rem > 2 ^ sh || (2 * rem = 2 ^ sh && t % 2 = 1) then t + 1 else t
    | .stoch w => if rem * 2 ^ 32 / 2 ^ sh + w ≥ 2 ^ 32 then t + 1 else t

/-- The largest finite magnitude of a format in units of its last place, and that unit's exponent. -/
def fmtMaxQ (f : Nat) : Int :=
  if fmtInt f then fmtUnit f
  else fmtUnit f + ((if fmtInf f then 2 ^ fmtExp f - 3 else 2 ^ fmtExp f - 2 : Nat) : Int)

/-- The largest finite mantissa of a format, hidden bit included (R266). -/
def fmtMaxM (f : Nat) : Nat :=
  if f = 0xC then 7 else if fmtInt f then 127
  else if fmtE4m3 f then 14 else 2 ^ (fmtMan f + 1) - 1

/-- The bits of the value m times 2 to the q, with m below 2 to the precision and q at least the unit. -/
def packFp (f : Nat) (neg : Bool) (m : Nat) (q : Int) : Nat :=
  let mb := fmtMan f
  let s := if neg then 2 ^ (mb + fmtExp f) else 0
  if m < 2 ^ mb then s + m
  else s + ((q - fmtUnit f).toNat + 1) * 2 ^ mb + (m - 2 ^ mb)

/-- The bits of the largest finite value of a sign (R276). -/
def maxFinite (f : Nat) (neg : Bool) : Nat :=
  if fmtInt f then (if neg then 2 ^ fmtWidth f - fmtMaxM f else fmtMaxM f)
  else packFp f neg (fmtMaxM f) (fmtMaxQ f)

/-- The bits of an infinity. -/
def infBits (f : Nat) (neg : Bool) : Nat :=
  (if neg then 2 ^ (fmtMan f + fmtExp f) else 0) + (2 ^ fmtExp f - 1) * 2 ^ fmtMan f

/-- The canonical NaN of R272. -/
def canonNan (f : Nat) : Nat :=
  match f with
  | 0x0 => 0x7FC00000 | 0x1 => 0x7FC0 | 0x2 => 0x7E00 | 0x3 => 0x7F | 0x5 => 0x7F | 0x4 => 0x7E | 0x6 => 0x7E
  | _ => 0

/-- What a conversion sets in st.flags. -/
structure CvtFlags where
  sat : Bool
  nan : Bool
deriving DecidableEq, Repr

/-- Rounds an exact finite value to format f: the bits, and whether it went beyond the largest finite value.
`big` gives the bits then. Precision and unit follow R266. -/
def roundFin (f : Nat) (r : Rnd) (neg : Bool) (m : Nat) (e : Int) (big : Nat) : Nat × Bool :=
  if m = 0 then (if fmtInt f then 0 else packFp f neg 0 (fmtUnit f), false)
  else if fmtInt f then
    let t := roundAt r m e (fmtUnit f)
    if t > fmtMaxM f then (big, true)
    else (if neg && t ≠ 0 then 2 ^ fmtWidth f - t else t, false)
  else
    let p := fmtMan f + 1
    let top : Int := e + (bitLen m : Int)
    let q := max (top - (p : Int)) (fmtUnit f)
    let t := roundAt r m e q
    let (t, q) := if t ≥ 2 ^ p then (t / 2, q + 1) else (t, q)
    if q > fmtMaxQ f || (q = fmtMaxQ f && t > fmtMaxM f) then (big, true)
    else (packFp f neg t q, false)

/-- FP32 rounding of an exact value: overflow gives an infinity under round-to-nearest-even and the largest
finite value under round-toward-zero (R274, R284). -/
def round32 (r : Rnd) (neg : Bool) (m : Nat) (e : Int) : Nat :=
  (roundFin 0 r neg m e (if r = .zero then maxFinite 0 neg else infBits 0 neg)).1

/-- R276: conversion from FP32 to a narrower format, outside an MX block. -/
def convertDown (f : Nat) (r : Rnd) (v : Fp) : Nat × CvtFlags :=
  match v with
  | .nan => if fmtInt f then (0, ⟨true, false⟩) else (canonNan f, ⟨false, true⟩)
  | .inf s => if fmtInf f then (infBits f s, ⟨false, false⟩) else (maxFinite f s, ⟨true, false⟩)
  | .fin s m e =>
    let x := roundFin f r s m e (maxFinite f s)
    (x.1, ⟨x.2, false⟩)

/-- emax of R271. -/
def fmtEmax (f : Nat) : Int :=
  match f with
  | 0x5 => 8 | 0x6 => 15 | 0x7 => 4 | 0x8 => 2 | 0x9 => 2 | _ => 0

/-- Floor of the logarithm of a finite magnitude. -/
def floorLog (v : Fp) : Option Int :=
  match v with
  | .fin _ m e => if m = 0 then none else some (e + (Nat.log2 m : Int))
  | _ => none

/-- R271: the scale byte, the elements and whether a NaN or an infinity occurred. `rnd i` is the rounding of
element i. -/
def mxPack (f : Nat) (rnd : Nat → Rnd) (vs : List Fp) : Nat × List Nat × Bool :=
  if vs.any fun v => match v with | .fin _ _ _ => false | _ => true then (0xFF, vs.map fun _ => 0, true)
  else
    let lg := vs.filterMap floorLog
    let X : Int := match lg with
      | [] => -127
      | x :: xs => max (xs.foldl max x - fmtEmax f) (-127)
    ((X + 127).toNat,
      vs.mapIdx fun i v => match v with
        | .fin s m e => (roundFin f (rnd i) s m (e - X) (maxFinite f s)).1
        | _ => 0,
      false)

/-- R277: conversion of an element with its block's scale byte to FP32. -/
def convertUp (f x scale : Nat) : Nat :=
  if fmtMx f && scale = 0xFF then canonNan 0
  else match decodeElem f x with
    | .nan => canonNan 0
    | .inf s => infBits 0 s
    | .fin s m e =>
      if m = 0 then packFp 0 (s && !fmtInt f) 0 (fmtUnit 0)
      else round32 .nearest s m (if fmtMx f then e + (scale : Int) - 127 else e)

/-- The exact value of an FP32 word. -/
def dec32 (x : Word) : Fp := decodeElem 0 x.toNat

/-- Whether an FP32 word is a NaN. -/
def isNan32 (x : Word) : Bool := dec32 x = .nan

/-- The canonical FP32 NaN. -/
def qnan : Word := 0x7FC00000#32
/-- FP32 infinities, zero and one. -/
def f32Inf : Word := 0x7F800000#32
def f32NegInf : Word := 0xFF800000#32
def f32Zero : Word := 0#32
def f32One : Word := 0x3F800000#32

/-- A signed exact value. -/
def signed (s : Bool) (m : Nat) : Int := if s then -(m : Int) else (m : Int)

/-- The exact sum of two finite values, on the smaller exponent. -/
def addExact (s1 : Bool) (m1 : Nat) (e1 : Int) (s2 : Bool) (m2 : Nat) (e2 : Int) : Int × Int :=
  let e := min e1 e2
  (signed s1 (m1 * 2 ^ (e1 - e).toNat) + signed s2 (m2 * 2 ^ (e2 - e).toNat), e)

/-- A rounded FP32 sum of exact values, with the sign rules of IEEE 754-2019 for zeros (R274). -/
def sumRound (r : Rnd) (a b : Fp) : Word :=
  match a, b with
  | .nan, _ => qnan
  | _, .nan => qnan
  | .inf s, .inf t => if s = t then BitVec.ofNat 32 (infBits 0 s) else qnan
  | .inf s, .fin _ _ _ => BitVec.ofNat 32 (infBits 0 s)
  | .fin _ _ _, .inf t => BitVec.ofNat 32 (infBits 0 t)
  | .fin s1 m1 e1, .fin s2 m2 e2 =>
    let x := addExact s1 m1 e1 s2 m2 e2
    if x.1 = 0 then (if s1 && s2 then 0x80000000#32 else 0#32)
    else BitVec.ofNat 32 (round32 r (x.1 < 0) x.1.natAbs x.2)

/-- The exact product. -/
def mulExact (a b : Fp) : Fp :=
  match a, b with
  | .nan, _ => .nan
  | _, .nan => .nan
  | .inf s, .inf t => .inf (s != t)
  | .inf s, .fin t m _ => if m = 0 then .nan else .inf (s != t)
  | .fin s m _, .inf t => if m = 0 then .nan else .inf (s != t)
  | .fin s m e, .fin t n k => .fin (s != t) (m * n) (e + k)

/-- Rounds an exact value to FP32. -/
def round32Fp (r : Rnd) (v : Fp) : Word :=
  match v with
  | .nan => qnan
  | .inf s => BitVec.ofNat 32 (infBits 0 s)
  | .fin s m e => BitVec.ofNat 32 (round32 r s m e)

/-- Negation of a value. -/
def negFp : Fp → Fp
  | .nan => .nan
  | .inf s => .inf (!s)
  | .fin s m e => .fin (!s) m e

/-- add_fp32 (R274, R278). -/
def add32 (r : Rnd) (a b : Word) : Word := sumRound r (dec32 a) (dec32 b)
/-- The FP32 difference. -/
def sub32 (r : Rnd) (a b : Word) : Word := sumRound r (dec32 a) (negFp (dec32 b))
/-- mul_fp32. -/
def mul32 (r : Rnd) (a b : Word) : Word := round32Fp r (mulExact (dec32 a) (dec32 b))
/-- The fused multiply-add of vfma, with one rounding. -/
def fma32 (r : Rnd) (a b c : Word) : Word := sumRound r (mulExact (dec32 a) (dec32 b)) (dec32 c)

/-- The rounded quotient of two finite magnitudes: sixty-four quotient bits beyond the operands, and a sticky
bit, decide the rounding. -/
def divRound (r : Rnd) (s : Bool) (m : Nat) (e : Int) (n : Nat) (k : Int) : Word :=
  let sh := 64 + bitLen n
  let q := m * 2 ^ sh / n
  let st := if m * 2 ^ sh % n = 0 then 0 else 1
  BitVec.ofNat 32 (round32 r s (2 * q + st) (e - k - (sh : Int) - 1))

/-- The correctly rounded FP32 division of attn.fin (R289). -/
def div32 (r : Rnd) (a b : Word) : Word :=
  match dec32 a, dec32 b with
  | .nan, _ => qnan
  | _, .nan => qnan
  | .inf _, .inf _ => qnan
  | .inf s, .fin t _ _ => BitVec.ofNat 32 (infBits 0 (s != t))
  | .fin s _ _, .inf t => BitVec.ofNat 32 (packFp 0 (s != t) 0 0)
  | .fin s m e, .fin t n k =>
    if n = 0 then (if m = 0 then qnan else BitVec.ofNat 32 (infBits 0 (s != t)))
    else if m = 0 then BitVec.ofNat 32 (packFp 0 (s != t) 0 0)
    else divRound r (s != t) m e n k

/-- A key that orders finite and infinite FP32 words, −0.0 below +0.0 (R275). -/
def ordKey (x : Word) : Int :=
  if bitAt x 31 then -((x.toNat % 2 ^ 31 : Nat) : Int) - 1 else (x.toNat : Int)

/-- max of R275. -/
def max32 (a b : Word) : Word :=
  if isNan32 a || isNan32 b then qnan else if ordKey a ≥ ordKey b then a else b
/-- min of R275. -/
def min32 (a b : Word) : Word :=
  if isNan32 a || isNan32 b then qnan else if ordKey a ≤ ordKey b then a else b

/-- Comparison of R209: −1, 0 or 1 for ordered operands, none when one is a NaN. -/
def cmp32 (a b : Word) : Option Int :=
  match dec32 a, dec32 b with
  | .nan, _ => none
  | _, .nan => none
  | x, y =>
    let k (v : Fp) (w : Word) : Int := match v with | .fin _ 0 _ => 0 | _ => if bitAt w 31 then -((w.toNat % 2 ^ 31 : Nat) : Int) else (w.toNat : Int)
    some (if k x a < k y b then -1 else if k x a = k y b then 0 else 1)

/-! ### The block-exact dot product (R284, R285) -/

/-- The exact value of a finite element in units of its format's unit, and 0 for the others. -/
def elemInt (f : Nat) (v : Fp) : Int :=
  match v with
  | .fin s m e => signed s (m * 2 ^ (e - fmtUnit f).toNat)
  | _ => 0

/-- A product of two elements that is an infinity, its sign. -/
def infProd (a b : Fp) : Option Bool :=
  match mulExact a b with
  | .inf s => some s
  | _ => none

/-- block_dot (R284): the exact sum of the products of one block, scaled and rounded once. -/
def blockDot (r : Rnd) (fa : Nat) (xs : List Fp) (sa : Nat) (fb : Nat) (ys : List Fp) (sb : Nat) : Word :=
  if sa = 0xFF || sb = 0xFF || xs.contains .nan || ys.contains .nan then qnan
  else
    let ps := xs.zip ys
    let infs := ps.filterMap fun p => infProd p.1 p.2
    if ps.any (fun p => mulExact p.1 p.2 = .nan) || (infs.contains true && infs.contains false) then qnan
    else match infs with
      | s :: _ => BitVec.ofNat 32 (infBits 0 s)
      | [] =>
        let s : Int := ps.foldl (fun acc p => acc + elemInt fa p.1 * elemInt fb p.2) 0
        let e : Int := fmtUnit fa + fmtUnit fb + (sa : Int) + (sb : Int) - 254
        if s = 0 then 0#32 else BitVec.ofNat 32 (round32 r (s < 0) s.natAbs e)

/-! ### Reduction trees (R286, R287) -/

/-- One level of tree_sum: neighbours combined, an odd last term kept. -/
def treeLevel (op : Word → Word → Word) : List Word → List Word
  | a :: b :: t => op a b :: treeLevel op t
  | [a] => [a]
  | [] => []

/-- tree_sum of R286 with any combining operation; `n` levels suffice for 2 to the n terms. -/
def treeFold (op : Word → Word → Word) : Nat → List Word → Word
  | 0, xs => xs.headD 0#32
  | n + 1, xs => match xs with
    | [] => 0#32
    | [x] => x
    | _ => treeFold op n (treeLevel op xs)

/-- tree_sum (R286). -/
def treeSum (r : Rnd) (xs : List Word) : Word := treeFold (add32 r) (bitLen xs.length) xs

/-! ### Reference functions (R290) -/

/-- Bits of fixed-point fraction used by exp_ref and log_ref: far more than any FP32 input needs for correct
rounding (notes/assumptions/7.md). -/
def refBits : Nat := 320

/-- The floor of ln 2 times 2 to the 320. -/
def ln2Fix : Nat :=
  0xb17217f7d1cf79abc9e3b39803f2f6af40f343267298b62d8a0d175b8baafa2be7b876206debac98

/-- The Taylor series of the exponential in fixed point: `t` is the running term and `k` its index. -/
def expSeries (x : Nat) : Nat → Nat → Nat → Nat
  | 0, _, _ => 0
  | n + 1, k, t => t + expSeries x n (k + 1) (t * x / 2 ^ refBits / (k + 1))

/-- exp_ref (R290). -/
def expRef (x : Word) : Word :=
  match dec32 x with
  | .nan => qnan
  | .inf s => if s then 0#32 else f32Inf
  | .fin s m e =>
    if m = 0 then f32One
    else if e + (bitLen m : Int) > 8 then (if s then 0#32 else f32Inf)
    else
      let a : Int := signed s (if 0 ≤ e + (refBits : Int) then m * 2 ^ (e + (refBits : Int)).toNat else 0)
      let k : Int := a / (ln2Fix : Int)
      let f : Nat := (a - k * (ln2Fix : Int)).toNat
      BitVec.ofNat 32 (round32 .nearest false (2 * expSeries f 72 0 (2 ^ refBits) + 1) (k - (refBits : Int) - 1))

/-- The series of the inverse hyperbolic tangent: `p` is the running power of z. -/
def atanhSeries (z2 : Nat) : Nat → Nat → Nat → Nat
  | 0, _, _ => 0
  | n + 1, k, p => p / (2 * k + 1) + atanhSeries z2 n (k + 1) (p * z2 / 2 ^ refBits)

/-- log_ref (R290). -/
def logRef (x : Word) : Word :=
  match dec32 x with
  | .nan => qnan
  | .inf s => if s then qnan else f32Inf
  | .fin s m e =>
    if m = 0 then f32NegInf
    else if s then qnan
    else if e ≤ 0 && m = 2 ^ (-e).toNat then 0#32
    else
      let l := bitLen m
      -- x = f · 2^E with f in [1, 2)
      let E : Int := e + (l : Int) - 1
      let one := 2 ^ refBits
      let f := m * 2 ^ (refBits + 1 - l)
      let z := (f - one) * one / (f + one)
      let lf := 2 * atanhSeries (z * z / one) 110 0 z
      let v : Int := E * (ln2Fix : Int) + (lf : Int)
      BitVec.ofNat 32 (round32 .nearest (v < 0) (2 * v.natAbs + 1) (-(refBits : Int) - 1))

/-- rcp_ref (R290). -/
def rcpRef (x : Word) : Word :=
  match dec32 x with
  | .nan => qnan
  | .inf s => BitVec.ofNat 32 (packFp 0 s 0 0)
  | .fin s m e =>
    if m = 0 then BitVec.ofNat 32 (infBits 0 s) else divRound .nearest s 1 0 m e

/-- Integer square root by bits, most significant first. -/
def isqrtGo (n : Nat) : Nat → Nat → Nat
  | 0, r => r
  | k + 1, r =>
    let c := r + 2 ^ k
    if c * c ≤ n then isqrtGo n k c else isqrtGo n k r

/-- Integer square root. -/
def isqrt (n : Nat) : Nat := isqrtGo n (bitLen n / 2 + 1) 0

/-- rsqrt_ref (R290): the root of the quotient in fixed point with a sticky bit. -/
def rsqrtRef (x : Word) : Word :=
  match dec32 x with
  | .nan => qnan
  | .inf s => if s then qnan else 0#32
  | .fin s m e =>
    if m = 0 then BitVec.ofNat 32 (infBits 0 s)
    else if s then qnan
    else
      let (m, e) := if e % 2 = 0 then (m, e) else (2 * m, e - 1)
      let n := 2 ^ 160 / m
      let y := isqrt n
      let st := if y * y * m = 2 ^ 160 then 0 else 1
      BitVec.ofNat 32 (round32 .nearest false (2 * y + st) (-(e / 2) - 81))

end Sys2Proof.Machine
end

