-- ==== Sys2Proof/Machine/Tab.lean ====
section
/-! DEFINITION. Sparse tables: every memory, register file and table of the DM9 model is a `Tab`, a list of
keys and values in one canonical form (keys strictly rising, no entry equal to the default). Reading takes the
default as an argument; writing the default removes the entry, so that equal contents are equal data. -/

namespace Sys2Proof.Machine

variable {α : Type}

/-- The value at a key; `d` where nothing is listed. -/
def tabGet (d : α) : Tab α → Nat → α
  | [], _ => d
  | (k, v) :: t, a => if a = k then v else tabGet d t a

/-- The table without a key. -/
def tabDel : Tab α → Nat → Tab α
  | [], _ => []
  | (k, v) :: t, a => if a = k then tabDel t a else (k, v) :: tabDel t a

/-- The table with a listed key set, in key order. -/
def tabIns (t : Tab α) (a : Nat) (x : α) : Tab α :=
  match t with
  | [] => [(a, x)]
  | (k, v) :: t =>
    if a < k then (a, x) :: (k, v) :: t
    else if a = k then (a, x) :: t
    else (k, v) :: tabIns t a x

/-- Writes one key, and keeps the canonical form. -/
def tabSet [DecidableEq α] (d : α) (t : Tab α) (a : Nat) (x : α) : Tab α :=
  if x = d then tabDel t a else tabIns t a x

/-- Changes the value at one key. -/
def tabMod [DecidableEq α] (d : α) (t : Tab α) (a : Nat) (f : α → α) : Tab α :=
  tabSet d t a (f (tabGet d t a))

/-- Drops every key from `a` to `a + n - 1`: they read as the default. -/
def tabClear (t : Tab α) (a n : Nat) : Tab α :=
  t.filter fun e => e.1 < a || a + n ≤ e.1

/-- The values of `n` keys from `a`. -/
def tabRead (d : α) (t : Tab α) (a n : Nat) : List α :=
  (List.range n).map fun i => tabGet d t (a + i)

/-- Writes a list of values to the keys from `a`. -/
def tabWrite [DecidableEq α] (d : α) (t : Tab α) (a : Nat) : List α → Tab α
  | [] => t
  | x :: xs => tabWrite d (tabSet d t a x) (a + 1) xs

/-- Writes one value to `n` keys from `a`. -/
def tabFill [DecidableEq α] (d : α) (t : Tab α) (a n : Nat) (x : α) : Tab α :=
  tabWrite d t a (List.replicate n x)

/-- The canonical form: keys strictly rising, no entry equal to the default. -/
def tabWf [DecidableEq α] (d : α) : Tab α → Bool
  | [] => true
  | [(_, v)] => v ≠ d
  | (k, v) :: (k', v') :: t => v ≠ d && k < k' && tabWf d ((k', v') :: t)

/-- Keys of a table whose value passes a test. -/
def tabKeys (p : Nat → α → Bool) (t : Tab α) : List Nat :=
  (t.filter fun e => p e.1 e.2).map Prod.fst

/-- Changes every listed value; an entry that becomes the default is dropped. -/
def tabMap [DecidableEq α] (d : α) (f : Nat → α → α) (t : Tab α) : Tab α :=
  (t.map fun e => (e.1, f e.1 e.2)).filter fun e => e.2 ≠ d

/-- Keeps the listed entries that pass a test. -/
def tabFilter (p : Nat → α → Bool) (t : Tab α) : Tab α :=
  t.filter fun e => p e.1 e.2

/-- The lowest key below `n` at which nothing is listed. -/
def tabFree (t : Tab α) (n : Nat) : Option Nat :=
  (List.range n).find? fun a => t.all fun e => e.1 ≠ a

end Sys2Proof.Machine
end

