-- ==== Sys2Proof/Machine/RegMap.lean ====
section
/-! DEFINITION. The register fields of BAR0 that software writes or that a read changes (R6, R868), one row per
field of the block tables, with its access code, its reset value and the range that a write must keep to. Fields
that only mirror the machine's state (RO, RS) are computed from that state in Machine/RegCmds.lean. -/

namespace Sys2Proof.Machine

/-- Access codes of R6. RO and RS fields have no row here. -/
inductive RegAccess where
  | rw | rwl | w1c | w1s | rc | wo
deriving DecidableEq, Repr

/-- A register field: the register lies at `base + i * stride + j * stride2` for i < count and j < count2. A write
of a value outside `vmin` to `vmax` leaves the field unchanged. -/
structure RegField where
  base : Nat
  count : Nat
  stride : Nat
  count2 : Nat
  stride2 : Nat
  hi : Nat
  lo : Nat
  acc : RegAccess
  reset : Nat
  vmin : Nat
  vmax : Nat
deriving DecidableEq, Repr

/-- A field of a single register that takes every value. -/
def fld1 (base hi lo : Nat) (acc : RegAccess) (reset : Nat) : RegField :=
  ⟨base, 1, 0, 1, 0, hi, lo, acc, reset, 0, 2 ^ (hi + 1 - lo) - 1⟩

/-- A field of a single register with a range. -/
def fldR (base hi lo : Nat) (acc : RegAccess) (reset vmin vmax : Nat) : RegField :=
  ⟨base, 1, 0, 1, 0, hi, lo, acc, reset, vmin, vmax⟩

/-- A field of an array of registers. -/
def fldN (base count stride hi lo : Nat) (acc : RegAccess) (reset vmin vmax : Nat) : RegField :=
  ⟨base, count, stride, 1, 0, hi, lo, acc, reset, vmin, vmax⟩

/-- `count` consecutive RC counters. -/
def rcs (base count stride : Nat) : RegField := ⟨base, count, stride, 1, 0, 31, 0, .rc, 0, 0, 0⟩

/-- BEAT and ENERGY (chapter 2). -/
def beatFields : List RegField :=
  [ fld1 0x10000 31 31 .w1s 0, fld1 0x10000 5 5 .rwl 1, fld1 0x10000 4 4 .rwl 1, fldR 0x10000 1 0 .rwl 0 0 2,
    fldR 0x10004 15 0 .rwl 0x2710 1000 64000, fldR 0x10008 15 0 .rwl 0x1F4 100 32000,
    fldR 0x1000C 27 24 .rwl 3 1 15, fldR 0x1000C 23 16 .rwl 0x32 1 255, fldR 0x1000C 5 0 .rwl 0x0A 0 50,
    fld1 0x1001C 3 3 .w1c 0, fld1 0x1001C 2 2 .w1c 0, fld1 0x10020 31 0 .rwl 0, fld1 0x10024 7 0 .rwl 0,
    rcs 0x10040 5 4 ]

def energyFields : List RegField :=
  [ fldR 0x20008 5 0 .rwl 4 0 16, fld1 0x2000C 31 31 .w1s 0, fld1 0x20010 31 0 .rwl 0x57E40,
    fld1 0x20018 1 1 .w1c 0, fldN 0x20100 8 0x40 6 0 .rwl 0x64 0 100,
    fldN 0x20104 8 0x40 31 0 .rwl 0 0 0xFFFFFFFF ]

/-- CUE, ENGINE and STAGEHAND (chapter 3) and FLIES (chapter 5). -/
def unitFields : List RegField :=
  [ fld1 0x40010 15 0 .rw 0, rcs 0x40040 2 4, rcs 0x50008 36 0x400, rcs 0x5000C 36 0x400, rcs 0x60004 72 0x200,
    rcs 0x60008 72 0x200, fld1 0x30000 31 31 .w1s 0, rcs 0x30008 3 4, fldN 0x30200 8 0x20 7 0 .rwl 4 4 100,
    fldN 0x30208 8 0x20 0 0 .w1c 0 0 1, rcs 0x3020C 8 0x20 ]

/-- MMU and HBM (chapter 7) and SERVE (chapter 9). -/
def memFields : List RegField :=
  [ rcs 0x70040 4 4, rcs 0x70080 8 4, fld1 0x80000 31 31 .w1s 0, fldR 0x80000 23 16 .rwl 7 1 30,
    fldR 0x80000 15 8 .rwl 0x0F 5 40, fldR 0x80000 7 0 .rwl 0x0C 1 168, fld1 0x80004 31 31 .wo 0,
    fld1 0x80004 7 5 .wo 0, fld1 0x80004 4 0 .wo 0, ⟨0x80108, 8, 0x80, 3, 4, 31, 0, .rc, 0, 0, 0⟩ ]

def serveFields : List RegField :=
  [ fld1 0x90000 31 31 .w1s 0, fld1 0x90004 31 31 .w1c 0, fldR 0x90010 15 0 .rwl 0x8000 0 32768, rcs 0x90040 6 4,
    rcs 0x90110 4 4, fldN 0x90200 8 0x40 13 0 .rwl 0x400 0 8192, fldN 0x90204 8 0x40 3 0 .rwl 0xF 0 15,
    fldN 0x90208 8 0x40 22 0 .rwl 0x80000 0 4194304 ]

/-- VIDEO (chapter 11) and NET (chapter 12). -/
def netFields : List RegField :=
  [ fld1 0xA0000 31 31 .w1s 0, fld1 0xA0000 20 20 .rwl 0, fldR 0xA0000 19 16 .rwl 3 1 15,
    fldR 0xA0000 15 0 .rwl 100 20 1000, rcs 0xA0040 6 4, fld1 0xB0000 31 31 .w1s 0, fld1 0xB0038 2 0 .rwl 3,
    rcs 0xB0040 6 4, fldN 0xB0100 8 4 31 0 .rw 0 0 0xFFFFFFFF, fld1 0xB0120 31 28 .wo 0, fld1 0xB0120 23 0 .rw 0 ]

/-- The queue pair fields: function fn at stride 0x1000, queue pair k at stride 0x40 (chapter 12). -/
def qpFields : List RegField :=
  [ ⟨0xB1000, 9, 0x1000, 16, 0x40, 31, 12, .rw, 0, 0, 0xFFFFF⟩, ⟨0xB1004, 9, 0x1000, 16, 0x40, 31, 0, .rw, 0, 0, 0xFFFFFFFF⟩,
    ⟨0xB1008, 9, 0x1000, 16, 0x40, 31, 12, .rw, 0, 0, 0xFFFFF⟩, ⟨0xB100C, 9, 0x1000, 16, 0x40, 31, 0, .rw, 0, 0, 0xFFFFFFFF⟩,
    ⟨0xB1010, 9, 0x1000, 16, 0x40, 31, 31, .rw, 0, 0, 1⟩, ⟨0xB1010, 9, 0x1000, 16, 0x40, 29, 27, .rw, 0, 0, 7⟩,
    ⟨0xB1010, 9, 0x1000, 16, 0x40, 26, 23, .rw, 1, 1, 12⟩, ⟨0xB1010, 9, 0x1000, 16, 0x40, 22, 19, .rw, 1, 1, 12⟩,
    ⟨0xB1010, 9, 0x1000, 16, 0x40, 18, 14, .rw, 0, 0, 31⟩, ⟨0xB1014, 9, 0x1000, 16, 0x40, 31, 16, .rw, 0, 0, 0xFFFF⟩,
    ⟨0xB1014, 9, 0x1000, 16, 0x40, 7, 0, .rw, 0, 0, 0xFF⟩, ⟨0xB1018, 9, 0x1000, 16, 0x40, 11, 0, .rw, 0, 0, 0xFFF⟩,
    ⟨0xB101C, 9, 0x1000, 16, 0x40, 11, 0, .rw, 0, 0, 0xFFF⟩, fldN 0xB1400 9 0x1000 31 0 .wo 0 0 0xFFFFFFFF,
    fldN 0xB1404 9 0x1000 31 0 .wo 0 0 0xFFFFFFFF, rcs 0xB1410 9 0x1000, rcs 0xB1414 9 0x1000, rcs 0xB1418 9 0x1000 ]

/-- PAIR (chapter 14), FAULT (chapter 15), BIST (chapter 16), THERM (chapter 19), SEC (chapter 13) and UPDATE
(chapter 18). -/
def svcFields : List RegField :=
  [ fld1 0xC0000 31 31 .w1s 0, fld1 0xC0000 0 0 .rwl 1, fldR 0xC0004 15 0 .rwl 0xBB8 1 0xFFFF,
    fldR 0xC0008 7 0 .rwl 0x40 1 95, fld1 0xC0010 23 23 .w1c 0, rcs 0xC0040 5 4, rcs 0xC0064 1 4,
    fld1 0xD0000 31 31 .w1s 0, fld1 0xD0000 16 16 .rwl 1, fldR 0xD0000 15 0 .rwl 200 10 10000,
    fld1 0xD0010 11 0 .rw 0, rcs 0xD0040 8 4, fld1 0xE0000 31 31 .w1s 0, fld1 0xE0000 1 1 .rwl 1,
    fld1 0xE0000 0 0 .rwl 1, fldR 0xE0004 15 0 .rwl 0x1388 0 50000, fld1 0xE0034 7 0 .rw 0, rcs 0xE0040 4 4,
    fld1 0xF0000 31 31 .w1s 0, fldR 0xF0000 15 8 .rwl 0x5F 80 95, fld1 0xF0000 0 0 .rwl 0, fld1 0xF0004 29 29 .w1c 0,
    rcs 0xF0040 4 4, ⟨0xF0300, 14, 4, 1, 0, 31, 16, .rc, 0, 0, 0⟩, rcs 0x100040 1 4, fld1 0x110000 31 31 .w1s 0,
    fld1 0x110000 0 0 .rwl 1, fldR 0x110004 15 0 .rwl 0x4B0 120 0xFFFF, rcs 0x110040 3 4 ]

/-- Every row. -/
def regFields : List RegField :=
  beatFields ++ energyFields ++ unitFields ++ memFields ++ serveFields ++ netFields ++ qpFields ++ svcFields

/-- Whether the register at an address holds this field. -/
def RegField.at (r : RegField) (a : Nat) : Bool :=
  if a < r.base then false
  else
    let d := a - r.base
    let i := if r.count ≤ 1 then 0 else min (d / r.stride) (r.count - 1)
    let e := d - i * r.stride
    if r.count2 ≤ 1 then e = 0 else e % r.stride2 = 0 && e / r.stride2 < r.count2

/-- The stored fields of the register at an address. -/
def fieldsAt (a : Nat) : List RegField := regFields.filter fun r => r.at a

/-- The reset value of the register at an address, over its stored fields (R873). -/
def resetWord (a : Nat) : Word :=
  (fieldsAt a).foldl (fun w r => setFld w r.hi r.lo r.reset) 0#32

/-- The registers of one row with a reset value other than 0. -/
def RegField.resetAddrs (r : RegField) : List Nat :=
  if r.reset = 0 then []
  else (List.range r.count).flatMap fun i => (List.range r.count2).map fun j => r.base + i * r.stride + j * r.stride2

/-- The register file at reset: every register whose reset value is not 0, in address order. -/
def regsReset : Tab Word :=
  (regFields.flatMap RegField.resetAddrs).foldl (fun t a => tabSet 0#32 t a (resetWord a)) []

end Sys2Proof.Machine
end

