-- ==== Sys2Proof/Machine/EngineState.lean ====
section
/-! DEFINITION. The state of the compute units: matrix engines (R107), Stagehands (R160 to R172), Cue Lights
(R140) and the Flies (R235 to R265). -/

namespace Sys2Proof.Machine

/-- What a unit runs: the Running Order entry or the Walk-on, with its Flies window (R113), its Cue Light
window (R117, R121) and the signals that it adds when it ends (R59). -/
structure EntryCtx where
  kind : Nat
  part : Nat
  index : Nat
  stepId : Nat
  req : Nat
  /-- Walk-on slot, for a Walk-on -/
  slot : Option Nat
  prog : Nat
  progId : Word
  argPtr : Nat
  seed : DWord
  flat0 : Nat
  cnt0 : Nat
  flat1 : Nat
  cnt1 : Nat
  clBase : Nat
  clCount : Nat
  /-- false when the argument block breaks the limits of R120 (R121) -/
  clOk : Bool
  sigs : List (Nat × Nat)
  beat : DWord
  startUs : Nat
  deadlineUs : Nat
  predUs : Nat
  predUj : Nat
  le : Nat
deriving DecidableEq, Repr

/-- An asynchronous transfer in flight (R133, R194, R195). `st` is true for LM to DV. -/
structure Xfer where
  st : Bool
  lm : Nat
  dv : Nat
  rows : Nat
  len : Nat
  lmStride : Nat
  dvStride : Nat
  cue : Option (Nat × Nat)
  pc : Nat
  /-- the translation epoch under which it was checked (R336) -/
  epoch : Word
  /-- the pages that were checked under that epoch before an epoch command, with the leaves they were checked by (R338) -/
  held : List (Nat × DWord)
deriving DecidableEq, Repr

/-- A WAIT or WAITD that has not ended (R148 to R150). `pd` is the predicate of a .T form, `deadline` the time
in µs at which it times out. -/
structure CueWait where
  cl : Nat
  target : Nat
  take : Bool
  pd : Option Nat
  deadline : Option Nat
deriving DecidableEq, Repr

/-- What an engine or a Stagehand is doing. -/
inductive UnitPhase where
  | idle
  /-- the clear of R26 before the entry's first instruction -/
  | clearing
  | running
  /-- CTRL.END has been reached and R139 has not been met yet -/
  | ending
  /-- abandoned or cut, its in-flight accesses draining (R157) -/
  | draining
deriving DecidableEq, Repr

/-- Where a unit stands beside its work: R687, R705, R745. -/
structure UnitServ where
  /-- logical number served; none for a spare, a retired slot or an unfitted slot -/
  role : Option Nat
  spare : Bool
  retired : Bool
  inReset : Bool
  selftest : Bool
  /-- partition of the last entry or job -/
  lastPart : Option Nat
deriving DecidableEq, Repr

/-- A deferred exception (R156): raised, and reported to the engine or not yet. -/
structure Deferred where
  reported : Bool
  cause : Nat
  pc : Nat
  addr : Nat
  status : Status
  detail : List Nat
deriving DecidableEq, Repr

/-- A matrix engine (R107). `v` is keyed 128 r + lane, `acc` 16384 a + 128 row + column. -/
structure Engine where
  serv : UnitServ
  phase : UnitPhase
  run : Option EntryCtx
  s : Tab DWord
  v : Tab Word
  acc : Tab Word
  p : Tab (BitVec 128)
  pc : BitVec 20
  round : BitVec 2
  flags : Byte
  /-- accumulators marked skipped (R218) -/
  skip : BitVec 8
  /-- NQ of the preceding attn.smax (R220) -/
  smaxNq : Nat
  /-- PFMT of the last attn.smax, 0 before the first (R213) -/
  smaxFmt : Nat
  /-- vcvt.dn executed under st.round = 2 (R282) -/
  dnCount : Nat
  lm : Tab Byte
  xq : List Xfer
  wait : Option CueWait
  deferred : List Deferred
  /-- helper jobs of the entry that have not completed (R139, R184) -/
  helpers : Nat
  excLast : Byte
  /-- reads of st.cycle so far: the index of the free value -/
  freeCnt : Nat
  /-- the hardware has cut the run at an edge (R73) -/
  cut : Bool
  /-- the run was abandoned before its clear of R26 had completed -/
  uncleared : Bool
deriving DecidableEq, Repr

/-- A helper job (R165). -/
structure HelperJob where
  image : Word
  cl : Option Nat
  inc : Nat
  args : List Byte
  /-- engine slot that posted it, and its entry -/
  eng : Nat
  ctx : EntryCtx
  pc : Nat
deriving DecidableEq, Repr

/-- A Stagehand (R160, R161): RV64GC and Vector 1.0 state with VLEN 512; `v` is keyed 64 r + byte. -/
structure Stagehand where
  serv : UnitServ
  phase : UnitPhase
  job : Option HelperJob
  queue : List HelperJob
  x : Tab DWord
  f : Tab DWord
  v : Tab Byte
  csr : Tab DWord
  /-- the reservation of a load-reserved: address and length (R160) -/
  resv : Option (Nat × Nat)
  pc : DWord
  /-- true in machine mode (R161) -/
  machine : Bool
  zshtmo : DWord
  lm : Tab Byte
  xq : List Xfer
  wait : Option CueWait
  /-- destination of the pending zsh.cwait or zsh.cwaitd -/
  waitRd : Nat
  freeCnt : Nat
deriving DecidableEq, Repr

/-- A Cue Light (R140). -/
structure CueLight where
  count : Nat
  ovf : Bool
deriving DecidableEq, Repr

/-- A flat of the Flies (R240, R247, R252). -/
structure Flat where
  /-- holder code of the running Beat (FLIES_FLAT_MAP.HOLDER) -/
  holder : Nat
  lent : Bool
  test : Bool
  retired : Bool
  /-- to be retired at the next Beat edge -/
  pending : Bool
  /-- being cleared since its holder changed -/
  clearing : Bool
deriving DecidableEq, Repr

/-- A Walk-on set of three flats (R257, R259). -/
structure WalkonSet where
  user : Option Nat
  clearing : Bool
deriving DecidableEq, Repr

/-- The Flies: bytes keyed 65536 flat + offset; the firmware areas by first flat; guarantees in force. -/
structure Flies where
  mem : Tab Byte
  flats : Tab Flat
  sets : Tab WalkonSet
  /-- first flat of: staging A, staging B, the Walk-on sets, Stage Manager, video control, self-test restore; none before a start -/
  areas : List Nat
  guar : Tab Nat
  short : List Nat
  /-- the short partitions as a virtual function sees them, since the last edge (R621) -/
  shortShown : List Nat
  /-- copy of a flat under transparent test (R724) -/
  testCopy : Option Nat
  /-- 64-bit words whose next read finds a correctable (true) or an uncorrectable (false) error -/
  latent : Tab (Option Bool)
deriving DecidableEq, Repr

def UnitServ.init : UnitServ := ⟨none, false, false, false, false, none⟩

def Engine.init : Engine :=
  { serv := .init, phase := .idle, run := none, s := [], v := [], acc := [], p := [], pc := 0, round := 0,
    flags := 0, skip := 0, smaxNq := 0, smaxFmt := 0, dnCount := 0, lm := [], xq := [], wait := none, deferred := [],
    helpers := 0, excLast := 0, freeCnt := 0, cut := false, uncleared := false }

def Stagehand.init : Stagehand :=
  { serv := .init, phase := .idle, job := none, queue := [], x := [], f := [], v := [], csr := [], resv := none, pc := 0,
    machine := true, zshtmo := 0, lm := [], xq := [], wait := none, waitRd := 0, freeCnt := 0 }

def CueLight.init : CueLight := ⟨0, false⟩
/-- Holder 0xD, pool, unheld: the reset value of FLIES_FLAT_MAP. -/
def Flat.init : Flat := ⟨0xD, false, false, false, false, false⟩
def WalkonSet.init : WalkonSet := ⟨none, false⟩

def Flies.init : Flies :=
  { mem := [], flats := [], sets := [], areas := [], guar := [],
    short := [], shortShown := [], testCopy := none, latent := [] }

end Sys2Proof.Machine
end

