-- ==== Sys2Proof/Machine/MemState.lean ====
section
/-! DEFINITION. The state of stacked memory, translation and the HBM3E stacks (R296 to R350), and of the fault
log (R664 to R703). -/

namespace Sys2Proof.Machine

/-- A reply to a command (R385), as it is handed to the sender's route. -/
structure Reply where
  route : Route
  part : Nat
  tag : Word
  status : Status
  detail : Nat
  result : DWord
  beat : DWord
  /-- JOB_ID and SEQ of the command's sealed message (R575) -/
  job : DWord
  seq : DWord
  /-- the Beat in which it was made, whose edge gives the epoch that seals it (R579) -/
  made : DWord
deriving DecidableEq, Repr

/-- A frame of stacked memory: the space that owns it (R324, R331), its reference count, whether a step or a
Walk-on slot has reserved it (R328), and the key slot and key generation under which it was last written
(R335). -/
structure Frame where
  owner : Option Nat
  count : Nat
  resv : Bool
  wkey : Option (Nat × Nat)
deriving DecidableEq, Repr

/-- An entry of a commit group's journal (R326, R329). `old` is the leaf before; `fresh` a fresh mapping. -/
structure JEntry where
  va : Nat
  old : DWord
  fresh : Bool
deriving DecidableEq, Repr

/-- A commit group's journal and its reserved frames (R328, R330). -/
structure Journal where
  part : Nat
  stepId : Nat
  entries : List JEntry
  frames : List Nat
deriving DecidableEq, Repr

/-- What an epoch command does to its range, beside raising the epoch (R337). -/
inductive EpochOp where
  | unmap
  | protect (r w : Bool)
deriving DecidableEq, Repr

/-- An epoch command that waits or runs (R337 to R342), with the reply that it owes. -/
structure EpochCmd where
  space : Nat
  va : Nat
  len : Nat
  op : EpochOp
  /-- the reply that it owes -/
  reply : Reply
deriving DecidableEq, Repr

/-- A leaf translation in a translation cache: its partition, its page address, and whether the page is of 2 MiB (R321). -/
structure TcTag where
  part : Nat
  page : Nat
  big : Bool
deriving DecidableEq, Repr

/-- Stacked memory and translation. `bytes` is keyed by device physical address (plaintext: R344 is a property
of the stored form, see notes/assumptions/9.md), `poison`, `flips` and `corrupt` by granule number, `pt` by `ptKey`. -/
structure Mem where
  bytes : Tab Byte
  poison : Tab Bool
  /-- the stored bits of a granule, of the 523 that its 512 bits and their 11 check bits make, that have flipped (R302) -/
  flips : Tab (List Nat)
  /-- granules whose flipped bits have passed the code unseen or were corrected to a wrong word -/
  corrupt : Tab Bool
  frames : Tab Frame
  pt : Tab DWord
  /-- the physical address of each page table, by `tableKey` (R316, R317) -/
  tables : Tab Nat
  /-- the frame that takes the next small page tables, and how many of its bytes they use -/
  tableFrame : Option (Nat × Nat)
  /-- the physical address of the count table (R324) -/
  rcBase : Nat
  /-- the ways of each set of the translation caches: 512 times the cluster plus the set (R321) -/
  tc : Tab (List TcTag)
  /-- the upper-level entries in the walkers' cache, by `ptKey` (R321) -/
  upper : List Nat
  journals : List Journal
  /-- frames that a registered Walk-on slot program holds (R328, R880), by slot -/
  slotResv : Tab (List Nat)
  epochs : Tab Word
  epochQ : List EpochCmd
  epochStatus : Status
  capFrames : Nat
deriving DecidableEq, Repr

/-- A running migration (R308): its logical channel, its source and its spare, and when it started. -/
structure Migration where
  lc : Nat
  src : Nat
  dst : Nat
  startUs : Nat
deriving DecidableEq, Repr

/-- One HBM3E stack. `map` gives the physical pseudo-channel of each logical channel. -/
structure Stack where
  map : Tab (Option Nat)
  spares : List Nat
  retired : List Nat
  training : List Nat
  migration : Option Migration
  /-- corrected errors of each pseudo-channel in each hour: 32 times the hour plus the pseudo-channel -/
  ceHour : Tab Nat
  tempC : Int
  tempTrain : Tab Int
  headCnt : Tab Nat
  refreshes : Nat
  /-- parity errors in a row that the next access meets (R300) -/
  parity : Nat
  /-- level of R823 -/
  level : Nat
deriving DecidableEq, Repr

/-- The eight stacks, the order of the migration triggers (R307), and LC_RETIRED (R312). -/
structure Hbm where
  hbmStacks : Tab Stack
  trigQ : List (Nat × Nat)
  lcRetired : List Nat
  /-- granules that the scrub has read since its pass began -/
  scrubbed : Nat
deriving DecidableEq, Repr

/-- A fault event as it enters the log FIFO (R666, R670). -/
structure FaultEvent where
  beat : DWord
  phase : Nat
  cls : Nat
  cause : Nat
  action : Nat
  flags : Nat
  ctx : DWord
  origin : Byte
  status : Status
  unit : Nat
  pc : Nat
  addr : DWord
  sampleNo : Word
  detail : List Nat
deriving DecidableEq, Repr

/-- A record of the event log (R666): its number, its event, the wall-clock label and the lost counts. -/
structure LogRecord where
  recordNo : DWord
  ev : FaultEvent
  wallNs : DWord
  lost : List Nat
deriving DecidableEq, Repr

/-- A sealed scratchpad sample (R682 to R684): number, partition, unit, the number of its record, the context word, the bytes of the
register image, the LM bytes, and the key that seals it. -/
structure Sample where
  no : Nat
  part : Nat
  unit : UnitRef
  record : DWord
  ctx : DWord
  regs : List Byte
  bytes : Tab Byte
  key : List Byte
  copied : Bool
deriving DecidableEq, Repr

/-- The event log, the samples, the resets under way and the escalation windows. Times are µs of the RoT's
monotonic timer (R697). -/
structure FaultState where
  fifo : List FaultEvent
  /-- internal count of each class (R670) -/
  lost : Tab Nat
  /-- the ring of 4,096 records by slot (R668) -/
  log : Tab (Option LogRecord)
  head : DWord
  /-- FAULT_LOG_DATA0 to 31 -/
  window : Tab Word
  /-- records per partition, and the values the slices show since the last edge (R703) -/
  recCnt : Tab Word
  recShown : Tab Word
  samples : List Sample
  nextSample : Nat
  sampleLast : Tab Word
  sampleShown : Tab Word
  /-- reset times of unit slots, clusters and the device (R696) -/
  unitWin : List (Nat × UnitRef)
  clusterWin : List (Nat × Nat)
  devWin : List Nat
  devTotal : Nat
  clReset : List Nat
  clOut : List Nat
  partReset : List Nat
  dark : Bool
  /-- an uncorrectable error in firmware data: a device reset follows the access (R304) -/
  fwPoison : Bool
deriving DecidableEq, Repr

def Frame.init : Frame := ⟨none, 0, false, none⟩

/-- Reset: nothing mapped, 4,194,304 software frames in service (MMU_CAP_FRAMES). -/
def Mem.init : Mem :=
  { bytes := [], poison := [], flips := [], corrupt := [], frames := [], pt := [], tables := [], tableFrame := none, rcBase := 0,
    tc := [], upper := [], journals := [], slotResv := [], epochs := [], epochQ := [], epochStatus := 0, capFrames := 0x400000 }

def Stack.init : Stack :=
  { map := [], spares := [], retired := [], training := [], migration := none, ceHour := [], tempC := 0,
    tempTrain := [], headCnt := [], refreshes := 0, parity := 0, level := 0 }

def Hbm.init : Hbm := { hbmStacks := [], trigQ := [], lcRetired := [], scrubbed := 0 }

def FaultState.init : FaultState :=
  { fifo := [], lost := [], log := [], head := 0, window := [], recCnt := [], recShown := [], samples := [],
    nextSample := 0, sampleLast := [], sampleShown := [], unitWin := [], clusterWin := [], devWin := [],
    devTotal := 0, clReset := [], clOut := [], partReset := [], dark := false, fwPoison := false }

end Sys2Proof.Machine
end

