-- ==== Sys2Proof/Machine/ServeState.lean ====
section
/-! DEFINITION. The state of serving (R382 to R449): the request table, the program images, masks, variants,
prefix trees, head-spread sets and Samplers, and the commit groups of the running Beat. -/

namespace Sys2Proof.Machine

/-- STATE of R394. -/
inductive ReqState where
  | admitted | prefill | decode | paused | done | failed
deriving DecidableEq, Repr

/-- A head-spread contribution (R372): step, layer, sending rank and payload. -/
structure Contribution where
  step : Nat
  layer : Nat
  rank : Nat
  bytes : List Byte
deriving DecidableEq, Repr

/-- An occupied request table entry (R394, R882), with its token log and its count table. -/
structure Request where
  jobId : DWord
  state : ReqState
  status : Status
  part : Nat
  prio : Nat
  age : Nat
  cuts : Nat
  /-- measured time of a cut attempt that has not been planned again, in µs (R77) -/
  carry : Option Nat
  retry : Bool
  promoted : Bool
  insert : Bool
  countFull : Bool
  spread : Option Nat
  pausePending : Bool
  variant : Nat
  ncand : Nat
  topK : Nat
  temp : Word
  topP : Word
  pres : Word
  freq : Word
  rep : Word
  window : Nat
  failUnit : BitVec 16
  len : Nat
  logLen : Nat
  maxNew : Nat
  emitted : Nat
  pending : Word
  seed : DWord
  outSeq : Nat
  prefixTokens : Nat
  admitBeat : DWord
  lastBeat : DWord
  stop : List Word
  distinct : Nat
  lastNode : Option Nat
  /-- the way the job arrived, by which its results leave (R30) -/
  route : Route
  /-- token log by position (R382) -/
  log : Tab Word
  /-- count table by slot (R421); a slot that is not listed is empty -/
  counts : Tab DWord
  /-- frames of an extended token log (R382) -/
  ext : List Nat
  /-- a CANCEL accepted while a step runs (R441, R442) -/
  cancelled : Bool
  /-- a status under which the request fails at the end of its step in progress (R380) -/
  failAtEnd : Option Status
  /-- ranges that MEM_UNMAP or MEM_PROTECT revoked (R343) -/
  revoked : List (Nat × Nat)
  /-- current step number of a head-spread request, and edges since its first dispatch (R378) -/
  stepNo : Nat
  spreadEdges : Option Nat
  /-- contributions held, its own among them, by step, layer and rank (R372, R373) -/
  contribIn : List Contribution
  /-- contributions sent, kept for a member that may ask for them again (R376) -/
  contribOut : List Contribution
  /-- gathered head outputs of the layers of its current step: layer, and the outputs in rank order (R373) -/
  gathered : List (Nat × List Byte)
  /-- units of the failure being retried (R444) -/
  avoid : List (BitVec 16)
  /-- whether the prefix walk of R403 has been done -/
  walked : Bool
  /-- chunks completed in the running Beat, which the tree updates of its edge take; and those that wait for a TREE_UPDATE (R404) -/
  treeQ : List Nat
  treeDue : List Nat
deriving DecidableEq, Repr

/-- A loaded program image (R122, R125). -/
structure Image where
  part : Nat
  walkon : Bool
  train : Bool
  progId : Word
  flMin : Nat
  flWant : Nat
  clMax : Nat
  words : List DWord
  /-- a PROG_UNLOAD waits for R130 -/
  unloading : Bool
deriving DecidableEq, Repr

/-- A registered mask object (R357, R358): tile words and bitmaps. -/
structure Mask where
  part : Nat
  nqt : Nat
  nkt : Nat
  tiles : List Word
  bitmaps : List (List Byte)
  unloading : Bool
deriving DecidableEq, Repr

/-- A private expert entry (R409). -/
structure Expert where
  layer : Nat
  weightBytes : Nat
  weights : Nat
  row : Nat
deriving DecidableEq, Repr

/-- A resident variant (R408). -/
structure Variant where
  part : Nat
  desc : VariantRec
  experts : List Expert
  /-- address of the served private expert weights after an EXPERT_PUBLISH (R419) -/
  served : Option Nat
  /-- EXPERT_PUBLISH commands applied, and the bytes of the last (R661) -/
  pubs : Nat
  lastPub : List Byte
  unloading : Bool
  unavailable : Bool
deriving DecidableEq, Repr

/-- A prefix tree node (R401) with its page list. -/
structure Node where
  hash : DWord
  check : DWord
  parent : Option Nat
  children : Nat
  next : Option Nat
  variant : Nat
  depth : Nat
  pages : List Nat
  lastUse : DWord
deriving DecidableEq, Repr

/-- A registered head-spread set (R370). -/
structure SpreadSet where
  part : Nat
  desc : SpreadRec
  leaving : Bool
deriving DecidableEq, Repr

/-- A fine-tuning job (R390, TRAIN_SUBMIT). -/
structure TrainJob where
  variant : Nat
  part : Nat
  addr : Nat
  steps : Nat
  route : Route
  tag : Word
deriving DecidableEq, Repr

/-- A pending EXPERT_PUBLISH (R419). -/
structure Publish where
  variant : Nat
  beat : DWord
  addr : Nat
  cmd : List Byte
deriving DecidableEq, Repr

/-- A Sampler job in a queue, and whether its wait has been served, it has been taken or has completed (R429). -/
inductive JobPhase where
  | waiting | granted | running | complete | cut | failed
deriving DecidableEq, Repr

/-- A queued Sampler job. -/
structure QJob where
  job : SamplerJob
  phase : JobPhase
  startUs : Nat
deriving DecidableEq, Repr

/-- A cluster's Sampler (R16): the physical Sampler that serves it and its queue. -/
structure Sampler where
  phys : Option Nat
  queue : List QJob
  inReset : Bool
deriving DecidableEq, Repr

/-- How an entry of the running Beat stands. -/
inductive EntryStatus where
  | queued
  | running (e : Nat)
  | retired
  | voided
  | cut
  | faulted
deriving DecidableEq, Repr

/-- How a commit group stands (R438, R443). -/
inductive GroupStatus where
  | active
  | committed
  | cut
  | failed
deriving DecidableEq, Repr

/-- A commit group in flight: its plan, its outcome so far, and the unit that its failure names (R445). -/
structure Group where
  plan : StepPlan
  status : GroupStatus
  beat : DWord
  /-- a failure that is not retried, with the status its requests end with (R445) -/
  fatal : Option Status
  unit : BitVec 16
  /-- the partner froze the Running Order in which it was dispatched (R640) -/
  led : Bool
  /-- completed, and awaiting the partner's verdict (R640) -/
  awaiting : Bool
  /-- abandoned entries of the group whose drain has not ended (R157) -/
  draining : Nat
  /-- time at which its first entry was dispatched (R77) -/
  startUs : Option Nat
  /-- what its writes outside KV pages have replaced, by physical address, newest first (R74) -/
  undo : List (Nat × Byte)
deriving DecidableEq, Repr

/-- A group as its Beat begins. -/
def Group.init (p : StepPlan) (beat : DWord) (led : Bool) : Group :=
  { plan := p, status := .active, beat := beat, fatal := none, unit := 0xFFFF, led := led, awaiting := false, draining := 0, startUs := none,
    undo := [] }

/-- A commit record (R438). -/
structure CommitRec where
  part : Nat
  stepId : Nat
  beat : DWord
  /-- the lowest request index of the step; 0xFFFF for none -/
  req : Nat
deriving DecidableEq, Repr

/-- What a command that owes its reply waits for: a variant, a mask or an image to fall out of use (R130, R390,
R415). -/
inductive OweKind where
  | variant (v : Nat)
  | mask (i : Nat)
  | image (i : Nat)
deriving DecidableEq, Repr

/-- The Stage Manager's tables, the Samplers and the Prefix Walkers. Trees are keyed 2 to the 22 times the
partition plus the node index; buckets 2 to the 23 times the partition plus the bucket. -/
structure Serve where
  reqs : Tab (Option Request)
  images : Tab (Option Image)
  nextImage : Nat
  masks : Tab (Option Mask)
  variants : Tab (Option Variant)
  nodes : Tab (Option Node)
  buckets : Tab (Option Nat)
  flush : List Nat
  sets : Tab (Option SpreadSet)
  train : List TrainJob
  /-- training copy of each variant's private experts (R418), by variant: steps committed -/
  trainCopy : Tab Nat
  publishes : List Publish
  samplers : Tab Sampler
  /-- physical Samplers out of service -/
  samplersOut : List Nat
  walkers : Nat
  groups : List Group
  records : List CommitRec
  /-- live counters of each partition: admissions, refusals, DONE ends, FAILED ends (keyed 4 n + i), and the
  values shown since the last edge (R449) -/
  cnt : Tab Word
  shown : Tab Word
  /-- SERVE_Pn_LIVE and SERVE_Pn_TREE_NODES as shown since the last edge (R449) -/
  liveShown : Tab Nat
  nodesShown : Tab Nat
  /-- next output sequence number of each job (R29), by JOB_ID -/
  jobSeq : Tab Nat
  /-- commands that wait for a condition before their reply: the reply they owe -/
  owed : List (OweKind × Reply)
deriving DecidableEq, Repr

def Sampler.init : Sampler := ⟨none, [], false⟩

def Serve.init : Serve :=
  { reqs := [], images := [], nextImage := 0, masks := [], variants := [], nodes := [], buckets := [], flush := [],
    sets := [], train := [], trainCopy := [], publishes := [], samplers := [], samplersOut := [],
    walkers := 0, groups := [], records := [], cnt := [], shown := [], liveShown := [], nodesShown := [], jobSeq := [], owed := [] }

end Sys2Proof.Machine
end

