-- ==== Sys2Proof/Machine/BeatState.lean ====
section
/-! DEFINITION. The state of the Beat unit, of the Running Orders, and of the energy ledger (R33 to R106). -/

namespace Sys2Proof.Machine

/-- The Beat unit. Offsets are in ns, times in µs. The programmed period and FREEZE_LEAD are register fields;
`period` and `lead` are the values in force. -/
structure Beat where
  /-- Beat edges are being placed: the main domain has been started -/
  started : Bool
  num : DWord
  phaseUs : Nat
  period : Nat
  lead : Nat
  /-- a written period and FREEZE_LEAD that wait for the next The Half, and those that wait for the edge after it (R34, R46) -/
  periodPend : Option Nat
  leadPend : Option Nat
  periodNext : Option Nat
  leadNext : Option Nat
  halfPassed : Bool
  locked : Bool
  holdover : Bool
  beatOut : Bool
  missed : Nat
  /-- consecutive BEAT_IN edges inside the window -/
  good : Nat
  /-- a source edge has placed the expected edge of the running Beat, and its offset against the expected time -/
  edgeSeen : Bool
  pinNs : Int
  /-- how far the last edge lies after the whole µs at which `phaseUs` began, in ns: between −1,000 and 1,000 -/
  fracNs : Int
  /-- the PTP servo: its offset, the RoT time since which the offset has stayed within ±1 µs, the last Sync (the master's time, the
  device's time and the RoT time of its arrival), and the PTP time at a RoT time -/
  ptpOffsetNs : Int
  ptpIn : Option Nat
  ptpSync : Option (Nat × Nat × Nat)
  ptpRef : Option (Nat × Nat)
  /-- wall-clock time of the last received label source, and the RoT time at which it came (R103, R105) -/
  wall : Option (Nat × Nat)
  cutsDone : Bool
  clearsDone : Bool
  /-- last Beat number that the RoT recorded (R43) -/
  rotNum : DWord
deriving DecidableEq, Repr

/-- An entry, Walk-on or helper time of a Beat, for its ledger (R96, R98). -/
structure Ran where
  part : Nat
  kind : Nat
  cluster : Nat
  predUj : Nat
  us : Nat
deriving DecidableEq, Repr

/-- A closed billing record (R102). -/
structure BillRecord where
  period : Nat
  first : DWord
  last : DWord
  energy : List Nat
  eus : List Nat
  operator : Int
  labelFirst : DWord
  labelLast : DWord
  partialRec : Bool
  stepped : Bool
deriving DecidableEq, Repr

/-- The energy ledger. Energies in µJ; coefficients in 2 to the −16 µJ, keyed 17 c + k with c_static at 16. -/
structure Energy where
  cap : Nat
  /-- a written cap, and the one that the frozen Running Order uses (R86) -/
  capPend : Option Nat
  capNext : Option Nat
  reserve : Int
  coef : Tab Nat
  /-- Stagehand idle power of each cluster, as calibrated at bring-up, in µW (R815) -/
  shIdle : Tab Nat
  gen : Word
  /-- E_beat and the period of the ending Beat (R85) -/
  endBudget : Nat
  endPeriod : Nat
  ran : List Ran
  ending : List Ran
  endingBeat : DWord
  /-- the ledger of the ending Beat has closed -/
  closed : Bool
  lastMj : Nat
  /-- measured base energy of the last closed Beat, and its period (R90) -/
  lastBase : Int
  lastBaseUs : Nat
  /-- predicted draw of the Beat in progress (R91) -/
  drawRunning : Nat
  billNum : Nat
  billFirst : DWord
  billLast : DWord
  /-- ENERGY_BILL_BEATS as the period after the open one took it when it began (R99) -/
  billNext : Option Nat
  /-- sums of the open period: partition energies, engine times, operator account -/
  billUj : Tab Nat
  billEus : Tab Nat
  billOp : Int
  billPartial : Bool
  records : List BillRecord
  /-- charges and engine time of the last closed Beat, and the values the slices show (R622, R623) -/
  lastUj : Tab Nat
  lastEus : Tab Nat
  shownUj : Tab Nat
  shownEus : Tab Nat
  shownPeriod : Tab Nat
  defer : List Nat
  deferShown : List Nat
  labelHigh : DWord
  stepped : Bool
  /-- labels of the last Beats, newest first (R103): the Beat number, the label, and whether it stepped back (R104); and that of the
  open period's first Beat -/
  labels : List (DWord × DWord × Bool)
  billLabel : DWord × Bool
  /-- charges of the open period survive in RoT SRAM; false until the first edge after a start (R881) -/
  resumed : Bool
deriving DecidableEq, Repr

/-- What the planner's output is a function of (R84): the request table, the energy ledger with its coefficient set, the unit map
(by physical slot) and the Beat number. -/
structure PlanInput where
  reqs : Tab (Option Request)
  ledger : Energy
  engines : List (Option Nat)
  stagehands : List (Option Nat)
  beat : DWord
deriving DecidableEq, Repr

/-- The Running Orders: the one published for the next Beat, the one frozen with the entries that validation
voided, the running one with the status of its entries, and the fallback windows. -/
structure Orders where
  published : Option Order
  /-- the inputs of the last plan, and the plan (R84) -/
  planned : Option (PlanInput × Order)
  frozen : Option Order
  frozenVoid : List Nat
  running : Option Order
  /-- the entries of the running order that validation voided -/
  runningVoid : List Nat
  status : Tab EntryStatus
  fallback : Order
  /-- the running, and the frozen, Running Order is the fallback (HEALTH.HALF_MISSED) -/
  onFallback : Bool
  nextFallback : Bool
  /-- the partner froze the running order, or it is the shadow of one that the partner froze (R640) -/
  led : Bool
  /-- staging area of the running order: 0 for A, 1 for B -/
  area : Nat
  /-- Walk-on windows of the running Beat that are open, by entry index, and the Walk-on slot that occupies
  each -/
  opened : List Nat
  occupied : Tab (Option Nat)
deriving DecidableEq, Repr

/-- A Running Order that holds nothing: the fallback before the Stage Manager has written one. -/
def emptyOrder : Order :=
  { hdr := ⟨0, 0, 0, 0, 0, 0, 0, 0, 0, 0, [], 0⟩,
    entries := [], xlist := [], jobs := [], steps := [], flats := [], plans := [] }

/-- Reset values of chapter 2: period 10,000 µs, FREEZE_LEAD 500 µs, Beat number 0. -/
def Beat.init : Beat :=
  { started := false, num := 0, phaseUs := 0, period := 10000, lead := 500, periodPend := none, leadPend := none,
    periodNext := none, leadNext := none, halfPassed := false, locked := false, holdover := false,
    beatOut := false, missed := 0, good := 0, edgeSeen := false, pinNs := 0, fracNs := 0, ptpOffsetNs := 0,
    ptpIn := none, ptpSync := none, ptpRef := none,
    wall := none, cutsDone := true, clearsDone := true, rotNum := 0 }

def Orders.init : Orders :=
  { published := none, planned := none, frozen := none, frozenVoid := [], running := none, runningVoid := [], status := [], fallback := emptyOrder, onFallback := false, nextFallback := false, led := false,
    area := 0, opened := [], occupied := [] }

/-- Reset values of chapter 2: cap 800 W, reserve 0, period 0 open. -/
def Energy.init : Energy :=
  { cap := 800, capPend := none, capNext := none, reserve := 0, coef := [], shIdle := [], gen := 0, endBudget := 0, endPeriod := 0, ran := [],
    ending := [], endingBeat := 0, closed := true, lastMj := 0, lastBase := 0, lastBaseUs := 0, drawRunning := 0, billNum := 0, billFirst := 0,
    billLast := 359999, billNext := none, billUj := [], billEus := [], billOp := 0, billPartial := false, labels := [], billLabel := (0, false),
    records := [], lastUj := [], lastEus := [], shownUj := [], shownEus := [], shownPeriod := [], defer := [],
    deferShown := [], labelHigh := 0, stepped := false, resumed := false }

end Sys2Proof.Machine
end

