-- ==== Sys2Proof/Machine/PortState.lean ====
section
/-! DEFINITION. The state of the Call Board and the Curtain (R450 to R489) and of the video engines (R490 to
R536). -/

namespace Sys2Proof.Machine

/-- STATE of a Walk-on slot (R460). -/
inductive SlotState where
  | idle | pending | running | done | refused | planned
deriving DecidableEq, Repr

/-- A Walk-on slot: its registration, and the request in progress. -/
structure Slot where
  state : SlotState
  req : Nat
  arg : BitVec 16
  /-- REQ and ARG of slot word 0 as last written (R460, R462) -/
  wordReq : Nat
  wordArg : BitVec 16
  outSeq : BitVec 16
  status : Status
  /-- partition of the registration; none when the slot is not registered -/
  reg : Option Nat
  image : Nat
  samplerTpl : Option SamplerJob
  argTpl : List Byte
  pages : Nat
  predUs : Nat
  /-- a WALKON_UNREG that takes effect at the next edge -/
  leaving : Bool
  /-- the Beat in which the running Walk-on was dispatched, and its step -/
  beat : DWord
  stepId : Nat
  /-- counted in BEAT_WALKON_WAIT_CNT and in FLIES_WALKON_WAIT_CNT already -/
  waited : Bool
  waitedSet : Bool
  /-- the function whose doorbell asked, and the queue pair for its events (R563) -/
  bell : Option (Nat × Nat)
deriving DecidableEq, Repr

/-- The Call Board. `edge` holds the edge words as last latched (R451), `ring` the ring words by word number. -/
structure Board where
  edge : Tab Word
  slots : Tab Slot
  ring : Tab Word
  ringHead : Word
  badWr : Byte
  dispatched : BitVec 16
  dropped : BitVec 16
  seq : Word
  hiLatch : Tab (Option Word)
deriving DecidableEq, Repr

/-- Where a result stands between commit and egress. -/
inductive ResultState where
  /-- queued at its port, before its gate -/
  | queued
  | held
  | sending
deriving DecidableEq, Repr

/-- A result (R439, R576): tokens of a step, or an encoded video payload. -/
structure Result where
  id : Nat
  part : Nat
  job : DWord
  req : Nat
  outSeq : Nat
  ntok : Nat
  tokens : List Word
  status : Status
  beat : DWord
  slot : Option Nat
  route : Route
  kind : Nat
  stream : Nat
  /-- bytes of the sealed message (R479) -/
  size : Nat
  bytes : List Byte
  state : ResultState
  /-- Beat edges since it was first held; none while it never was -/
  heldEdges : Option Nat
deriving DecidableEq, Repr

/-- The Curtain: the closing conditions (R472), the policies, and the results on their way. -/
structure CurtainState where
  pinLow : Bool
  mgmt : Bool
  rehearsal : Bool
  policy : BitVec 8
  policyPend : Option (BitVec 8)
  results : List Result
  nextId : Nat
deriving DecidableEq, Repr

/-- STATE of a stream (R499). -/
inductive StreamState where
  | closed | waitKey | running | draining
deriving DecidableEq, Repr

/-- A frame that waits for a video engine (R502 to R508). -/
structure PendFrame where
  frameNo : Nat
  captureUs : DWord
  bytes : Nat
  arrivalUs : Nat
deriving DecidableEq, Repr

/-- A decoded frame ready as a model-input tile (R511). -/
structure ReadyFrame where
  frameNo : Nat
  captureUs : DWord
  buf : Nat
  readyUs : Nat
  filmGrain : Bool
deriving DecidableEq, Repr

/-- A video stream (R497 to R532). -/
structure Stream where
  state : StreamState
  part : Nat
  /-- the way STREAM_OPEN came, by which encoded video leaves (R550) -/
  route : Route
  desc : Option OpenDesc
  needKey : Bool
  group : Nat
  /-- FRAME_NO of the previous access unit (R503), and the bytes of the unit being gathered -/
  lastNo : Option Nat
  gather : Nat
  frames : List PendFrame
  ready : List ReadyFrame
  /-- last good frame, and the frames bound in the running and the next Beat (R512) -/
  good : Option ReadyFrame
  bound : Option ReadyFrame
  boundNext : Option ReadyFrame
  stale : Bool
  staleBeats : Nat
  /-- next source frame, pending key request, refresh wave frames left, next output sequence number -/
  source : Nat
  keyReq : Bool
  refresh : Nat
  outSeq : Nat
  /-- results of the frame in progress, whether that frame waits to be processed again from its start, and the results of it that have
  already left (R495, R510) -/
  slices : Nat
  redo : Bool
  skip : Nat
  /-- the source pictures taken so far, each with whether a key request or a refresh wave begins at it, and the CTU rows of the picture in
  progress that its slices hold (R494, R495, R528) -/
  pictures : List (List Byte × Bool)
  ctuRow : Nat
deriving DecidableEq, Repr

/-- A video engine (R505 to R510). -/
structure VEngine where
  inService : Bool
  spare : Bool
  failed : Bool
  selftest : Bool
  stream : Option Nat
  frame : Option PendFrame
  /-- stream whose context is loaded (R506) -/
  ctx : Option Nat
deriving DecidableEq, Repr

/-- A group: its pending membership (R520), attached requests and the record last written (R518). -/
structure VGroup where
  attached : List Nat
  pendingSet : Option (List Nat)
  /-- OMIT of the record of the running and of the next Beat (R518) -/
  omitNow : Bool
  omitNext : Bool
  /-- the record has been written and the ready Cue Light waits to be set (R514) -/
  unready : Option Nat
deriving DecidableEq, Repr

/-- The video engines and streams. -/
structure Video where
  streams : Tab Stream
  groups : Tab VGroup
  engines : Tab VEngine
  bindLead : Nat
  /-- the binding point of the running Beat has passed (R513) -/
  bindDone : Bool
  /-- omissions of each partition, cumulative, and as shown since the last edge (R533) -/
  omitCnt : Tab Word
  omitShown : Tab Word
  openShown : Tab Nat
deriving DecidableEq, Repr

def Stream.init : Stream :=
  { state := .closed, part := 0, route := .internal, desc := none, needKey := false, group := 0, lastNo := none, gather := 0,
    frames := [], ready := [], good := none, bound := none, boundNext := none, stale := false, staleBeats := 0,
    source := 0, keyReq := false, refresh := 0, outSeq := 0, slices := 0, redo := false, skip := 0, pictures := [],
    ctuRow := 0 }

def VEngine.init : VEngine := ⟨false, false, false, false, none, none, none⟩
def VGroup.init : VGroup := ⟨[], none, false, false, none⟩
/-- BIND_LEAD_US resets to 100 µs. -/
def Video.init : Video :=
  { streams := [], groups := [], engines := [], bindLead := 100, bindDone := false, omitCnt := [], omitShown := [], openShown := [] }

def Slot.init : Slot :=
  { state := .idle, req := 0, arg := 0, wordReq := 0, wordArg := 0, outSeq := 0, status := 0, reg := none, image := 0, samplerTpl := none,
    argTpl := [], pages := 0, predUs := 0, leaving := false, beat := 0, stepId := 0, waited := false,
    waitedSet := false, bell := none }

def Board.init : Board :=
  { edge := [], slots := [], ring := [], ringHead := 0, badWr := 0, dispatched := 0, dropped := 0, seq := 0,
    hiLatch := [] }

/-- The policy is HOLD for every partition at reset (R478), and the gates are open. -/
def CurtainState.init : CurtainState :=
  { pinLow := false, mgmt := false, rehearsal := false, policy := 0xFF, policyPend := none, results := [],
    nextId := 0 }

end Sys2Proof.Machine
end

