-- ==== Sys2Proof/Machine/NetState.lean ====
section
/-! DEFINITION. The state of the host interface, the Ethernet ports, sealed messages and House traffic (R534 to
R589), and the log of what the block drives out. -/

namespace Sys2Proof.Machine

/-- An outbound event of a queue pair (R551, R557). -/
inductive OutEvent where
  | reply (r : Reply) (cid : BitVec 16)
  | result (id : Nat)
  | error (status : Status) (cid : BitVec 16) (job seq : DWord)
  | walkon (slot : Nat) (status : Status) (state : Nat)
  /-- a COLLECTIVE or an ABORT for another member of a head-spread set (R372, R378) -/
  | member (kind : Nat) (job seq : DWord) (plain : List Byte)
deriving DecidableEq, Repr

/-- A queue pair of a PCIe function (R545 to R559). Bases and CFG, COAL fields are register fields. -/
structure QPair where
  en : Bool
  err : Bool
  sqHead : Nat
  sqTail : Nat
  cqTail : Nat
  cqHead : Nat
  phase : Bool
  /-- receive buffers posted: CID and length (R549) -/
  rx : List (BitVec 16 × Nat)
  wait : List OutEvent
  /-- dropped REPLY, RESULT, ERROR and WALKON events not reported yet (R558) -/
  drops : List Nat
  unsignalled : Nat
  oldestUs : Nat
deriving DecidableEq, Repr

/-- A CQ entry as the device writes it (R551). -/
structure CqEntry where
  fn : Nat
  qp : Nat
  event : Nat
  status : Status
  cid : BitVec 16
  length : Nat
  nbuf : Nat
  sqHead : Nat
  jobId : DWord
  seq : DWord
  phase : Bool
deriving DecidableEq, Repr

/-- A sealed message as it leaves (R574, R577): the header that is its additional authenticated data, the initialisation vector, the bytes
of its plaintext that the model holds, and its size. The header names the key that seals it. -/
structure SealedOut where
  route : Route
  part : Nat
  header : List Byte
  iv : List Byte
  plain : List Byte
  size : Nat
deriving DecidableEq, Repr

/-- What protects a pairing-link message (R634, R635): its ICV, or the key and the initialisation vector of its GCM. -/
inductive LinkSeal where
  | icv (b : List Byte)
  | gcm (key iv : List Byte)
deriving DecidableEq, Repr

/-- A pairing-link message as it leaves (R634): its header, its body in the clear, and what protects it. -/
structure LinkMsg where
  header : List Byte
  body : List Byte
  protect : LinkSeal
deriving DecidableEq, Repr

/-- A RoCE queue pair (R572, R573, R582). -/
structure Rqp where
  ctx : List Word
  role : Nat
  part : Nat
  sendPsn : BitVec 24
  recvPsn : BitVec 24
  ackPsn : BitVec 24
  /-- messages sent and not acknowledged, with their first PSN, in order (R582) -/
  sent : List (BitVec 24 × SealedOut)
  wait : List OutEvent
  drops : List Nat
  /-- rate reduction steps answered to CNPs (R569) -/
  rateCuts : Nat
  stopped : Bool
deriving DecidableEq, Repr

/-- An Ethernet port (R569, R581 to R583). -/
structure Port where
  role : Option Nat
  link : Bool
  failed : Bool
  paused : Bool
  ptp : Bool
deriving DecidableEq, Repr

/-- Sequence numbers already accepted for one job and KIND (R580), or from one serial (R587): the highest, and
those within 64 of it. -/
structure SeqWin where
  high : DWord
  seen : List DWord
deriving DecidableEq, Repr

/-- An MSI-X vector of a function: pending bit (R564). -/
structure Net where
  qps : Tab QPair
  rqps : Tab (Option Rqp)
  ports : Tab Port
  takeover : Option Nat
  busy : Bool
  rqpStat : Status
  /-- accepted sequence numbers, by job and KIND -/
  wins : List (DWord × Nat × SeqWin)
  houseTx : DWord
  houseRx : List (Word × SeqWin)
  mgmtLink : BitVec 2
  /-- pending MSI-X vectors: 32 fn + vector -/
  msix : Tab Bool
  perst : Bool
deriving DecidableEq, Repr

/-- What the block has driven out, newest first: a log of the model's own (notes/assumptions/3.md). -/
inductive OutMsg where
  /-- a register, Call Board or BAR read returned this value -/
  | read (v : DWord)
  | bytes (b : List Byte)
  | cq (x : CqEntry)
  | msi (fn vec : Nat)
  | sealed (m : SealedOut)
  | mgmt (src : MgmtSrc) (tag : Word) (status : Status) (vals : List DWord)
  /-- a House frame on a management port (R585, R586) -/
  | house (port : Nat) (frame : List Byte)
  | pairMsg (m : LinkMsg)
  /-- an SPDM response by its code in DSP0274, and what the manual says that it carries (R600) -/
  | spdm (p : SpdmPort) (secured : Bool) (code : Nat) (payload : List Byte)
  /-- an RNR NAK with its timer of 1.28 ms (R573), and a remote access error NAK (R570) -/
  | rnrNak (qpn : Nat)
  | accessNak (qpn : Nat)
  /-- the slave clock's Delay_Req (R35) -/
  | ptpDelayReq
  /-- what the Stage Manager hands to the queue pair of another member of a head-spread set (R372, R376, R378) -/
  | member (qpn : Nat) (kind : Nat) (seq : DWord) (plain : List Byte)
  /-- the request of R377 to the member on a queue pair -/
  | resendReq (qpn : Nat) (setId : Word) (req step : Nat)
deriving DecidableEq, Repr

def QPair.init : QPair :=
  { en := false, err := false, sqHead := 0, sqTail := 0, cqTail := 0, cqHead := 0, phase := true, rx := [],
    wait := [], drops := [0, 0, 0, 0], unsignalled := 0, oldestUs := 0 }

def Port.init : Port := ⟨none, false, false, false, false⟩

/-- At shipment port Nn serves role n for n = 0 to 3, and N4 serves no role. -/
def Net.init : Net :=
  { qps := [], rqps := [], ports := [], takeover := none, busy := false, rqpStat := 0, wins := [], houseTx := 0,
    houseRx := [], mgmtLink := 0, msix := [], perst := false }

end Sys2Proof.Machine
end

