-- ==== Sys2Proof/Machine/SecState.lean ====
section
/-! DEFINITION. The state of the root of trust (R590 to R630). -/

namespace Sys2Proof.Machine

/-- Role of an SPDM session (R603). -/
inductive Role where
  | operator
  | tenant (part : Nat)
  | verifier
deriving DecidableEq, Repr

/-- How far a session has come: KEY_EXCHANGE answered, the requester's chain obtained, FINISH verified. -/
inductive SessionPhase where
  | keyExchange | encapsulated | chain | established
deriving DecidableEq, Repr

/-- An SPDM session (R600, R603). -/
structure Session where
  port : SpdmPort
  phase : SessionPhase
  role : Role
  rootHash : Digest
  keyGen : Nat
  beatUs : Nat
  /-- nonces returned by DEBUG_UNLOCK in this session and not used yet (R628) -/
  nonces : List DWord
deriving DecidableEq, Repr

/-- The keys of a job (R612 to R616): newest epoch, the one before it, and the Beat in which each was
installed. `dropping` is set between KEY_DROP_JOB and the erasure; `cut` once its edge has passed. -/
structure JobKey where
  part : Nat
  newest : Word
  newestBeat : DWord
  prev : Option (Word × DWord)
  key : BitVec 256
  prevKey : BitVec 256
  dropping : Bool
  cut : Bool
deriving DecidableEq, Repr

/-- A partition command that takes effect at the edge after the next The Half (R611, R617, R702). -/
inductive PartAction where
  | keyDrop | disable | reset
deriving DecidableEq, Repr

/-- A pending partition action: armed once The Half has passed, running once its edge has. -/
structure PendAction where
  part : Nat
  act : PartAction
  armed : Bool
  running : Bool
  src : MgmtSrc
  tag : Word
deriving DecidableEq, Repr

/-- The root of trust. `keys` holds the generation of each filled key slot (0–8, 10–13). -/
structure Sec where
  life : Nat
  claims : List (Digest × Bool)
  svnMin : Tab Nat
  /-- fused hashes of the Zhevost signing keys, each with its revocation bit (R590) -/
  signers : List (Digest × Bool)
  debugOpen : Bool
  debugCnt : Word
  keys : Tab (Option Nat)
  /-- the values of the keys that commands have put into the slots (R609, R615) -/
  keyVals : Tab (BitVec 512)
  keyGen : Nat
  /-- shared keys and the House key as the sealed store holds them (R608) -/
  house : Bool
  houseKey : BitVec 384
  jobs : List (DWord × JobKey)
  sessions : Tab (Option Session)
  spdmVersion : Bool
  spdmCaps : Bool
  spdmAlgs : Bool
  measGen : Word
  /-- measurement values by index (R597) -/
  meas : Tab Digest
  bindings : Tab (Option Digest)
  enabled : List Nat
  logGen : Tab Word
  consent : List Nat
  /-- jobs with a key, and extends of the partition log, as a virtual function sees them since the last edge (R621) -/
  jobsShown : Tab Nat
  logShown : Tab Word
  /-- partition actions under way -/
  acts : List PendAction
  bootVerified : Bool
  bootSlot : Nat
  bootStatus : Nat
  rotSvn : Nat
deriving DecidableEq, Repr

/-- Reset: slot 8 holds a key (SEC_KEY_STAT 0x0100). Fuses: production, unclaimed. -/
def Sec.init : Sec :=
  { life := 1, claims := [], svnMin := [], signers := Config.signers, debugOpen := false, debugCnt := 0, keys := [(8, some 1)], keyVals := [], keyGen := 1,
    house := false, houseKey := 0, jobs := [], sessions := [], spdmVersion := false, spdmCaps := false, spdmAlgs := false,
    measGen := 0, meas := [], bindings := [], enabled := [], logGen := [], consent := [], jobsShown := [], logShown := [], acts := [],
    bootVerified := false, bootSlot := 0, bootStatus := 0, rotSvn := 0 }

end Sys2Proof.Machine
end

