-- ==== Sys2Proof/Machine/PairState.lean ====
section
/-! DEFINITION. The state of pairing (R631 to R663). -/

namespace Sys2Proof.Machine

/-- Pair state (R631). -/
inductive PairMode where
  | solo | lead | understudy | resync | rehearsal | stoodDown
deriving DecidableEq, Repr

/-- An INPUT that the Understudy has not applied yet (R638): the Beat of the freeze that it names, the Beat in which it
came, and whether the message itself has been asked for. -/
structure PairInput where
  job : DWord
  kind : Nat
  stream : Nat
  seq : DWord
  beat : DWord
  at_ : DWord
  fetched : Bool
deriving DecidableEq, Repr

/-- An inbound message that has passed its checks and waits for its INPUT (R638). -/
structure HeldMsg where
  route : Route
  part : Nat
  job : DWord
  kind : Nat
  stream : Nat
  seq : DWord
  plain : List Byte
deriving DecidableEq, Repr

/-- Digests of one Beat (R646 to R648). -/
structure BeatDigests where
  beat : DWord
  output : Digest
  state : Digest
deriving DecidableEq, Repr

/-- The self-check of R649 and R650. -/
inductive SelfCheck where
  | none | planned | passed | failed
deriving DecidableEq, Repr

/-- Progress of a resynchronisation (R653). -/
inductive Resync where
  | off
  /-- waiting for the pairing edge B0; armed once a The Half has passed -/
  | pairing (armed : Bool) (b0 : DWord)
  | rounds (n : Nat)
  | cutover (beat : DWord)
deriving DecidableEq, Repr

/-- The pair block. -/
structure Pair where
  mode : PairMode
  /-- PAIR_PARTNER, and the serial and the Beat number in the partner's latest messages -/
  partnerSerial : Word
  partnerNow : Word
  partnerBeat : DWord
  partner : Option HbBody
  partnerCfg : Option ConfigRec
  /-- the coefficients that the partner's CONFIG messages have brought, as in `Energy.coef` (R636, R642) -/
  partnerCoef : List Nat
  /-- what the partner has told of itself for R633 -/
  partnerFacts : Option JoinFacts
  /-- Beat number and digests that the partner last reported -/
  partnerDigests : List BeatDigests
  own : List BeatDigests
  lseqTx : DWord
  /-- the last LSEQ accepted, by SENDER (R635) -/
  lseqRx : Tab DWord
  linkSilent : Bool
  mgmtSilent : Bool
  alarm : Bool
  mapDiff : Bool
  tookOver : Bool
  /-- the partner was declared failed and has not been heard since (R644, R645) -/
  split : Bool
  reason : Nat
  status : Status
  drCount : Nat
  diverge : DWord
  ordersLate : Nat
  inputs : List PairInput
  held : List HeldMsg
  /-- the freeze that the INPUT being applied names -/
  inputBeat : Option DWord
  /-- verdicts received for steps that have not completed yet: step, commit, Beat -/
  verdicts : List (Nat × Bool × DWord)
  selfOwn : SelfCheck
  selfPartner : Option Bool
  /-- the Beat in which the self-check runs (R650) -/
  selfBeat : DWord
  /-- parts of the self-check that have passed: engine slot and part -/
  selfParts : List (Nat × Nat)
  resync : Resync
  /-- this module serves the state, as principal -/
  serving : Bool
  dirty : List Nat
  pagesLeft : Nat
  /-- partner frame number to own frame number (R653) -/
  frameMap : Tab (Option Nat)
  swapBeat : Option DWord
  /-- an order received for the Beat, waiting to be published -/
  order : Option Order
  slackOwn : Nat
  slackPartner : Nat
  late : Nat
  /-- Dark, or a changed UNIT_MAP, since it last paired (R656) -/
  darkSince : Bool
  mapChanged : Bool
  /-- the module enters RESYNC at its readiness (R651, R811) -/
  rejoin : Bool
  /-- records of the messages of the running and of the ended Beat, each with its commit Beat (R646), and how many the ended Beat had -/
  records : List (DWord × List Byte)
  endCount : Nat
  /-- least slack and cut entries of the running and of the ended Beat -/
  slackRun : Nat
  slackEnd : Nat
  lateEnd : Nat
deriving DecidableEq, Repr

def Pair.init : Pair :=
  { mode := .solo, partnerSerial := 0, partnerNow := 0, partnerBeat := 0, partner := none, partnerCfg := none, partnerCoef := [], partnerFacts := none, partnerDigests := [], own := [],
    lseqTx := 0, lseqRx := [], linkSilent := true, mgmtSilent := true, alarm := false, mapDiff := false,
    tookOver := false, split := false, reason := 0, status := 0, drCount := 0, diverge := 0, ordersLate := 0, inputs := [], held := [], inputBeat := none,
    verdicts := [], selfOwn := .none, selfPartner := none, selfBeat := 0, selfParts := [], resync := .off, serving := false, dirty := [],
    pagesLeft := 0, frameMap := [], swapBeat := none, order := none, slackOwn := 0, slackPartner := 0, late := 0,
    darkSince := false, mapChanged := false, rejoin := false, records := [], endCount := 0,
    slackRun := 0xFFFFFFFF, slackEnd := 0xFFFFFFFF, lateEnd := 0 }

end Sys2Proof.Machine
end

