-- ==== Sys2Proof/Machine/SvcState.lean ====
section
/-! DEFINITION. The state of in-service self-test (R704 to R734), bring-up (R735 to R782), update (R783 to
R812), power and temperature (R813 to R832) and the module's supplies and pins (R833 to R867). -/

namespace Sys2Proof.Machine

/-- A slice that runs (R705, R731): where it began, the credit it uses, and whether it is planned. -/
structure Running where
  x : Slice
  beat : DWord
  phase : Nat
  credit : Nat
deriving DecidableEq, Repr

/-- A result record of R731. -/
structure BistRecord where
  beat : DWord
  phase : Nat
  unit : Nat
  test : Nat
  slice : Nat
  outcome : Nat
  aborts : Nat
  cover : Nat
  durNs : Nat
  detail : Word
deriving DecidableEq, Repr

/-- The BIST controller. Credits are in 10⁻⁶ µs so that no part of a rise is lost (R714). -/
structure Bist where
  credits : Tab Nat
  running : List Running
  /-- planned slices with TARGET 0xFF that wait for the controller (R707): entry index -/
  queue : List Nat
  /-- consecutive aborts of each slice (R730) -/
  aborts : List (Slice × Nat)
  /-- slices requeued, not to start before the Beat -/
  requeue : List (Slice × DWord)
  ring : Tab (Option BistRecord)
  head : Word
  window : Tab Word
  /-- slices that have failed once, and in which Beat: their units are left out until they run again (R733) -/
  recheck : List (Slice × DWord)
  /-- planned slices aborted 16 times in a row, which the next Running Order has to hold (R730) -/
  starved : List Slice
  /-- slices passed since the unit's last complete pass (R731 COVER) -/
  passed : List (UnitRef × List (Nat × Nat))
  /-- units whose full test has passed in the running pass over every unit -/
  done : List UnitRef
  cycleStartUs : Nat
  lastCycleMs : Nat
  sensorsOut : List Nat
deriving DecidableEq, Repr

def Bist.init : Bist :=
  { credits := [], running := [], queue := [], aborts := [], requeue := [], ring := [], head := 0, window := [],
    recheck := [], starved := [], passed := [], done := [], cycleStartUs := 0, lastCycleMs := 0, sensorsOut := [] }

/-- HEALTH.MODE (R455). -/
inductive Mode where
  | starting | serving | degraded | rehearsal | updating | resetting | dark | standby
deriving DecidableEq, Repr

/-- The inventory record (R744). Map values: the role served, 0xFE a good spare, 0xFF retired or excluded. -/
structure Inventory where
  valid : Bool
  gen : Nat
  eng : List Nat
  sh : List Nat
  sampler : List Nat
  video : List Nat
  walker : List Nat
  pc : List Nat
  lcRetired : List Nat
  flatsRetired : List Nat
  lastFullH : Nat
  trainTemp : List Int
deriving DecidableEq, Repr

/-- A spare that runs the known-answer run before it is fitted (R753, R756), and then waits for the edge. -/
structure Fitting where
  unit : UnitRef
  role : Nat
  passed : Bool
deriving DecidableEq, Repr

/-- Bring-up: supplies, the kind and step of the start, the inventory, and what R735 reads. -/
structure Boot where
  mode : Mode
  /-- the start follows a restart activation: MODE reads UPDATING until readiness (R797) -/
  updating : Bool
  /-- 0 none, 1 cold, 2 warm -/
  kind : Nat
  step : Nat
  retired : Nat
  status : Status
  durationMs : Nat
  rebuilt : Bool
  coldNext : Bool
  /-- 12 V standby has just been applied, or DARK_CLEAR was accepted, or R304 firmware data caused the reset -/
  coldForced : Bool
  ready : Bool
  /-- readiness was declared on the internal timer, and the source has not locked since (R778) -/
  lockLate : Bool
  /-- when readiness was declared -/
  readyUs : Nat
  /-- the start failed; a new one begins 10 s later (R740) -/
  failed : Bool
  failedAtUs : Nat
  /-- time at which step 16 began (R778) -/
  step16Us : Nat
  copies : List Inventory
  /-- die, fuse good bits: items that the fuse map excludes, as units -/
  fuseBad : List UnitRef
  fuseBadPc : List Nat
  fuseBadFlat : List Nat
  /-- measurement 6 at the last full memory test, and when that test passed (R735) -/
  trainMeasFull : Digest
  lastFullUs : Nat
  storeValid : List Bool
  fitting : List Fitting
  serial : Word
  /-- Stage Manager pairs that serve or stand by (R680) -/
  smPairs : Nat
deriving DecidableEq, Repr

/-- State of a bundle slot (UPDATE_SLOTk.STATE). -/
inductive BundleState where
  | empty | staging | staged | trial | confirmed | failed
deriving DecidableEq, Repr

/-- A bundle slot of the RoT's store. -/
structure Bundle where
  state : BundleState
  version : List Byte
  schema : Byte
  svn : List Nat
  kinds : List Nat
  digests : List Digest
  live : List Bool
  commit : List Bool
  shared : List (Nat × Word)
  locals : List (Nat × Word)
  /-- it was staged from a settings-only container (R801) -/
  settingsOnly : Bool
deriving DecidableEq, Repr

/-- A live roll (R808): the Beat that it begins at, the Beats of it that have begun, and whether it restores the old
parts (R805). -/
structure LiveRoll where
  beat : DWord
  step : Nat
  back : Bool
deriving DecidableEq, Repr

/-- Firmware update. -/
structure Update where
  slots : List Bundle
  running : Nat
  /-- the file that is being copied (R790) -/
  container : Option (List Byte)
  copying : Bool
  status : Status
  selector : Nat
  trialEndUs : Option Nat
  trialBoots : Nat
  /-- a device reset, failed start, takeover, failed known-answer run or retirement since activation, which rules out a
  confirmation under R803, and whether the module was paired at activation -/
  trialBlocked : Bool
  trialPaired : Bool
  /-- the trial bundle was activated live -/
  trialLive : Bool
  live : Option LiveRoll
  stick : Bool
  portPower : Bool
  settings : List (Nat × Word)
  schema : Byte
deriving DecidableEq, Repr

/-- Power metering and temperature. Powers in deciwatts, temperatures in °C. Sensors are keyed: engine slot k at
k, Stagehand group g at 40 + g, video engine k at 60 + k, memory PHY m at 70 + m; a stack's own sensor is in `Stack`.
Times are µs. -/
structure Therm where
  railLast : Tab Nat
  /-- rails that lay beyond ±3 % of their set point at the last sample (R712) -/
  railsOff : List Nat
  /-- energy of the running and of the ending Beat per rail, in deciwatt microseconds -/
  beatSum : Tab Nat
  endSum : Tab Nat
  /-- the last IN54 samples, newest first, at most 1,000 (R816) -/
  recent : List Nat
  guardOn : Bool
  lastGuardUs : Nat
  /-- steps of the guard that each engine still holds (R817) -/
  guardSteps : Tab Nat
  sensors : Tab Int
  /-- step of each unit, by sensor key; 15 is boost (R826) -/
  steps : Tab Nat
  lastDown : Tab Nat
  lastUp : Tab Nat
  /-- 1 + the time since which a stack has been cool enough to step up -/
  coolSince : Tab Nat
  /-- units read above their threshold less 5 °C, engines read above 90 °C, in the running Beat -/
  warm : List Nat
  warm90 : List Nat
  /-- engines left out that have had a whole Beat at or below 90 °C (R825) -/
  cooled : List Nat
  /-- die sensors whose last sample read 110 °C or above (R829) -/
  hot : List Nat
  /-- engines left out under R825 -/
  leftOut : List Nat
  inlet : Int
  outlet : Int
  /-- sensors excluded under R819 -/
  excluded : List Nat
  /-- sensors and stacks that have been read -/
  valid : List Nat
  /-- a thermal shutdown is in force, and when it began (R830, R831) -/
  shutdown : Bool
  shutAtUs : Nat
  shutLast : Bool
deriving DecidableEq, Repr

/-- Supplies and pins of the module connector (R833 to R867). ALERT_N, BEAT_OUT and the LEDs follow from the rest
of the state. -/
structure Pins where
  standby : Bool
  pwrEn : Bool
  pwrGood : Bool
  regulators : Bool
  /-- the 54 V input has been in its operating range for 100 ms, and the bulk is charged (R856, R861) -/
  inputOk : Bool
  bulkOk : Bool
  slotId : BitVec 5
  slotSampled : Bool
deriving DecidableEq, Repr

def Inventory.init : Inventory :=
  { valid := false, gen := 0, eng := [], sh := [], sampler := [], video := [], walker := [], pc := [],
    lcRetired := [], flatsRetired := [], lastFullH := 0, trainTemp := [] }

/-- MODE reads STANDBY (7) from the first application of 12 V standby (R455). -/
def Boot.init : Boot :=
  { mode := .standby, updating := false, kind := 0, step := 0, retired := 0, status := 0, durationMs := 0,
    rebuilt := false, coldNext := false, coldForced := true, ready := false, lockLate := false, readyUs := 0, failed := false, failedAtUs := 0,
    step16Us := 0, copies := [.init, .init], fuseBad := [], fuseBadPc := [], fuseBadFlat := [],
    trainMeasFull := 0, lastFullUs := 0, storeValid := [], fitting := [], serial := 0, smPairs := 2 }

def Bundle.init : Bundle := ⟨.empty, [], 0, [], [], [], [], [], [], [], false⟩

def Update.init : Update :=
  { slots := [.init, .init], running := 0, container := none, copying := false, status := 0, selector := 0,
    trialEndUs := none, trialBoots := 0, trialBlocked := false, trialPaired := false, trialLive := false, live := none, stick := false,
    portPower := true, settings := [], schema := 0 }

def Therm.init : Therm :=
  { railLast := [], railsOff := [], beatSum := [], endSum := [], recent := [], guardOn := false, lastGuardUs := 0,
    guardSteps := [], sensors := [], steps := [], lastDown := [], lastUp := [], coolSince := [], warm := [], warm90 := [], cooled := [], hot := [],
    leftOut := [], inlet := 0, outlet := 0, excluded := [], valid := [], shutdown := false, shutAtUs := 0,
    shutLast := false }

/-- PWR_EN and PERST_N have pull-downs, SLOT_ID a pull-up (R837). -/
def Pins.init : Pins :=
  { standby := false, pwrEn := false, pwrGood := false, regulators := false, inputOk := false,
    bulkOk := false, slotId := 0x1F, slotSampled := false }

end Sys2Proof.Machine
end

