-- ==== Sys2Proof/Machine/State.lean ====
section
/-! DEFINITION. The state of the block, the reasons for which a step stops, and the state after reset. -/

namespace Sys2Proof.Machine

/-- The DM9 as plain data. `eng` is keyed by engine slot 9 c + k, `sh` by Stagehand slot 18 c + k, `cue` by absolute
Cue Light index. `regs` is the home of every register field that software writes or that a read clears (RW, RWL,
W1C, LOCK, RC), keyed by BAR0 address; a register that only mirrors other state is computed from it. `latch` holds
the LO and HI latches of R872, keyed 2 to the 32 times the function plus the address. `time` counts µs on the RoT's
monotonic timer, and `free` the free values drawn so far: both are the model's own fields. -/
structure State where
  pending : List Instr
  time : Nat
  free : Nat
  regs : Tab Word
  latch : Tab (Option Word)
  pins : Pins
  boot : Boot
  beat : Beat
  ro : Orders
  energy : Energy
  eng : Tab Engine
  sh : Tab Stagehand
  cue : Tab CueLight
  /-- CUE_Pn_GRANTk by 2 n + k, exclusive-or 0x0000FFFF, so that an empty range is not listed (R116) -/
  cueGrant : Tab Word
  flies : Flies
  mem : Mem
  hbm : Hbm
  serve : Serve
  board : Board
  curtain : CurtainState
  video : Video
  net : Net
  sec : Sec
  pair : Pair
  fault : FaultState
  bist : Bist
  therm : Therm
  upd : Update
  out : List OutMsg
deriving DecidableEq, Repr

/-- Why a step stops. Both are raised only by a command whose operands name something that the DM9 does not have
(WellFormed refuses such a command), and stopping there is safe. -/
inductive Fault where
  /-- raised by any command whose operand names a unit, a partition, a function, a slot, a stream or a port that the
  module does not have (R13 to R19); safe -/
  | noSuchUnit
  /-- raised by a register, BAR or Call Board access whose address lies outside the space that the manual lays out for
  it (R452, R868); safe -/
  | noSuchAddress
deriving DecidableEq, Repr

/-- Why a command has no meaning here. -/
inductive Refusal where
  /-- raised by an arm of `exec` whose command has no meaning in this model yet; safe -/
  | notModelled (mnemonic : String)
deriving DecidableEq, Repr

/-- The module right after reset, before 12 V standby is applied: every register at its reset value, memories with
nothing listed, no unit fitted, no request, no key but slot 8. -/
def State.reset : State :=
  { pending := [], time := 0, free := 0, regs := regsReset, latch := [], pins := .init, boot := .init,
    beat := .init, ro := .init, energy := .init, eng := [], sh := [], cue := [], cueGrant := [], flies := .init, mem := .init,
    hbm := .init, serve := .init, board := .init, curtain := .init, video := .init, net := .init, sec := .init,
    pair := .init, fault := .init, bist := .init, therm := .init, upd := .init, out := [] }

end Sys2Proof.Machine
end

