-- ==== Sys2Proof/Machine/Ops.lean ====
section
/-! DEFINITION. Operations that several commands share: register fields and counters, the event log, Cue Lights,
the Flies, and an engine's exceptions. -/

namespace Sys2Proof.Machine

/-- The outcome of a command. -/
abbrev Res := Host.Outcome State Fault Refusal

/-- Runs `r` when the command's operands name what the module has. -/
def need (b : Bool) (r : Res) : Res := if b then r else .fault .noSuchUnit

/-! ### Register fields -/

/-- The stored word of a register. -/
def regW (s : State) (a : Nat) : Word := tabGet 0#32 s.regs a

/-- A stored register field. -/
def regF (s : State) (a hi lo : Nat) : Nat := fld (regW s a) hi lo

/-- Writes the stored word of a register. -/
def setReg (a : Nat) (w : Word) (s : State) : State := { s with regs := tabSet 0#32 s.regs a w }

/-- Writes a stored register field. -/
def setRegF (a hi lo v : Nat) (s : State) : State := setReg a (setFld (regW s a) hi lo v) s

/-- Adds to an RC counter. DESIGN CHOICE: 32-bit counters wrap (notes/assumptions/15.md). -/
def bumpBy (a n : Nat) (s : State) : State := setReg a (regW s a + BitVec.ofNat 32 n) s

/-- Adds 1 to an RC counter. -/
def bump (a : Nat) (s : State) : State := bumpBy a 1 s

/-- Sends something out: the model's log of what the block drives (notes/assumptions/3.md). -/
def emit (m : OutMsg) (s : State) : State := { s with out := m :: s.out }

/-! ### Free values -/

/-- A free value (notes/assumptions/19.md), by its purpose. -/
def freeVal (purpose : Nat) (s : State) : DWord := Config.freeValue purpose s.free
/-- Draws a free value: the next one is another. -/
def drawn (s : State) : State := { s with free := s.free + 1 }

/-! ### Units -/

/-- The engine in a slot. -/
def engOf (s : State) (e : Nat) : Engine := tabGet Engine.init s.eng e
/-- The Stagehand in a slot. -/
def shOf (s : State) (k : Nat) : Stagehand := tabGet Stagehand.init s.sh k
def setEng (e : Nat) (x : Engine) (s : State) : State := { s with eng := tabSet Engine.init s.eng e x }
def setSh (k : Nat) (x : Stagehand) (s : State) : State := { s with sh := tabSet Stagehand.init s.sh k x }
def modEng (e : Nat) (f : Engine → Engine) (s : State) : State := setEng e (f (engOf s e)) s
def modSh (k : Nat) (f : Stagehand → Stagehand) (s : State) : State := setSh k (f (shOf s k)) s

/-- The physical slot that serves a logical engine, if it is no hole (R19). -/
def engSlot (s : State) (le : Nat) : Option Nat :=
  (List.range 36).find? fun e => (engOf s e).serv.role = some le
/-- The physical slot that serves a logical Stagehand. -/
def shSlot (s : State) (ls : Nat) : Option Nat :=
  (List.range 72).find? fun k => (shOf s k).serv.role = some ls

/-- Kind codes of R445 and R732. -/
def unitKindCode : UnitKind → Nat
  | .engine => 0 | .stagehand => 1 | .sampler => 2 | .flat => 3 | .stack => 4 | .peer => 5 | .video => 6
  | .walker => 7 | .phy => 8 | .port => 9 | .clock => 0xA | .unknown => 0xF

/-- FAIL_UNIT layout of R445. -/
def unitCode (u : UnitRef) : Nat := unitKindCode u.kind * 4096 + u.cluster * 256 + u.slot

/-- The reference of an engine slot. -/
def engRef (e : Nat) : UnitRef := ⟨.engine, e / 9, e % 9⟩
/-- The reference of a Stagehand slot. -/
def shRef (k : Nat) : UnitRef := ⟨.stagehand, k / 18, k % 18⟩

/-! ### Context tags and the event log -/

/-- The context word of R664, in the layout of st.ctx. -/
def packCtx (stepId req index le part : Nat) : DWord :=
  BitVec.ofNat 64 (stepId * 2 ^ 48 + req * 2 ^ 32 + index * 2 ^ 20 + le * 2 ^ 12 + part)

/-- st.ctx of the entry that a unit runs (R108). -/
def ctxOf (c : EntryCtx) : DWord := packCtx c.stepId c.req c.index c.le c.part

/-- Context word of a transaction that serves no entry (R665). -/
def noCtx (part : Nat) : DWord := packCtx 0xFFFF 0xFFFF 0xFFF 0xFF part

/-- Origin bytes of R664. -/
def originOf (kind : Nat) (fw : Bool) : Byte := BitVec.ofNat 8 (kind * 32 + if fw then 16 else 0)

/-- An event with no unit, address or detail. -/
def evBase (s : State) (cls cause action : Nat) : FaultEvent :=
  { beat := s.beat.num, phase := s.beat.phaseUs, cls := cls, cause := cause, action := action, flags := 0,
    ctx := noCtx 0, origin := originOf 5 true, status := 0, unit := 0xFFFF, pc := 0, addr := 0,
    sampleNo := 0xFFFFFFFF#32, detail := [] }

/-- FAULT_EVENT (R670): the event enters the FIFO of 256, or is counted as lost. -/
def logEvent (v : FaultEvent) (s : State) : State :=
  if s.fault.fifo.length < 256 then { s with fault := { s.fault with fifo := s.fault.fifo ++ [v] } }
  else bump 0xD0054 { s with fault := { s.fault with lost := tabMod 0 s.fault.lost v.cls (· + 1) } }

/-! ### Cue Lights (R140 to R153) -/

/-- The Cue Light at an absolute index. -/
def cueOf (s : State) (i : Nat) : CueLight := tabGet CueLight.init s.cue i

def setCue (i : Nat) (x : CueLight) (s : State) : State := { s with cue := tabSet CueLight.init s.cue i x }

/-- SET: writes the count and clears OVF (R141). -/
def cueSet (i v : Nat) (s : State) : State := setCue i ⟨v, false⟩ s

/-- Whether a SIG would carry the count above 0xFFFF (R143). -/
def cueSaturates (s : State) (i n : Nat) : Bool := (cueOf s i).count + n > 0xFFFF

/-- SIG: adds the increment, or saturates and sets OVF (R141, R143), counted in CUE_OVF_CNT (R145). -/
def cueAdd (i n : Nat) (s : State) : State :=
  if cueSaturates s i n then bump 0x40040 (setCue i ⟨0xFFFF, true⟩ s)
  else setCue i ⟨(cueOf s i).count + n, (cueOf s i).ovf⟩ s

/-- A SIG that no program executes: a saturation writes a record with the given context (R145); its CAUSE is not stated, and is a
free value. -/
def cueSigHw (i n : Nat) (ctx : DWord) (origin : Byte) (s : State) : State :=
  let t := cueAdd i n s
  if cueSaturates s i n then
    logEvent { evBase s 8 ((freeVal 25 s).toNat % 256) 0 with ctx := ctx, origin := origin, addr := BitVec.ofNat 64 i } (drawn t)
  else t

/-- CUE_Pn_GRANTk: LAST in [31:16], FIRST in [15:0] (R116). -/
def grantWord (s : State) (part k : Nat) : Word := tabGet 0#32 s.cueGrant (2 * part + k) ^^^ 0x0000FFFF#32

/-- Whether an absolute index lies in a partition's grants (R116). -/
def cueGranted (s : State) (part i : Nat) : Bool :=
  [0, 1].any fun k =>
    let w := grantWord s part k
    fld w 15 0 ≤ i && i ≤ fld w 31 16

/-- The absolute index of a window index, when R115, R116 and R121 allow the access. -/
def cueIndex (s : State) (c : EntryCtx) (i : Nat) : Option Nat :=
  if c.clOk && i < c.clCount && cueGranted s c.part (c.clBase + i) then some (c.clBase + i) else none

/-! ### The Flies (R113, R114, R235 to R240) -/

/-- st.fl. -/
def flSize (c : EntryCtx) : Nat := (c.cnt0 + c.cnt1) * 65536

/-- The flat of an FL address (R113). -/
def flFlat (c : EntryCtx) (a : Nat) : Nat :=
  if a / 65536 < c.cnt0 then c.flat0 + a / 65536 else c.flat1 + a / 65536 - c.cnt0

/-- The key of an FL byte in the Flies memory. -/
def flKey (c : EntryCtx) (a : Nat) : Nat := flFlat c a * 65536 + a % 65536

/-- The bytes of an FL range. -/
def flRead (s : State) (c : EntryCtx) (a n : Nat) : List Byte :=
  (List.range n).map fun i => tabGet 0#8 s.flies.mem (flKey c (a + i))

/-- The errors that are left in the words of the Flies after some are written whole: a written word has fresh check bits (R239). -/
def freshWords (t : Tab (Option Bool)) (written : Nat → Bool) : Tab (Option Bool) := tabFilter (fun w _ => !written w) t

/-- Stores bytes to an FL range. -/
def flWrite (c : EntryCtx) (a : Nat) (bs : List Byte) (s : State) : State :=
  { s with flies := { s.flies with
      mem := (bs.zipIdx).foldl (fun m p => tabSet 0#8 m (flKey c (a + p.2)) p.1) s.flies.mem
      latent := freshWords s.flies.latent fun w =>
        (List.range (bs.length / 8)).any fun k => a % 8 = 0 && flKey c (a + 8 * k) / 8 = w } }

/-- Whether any byte of an FL range lies in a flat under transparent test (R724). -/
def flUnderTest (s : State) (c : EntryCtx) (a n : Nat) : Bool :=
  (List.range ((n + 65535) / 65536 + 1)).any fun i =>
    let b := min (a + 65536 * i) (a + n - 1)
    (tabGet Flat.init s.flies.flats (flFlat c b)).test

/-- The flat at a number. -/
def flatOf (s : State) (f : Nat) : Flat := tabGet Flat.init s.flies.flats f
def setFlat (f : Nat) (x : Flat) (s : State) : State :=
  { s with flies := { s.flies with flats := tabSet Flat.init s.flies.flats f x } }

/-! ### Firmware areas of the Flies (R242, R243) -/

/-- The firmware areas at shipment: first flat, size and holder code (R242), in the order of `Flies.areas`. -/
def areaHomes : List Nat := [0, 6, 12, 24, 26, 27]
def areaSizes : List Nat := [6, 6, 12, 2, 1, 1]
def areaCodes : List Nat := [8, 8, 9, 0xA, 0xB, 0xC]

/-- The first flat of a firmware area: its place at shipment until a start has placed it. -/
def areaBase (s : State) (a : Nat) : Nat := s.flies.areas.getD a (areaHomes.getD a 0)

/-- The first flat of a Walk-on set, and the self-test restore flat (R242). -/
def setBase (s : State) (k : Nat) : Nat := areaBase s 2 + 3 * k
def restoreBase (s : State) : Nat := areaBase s 5

/-- The firmware area that a flat lies in. -/
def areaOf (s : State) (f : Nat) : Option Nat :=
  (List.range 6).find? fun a => areaBase s a ≤ f && f < areaBase s a + areaSizes.getD a 0

/-! ### Commit groups -/

/-- The group of a step in flight. -/
def groupOf (s : State) (part stepId : Nat) : Option Group :=
  s.serve.groups.find? fun g => g.plan.part = part && g.plan.stepId.toNat = stepId && g.beat = s.beat.num

/-- Changes the groups of one step of the running Beat. -/
def modGroup (part stepId : Nat) (f : Group → Group) (s : State) : State :=
  { s with serve := { s.serve with groups := s.serve.groups.map fun g =>
      if g.plan.part = part && g.plan.stepId.toNat = stepId && g.beat = s.beat.num then f g else g } }

/-- The step of an access does not commit (R157, R240, R304): its group is marked failed, with the unit of the
failure, and with the status of a failure that is not retried (R445). -/
def stepBroken (part stepId : Nat) (unit : Nat) (fatal : Option Status) (s : State) : State :=
  modGroup part stepId (fun g =>
    if g.status = .active then { g with status := .failed, unit := BitVec.ofNat 16 unit, fatal := fatal }
    else { g with fatal := g.fatal.or fatal }) s

/-- A read of words of the Flies meets what its SEC-DED finds: corrected errors are counted, an uncorrectable error is
recorded and counted, its flat is to be retired at the next edge, and the step of the access does not commit (R239, R240). -/
def eccWords (ctx : DWord) (origin : Byte) (step : Option (Nat × Nat)) (words : List Nat) (s : State) : State :=
  words.foldl (fun t w =>
    match tabGet none t.flies.latent w with
    | none => t
    | some true => bump 0x30008 { t with flies := { t.flies with latent := tabSet none t.flies.latent w none } }
    | some false =>
      let f := w / 8192
      let t := bump 0x3000C (setFlat f { flatOf t f with pending := true } t)
      let t := logEvent { evBase t 4 ((freeVal 24 t).toNat % 256) 7 with
        ctx := ctx, origin := origin, unit := 0x3000 + f, addr := BitVec.ofNat 64 f } (drawn t)
      match step with
      | some (part, id) => stepBroken part id (0x3000 + f) none t
      | none => t) s

/-- The words with an error among those of a range of Flies bytes. -/
def badWords (s : State) (key n : Nat) : List Nat :=
  tabKeys (fun w _ => decide (key < 8 * w + 8) && decide (8 * w < key + n)) s.flies.latent

/-- A read of an FL range by an entry. -/
def flEcc (c : EntryCtx) (a n : Nat) (s : State) : State :=
  eccWords (ctxOf c) (originOf 0 false) (some (c.part, c.stepId))
    (((List.range n).map fun i => flKey c (a + i) / 8).eraseDups) s

/-! ### Exceptions of an engine (R154 to R159) -/

/-- Status of the running Beat's entry at an index. -/
def setEntry (index : Nat) (x : EntryStatus) (s : State) : State :=
  { s with ro := { s.ro with status := tabSet .queued s.ro.status index x } }

/-- ENTRY_ABANDON (R157): the engine drops the entry without its signals, its transfers drain until ENTRY_DRAIN_DONE, a record is
written, and the step does not commit. The group stays unfinished until the drain ends. -/
def abandonEntry (e : Nat) (ev : FaultEvent) (s : State) : State :=
  let x := engOf s e
  match x.run with
  | none => s
  | some c =>
    let s := setEng e { x with
      phase := .draining, wait := none, deferred := [], uncleared := decide (x.phase = .clearing) } s
    let s := if c.slot.isNone then setEntry c.index .faulted s else s
    let s := stepBroken c.part c.stepId (unitCode (engRef e)) none s
    let s := modGroup c.part c.stepId (fun g => { g with draining := g.draining + 1 }) s
    logEvent { ev with ctx := ctxOf c, unit := unitCode (engRef e) } s

/-- An exception of R154: ENG_EXC_LAST and ENG_EXC_CNT, and the entry is abandoned. -/
def raiseExc (e cause pc : Nat) (addr : Nat) (status : Status) (detail : List Nat) (s : State) : State :=
  let s := bump (0x50008 + 0x400 * e) (modEng e (fun x => { x with excLast := BitVec.ofNat 8 cause }) s)
  abandonEntry e { evBase s 0 cause 0 with
    origin := originOf 0 false, status := status, pc := pc, addr := BitVec.ofNat 64 addr, detail := detail } s

/-- Takes a deferred exception (R156), the oldest that has been reported if there is one: its record names the pc of
its instruction. -/
def takeDeferred (e : Nat) (s : State) : State :=
  let ds := (engOf s e).deferred
  match (ds.find? Deferred.reported).or ds.head? with
  | none => s
  | some d => raiseExc e d.cause d.pc d.addr d.status d.detail s

/-- Reports the oldest deferred exception of a cause; on an engine that is at an instruction boundary it is taken at
once (R156). -/
def reportDeferred (e cause : Nat) (s : State) : State :=
  let x := engOf s e
  match x.deferred.findIdx? fun d => d.cause = cause && !d.reported with
  | none => s
  | some i =>
    let s := setEng e { x with deferred := x.deferred.modify i fun d => { d with reported := true } } s
    if (x.phase = .running && x.wait.isNone) || x.phase = .ending then takeDeferred e s else s

/-- How much time can pass before the next Beat edge at the latest: no Beat lasts longer than its period and 1 µs (R39). -/
def beatRoom (s : State) (n : Nat) : Nat := if s.beat.started then min n (s.beat.period + 1 - s.beat.phaseUs) else n

/-- Microseconds pass on the RoT's timer, which runs while 12 V standby is present (R697), and in the Beat, up to the edge that ends
it (notes/assumptions/1.md). -/
def passUs (n : Nat) (s : State) : State :=
  if s.pins.standby then { s with
    time := s.time + beatRoom s n, beat := { s.beat with phaseUs := s.beat.phaseUs + beatRoom s n } } else s

/-- One microsecond passes (notes/assumptions/1.md). -/
def tick (s : State) : State := passUs 1 s

/-- Time reaches a moment: a command that stands for the lapse of a time comes at that time (notes/assumptions/1.md). -/
def passTo (t : Nat) (s : State) : State := passUs (t - s.time) s

/-- What happens at a moment: nothing when a Beat edge comes before it. -/
def atTime (t : Nat) (f : State → State) (s : State) : State := if t ≤ (passTo t s).time then f (passTo t s) else s

/-- The phase of the running Beat reaches a value. -/
def passPhase (p : Nat) (s : State) : State := passUs (p - s.beat.phaseUs) s

/-- Whether the module runs work, commits and sends results (R631): in RESYNC and STOOD_DOWN it does not. -/
def runs (s : State) : Bool := s.pair.mode ≠ .resync && s.pair.mode ≠ .stoodDown

end Sys2Proof.Machine
end

