-- ==== Sys2Proof/Machine/Flags.lean ====
section
/-! DEFINITION. st.flags (R108): SAT in bit 0, NAN in bit 1, CUE_TMO in bit 2. -/

namespace Sys2Proof.Machine

/-- Sets the flags of a result: SAT when a conversion saturated, NAN when a NaN was written (R273). -/
def withFlags (x : Engine) (sat nan : Bool) : Engine :=
  { x with flags := x.flags ||| (if sat then 1#8 else 0#8) ||| (if nan then 2#8 else 0#8) }

/-- Sets CUE_TMO (R149). -/
def withTimeout (x : Engine) : Engine := { x with flags := x.flags ||| 4#8 }

/-- Clears each flag for which the operand holds 1 (R233). -/
def clearFlags (x : Engine) (v : DWord) : Engine := { x with flags := x.flags &&& ~~~ (v.truncate 8) }

/-- Whether any FP32 word is a NaN. -/
def anyNan (xs : List Word) : Bool := xs.any isNan32

/-- Whether bytes, read as FP32 words from the first on, hold a NaN. The spec names no format for the data of a move
(notes/assumptions/67.md). -/
def bytesNan : List Byte → Bool
  | a :: b :: c :: d :: rest => isNan32 (BitVec.ofNat 32 (leNat [a, b, c, d])) || bytesNan rest
  | _ => false

/-- The flags of an engine that has moved bytes (R273). -/
def withMoved (x : Engine) (bs : List Byte) : Engine := withFlags x false (bytesNan bs)

end Sys2Proof.Machine
end

