-- ==== Sys2Proof/Machine/Operands.lean ====
section
/-! DEFINITION. Operands of Isvex instructions: the instruction word and its reserved field values (R174 to R178),
the register files of an engine, and the LM and FL footprints of R111 to R114. -/

namespace Sys2Proof.Machine

open Sys2Proof

/-! ### Instruction words (R174) -/

/-- Bits [hi:lo] of IMM. -/
def imm (f : Fields) (hi lo : Nat) : Nat := fld f.imm hi lo

/-- The fields of an instruction word. -/
def wordFields (w : DWord) : Fields :=
  { a := BitVec.ofNat 5 (fld w 51 47), b := BitVec.ofNat 5 (fld w 46 42), c := BitVec.ofNat 5 (fld w 41 37),
    d := BitVec.ofNat 5 (fld w 36 32), imm := BitVec.ofNat 32 (fld w 31 0) }

/-- MAJOR of an instruction word. -/
def wordMajor (w : DWord) : Nat := fld w 63 58
/-- FUNC of an instruction word. -/
def wordFunc (w : DWord) : Nat := fld w 57 52

/-- The instruction word of a class, function and fields. -/
def packWord (major func : Nat) (f : Fields) : DWord :=
  BitVec.ofNat 64 (major * 2 ^ 58 + func * 2 ^ 52 + f.a.toNat * 2 ^ 47 + f.b.toNat * 2 ^ 42 + f.c.toNat * 2 ^ 37 +
    f.d.toNat * 2 ^ 32 + f.imm.toNat)

/-- CTRL (0x00): only the MASK of ctrl.fence, which is not 0 (R184). -/
def ctrlOk (func : Nat) (f : Fields) : Bool :=
  f.a = 0 && f.b = 0 && f.c = 0 && f.d = 0 &&
    (if func ≤ 1 then f.imm = 0 else func = 2 && 1 ≤ f.imm.toNat && f.imm.toNat ≤ 7)

/-- SCALAR, register (0x01): D is rs3 of sel only. -/
def scalarOk (func : Nat) (f : Fields) : Bool :=
  f.imm = 0 && (if func ≤ 0x12 then f.d = 0 else func = 0x13)

/-- SCALAR, immediate (0x02), with R186 for shifts. -/
def immOk (func : Nat) (f : Fields) : Bool :=
  f.c = 0 && f.d = 0 &&
    (if func = 5 || func = 6 || func = 7 then f.imm.toNat < 64
     else func = 0 || func = 2 || func = 3 || func = 4 || func = 0xD || func = 0xE || func = 0x14)

/-- SCALAR, branch (0x03): IMM[2:0] is 0 (R187), and R188. -/
def branchOk (func : Nat) (f : Fields) : Bool :=
  f.c = 0 && f.d = 0 && imm f 2 0 = 0 &&
    (if func ≤ 5 then true else if func = 8 then f.a = 0 && f.b = 0 else func = 9 && f.a ≠ 0 && f.b = 0)

/-- LM (0x08). -/
def lmOk (func : Nat) (f : Fields) : Bool :=
  f.d = 0 &&
    (if func ≤ 6 || (8 ≤ func && func ≤ 0xB) then f.c = 0
     else if func = 0x10 || func = 0x11 || func = 0x12 then f.c = 0 && f.a.toNat < 16
     else if func = 0x14 || func = 0x15 then f.c = 0 && f.a.toNat < 8
     else (func = 0x18 || func = 0x19) && f.imm = 0)

/-- XFER (0x0C), with R197. -/
def xferOk (func : Nat) (f : Fields) : Bool :=
  func ≤ 1 && imm f 22 10 = 0 &&
    (if imm f 31 31 = 1 then imm f 30 23 ≠ 0 else imm f 30 23 = 0 && imm f 9 0 = 0)

/-- The format pairs that mx.mul accepts (R200). -/
def mulPairOk (fa fb : Nat) : Bool :=
  if fb = 9 || (3 ≤ fb && fb ≤ 8) then 3 ≤ fa && fa ≤ 6
  else if fb = 1 then fa = 1 else if fb = 2 then fa = 2
  else if fb = 0xB || fb = 0xC then fa = 0xB else fb = 0xA && fa = 0xA

/-- MX (0x10). -/
def mxOk (func : Nat) (f : Fields) : Bool :=
  match func with
  | 0 => imm f 10 0 = 0 && mulPairOk (imm f 28 25) (imm f 24 21)
  | 1 => f.a = 0 && f.b = 0 && f.c = 0 && f.d = 0 && 1 ≤ f.imm.toNat && f.imm.toNat ≤ 0xFF
  | 2 => f.d = 0 && imm f 24 21 = 0 && imm f 19 18 = 0 && imm f 10 0 = 0 && fmtValid (imm f 28 25)
  | 3 => f.c = 0 && f.d = 0 && imm f 28 21 = 0 && imm f 19 18 = 0 && imm f 10 0 = 0
  | 4 => f.a.toNat < 16 && f.c = 0 && f.d = 0 && imm f 28 0 = 0
  | 5 => f.a.toNat < 16 && f.c = 0 && f.d = 0 && imm f 28 0 = 0
  | _ => false

/-- The TYPE values that a VEC function accepts (R877). -/
def vecTypeOk (func t : Nat) : Bool :=
  if func ≤ 2 || func = 4 || func = 5 || func = 0x18 || func = 0x19 || func = 0x1A || func = 0x1B ||
      (0x20 ≤ func && func ≤ 0x22) then t ≤ 2
  else if 6 ≤ func && func ≤ 0xA then t = 1 || t = 2
  else if func = 0x30 then t = 2
  else t = 0

/-- VEC (0x14), with R877 for TYPE, PG and ZM. -/
def vecOk (func : Nat) (f : Fields) : Bool :=
  let v (x : BitVec 5) := x.toNat < 16
  let p (x : BitVec 5) := x.toNat < 8
  let noPg := imm f 31 29 = 0
  let noZm := imm f 28 28 = 0
  let low := imm f 25 0 = 0
  vecTypeOk func (imm f 27 26) &&
    (if func ≤ 0xA then v f.a && v f.b && v f.c && low && (if func = 3 then v f.d else f.d = 0)
     else if 0x10 ≤ func && func ≤ 0x13 then v f.a && v f.b && f.c = 0 && f.d = 0 && low
     else if func = 0x18 then p f.a && v f.b && v f.c && f.d = 0 && noZm && imm f 25 23 ≤ 5 && imm f 22 0 = 0
     else if func = 0x19 then v f.a && v f.b && v f.c && p f.d && low
     else if func = 0x1A then v f.a && f.c = 0 && f.d = 0 && low
     else if func = 0x1B then v f.b && f.d = 0 && noPg && noZm && low
     else if func = 0x1C || func = 0x1D then v f.a && v f.b && f.c = 0 && f.d = 0 && noPg && noZm &&
       imm f 25 22 ≠ 0 && fmtValid (imm f 25 22) && imm f 21 0 = 0
     else if 0x20 ≤ func && func ≤ 0x22 then v f.a && v f.b && f.c = 0 && f.d = 0 && noZm && low
     else if func = 0x28 || func = 0x29 then p f.a && p f.b && p f.c && f.d = 0 && noPg && noZm && low
     else if func = 0x2A then p f.a && p f.b && f.c = 0 && f.d = 0 && noPg && noZm && low
     else if func = 0x2B then p f.a && f.c = 0 && f.d = 0 && noPg && noZm && low
     else func = 0x30 && v f.a && v f.b && v f.c && f.d = 0 && noPg && noZm && low)

/-- Formats of attn.score (R213). -/
def scoreFmtOk (fm : Nat) : Bool := 1 ≤ fm && fm ≤ 6

/-- ATTN (0x18), with R213 and R214. DESIGN CHOICE: attn.smax and attn.fin scale and divide what their OPAIR names, attn.pv writes
what its d names, and no check ties the OPAIR of one to the d of another, for which the spec gives no outcome
(notes/assumptions/66.md). -/
def attnOk (func : Nat) (f : Fields) : Bool :=
  let v (x : BitVec 5) := x.toNat < 16
  let pair := imm f 21 21 = 0 || imm f 26 26 = 0
  match func with
  | 0 => scoreFmtOk (imm f 28 25) && imm f 24 24 = 0 && imm f 6 0 = 0
  | 1 => v f.a && v f.b && f.c = 0 && f.d = 0 && (imm f 25 22 = 1 || imm f 25 22 = 3) && imm f 13 0 = 0 && pair
  | 2 => f.b = 0 && f.c = 0 && f.d = 0 && (imm f 25 22 = 1 || imm f 25 22 = 3 || imm f 25 22 = 4) &&
      imm f 11 0 = 0 && (imm f 21 19 < 4 || imm f 26 26 = 0)
  | 3 => v f.a && v f.b && v f.c && f.d = 0 && imm f 31 29 = 0 && imm f 25 22 = 0 && imm f 13 0 = 0 && pair
  | 5 => scoreFmtOk (imm f 28 25) && imm f 24 24 = 0 && imm f 2 0 = 0
  | _ => false

/-- CUE (0x1C), with R224 to R227. DESIGN CHOICE: cue.read, which takes no operand, must have VAL and VR 0, as a field that R179
leaves without a use (notes/assumptions/98.md). -/
def cueOk (func : Nat) (f : Fields) : Bool :=
  let val := imm f 31 16
  let vr := imm f 15 15
  let operand := if vr = 0 then f.c = 0 else val = 0
  imm f 11 10 = 0 &&
    (match func with
     | 0 => f.a = 0 && f.d = 0 && operand && imm f 14 12 = 0 && (vr = 1 || val ≠ 0)
     | 1 => f.a = 0 && operand && imm f 14 12 = 0
     | 2 => f.a = 0 && operand && imm f 14 12 = 0
     | 3 => f.a = 0 && f.d = 0 && operand && imm f 14 12 = 0
     | 4 => f.c = 0 && f.d = 0 && val = 0 && vr = 0 && imm f 14 12 = 0
     | 9 => f.a = 0 && operand
     | 0xA => f.a = 0 && operand
     | _ => false)

/-- FLY (0x20). -/
def flyOk (func : Nat) (f : Fields) : Bool :=
  if func ≤ 3 then f.c = 0 && f.d = 0
  else if func = 4 || func = 5 then f.a.toNat < 16 && f.c = 0 && f.d = 0
  else if 8 ≤ func && func ≤ 0xD then f.d = 0
  else func = 0xE

/-- SYS (0x24), with R232 and R233. -/
def sysOk (func : Nat) (f : Fields) : Bool :=
  f.c = 0 && f.d = 0 &&
    (match func with
     | 0 => f.b = 0 && f.imm.toNat ≤ 8
     | 1 => f.a = 0 && (f.imm.toNat = 5 || f.imm.toNat = 6)
     | 2 => f.a = 0 && f.b = 0 && f.imm.toNat < 65536
     | 3 => f.b = 0 && f.imm.toNat ≤ 1
     | _ => false)

/-- Whether a word is free of reserved field values (R175 to R178, check 2 of R123). -/
def wordOk (major func : Nat) (f : Fields) : Bool :=
  match major with
  | 0x00 => ctrlOk func f
  | 0x01 => scalarOk func f
  | 0x02 => immOk func f
  | 0x03 => branchOk func f
  | 0x08 => lmOk func f
  | 0x0C => xferOk func f
  | 0x10 => mxOk func f
  | 0x14 => vecOk func f
  | 0x18 => attnOk func f
  | 0x1C => cueOk func f
  | 0x20 => flyOk func f
  | 0x24 => sysOk func f
  | _ => false

/-! ### Register files (R107) -/

/-- A scalar register: s0 reads 0. -/
def rdS (x : Engine) (r : BitVec 5) : DWord := if r = 0 then 0#64 else tabGet 0#64 x.s r.toNat
/-- Writes a scalar register: writes to s0 are discarded. -/
def wrS (x : Engine) (r : BitVec 5) (v : DWord) : Engine :=
  if r = 0 then x else { x with s := tabSet 0#64 x.s r.toNat v }
/-- The 128 lanes of a vector register. -/
def rdV (x : Engine) (r : Nat) : List Word := tabRead 0#32 x.v (128 * r) 128
/-- Writes the lanes of a vector register. -/
def wrV (x : Engine) (r : Nat) (ls : List Word) : Engine := { x with v := tabWrite 0#32 x.v (128 * r) (ls.take 128) }
/-- A predicate: p0 reads all ones. -/
def rdP (x : Engine) (r : Nat) : BitVec 128 := if r = 0 then BitVec.allOnes 128 else tabGet 0 x.p r
/-- Writes a predicate: writes to p0 are discarded. -/
def wrP (x : Engine) (r : Nat) (v : BitVec 128) : Engine :=
  if r = 0 then x else { x with p := tabSet 0 x.p r v }
/-- An accumulator element; every element of a skipped accumulator reads −∞ (R218). -/
def rdAcc (x : Engine) (i r c : Nat) : Word :=
  if bitAt x.skip i then f32NegInf else tabGet 0#32 x.acc (16384 * i + 128 * r + c)
/-- One row of an accumulator. -/
def accRow (x : Engine) (i r : Nat) : List Word := (List.range 128).map fun c => rdAcc x i r c
/-- Clears the skipped mark before a write: the elements that the write leaves alone keep reading −∞ (R218). -/
def unskip (x : Engine) (i : Nat) : Engine :=
  if bitAt x.skip i then
    { x with skip := setFld x.skip i i 0, acc := tabFill 0#32 x.acc (16384 * i) 16384 f32NegInf }
  else x
/-- Writes one row of an accumulator. -/
def wrAccRow (x : Engine) (i r : Nat) (ls : List Word) : Engine :=
  { x with acc := tabWrite 0#32 x.acc (16384 * i + 128 * r) (ls.take 128) }

/-! ### Footprints (R111, R112, R114) -/

/-- Bytes of LM. -/
def lmSize : Nat := 0xC00000

/-- LM rows that a transfer touches. -/
def xferLmRows (t : Xfer) : List (Nat × Nat) := (List.range t.rows).map fun r => (t.lm + r * t.lmStride, t.len)

/-- Whether two byte ranges overlap. -/
def overlap (a n b m : Nat) : Bool := a < b + m && b < a + n

/-- Whether an LM range overlaps bytes of a transfer in flight (R132). -/
def lmBusy (x : Engine) (a n : Nat) : Bool :=
  x.xq.any fun t => (xferLmRows t).any fun r => overlap a n r.1 r.2

/-- How an access stands before it is made: it goes ahead, waits, or raises an exception of R154. -/
inductive Chk where
  | ok
  | wait
  | exc (cause addr : Nat)
deriving DecidableEq, Repr

/-- Runs the second check when the first lets the access go ahead; a precise exception of either comes before a wait. DESIGN CHOICE:
of two causes of one instruction the first check's is raised, since the spec gives no order (notes/assumptions/98.md). -/
def Chk.and (a b : Chk) : Chk := match a with | .ok => b | .wait => (match b with | .exc c x => .exc c x | _ => .wait) | e => e

/-- An LM footprint: alignment, bound and R132. DESIGN CHOICE: ALIGN comes before LM_BOUND (notes/assumptions/98.md). -/
def chkLm (x : Engine) (a n align : Nat) : Chk :=
  if a % align ≠ 0 then .exc 2 a else if a + n > lmSize then .exc 3 a else if lmBusy x a n then .wait else .ok

/-- An FL footprint: alignment, bound and R724. -/
def chkFl (s : State) (c : EntryCtx) (a n align : Nat) : Chk :=
  if a % align ≠ 0 then .exc 2 a else if a + n > flSize c then .exc 4 a else if flUnderTest s c a n then .wait else .ok

/-- LM bytes. -/
def lmRead (x : Engine) (a n : Nat) : List Byte := tabRead 0#8 x.lm a n
/-- Stores LM bytes. -/
def lmWrite (x : Engine) (a : Nat) (bs : List Byte) : Engine := { x with lm := tabWrite 0#8 x.lm a bs }

/-- A tile operand in LM (false) or FL (true). -/
def chkTile (s : State) (c : EntryCtx) (x : Engine) (fl : Bool) (a n : Nat) : Chk :=
  if fl then chkFl s c a n 64 else chkLm x a n 64

/-- The bytes of an operand. -/
def opRead (s : State) (c : EntryCtx) (x : Engine) (fl : Bool) (a n : Nat) : List Byte :=
  if fl then flRead s c a n else lmRead x a n

/-- The effective address of LM and FLY instructions: an unsigned 64-bit sum (R189, R229). -/
def effAddr (x : Engine) (f : Fields) : Nat := (rdS x f.b + sext f.imm).toNat

/-! ### Issue (R131, R155, R156) -/

/-- The outcome of an instruction: its next state, an exception of R154, or a stall. -/
inductive IRes where
  | ok (s : State)
  | exc (cause addr : Nat)
  | stall

/-- pc of the next instruction. -/
def advance (x : Engine) : Engine := { x with pc := x.pc + 8#20 }

/-- Issues one instruction on an engine. Nothing issues on an engine that runs no entry, waits, or has ended its
program; an exception that has been reported is taken first (R156); a precise exception leaves the instruction
without effect (R155); a stall leaves the state unchanged. -/
def issue (e : Nat) (s : State) (g : EntryCtx → Engine → IRes) : Res :=
  need (e < 36) <|
    let x := engOf s e
    match x.run with
    | none => .next s
    | some c =>
      if x.phase ≠ .running || x.wait.isSome then .next s
      else if x.deferred.any Deferred.reported then .next (takeDeferred e s)
      else match g c x with
        | .ok t => .next t
        | .exc cause a => .next (raiseExc e cause x.pc.toNat a 0 [] s)
        | .stall => .next s

/-- Issues an instruction whose word must be free of reserved field values (ILLEGAL otherwise). -/
def runEng (e major func : Nat) (f : Fields) (s : State) (g : EntryCtx → Engine → IRes) : Res :=
  issue e s fun c x => if wordOk major func f then g c x else .exc 1 0

/-- An instruction that only changes its engine and goes on to the next one. -/
def runReg (e major func : Nat) (f : Fields) (s : State) (g : Engine → Engine) : Res :=
  runEng e major func f s fun _ x => .ok (setEng e (advance (g x)) s)

/-- The result of an access check. -/
def Chk.run (k : Chk) (r : IRes) : IRes :=
  match k with | .ok => r | .wait => .stall | .exc c a => .exc c a

end Sys2Proof.Machine
end

