-- ==== Sys2Proof/Machine/Lm.lean ====
section
/-! DEFINITION. LM instructions (R189 to R193). -/

namespace Sys2Proof.Machine

open Sys2Proof

/-- A load of `n` bytes into s[A], with `g` the extension to 64 bits. -/
def lmLoad (e func n : Nat) (f : Fields) (s : State) (g : Nat → DWord) : Res :=
  runEng e 8 func f s fun _ x =>
    let a := effAddr x f
    (chkLm x a n n).run (.ok (setEng e (advance (wrS x f.a (g (leNat (lmRead x a n))))) s))

/-- A store of the low `n` bytes of s[A]. -/
def lmStore (e func n : Nat) (f : Fields) (s : State) : Res :=
  runEng e 8 func f s fun _ x =>
    let a := effAddr x f
    (chkLm x a n n).run (.ok (setEng e (advance (lmWrite x a (leBytes n (rdS x f.a).toNat))) s))

/-- lm.ld.b: 1 byte, sign-extended. -/
def execLmLdB (e : Nat) (f : Fields) (s : State) : Res :=
  lmLoad e 0 1 f s fun v => (BitVec.ofNat 8 v).signExtend 64
/-- lm.ld.bu: 1 byte, zero-extended. -/
def execLmLdBu (e : Nat) (f : Fields) (s : State) : Res := lmLoad e 1 1 f s fun v => BitVec.ofNat 64 v
/-- lm.ld.h: 2 bytes, sign-extended. -/
def execLmLdH (e : Nat) (f : Fields) (s : State) : Res :=
  lmLoad e 2 2 f s fun v => (BitVec.ofNat 16 v).signExtend 64
/-- lm.ld.hu: 2 bytes, zero-extended. -/
def execLmLdHu (e : Nat) (f : Fields) (s : State) : Res := lmLoad e 3 2 f s fun v => BitVec.ofNat 64 v
/-- lm.ld.w: 4 bytes, sign-extended. -/
def execLmLdW (e : Nat) (f : Fields) (s : State) : Res :=
  lmLoad e 4 4 f s fun v => (BitVec.ofNat 32 v).signExtend 64
/-- lm.ld.wu: 4 bytes, zero-extended. -/
def execLmLdWu (e : Nat) (f : Fields) (s : State) : Res := lmLoad e 5 4 f s fun v => BitVec.ofNat 64 v
/-- lm.ld.d: 8 bytes. -/
def execLmLdD (e : Nat) (f : Fields) (s : State) : Res := lmLoad e 6 8 f s fun v => BitVec.ofNat 64 v
/-- lm.st.b. -/
def execLmStB (e : Nat) (f : Fields) (s : State) : Res := lmStore e 8 1 f s
/-- lm.st.h. -/
def execLmStH (e : Nat) (f : Fields) (s : State) : Res := lmStore e 9 2 f s
/-- lm.st.w. -/
def execLmStW (e : Nat) (f : Fields) (s : State) : Res := lmStore e 0xA 4 f s
/-- lm.st.d. -/
def execLmStD (e : Nat) (f : Fields) (s : State) : Res := lmStore e 0xB 8 f s

/-- The 128 lanes that 512 bytes spell: lane i from bytes 4 i to 4 i + 3. -/
def lanesOf (bs : List Byte) : List Word :=
  (List.range 128).map fun i => BitVec.ofNat 32 (leAt bs (4 * i) 4)

/-- The 512 bytes of 128 lanes. -/
def lanesBytes (ls : List Word) : List Byte := ls.flatMap fun w => leBytes 4 w.toNat

/-- lm.vld: 512 bytes into a v register. A move sets NAN where it writes one (R273). -/
def execLmVld (e : Nat) (f : Fields) (s : State) : Res :=
  runEng e 8 0x10 f s fun _ x =>
    let a := effAddr x f
    let bs := lmRead x a 512
    (chkLm x a 512 64).run (.ok (setEng e (advance (withMoved (wrV x f.a.toNat (lanesOf bs)) bs)) s))

/-- lm.vst: a v register to 512 bytes. -/
def execLmVst (e : Nat) (f : Fields) (s : State) : Res :=
  runEng e 8 0x11 f s fun _ x =>
    let a := effAddr x f
    let bs := lanesBytes (rdV x f.a.toNat)
    (chkLm x a 512 64).run (.ok (setEng e (advance (withMoved (lmWrite x a bs) bs)) s))

/-- lm.vld.bc: 4 bytes into every lane. -/
def execLmVldBc (e : Nat) (f : Fields) (s : State) : Res :=
  runEng e 8 0x12 f s fun _ x =>
    let a := effAddr x f
    let bs := lmRead x a 4
    (chkLm x a 4 4).run
      (.ok (setEng e (advance (withMoved (wrV x f.a.toNat (List.replicate 128 (BitVec.ofNat 32 (leNat bs)))) bs)) s))

/-- lm.pld: 16 bytes into a predicate, lane i from bit i. -/
def execLmPld (e : Nat) (f : Fields) (s : State) : Res :=
  runEng e 8 0x14 f s fun _ x =>
    let a := effAddr x f
    (chkLm x a 16 16).run
      (.ok (setEng e (advance (wrP x f.a.toNat (BitVec.ofNat 128 (leNat (lmRead x a 16))))) s))

/-- lm.pst: a predicate to 16 bytes. -/
def execLmPst (e : Nat) (f : Fields) (s : State) : Res :=
  runEng e 8 0x15 f s fun _ x =>
    let a := effAddr x f
    (chkLm x a 16 16).run (.ok (setEng e (advance (lmWrite x a (leBytes 16 (rdP x f.a.toNat).toNat))) s))

/-- Copies `n` bytes 256 at a time in ascending order (R191); the first argument counts the pieces. -/
def lmCopy : Nat → Engine → Nat → Nat → Nat → Engine
  | 0, x, _, _, _ => x
  | k + 1, x, dst, src, n =>
    let m := min n 256
    lmCopy k (lmWrite x dst (lmRead x src m)) (dst + m) (src + m) (n - m)

/-- The length of lm.cpy and lm.fill (R193). -/
def chkLen (n a : Nat) : Chk := if n % 64 ≠ 0 || n = 0 || n > lmSize then .exc 2 a else .ok

/-- lm.cpy (R191, R193). -/
def execLmCpy (e : Nat) (f : Fields) (s : State) : Res :=
  runEng e 8 0x18 f s fun _ x =>
    let dst := (rdS x f.a).toNat
    let src := (rdS x f.b).toNat
    let n := (rdS x f.c).toNat
    ((chkLen n dst).and ((chkLm x src n 64).and (chkLm x dst n 64))).run
      (let y := lmCopy (n / 256 + 1) x dst src n
       .ok (setEng e (advance (withMoved y (lmRead y dst n))) s))

/-- lm.fill (R192, R193): the 64-bit value repeated. -/
def execLmFill (e : Nat) (f : Fields) (s : State) : Res :=
  runEng e 8 0x19 f s fun _ x =>
    let dst := (rdS x f.a).toNat
    let n := (rdS x f.c).toNat
    let v := leBytes 8 (rdS x f.b).toNat
    ((chkLen n dst).and (chkLm x dst n 64)).run
      (.ok (setEng e (advance (withMoved (lmWrite x dst ((List.replicate (n / 8) v).flatten)) v)) s))

end Sys2Proof.Machine
end

