-- ==== Sys2Proof/Machine/Mx.lean ====
section
/-! DEFINITION. MX instructions (R199 to R206), with the tiles of R199. -/

namespace Sys2Proof.Machine

open Sys2Proof

/-- Bytes of a tile of `rows` rows of `k` elements in format `fm`, its scales included (R199). -/
def tileBytes (fm rows k : Nat) : Nat := rows * k * fmtWidth fm / 8 + if fmtMx fm then rows * k / 32 else 0

/-- A tile operand: its stored bits as one number. -/
structure Tile where
  bits : Nat
  fm : Nat
  rows : Nat
  k : Nat

/-- The tile that bytes spell. -/
def mkTile (bs : List Byte) (fm rows k : Nat) : Tile := ⟨leNat bs, fm, rows, k⟩

/-- Element k of row r (R199). -/
def Tile.elem (t : Tile) (r i : Nat) : Fp :=
  let w := fmtWidth t.fm
  let p := (r * t.k + i) * w
  decodeElem t.fm (nfld t.bits (p + w - 1) p)

/-- The scale byte of block j of row r; 0x7F for a format without scales (R270). -/
def Tile.scale (t : Tile) (r j : Nat) : Nat :=
  if fmtMx t.fm then
    let p := 8 * (t.rows * t.k * fmtWidth t.fm / 8 + r * t.k / 32 + j)
    nfld t.bits (p + 7) p
  else 0x7F

/-- The 32 elements of block j of row r. -/
def Tile.block (t : Tile) (r j : Nat) : List Fp := (List.range 32).map fun i => t.elem r (32 * j + i)

/-- The dot product of row m of one tile and row n of another: a tree sum of block results (R202, R286). -/
def rowDot (r : Rnd) (a : Tile) (m : Nat) (b : Tile) (n : Nat) : Word :=
  treeSum r ((List.range (a.k / 32)).map fun j =>
    blockDot r a.fm (a.block m j) (a.scale m j) b.fm (b.block n j) (b.scale n j))

/-- Rounding of MX and VEC arithmetic: nearest even, or toward zero when st.round is 1 (R278). -/
def arithRnd (x : Engine) : Rnd := if x.round = 1 then .zero else .nearest

/-- The indivisible Flies footprint of an instruction (R203). -/
def chkFlSum (n a : Nat) : Chk := if n > 196608 then .exc 4 a else .ok

/-- The range of K (R201). -/
def mulKOk (k fa fb : Nat) : Bool :=
  128 ≤ k && k ≤ 16384 && k % 128 = 0 &&
    (!(fa = 7 || fa = 8 || fb = 7 || fb = 8) || k % 256 = 0)

/-- mx.mul (R200 to R203). DESIGN CHOICE: the Flies sum of R203 is checked before the alignment and bounds of the tiles, for which the
spec gives no order (notes/assumptions/98.md). -/
def execMxMul (e : Nat) (f : Fields) (s : State) : Res :=
  runEng e 0x10 0 f s fun c x =>
    let fa := imm f 28 25
    let fb := imm f 24 21
    let spA := imm f 20 20 = 1
    let spB := imm f 19 19 = 1
    let clr := imm f 18 18 = 1
    let rows := imm f 17 11 + 1
    let i := imm f 31 29
    let k := (rdS x f.c).toNat
    let a := (rdS x f.a).toNat
    let b := (rdS x f.b).toNat
    if !mulKOk k fa fb then .exc 1 0
    else
      let na := tileBytes fa rows k
      let nb := tileBytes fb 128 k
      let fl := (if spA then na else 0) + (if spB then nb else 0)
      ((chkFlSum fl (if spA then a else b)).and ((chkTile s c x spA a na).and (chkTile s c x spB b nb))).run <|
        let ta := mkTile (opRead s c x spA a na) fa rows k
        let tb := mkTile (opRead s c x spB b nb) fb 128 k
        let r := arithRnd x
        let res := (List.range rows).map fun m => (List.range 128).map fun n =>
          let t := rowDot r ta m tb n
          if clr then t else add32 r (rdAcc x i m n) t
        let x' := (res.zipIdx).foldl (fun y p => wrAccRow y i p.2 p.1) (unskip x i)
        let s := if spA then flEcc c a na s else s
        let s := if spB then flEcc c b nb s else s
        .ok (setEng e (advance (withFlags x' false (res.any anyNan))) s)

/-- mx.zero: each selected accumulator becomes +0.0, and its skipped mark is cleared. -/
def execMxZero (e : Nat) (f : Fields) (s : State) : Res :=
  runReg e 0x10 1 f s fun x =>
    (List.range 8).foldl (fun y i =>
      if bitAt f.imm i then { y with acc := tabClear y.acc (16384 * i) 16384, skip := setFld y.skip i i 0 } else y) x

/-- The random word of R282. -/
def stochWord (c : EntryCtx) (c0 c1 c2 c3 : Nat) : Nat :=
  (philox (c0, c1, c2, c3) c.progId.toNat (c.part * 2 ^ 29 + c.stepId)).1

/-- The rounding of a conversion out of FP32 by mx.drain and vcvt.dn (R278). -/
def cvtRnd (x : Engine) (w : Nat) : Rnd := if x.round = 1 then .zero else if x.round = 2 then .stoch w else .nearest

/-- Converts FP32 words to one packed row of format `fm`: the stream bits, the scale bytes, and the flags. `rnd`
gives the rounding of each element. -/
def convertRow (fm : Nat) (rnd : Nat → Rnd) (ls : List Word) : List Nat × List Nat × CvtFlags :=
  if fmtMx fm then
    let blocks := (List.range (ls.length / 32)).map fun j =>
      mxPack fm (fun i => rnd (32 * j + i)) ((ls.drop (32 * j)).take 32 |>.map dec32)
    (blocks.flatMap fun b => b.2.1, blocks.map fun b => b.1, ⟨false, blocks.any fun b => b.2.2⟩)
  else
    let xs := ls.mapIdx fun i w => convertDown fm (rnd i) (dec32 w)
    (xs.map Prod.fst, [], ⟨xs.any fun p => p.2.sat, xs.any fun p => p.2.nan⟩)

/-- Bytes of one row of 128 elements. -/
def rowBytes (fm : Nat) : Nat := 16 * fmtWidth fm

/-- A row of 128 elements as bytes. -/
def packRow (fm : Nat) (xs : List Nat) : List Byte := leBytes (rowBytes fm) (packStream (fmtWidth fm) xs)

/-- Checks the rows of a strided tile. -/
def chkRows (s : State) (c : EntryCtx) (x : Engine) (fl : Bool) (a rows stride n : Nat) : Chk :=
  (List.range rows).foldl (fun k r => k.and (chkTile s c x fl (a + r * stride) n)) .ok

/-- Writes bytes to LM or FL. -/
def opWrite (e : Nat) (c : EntryCtx) (fl : Bool) (a : Nat) (bs : List Byte) (s : State) : State :=
  if fl then flWrite c a bs s else modEng e (fun x => lmWrite x a bs) s

/-- mx.drain (R204, R205). -/
def execMxDrain (e : Nat) (f : Fields) (s : State) : Res :=
  runEng e 0x10 2 f s fun c x =>
    let i := imm f 31 29
    let fm := imm f 28 25
    let fl := imm f 20 20 = 1
    let rows := imm f 17 11 + 1
    let a := (rdS x f.a).toNat
    let stride := (rdS x f.b).toNat
    let coord := rdS x f.c
    let n := rowBytes fm
    if stride ≠ 0 && (fmtMx fm || stride % 64 ≠ 0 || stride < n) then .exc 1 0
    else
      let total := tileBytes fm rows 128
      let chk := if stride = 0 then (chkFlSum (if fl then total else 0) a).and (chkTile s c x fl a total)
        else (chkFlSum (if fl then rows * n else 0) a).and (chkRows s c x fl a rows stride n)
      chk.run <|
        let rs := (List.range rows).map fun m =>
          convertRow fm (fun k => cvtRnd x (stochWord c (fld coord 31 0) (fld coord 63 32) (m * 128 + k) 0)) (accRow x i m)
        let x' := advance (withFlags x (rs.any fun r => r.2.2.sat) (rs.any fun r => r.2.2.nan))
        let s := setEng e x' s
        if stride = 0 then
          .ok (opWrite e c fl a (rs.flatMap (fun r => packRow fm r.1) ++
            (rs.flatMap fun r => r.2.1.map fun b => BitVec.ofNat 8 b)) s)
        else
          .ok ((rs.zipIdx).foldl (fun t p => opWrite e c fl (a + p.2 * stride) (packRow fm p.1.1) t) s)

/-- A tile operand read as FP32: a NaN becomes the canonical NaN (R277). -/
def canon32 (w : Word) : Word := if isNan32 w then qnan else w

/-- mx.fill (R205). -/
def execMxFill (e : Nat) (f : Fields) (s : State) : Res :=
  runEng e 0x10 3 f s fun c x =>
    let i := imm f 31 29
    let fl := imm f 20 20 = 1
    let rows := imm f 17 11 + 1
    let a := (rdS x f.a).toNat
    let b := (rdS x f.b).toNat
    if b ≠ 0 && (b % 64 ≠ 0 || b < 512) then .exc 1 0
    else
      let stride := if b = 0 then 512 else b
      ((chkFlSum (if fl then rows * 512 else 0) a).and (chkRows s c x fl a rows stride 512)).run <|
        let rs := (List.range rows).map fun m =>
          let bs := opRead s c x fl (a + m * stride) 512
          (List.range 128).map fun n => canon32 (BitVec.ofNat 32 (leAt bs (4 * n) 4))
        let x' := (rs.zipIdx).foldl (fun y p => wrAccRow y i p.2 p.1) (unskip x i)
        let s := if fl then
            (List.range rows).foldl (fun t m => flEcc c (a + m * stride) 512 t) s
          else s
        .ok (setEng e (advance (withFlags x' false (rs.any anyNan))) s)

/-- mx.rowr (R206). -/
def execMxRowr (e : Nat) (f : Fields) (s : State) : Res :=
  runEng e 0x10 4 f s fun _ x =>
    let r := (rdS x f.b).toNat
    if r ≥ 128 then .exc 1 0
    else
      let row := accRow x (imm f 31 29) r
      .ok (setEng e (advance (withFlags (wrV x f.a.toNat row) false (anyNan row))) s)

/-- mx.roww (R206). -/
def execMxRoww (e : Nat) (f : Fields) (s : State) : Res :=
  runEng e 0x10 5 f s fun _ x =>
    let r := (rdS x f.b).toNat
    if r ≥ 128 then .exc 1 0
    else
      let i := imm f 31 29
      let row := rdV x f.a.toNat
      .ok (setEng e (advance (withFlags (wrAccRow (unskip x i) i r row) false (anyNan row))) s)

end Sys2Proof.Machine
end

