-- ==== Sys2Proof/Machine/Vec.lean ====
section
/-! DEFINITION. VEC instructions (R207 to R212, R877, R878). -/

namespace Sys2Proof.Machine

open Sys2Proof

/-- PG, ZM and TYPE of a VEC word. -/
def vecPg (f : Fields) : Nat := imm f 31 29
def vecZm (f : Fields) : Bool := imm f 28 28 = 1
def vecType (f : Fields) : Nat := imm f 27 26

/-- Merges a result into vd: active lanes take it, inactive lanes keep their values or become 0 (R207). -/
def mergeLanes (act : BitVec 128) (zm : Bool) (old new : List Word) : List Word :=
  (List.range 128).map fun i =>
    if bitAt act i then new.getD i 0#32 else if zm then 0#32 else old.getD i 0#32

/-- An element-wise VEC instruction: the lanes of `g` under PG and ZM; an FP32 result that holds a NaN in a lane
written sets NAN (R273). -/
def vecElem (e func : Nat) (f : Fields) (s : State) (g : Engine → List Word) : Res :=
  runReg e 0x14 func f s fun x =>
    let act := rdP x (vecPg f)
    let new := mergeLanes act true [] (g x)
    let y := wrV x f.a.toNat (mergeLanes act (vecZm f) (rdV x f.a.toNat) new)
    withFlags y false (vecType f = 0 && anyNan new)

/-- Two source vectors, lane by lane. -/
def lanes2 (x : Engine) (f : Fields) (g : Word → Word → Word) : List Word :=
  List.zipWith g (rdV x f.b.toNat) (rdV x f.c.toNat)

/-- One source vector, lane by lane. -/
def lanes1 (x : Engine) (f : Fields) (g : Word → Word) : List Word := (rdV x f.b.toNat).map g

/-- Picks the operation of a TYPE (R878). -/
def byType (f : Fields) (fp i u : Word → Word → Word) : Word → Word → Word :=
  if vecType f = 0 then fp else if vecType f = 1 then i else u

/-- vadd. -/
def execVadd (e : Nat) (f : Fields) (s : State) : Res :=
  vecElem e 0 f s fun x => lanes2 x f (byType f (add32 (arithRnd x)) (· + ·) (· + ·))
/-- vsub. -/
def execVsub (e : Nat) (f : Fields) (s : State) : Res :=
  vecElem e 1 f s fun x => lanes2 x f (byType f (sub32 (arithRnd x)) (· - ·) (· - ·))
/-- vmul. -/
def execVmul (e : Nat) (f : Fields) (s : State) : Res :=
  vecElem e 2 f s fun x => lanes2 x f (byType f (mul32 (arithRnd x)) (· * ·) (· * ·))
/-- vfma: vs1 × vs2 + vs3 with one rounding. -/
def execVfma (e : Nat) (f : Fields) (s : State) : Res :=
  vecElem e 3 f s fun x =>
    (List.range 128).map fun i =>
      fma32 (arithRnd x) ((rdV x f.b.toNat).getD i 0) ((rdV x f.c.toNat).getD i 0) ((rdV x f.d.toNat).getD i 0)

/-- Signed and unsigned maxima and minima of R878. -/
def smax32 (a b : Word) : Word := if a.slt b then b else a
def umax32 (a b : Word) : Word := if a.ult b then b else a
def smin32 (a b : Word) : Word := if a.slt b then a else b
def umin32 (a b : Word) : Word := if a.ult b then a else b

/-- vmax (R275, R878). -/
def execVmax (e : Nat) (f : Fields) (s : State) : Res :=
  vecElem e 4 f s fun x => lanes2 x f (byType f max32 smax32 umax32)
/-- vmin (R275, R878). -/
def execVmin (e : Nat) (f : Fields) (s : State) : Res :=
  vecElem e 5 f s fun x => lanes2 x f (byType f min32 smin32 umin32)
/-- vand. -/
def execVand (e : Nat) (f : Fields) (s : State) : Res := vecElem e 6 f s fun x => lanes2 x f (· &&& ·)
/-- vor. -/
def execVor (e : Nat) (f : Fields) (s : State) : Res := vecElem e 7 f s fun x => lanes2 x f (· ||| ·)
/-- vxor. -/
def execVxor (e : Nat) (f : Fields) (s : State) : Res := vecElem e 8 f s fun x => lanes2 x f (· ^^^ ·)
/-- vshl: shift by vs2[4:0]. -/
def execVshl (e : Nat) (f : Fields) (s : State) : Res :=
  vecElem e 9 f s fun x => lanes2 x f fun a b => a <<< (b.toNat % 32)
/-- vshr: arithmetic for INT32, logical for UINT32. -/
def execVshr (e : Nat) (f : Fields) (s : State) : Res :=
  vecElem e 0xA f s fun x => lanes2 x f fun a b =>
    if vecType f = 1 then a.sshiftRight (b.toNat % 32) else a >>> (b.toNat % 32)

/-- vexp (R208). -/
def execVexp (e : Nat) (f : Fields) (s : State) : Res := vecElem e 0x10 f s fun x => lanes1 x f expRef
/-- vlog (R208). -/
def execVlog (e : Nat) (f : Fields) (s : State) : Res := vecElem e 0x11 f s fun x => lanes1 x f logRef
/-- vrcp (R208). -/
def execVrcp (e : Nat) (f : Fields) (s : State) : Res := vecElem e 0x12 f s fun x => lanes1 x f rcpRef
/-- vrsqrt (R208). -/
def execVrsqrt (e : Nat) (f : Fields) (s : State) : Res := vecElem e 0x13 f s fun x => lanes1 x f rsqrtRef

/-- The comparison result of two lanes under a TYPE: none when a NaN is compared. -/
def cmpLane (t : Nat) (a b : Word) : Option Int :=
  if t = 0 then cmp32 a b
  else
    let x : Int := if t = 1 then a.toInt else a.toNat
    let y : Int := if t = 1 then b.toInt else b.toNat
    some (if x < y then -1 else if x = y then 0 else 1)

/-- COND of vcmp; a comparison with a NaN is false except under NE (R209). -/
def condHolds (cond : Nat) (r : Option Int) : Bool :=
  match r with
  | none => cond = 1
  | some v =>
    match cond with
    | 0 => v = 0
    | 1 => v ≠ 0
    | 2 => v < 0
    | 3 => v ≤ 0
    | 4 => v > 0
    | _ => v ≥ 0

/-- A predicate from its lanes. -/
def predOf (g : Nat → Bool) : BitVec 128 :=
  BitVec.ofNat 128 (packStream 1 ((List.range 128).map fun i => b2n (g i)))

/-- vcmp (R209). -/
def execVcmp (e : Nat) (f : Fields) (s : State) : Res :=
  runReg e 0x14 0x18 f s fun x =>
    let act := rdP x (vecPg f)
    let va := rdV x f.b.toNat
    let vb := rdV x f.c.toNat
    wrP x f.a.toNat (predOf fun i =>
      bitAt act i && condHolds (imm f 25 23) (cmpLane (vecType f) (va.getD i 0) (vb.getD i 0)))

/-- vsel: vd = p[D] ? vs1 : vs2 per lane. -/
def execVsel (e : Nat) (f : Fields) (s : State) : Res :=
  vecElem e 0x19 f s fun x =>
    let p := rdP x f.d.toNat
    (List.range 128).map fun i => if bitAt p i then (rdV x f.b.toNat).getD i 0 else (rdV x f.c.toNat).getD i 0

/-- vbc: every lane = s[B][31:0]. -/
def execVbc (e : Nat) (f : Fields) (s : State) : Res :=
  vecElem e 0x1A f s fun x => List.replicate 128 ((rdS x f.b).truncate 32)

/-- vlane: s[A] = lane s[C] of vs1; a lane of 128 or above raises ILLEGAL (R206). -/
def execVlane (e : Nat) (f : Fields) (s : State) : Res :=
  runEng e 0x14 0x1B f s fun _ x =>
    let i := (rdS x f.c).toNat
    if i ≥ 128 then .exc 1 0
    else .ok (setEng e (advance (wrS x f.a (((rdV x f.b.toNat).getD i 0).zeroExtend 64))) s)

/-- vcvt.dn (R210, R278, R282): the count of conversions under st.round = 2 rises after the conversion. -/
def execVcvtDn (e : Nat) (f : Fields) (s : State) : Res :=
  runEng e 0x14 0x1C f s fun c x =>
    let fm := imm f 25 22
    let r := convertRow fm (fun k => cvtRnd x (stochWord c x.pc.toNat x.dnCount k 0x10000000)) (rdV x f.b.toNat)
    let bs := slice (packRow fm r.1 ++ r.2.1.map fun b => BitVec.ofNat 8 b) 0 512
    let y := wrV x f.a.toNat (lanesOf bs)
    let y := { y with dnCount := if x.round = 2 then x.dnCount + 1 else x.dnCount }
    .ok (setEng e (advance (withFlags y r.2.2.sat r.2.2.nan)) s)

/-- vcvt.up (R210, R277). -/
def execVcvtUp (e : Nat) (f : Fields) (s : State) : Res :=
  runReg e 0x14 0x1D f s fun x =>
    let fm := imm f 25 22
    let bits := leNat (lanesBytes (rdV x f.b.toNat))
    let w := fmtWidth fm
    let ls := (List.range 128).map fun i =>
      let p := 8 * (rowBytes fm + i / 32)
      BitVec.ofNat 32 (convertUp fm (nfld bits (i * w + w - 1) (i * w)) (if fmtMx fm then nfld bits (p + 7) p else 0x7F))
    withFlags (wrV x f.a.toNat ls) false (anyNan ls)

/-- A reduction of the active lanes into lane 0, and 0 in every other lane (R211). -/
def vecReduce (e func : Nat) (f : Fields) (s : State) (unit : Word) (op : Engine → Word → Word → Word) : Res :=
  runReg e 0x14 func f s fun x =>
    let act := rdP x (vecPg f)
    let ls := (rdV x f.b.toNat).mapIdx fun i w => if bitAt act i then w else unit
    let r := treeFold (op x) 7 ls
    withFlags (wrV x f.a.toNat (r :: List.replicate 127 0#32)) false (vecType f = 0 && isNan32 r)

/-- vrsum (R211, R287). -/
def execVrsum (e : Nat) (f : Fields) (s : State) : Res :=
  vecReduce e 0x20 f s 0#32 fun x => byType f (add32 (arithRnd x)) (· + ·) (· + ·)
/-- vrmax (R211, R275). -/
def execVrmax (e : Nat) (f : Fields) (s : State) : Res :=
  vecReduce e 0x21 f s (if vecType f = 0 then f32NegInf else if vecType f = 1 then 0x80000000#32 else 0#32)
    fun _ => byType f max32 smax32 umax32
/-- vrmin (R211, R275). -/
def execVrmin (e : Nat) (f : Fields) (s : State) : Res :=
  vecReduce e 0x22 f s (if vecType f = 0 then f32Inf else if vecType f = 1 then 0x7FFFFFFF#32 else 0xFFFFFFFF#32)
    fun _ => byType f min32 smin32 umin32

/-- pand. -/
def execPand (e : Nat) (f : Fields) (s : State) : Res :=
  runReg e 0x14 0x28 f s fun x => wrP x f.a.toNat (rdP x f.b.toNat &&& rdP x f.c.toNat)
/-- por. -/
def execPor (e : Nat) (f : Fields) (s : State) : Res :=
  runReg e 0x14 0x29 f s fun x => wrP x f.a.toNat (rdP x f.b.toNat ||| rdP x f.c.toNat)
/-- pnot. -/
def execPnot (e : Nat) (f : Fields) (s : State) : Res :=
  runReg e 0x14 0x2A f s fun x => wrP x f.a.toNat (~~~ rdP x f.b.toNat)
/-- pfirst: lane i is 1 when i < s[B]. -/
def execPfirst (e : Nat) (f : Fields) (s : State) : Res :=
  runReg e 0x14 0x2B f s fun x => wrP x f.a.toNat (predOf fun i => i < (rdS x f.b).toNat)

/-- The four words of one group of lanes through Philox (R212). -/
def philoxGroup (ctr key : List Word) (g : Nat) : List Word :=
  let w (xs : List Word) (i : Nat) : Nat := (xs.getD (4 * g + i) 0).toNat
  let r := philox (w ctr 0, w ctr 1, w ctr 2, w ctr 3) (w key 0) (w key 1)
  [r.1, r.2.1, r.2.2.1, r.2.2.2].map fun n => BitVec.ofNat 32 n

/-- vphilox (R212). -/
def execVphilox (e : Nat) (f : Fields) (s : State) : Res :=
  runReg e 0x14 0x30 f s fun x =>
    wrV x f.a.toNat ((List.range 32).flatMap fun g => philoxGroup (rdV x f.b.toNat) (rdV x f.c.toNat) g)

end Sys2Proof.Machine
end

