-- ==== Sys2Proof/Machine/Attn.lean ====
section
/-! DEFINITION. ATTN instructions (R213 to R222). Every ATTN operation rounds to nearest even (R278). P is held in
its accumulator as the FP32 words of its rounded values. -/

namespace Sys2Proof.Machine

open Sys2Proof

/-- The mask descriptor of R215. -/
def maskSum (d : DWord) : Nat := fld d 63 62
def maskFl (d : DWord) : Bool := bitAt d 61
def maskAddr (d : DWord) : Nat := fld d 23 0

/-- Whether a mask descriptor is legal (R215, R216). -/
def maskLegal (d : DWord) : Bool := fld d 60 24 = 0 && maskSum d ≠ 3

/-- Checks the bitmap of SUM 2. -/
def chkMask (s : State) (c : EntryCtx) (x : Engine) (d : DWord) : Chk :=
  if maskSum d = 2 then chkTile s c x (maskFl d) (maskAddr d) 2048 else .ok

/-- The bitmap of SUM 2 as a number; pair (q, k) is bit 128 q + k. -/
def maskBits (s : State) (c : EntryCtx) (x : Engine) (d : DWord) : Nat :=
  if maskSum d = 2 then leNat (opRead s c x (maskFl d) (maskAddr d) 2048) else 0

/-- Whether a pair is allowed (R216). -/
def maskAllows (sum bits q k : Nat) : Bool :=
  if sum = 0 then true else if sum = 1 then false else bits.testBit (128 * q + k)

/-- Scores, or recomputed probabilities: `inside q k v` gives the element of an allowed pair from its scaled dot
product, and `outside` every other element (R217, R222). -/
def attnTile (s : State) (c : EntryCtx) (x : Engine) (f : Fields) (inside : Nat → Word → Word) (outside : Word) :
    List (List Word) :=
  let fm := imm f 28 25
  let d := 32 * (imm f 23 21 + 1)
  let nq := imm f 20 14 + 1
  let nk := imm f 13 7 + 1
  let q := mkTile (lmRead x (rdS x f.a).toNat (tileBytes fm nq d)) fm nq d
  let k := mkTile (lmRead x (rdS x f.b).toNat (tileBytes fm nk d)) fm nk d
  let md := rdS x f.d
  let bits := maskBits s c x md
  (List.range 128).map fun i => (List.range 128).map fun j =>
    if i < nq && j < nk && maskAllows (maskSum md) bits i j then
      inside i (mul32 .nearest ((rdS x f.c).truncate 32) (rowDot .nearest q i k j))
    else outside

/-- Writes a whole accumulator, and clears its skipped mark. -/
def wrAcc (x : Engine) (i : Nat) (rows : List (List Word)) : Engine :=
  (rows.zipIdx).foldl (fun y p => wrAccRow y i p.2 p.1) { x with skip := setFld x.skip i i 0 }

/-- The checks of attn.score and attn.recomp. -/
def chkScore (s : State) (c : EntryCtx) (x : Engine) (f : Fields) : Chk :=
  let fm := imm f 28 25
  let d := 32 * (imm f 23 21 + 1)
  let md := rdS x f.d
  (chkLm x (rdS x f.a).toNat (tileBytes fm (imm f 20 14 + 1) d) 64).and
    ((chkLm x (rdS x f.b).toNat (tileBytes fm (imm f 13 7 + 1) d) 64).and (chkMask s c x md))

/-- A mask in the Flies is read with its SEC-DED. -/
def maskEcc (e : Nat) (c : EntryCtx) (d : DWord) (s : State) : State :=
  if maskSum d = 2 && maskFl d then flEcc c (maskAddr d) 2048 s else s

/-- attn.score (R213 to R218). -/
def execAttnScore (e : Nat) (f : Fields) (s : State) : Res :=
  runEng e 0x18 0 f s fun c x =>
    let md := rdS x f.d
    let i := imm f 31 29
    if !maskLegal md then .exc 1 0
    else if maskSum md = 1 then .ok (setEng e (advance { x with skip := setFld x.skip i i 1 }) s)
    else
      (chkScore s c x f).run <|
        let rows := attnTile s c x f (fun _ v => v) f32NegInf
        .ok (setEng e (advance (withFlags (wrAcc x i rows) false (rows.any anyNan))) (maskEcc e c md s))

/-- The P values of a row, before and after rounding to PFMT (R219): the FP32 words of the rounded values. -/
def probRow (fm : Nat) (row : List Word) (mn : Word) : List Word :=
  if mn = f32NegInf then row.map fun _ => 0#32
  else row.map fun w =>
    BitVec.ofNat 32 (convertUp fm (convertDown fm .nearest (dec32 (expRef (sub32 .nearest w mn)))).1 0x7F)

/-- tree_sum_row of R219: exact sums over key blocks, each rounded once (R287). -/
def probSum (p : List Word) : Word :=
  treeSum .nearest ((List.range 4).map fun j =>
    blockDot .nearest 0 (((p.drop (32 * j)).take 32).map dec32) 0x7F 1 (List.replicate 32 (decodeElem 1 0x3F80)) 0x7F)

/-- row_max of R219 (R275). -/
def rowMax (row : List Word) : Word := treeFold max32 7 row

/-- One row of attn.smax (R219): P, alpha, and the new vm and vl. -/
def smaxRow (fm : Nat) (row : List Word) (vm vl : Word) : List Word × Word × Word × Word :=
  let mn := max32 vm (rowMax row)
  let alpha := if mn = f32NegInf then f32One else expRef (sub32 .nearest vm mn)
  let p := probRow fm row mn
  (p, alpha, mn, add32 .nearest (mul32 .nearest vl alpha) (probSum p))

/-- scale_row of R219. -/
def scaleRow (x : Engine) (i q : Nat) (alpha : Word) : Engine :=
  wrAccRow x i q ((accRow x i q).map fun w => mul32 .nearest w alpha)

/-- attn.smax (R219): rows below NQ of every operand change. On a skipped accumulator nothing changes (R218). -/
def execAttnSmax (e : Nat) (f : Fields) (s : State) : Res :=
  runReg e 0x18 1 f s fun x =>
    let sa := imm f 31 29
    let oa := imm f 28 26
    let pair := imm f 21 21 = 1
    let nq := imm f 20 14 + 1
    if bitAt x.skip sa then x
    else
      let rs := (List.range nq).map fun q =>
        smaxRow (imm f 25 22) (accRow x sa q) ((rdV x f.a.toNat).getD q 0) ((rdV x f.b.toNat).getD q 0)
      let y := unskip x oa
      let y := if pair then unskip y (oa + 1) else y
      let y := (rs.zipIdx).foldl (fun z p => wrAccRow z sa p.2 p.1.1) y
      let y := (rs.zipIdx).foldl (fun z p =>
        let z := scaleRow z oa p.2 p.1.2.1
        if pair then scaleRow z (oa + 1) p.2 p.1.2.1 else z) y
      let vl' := (rdV x f.b.toNat).mapIdx fun i w => if i < nq then ((rs.map fun r => r.2.2.2).getD i 0) else w
      let vm' := (rdV x f.a.toNat).mapIdx fun i w => if i < nq then ((rs.map fun r => r.2.2.1).getD i 0) else w
      let out := (List.range nq).any fun q => anyNan (accRow y oa q) || (pair && anyNan (accRow y (oa + 1) q))
      let y := wrV (wrV y f.b.toNat vl') f.a.toNat vm'
      withFlags { y with smaxNq := nq, smaxFmt := imm f 25 22 } false
        (out || rs.any fun r => anyNan r.1 || isNan32 r.2.2.1 || isNan32 r.2.2.2)

/-- One output element of attn.pv: the tree sum over four key blocks; keys from NK on contribute 0 (R220). -/
def pvElem (row : List Word) (v : Tile) (nk col : Nat) : Word :=
  treeSum .nearest ((List.range 4).map fun j =>
    let ks := (List.range 32).map fun i => 32 * j + i
    blockDot .nearest 0 (ks.map fun k => if k < nk then dec32 (row.getD k 0) else .fin false 0 0) 0x7F
      v.fm (ks.map fun k => if k < nk then v.elem k col else .fin false 0 0) 0x7F)

/-- Whether attn.pv accepts its VFMT with the PFMT of the preceding attn.smax (R213); with no attn.smax before it there is no P. -/
def pvPairs (pfmt vfmt : Nat) : Bool := pfmt = 0 || (if pfmt = 1 then vfmt = 1 else vfmt = 3 || vfmt = 4)

/-- attn.pv (R213, R220). The columns it writes are those below d. DESIGN CHOICE: a VFMT that does not go with the PFMT of the
preceding attn.smax is ILLEGAL (notes/assumptions/66.md). -/
def execAttnPv (e : Nat) (f : Fields) (s : State) : Res :=
  runEng e 0x18 2 f s fun _ x =>
    let sa := imm f 31 29
    let oa := imm f 28 26
    let fm := imm f 25 22
    let d := 32 * (imm f 21 19 + 1)
    let nk := imm f 18 12 + 1
    let a := (rdS x f.a).toNat
    if bitAt x.skip sa then .ok (setEng e (advance x) s)
    else if !pvPairs x.smaxFmt fm then .exc 1 0
    else
      (chkLm x a (tileBytes fm nk d) 64).run <|
        let v := mkTile (lmRead x a (tileBytes fm nk d)) fm nk d
        let part (o lo hi : Nat) (y : Engine) : Engine :=
          (List.range x.smaxNq).foldl (fun z q =>
            wrAccRow z o q ((List.range 128).map fun col =>
              let old := rdAcc z o q col
              if lo + col < hi then add32 .nearest old (pvElem (accRow x sa q) v nk (lo + col)) else old)) y
        let y := part oa 0 (min d 128) (unskip x oa)
        let y := if d > 128 then part (oa + 1) 128 d (unskip y (oa + 1)) else y
        let nan := (List.range x.smaxNq).any fun q =>
          anyNan ((accRow y oa q).take d) || anyNan ((accRow y (oa + 1) q).take (d - 128))
        .ok (setEng e (advance (withFlags y false nan)) s)

/-- attn.fin (R221, R289). -/
def execAttnFin (e : Nat) (f : Fields) (s : State) : Res :=
  runReg e 0x18 3 f s fun x =>
    let oa := imm f 28 26
    let pair := imm f 21 21 = 1
    let nq := imm f 20 14 + 1
    let vm := rdV x f.a.toNat
    let vl := rdV x f.b.toNat
    let zero (q : Nat) : Bool := cmp32 (vl.getD q 0) 0#32 = some 0
    let row (y : Engine) (o q : Nat) : List Word :=
      (accRow y o q).map fun w => if zero q then 0#32 else div32 .nearest w (vl.getD q 0)
    let y := unskip x oa
    let y := if pair then unskip y (oa + 1) else y
    let y := (List.range nq).foldl (fun z q =>
      let z := wrAccRow z oa q (row z oa q)
      if pair then wrAccRow z (oa + 1) q (row z (oa + 1) q) else z) y
    let lse := (rdV x f.c.toNat).mapIdx fun q w =>
      if q < nq then (if zero q then f32NegInf else add32 .nearest (vm.getD q 0) (logRef (vl.getD q 0))) else w
    let nan := anyNan (lse.take nq) ||
      (List.range nq).any fun q => anyNan (accRow y oa q) || (pair && anyNan (accRow y (oa + 1) q))
    withFlags (wrV y f.c.toNat lse) false nan

/-- attn.recomp (R222). -/
def execAttnRecomp (e : Nat) (f : Fields) (s : State) : Res :=
  runEng e 0x18 5 f s fun c x =>
    let md := rdS x f.d
    if !maskLegal md then .exc 1 0
    else
      (chkScore s c x f).run <|
        let lse := rdV x (imm f 6 3)
        let rows := attnTile s c x f (fun q v => expRef (sub32 .nearest v (lse.getD q 0))) 0#32
        .ok (setEng e (advance (withFlags (wrAcc x (imm f 31 29) rows) false (rows.any anyNan))) (maskEcc e c md s))

end Sys2Proof.Machine
end

