-- ==== Sys2Proof/Machine/House.lean ====
section
/-! DEFINITION. House frames (R585, R586, R588, R602) and pairing-link messages (R634, R635) as they leave, the keys that authenticate
them, and the roles of a pair that decide who sends (R631). -/

namespace Sys2Proof.Machine

open Sys2Proof

/-! ### House frames -/

/-- The first 16 bytes of HMAC-SHA-384 under the House key (R585, R634). -/
def houseIcv (s : State) (bs : List Byte) : List Byte :=
  (leBytes 48 (Config.hmacSha384 (leBytes 48 s.sec.houseKey.toNat) bs).toNat).take 16

/-- A House frame's payload (R585); until a House key is installed its ICV is 0 (R588). -/
def houseFrame (s : State) (cls : Nat) (hseq : DWord) (body : List Byte) : List Byte :=
  let f := [1#8, BitVec.ofNat 8 cls] ++ leBytes 2 body.length ++ leBytes 4 s.boot.serial.toNat ++ leBytes 8 hseq.toNat ++
    leBytes 8 s.beat.num.toNat ++ body
  f ++ (if s.sec.house then houseIcv s f else List.replicate 16 0)

/-- Sends a House frame on both management ports with the same HSEQ (R586): only SPDM until a House key is installed (R588). -/
def sendHouse (cls : Nat) (body : List Byte) (s : State) : State :=
  if s.sec.house || cls = 6 then
    let n := s.net.houseTx + 1
    let f := houseFrame s cls n body
    emit (.house 1 f) (emit (.house 0 f) { s with net := { s.net with houseTx := n } })
  else s

/-! ### SPDM messages (R600 to R602) -/

/-- Sends an SPDM message. On the management ports it travels in a CLASS 6 frame, after a byte that is 1 for a secured message (R602). -/
def sendSpdm (p : SpdmPort) (secured : Bool) (code : Nat) (payload : List Byte) (s : State) : State :=
  let s := emit (.spdm p secured code payload) s
  match p with
  | .doe => s
  | .mgmt => sendHouse 6 ([BitVec.ofNat 8 (b2n secured), 0, 0, 0] ++ Config.spdmMessage secured code payload) s

/-- A verification that fails (R605). -/
def authFail (s : State) : State := bump 0x100040 s

/-! ### The pairing link -/

/-- Whether the module leads: LEAD, or the principal that serves a joining partner (R631). -/
def leads (s : State) : Bool := s.pair.mode = .lead || (s.pair.mode = .solo && s.pair.serving)

/-- Whether the module runs the partner's orders and commits on its verdicts. -/
def follows (s : State) : Bool := s.pair.mode = .understudy || s.pair.mode = .rehearsal

/-- Whether a step waits for the partner's verdict: the partner froze the Running Order in which it was dispatched, and still serves
(R640). -/
def needsVerdict (s : State) (g : Group) : Bool := g.led && (follows s || s.pair.mode = .lead)

/-- The 24-byte header of a pairing-link message (R634). -/
def linkHeader (s : State) (kind part len : Nat) (lseq : DWord) : List Byte :=
  [BitVec.ofNat 8 kind, s.pins.slotId.zeroExtend 8, BitVec.ofNat 8 part, 0] ++ leBytes 4 len ++ leBytes 8 lseq.toNat ++
    leBytes 8 s.beat.num.toNat

/-- The transfer key of a partition (R635): the first 32 bytes of HMAC-SHA-384, keyed with its memory key, over DM9-PAIR. -/
def transferKey (s : State) (part : Nat) : List Byte :=
  (leBytes 48 (Config.hmacSha384 (leBytes 64 (tabGet 0 s.sec.keyVals part).toNat)
    [0x44, 0x4D, 0x39, 0x2D, 0x50, 0x41, 0x49, 0x52]).toNat).take 32

/-- What protects a message: an ICV under the House key, or AES-256-GCM under the transfer key of its partition (R634, R635). -/
def linkSeal (s : State) (kind part : Nat) (lseq : DWord) (header body : List Byte) : LinkSeal :=
  if part = 0xFF then .icv (houseIcv s (header ++ body))
  else .gcm (transferKey s part) (leBytes 8 lseq.toNat ++ [BitVec.ofNat 8 kind, s.pins.slotId.zeroExtend 8, 0, 0])

/-- Sends a pairing-link message (R634): PART is 0xFF unless the body is partition content. -/
def sendPair (kind part : Nat) (body : List Byte) (s : State) : State :=
  let n := s.pair.lseqTx + 1
  let h := linkHeader s kind part body.length n
  emit (.pairMsg ⟨h, body, linkSeal s kind part n h body⟩) { s with pair := { s.pair with lseqTx := n } }

/-- A message of a type whose body the manual names by its fields and not by their places. -/
def sendFields (kind part : Nat) (fields : List Nat) (s : State) : State := sendPair kind part (Config.linkBody kind fields) s

/-- VERDICT (R640): the module that froze the step's Running Order tells its partner how the step ended. -/
def sendVerdict (g : Group) (commit : Bool) (s : State) : State :=
  if !g.led && (leads s || s.pair.mode = .understudy) then sendFields 4 0xFF [g.plan.stepId.toNat, g.plan.reqs.foldl min 0xFFFF, b2n commit, s.beat.num.toNat] s else s

end Sys2Proof.Machine
end

