-- ==== Sys2Proof/Machine/PortOps.lean ====
section
/-! DEFINITION. Outbound events of queue pairs (R549 to R559, R573), replies (R385, R550), the result status ring
(R466, R467), and the Walk-on slots' states. -/

namespace Sys2Proof.Machine

open Sys2Proof

/-- The BAR0 slice of a PCIe function: the function of Pk (k + 1) has slice k, the physical function slice 8. -/
def fnSlice (fn : Nat) : Nat := if fn = 0 then 8 else fn - 1

/-- The key of a queue pair. -/
def qpKey (fn k : Nat) : Nat := 16 * fn + k

def qpOf (s : State) (fn k : Nat) : QPair := tabGet QPair.init s.net.qps (qpKey fn k)
def setQp (fn k : Nat) (q : QPair) (s : State) : State :=
  { s with net := { s.net with qps := tabSet QPair.init s.net.qps (qpKey fn k) q } }
def modQp (fn k : Nat) (f : QPair → QPair) (s : State) : State := setQp fn k (f (qpOf s fn k)) s

def rqpOf (s : State) (q : Nat) : Option Rqp := tabGet none s.net.rqps q
def setRqp (q : Nat) (r : Option Rqp) (s : State) : State :=
  { s with net := { s.net with rqps := tabSet none s.net.rqps q r } }

/-- The drop counter of an event: REPLY, RESULT, ERROR, WALKON (R551, R558). -/
def OutEvent.dropIdx : OutEvent → Nat
  | .reply _ _ => 0 | .result _ => 1 | .error _ _ _ _ => 2 | .walkon _ _ _ => 3 | .member _ _ _ _ => 4

/-- STATE of a Walk-on slot (R460). -/
def slotCode : SlotState → Nat
  | .idle => 0 | .pending => 1 | .running => 2 | .done => 3 | .refused => 4 | .planned => 5

/-- Writes a result status ring entry and raises RING_HEAD (R466, R467). -/
def ringWrite (event : Nat) (status : Status) (part : Nat) (walkon : Bool) (ntok outSeq req : Nat) (s : State) : State :=
  let e := s.board.ringHead.toNat % 256
  let w0 := status.toNat * 2 ^ 24 + part % 8 * 2 ^ 21 + b2n walkon * 2 ^ 20 + ntok % 16 * 2 ^ 16 + outSeq % 65536
  let w1 := req % 8192 * 2 ^ 19 + event % 8 * 2 ^ 16 + s.beat.num.toNat % 65536
  { s with board := { s.board with
      ring := tabSet 0#32 (tabSet 0#32 s.board.ring (2 * e) (BitVec.ofNat 32 w0)) (2 * e + 1) (BitVec.ofNat 32 w1),
      ringHead := s.board.ringHead + 1 } }

/-- Takes a result off its way out. -/
def forgetResult (id : Nat) (s : State) : State :=
  { s with curtain := { s.curtain with results := s.curtain.results.filter fun r => r.id ≠ id } }

/-- A result is dropped (R486): it is counted and enters the ring as DROPPED. -/
def dropResult (id : Nat) (s : State) : State :=
  match s.curtain.results.find? fun r => r.id = id with
  | none => s
  | some r =>
    ringWrite 2 8 r.part r.slot.isSome r.ntok r.outSeq r.req
      { forgetResult id s with board := { s.board with dropped := s.board.dropped + 1 } }

/-- Adds 1 to a drop counter, which saturates at 65,535. -/
def countDrop (ds : List Nat) (i : Nat) : List Nat := ds.modify i fun n => satAdd 65535 n 1

/-- NET_Pn_RES_DROP_CNT of a function or a partition. -/
def resDropCnt (slice : Nat) : Nat := 0xB1410 + 0x1000 * slice

/-- The partition of the result that an event carries. -/
def resultPart (s : State) (id : Nat) : Option Nat := (s.curtain.results.find? fun r => r.id = id).map Result.part

/-- A result that its port drops counts in NET_Pn_RES_DROP_CNT (R558, R573). -/
def dropAtPort (slice : Nat) (ev : OutEvent) (s : State) : State :=
  match ev with
  | .result id => dropResult id (bump (resDropCnt slice) s)
  | _ => s

/-- An event enters the wait queue of a queue pair, or is dropped and counted (R557, R558, R568). -/
def queueEvent (fn k : Nat) (ev : OutEvent) (s : State) : State :=
  let q := qpOf s fn k
  if q.en && q.wait.length < 256 then setQp fn k { q with wait := q.wait ++ [ev] } s
  else dropAtPort (fnSlice fn) ev (setQp fn k { q with drops := countDrop q.drops ev.dropIdx } s)

/-- An event enters the wait queue of a RoCE queue pair, or is dropped and counted (R573). -/
def queueRoce (qpn : Nat) (ev : OutEvent) (s : State) : State :=
  match rqpOf s qpn with
  | none => dropAtPort 8 ev s
  | some q =>
    if q.wait.length < 256 then setRqp qpn (some { q with wait := q.wait ++ [ev] }) s
    else dropAtPort q.part ev (setRqp qpn (some { q with drops := countDrop q.drops ev.dropIdx }) s)

/-- An event goes to the route of its command or request (R30, R550). -/
def sendEvent (r : Route) (ev : OutEvent) (s : State) : State :=
  match r with
  | .pcie fn k _ => queueEvent fn k ev s
  | .roce q => queueRoce q ev s
  | .internal => s

/-- The record of a message, under its commit Beat (R646). -/
def addRecord (beat job : DWord) (kind stream seq : Nat) (plain : List Byte) (s : State) : State :=
  let b := leBytes 8 job.toNat ++ [BitVec.ofNat 8 kind, BitVec.ofNat 8 stream, 0, 0] ++ leBytes 4 plain.length ++
    leBytes 8 seq ++ plain
  { s with pair := { s.pair with records := s.pair.records ++ [(beat, b)] } }

/-- The 32 bytes of a reply (R385). -/
def replyBytes (r : Reply) : List Byte :=
  leBytes 4 r.tag.toNat ++ leBytes 1 r.status.toNat ++ leBytes 3 r.detail ++ leBytes 8 r.result.toNat ++
    leBytes 8 r.beat.toNat ++ leBytes 8 0

/-- A reply goes to the route of its command (R385, R550), with the Beat in which it is made (R579). -/
def sendReply (r : Reply) (s : State) : State :=
  let r := { r with made := s.beat.num }
  let s := addRecord s.beat.num r.job 0x11 0xFF r.seq.toNat (replyBytes r) s
  match r.route with
  | .pcie fn k cid => queueEvent fn k (.reply r cid) s
  | .roce q => queueRoce q (.reply r 0) s
  | .internal => s

/-! ### Walk-on slots -/

def slotOf (s : State) (i : Nat) : Slot := tabGet Slot.init s.board.slots i
def setSlot (i : Nat) (x : Slot) (s : State) : State :=
  { s with board := { s.board with slots := tabSet Slot.init s.board.slots i x } }

/-- A slot changes STATE and STATUS; a doorbell's queue pair takes a WALKON entry at REFUSED, PLANNED and DONE
(R563). -/
def slotTo (i : Nat) (st : SlotState) (status : Status) (s : State) : State :=
  let x := slotOf s i
  let s := setSlot i { x with state := st, status := status } s
  match x.bell with
  | none => s
  | some (fn, k) =>
    if st = .refused || st = .planned || st = .done then queueEvent fn k (.walkon i status (slotCode st)) s else s

end Sys2Proof.Machine
end

