-- ==== Sys2Proof/Machine/ReqOps.lean ====
section
/-! DEFINITION. The request table (R382 to R399): live requests, the end of a request, what the module reports as
its mode, and the count tables of R421 to R425. -/

namespace Sys2Proof.Machine

open Sys2Proof

/-! ### Request table entries -/

/-- The entry at a request table index. -/
def reqOf (s : State) (i : Nat) : Option Request := tabGet none s.serve.reqs i
def setReq (i : Nat) (r : Option Request) (s : State) : State :=
  { s with serve := { s.serve with reqs := tabSet none s.serve.reqs i r } }
def modReq (i : Nat) (f : Request → Request) (s : State) : State :=
  match reqOf s i with
  | none => s
  | some r => setReq i (some (f r)) s

/-- Live states (R882). -/
def ReqState.live : ReqState → Bool
  | .admitted => true | .prefill => true | .decode => true | .paused => true | .done => false | .failed => false

/-- STATE of R394. -/
def reqCode : ReqState → Nat
  | .admitted => 0 | .prefill => 1 | .decode => 2 | .paused => 3 | .done => 4 | .failed => 5

/-- The rank of a request (R79) as a number, the first in rank lowest: the effective priority, then ADMIT_BEAT, then the index. -/
def rankKey (r : Request) (i : Nat) : Nat := ((512 - (r.prio + r.age)) * 2 ^ 64 + r.admitBeat.toNat) * 8192 + i

/-- The indices of the entries that pass a test. -/
def reqsWhere (s : State) (p : Request → Bool) : List Nat :=
  tabKeys (fun _ r => match r with | some r => p r | none => false) s.serve.reqs

/-- The live requests that pass a test (R882). -/
def liveWhere (s : State) (p : Request → Bool) : List Nat := reqsWhere s fun r => r.state.live && p r

/-- Live requests of a partition. -/
def liveCount (s : State) (part : Nat) : Nat := (liveWhere s fun r => r.part = part).length

/-- Changes every entry. -/
def mapReqs (f : Nat → Request → Request) (s : State) : State :=
  { s with serve := { s.serve with reqs := tabMap none (fun i r => r.map (f i)) s.serve.reqs } }

/-- Adds 1 to a cumulative counter of a partition: 0 admissions, 1 refusals, 2 DONE ends, 3 FAILED ends. -/
def bumpServe (part k : Nat) (s : State) : State :=
  { s with serve := { s.serve with cnt := tabMod 0#32 s.serve.cnt (4 * part + k) (· + 1) } }

/-- Whether a step of a request is planned or running (R390, R395, R462): planned while an order that is published or frozen holds
it. -/
def stepBusy (s : State) (i : Nat) : Bool :=
  let inOrder (o : Option Order) : Bool := match o with | some o => o.steps.any fun p => p.reqs.contains i | none => false
  s.serve.groups.any (fun g => g.status = .active && g.plan.reqs.contains i) || inOrder s.ro.frozen ||
    inOrder s.ro.published

/-- Whether a step of a request is running. -/
def stepRunning (s : State) (i : Nat) : Bool :=
  s.serve.groups.any fun g => g.status = .active && g.plan.reqs.contains i

/-- A request ends DONE or FAILED (R395): its status and FAIL_UNIT, the ENDED ring entry, the counters, and the
Walk-on slot that serves it (R465). -/
def endRequest (i : Nat) (done : Bool) (status : Status) (unit : BitVec 16) (s : State) : State :=
  match reqOf s i with
  | none => s
  | some r =>
    if !r.state.live then s
    else
      let busy (x : Slot) : Bool := x.req = i && (x.state = .pending || x.state = .running || x.state = .planned)
      let slots := tabKeys (fun _ x => busy x) s.board.slots
      let walk := slots.any fun k => (slotOf s k).state ≠ .pending
      let s := setReq i (some { r with
        state := if done then .done else .failed, status := status, failUnit := unit, pausePending := false,
        failAtEnd := none, cancelled := false }) s
      let s := bumpServe r.part (if done then 2 else 3) (ringWrite 3 status r.part walk 0 0 i s)
      let s := if status = 6 then bump (0x3020C + 0x20 * r.part) s else s
      let s := if status = 3 then bump 0x90048 s else s
      slots.foldl (fun t k => slotTo k .done status t) s

/-- A request ends FAILED. -/
def failRequest (i : Nat) (status : Status) (unit : BitVec 16) (s : State) : State := endRequest i false status unit s

/-- Every live request that passes a test ends FAILED, in index order. -/
def failRequests (p : Request → Bool) (status : Status) (unit : BitVec 16) (s : State) : State :=
  (liveWhere s p).foldl (fun t i => failRequest i status unit t) s

/-! ### Mode and partitions -/

/-- Whether a port serves a role and has not failed. -/
def roleServed (s : State) (r : Nat) : Bool :=
  (List.range 5).any fun n => let p := tabGet Port.init s.net.ports n; p.role = some r && !p.failed

/-- R456: a logical engine or Stagehand that is a hole, a port role with no port, or PAIR_ALARM. -/
def degraded (s : State) : Bool :=
  (List.range 32).any (fun l => (engSlot s l).isNone) || (List.range 64).any (fun l => (shSlot s l).isNone) ||
    (List.range 4).any (fun r => !roleServed s r) || s.pair.alarm

/-- HEALTH.MODE (R455, R456, R631, R698, R778, R797). -/
def modeNow (s : State) : Mode :=
  if s.fault.dark then .dark
  else if s.boot.mode = .starting && s.boot.updating then .updating
  else if s.boot.mode ≠ .serving then s.boot.mode
  else if (match s.upd.live with | some l => decide (l.step > 0) | none => false) then .updating
  else match s.pair.mode with
    | .resync => .starting
    | .stoodDown => .starting
    | .rehearsal => .rehearsal
    | _ => if degraded s || s.boot.lockLate then .degraded else .serving

def modeCode : Mode → Nat
  | .starting => 0 | .serving => 1 | .degraded => 2 | .rehearsal => 3 | .updating => 4 | .resetting => 5
  | .dark => 6 | .standby => 7

/-- Whether the main domain is powered and out of reset: from step 4 of a start on (R736). -/
def mainUp (s : State) : Bool := s.pins.regulators && (s.boot.mode = .starting || s.boot.mode = .serving)

/-- Whether PCIe accesses reach the endpoint: it is powered, and PERST_N is released (R695, R854). -/
def linkUp (s : State) : Bool := mainUp s && s.net.perst

/-- SERVING or DEGRADED. -/
def serving (s : State) : Bool := modeNow s = .serving || modeNow s = .degraded

def partEnabled (s : State) (part : Nat) : Bool := s.sec.enabled.contains part
def partShort (s : State) (part : Nat) : Bool := s.flies.short.contains part
def partDeferred (s : State) (part : Nat) : Bool := s.energy.defer.contains part

/-- The status that a request reports: ST_ENERGY_DEFERRED while its partition's allowance is exhausted (R83). DESIGN CHOICE: it stands
before the ST_CARRIED of R76 while both hold (notes/assumptions/88.md). -/
def reqStatus (s : State) (r : Request) : Status := if r.state.live && partDeferred s r.part then 7 else r.status

/-- Whether a key slot holds a key. -/
def keyHeld (s : State) (slot : Nat) : Bool := (tabGet none s.sec.keys slot).isSome

/-- The keys of a job. -/
def jobKey (s : State) (job : DWord) : Option JobKey := (s.sec.jobs.find? fun j => j.1 = job).map Prod.snd

/-! ### Count tables (R421 to R424) -/

/-- The value of an empty slot: id 0xFFFF_FFFF, count 0. -/
def countEmpty : DWord := 0x00000000FFFFFFFF#64

/-- The home slot of a token id (R421). -/
def countHome (t : Word) : Nat := (t.toNat * 0x9E3779B1) % 2 ^ 32 / 2 ^ 19

/-- The slot that holds a token, or the empty slot that ends its probe, from slot `p` over at most `fuel` slots. -/
def countProbe (tab : Tab DWord) (t : Word) : Nat → Nat → Option Nat
  | 0, _ => none
  | fuel + 1, p =>
    let w := tabGet countEmpty tab p
    if w = countEmpty || w.truncate 32 = t then some p else countProbe tab t fuel ((p + 1) % 8192)

/-- The count of a token: 0 when it is absent. -/
def countGet (tab : Tab DWord) (t : Word) : Nat :=
  match countProbe tab t 8192 (countHome t) with
  | none => 0
  | some p => let w := tabGet countEmpty tab p; if w = countEmpty then 0 else fld w 47 32

/-- A slot's word. -/
def countWord (t : Word) (n : Nat) : DWord := BitVec.ofNat 64 (n * 2 ^ 32 + t.toNat)

/-- A token enters the count (R422, R423). -/
def countEnter (r : Request) (t : Word) : Request :=
  match countProbe r.counts t 8192 (countHome t) with
  | none => { r with countFull := true }
  | some p =>
    let w := tabGet countEmpty r.counts p
    if w = countEmpty then
      if r.distinct = 4096 then { r with countFull := true }
      else { r with counts := tabSet countEmpty r.counts p (countWord t 1), distinct := r.distinct + 1 }
    else { r with counts := tabSet countEmpty r.counts p (countWord t (satAdd 65535 (fld w 47 32) 1)) }

/-- Backward-shift deletion (R424): the hole at `hole` takes each later entry of the probe run whose home does not lie
after the hole. -/
def countShift (tab : Tab DWord) : Nat → Nat → Nat → Tab DWord
  | 0, hole, _ => tabSet countEmpty tab hole countEmpty
  | fuel + 1, hole, p =>
    let w := tabGet countEmpty tab p
    if w = countEmpty then tabSet countEmpty tab hole countEmpty
    else
      let h := countHome (w.truncate 32)
      if (p + 8192 - h) % 8192 ≥ (p + 8192 - hole) % 8192 then
        countShift (tabSet countEmpty tab hole w) fuel p ((p + 1) % 8192)
      else countShift tab fuel hole ((p + 1) % 8192)

/-- A token leaves the count (R422, R424). -/
def countLeave (r : Request) (t : Word) : Request :=
  match countProbe r.counts t 8192 (countHome t) with
  | none => r
  | some p =>
    let w := tabGet countEmpty r.counts p
    if w = countEmpty then r
    else
      let n := fld w 47 32
      if n = 65535 then r
      else if n ≤ 1 then { r with counts := countShift r.counts 8191 p ((p + 1) % 8192), distinct := r.distinct - 1 }
      else { r with counts := tabSet countEmpty r.counts p (countWord t (n - 1)) }

/-- Appends a token to the log, and brings the count table up to date (R382, R422). DEDUCED: the token that leaves
the window leaves the count first (notes/assumptions/18.md). -/
def logAppend (r : Request) (t : Word) : Request :=
  let r := if r.window ≠ 0 && r.window ≤ r.logLen then countLeave r (tabGet 0#32 r.log (r.logLen - r.window)) else r
  countEnter { r with log := tabSet 0#32 r.log r.logLen t, logLen := r.logLen + 1 } t

/-- Appends tokens in order. -/
def logAppendAll (r : Request) (ts : List Word) : Request := ts.foldl logAppend r

end Sys2Proof.Machine
end

