-- ==== Sys2Proof/Machine/ResetOps.lean ====
section
/-! DEFINITION. Device resets, their escalation, and the Dark state (R694 to R701, R873), and the fallback of a trial
bundle (R805). -/

namespace Sys2Proof.Machine

open Sys2Proof

/-- A RESET record. The manual states no cause code for it, so its CAUSE is a free value. -/
def logReset (action unit : Nat) (s : State) : State :=
  let cause := (freeVal 1 s).toNat % 256
  logEvent { evBase s 9 cause action with unit := unit, origin := originOf 7 true } (drawn s)

/-- Addresses whose registers keep their values through a device reset (R873): DEV, SEC, UPDATE, FAULT_LOG_* and
THERM_SHUT_CNT. -/
def keptAtReset (a : Nat) : Bool :=
  a < 0x10000 || (0x100000 ≤ a && a < 0x120000) || (0xD0008 ≤ a && a ≤ 0xD0014) || (0xD0100 ≤ a && a < 0xD0180) ||
    a = 0xF004C

/-- The register file after a device reset. The LOCK bit of a block that keeps its values is cleared too (R9). -/
def resetRegs (t : Tab Word) : Tab Word :=
  let u := (tabFilter (fun a _ => !keptAtReset a) regsReset).foldl (fun u e => tabSet 0#32 u e.1 e.2)
    (tabFilter (fun a _ => keptAtReset a) t)
  tabMod 0#32 u 0x110000 (fun w => setFld w 31 31 0)

/-- Device resets of the open escalation window (R696, R697). -/
def devWindow (s : State) : List Nat := s.fault.devWin.filter fun t => s.time < t + 900000000

/-- The module goes Dark (R698): the main domain is unpowered, and every held result is dropped. -/
def goDark (s : State) : State :=
  logReset 6 0xFFFF { s with
    fault := { s.fault with dark := true }
    pins := { s.pins with regulators := false, pwrGood := false }
    pair := { s.pair with darkSince := true } }

/-- Every held result is dropped (R485). -/
def dropHeld (p : Result → Bool) (s : State) : State :=
  (s.curtain.results.filter fun r => r.state = .held && p r).foldl (fun t r => dropResult r.id t) s

/-- The main domain's state at the end of a device reset: every block at its reset values. What lies in the always-on
domain or in the RoT stays: the Call Board but its slots (R694), the fault log and the escalation windows, the RoT's own
stores, the supplies, the billing sums (R881), and what House traffic needs. Stored bytes stay in the stacks with the
keys under which they were written, so that R335 clears them before their frames are mapped again. -/
def resetMain (s : State) : State :=
  { s with
    regs := resetRegs s.regs
    latch := []
    eng := []
    sh := []
    cue := []
    cueGrant := []
    flies := .init
    ro := .init
    hbm := .init
    serve := .init
    video := .init
    bist := .init
    mem := { Mem.init with bytes := s.mem.bytes, poison := s.mem.poison, flips := s.mem.flips, corrupt := s.mem.corrupt,
                           frames := tabMap Frame.init (fun _ f => { Frame.init with wkey := f.wkey }) s.mem.frames }
    beat := { Beat.init with num := s.beat.num, phaseUs := s.beat.phaseUs, rotNum := s.beat.rotNum, wall := s.beat.wall }
    energy := { Energy.init with
      billNum := s.energy.billNum, billFirst := s.energy.billFirst, billLast := s.energy.billLast,
      billUj := s.energy.billUj, billEus := s.energy.billEus, billOp := s.energy.billOp,
      billPartial := s.energy.billPartial, billLabel := s.energy.billLabel, labels := s.energy.labels,
      billNext := s.energy.billNext, records := s.energy.records,
      labelHigh := s.energy.labelHigh, stepped := s.energy.stepped }
    board := { s.board with slots := [], hiLatch := tabSet none s.board.hiLatch 1 none }
    curtain := { s.curtain with rehearsal := false, results := [] }
    net := { Net.init with houseTx := s.net.houseTx, houseRx := s.net.houseRx, mgmtLink := s.net.mgmtLink, perst := s.net.perst }
    pair := { Pair.init with
      partnerSerial := s.pair.partnerSerial, partnerNow := s.pair.partnerNow, partnerBeat := s.pair.partnerBeat, partner := s.pair.partner, partnerCfg := s.pair.partnerCfg, partnerFacts := s.pair.partnerFacts,
      lseqTx := s.pair.lseqTx, lseqRx := s.pair.lseqRx, mgmtSilent := s.pair.mgmtSilent, darkSince := s.pair.darkSince,
      mapChanged := s.pair.mapChanged, rejoin := s.pair.rejoin, reason := s.pair.reason, status := s.pair.status }
    fault := { s.fault with
      recCnt := [], recShown := [], samples := [], sampleLast := [], sampleShown := [], clReset := [], clOut := [],
      partReset := [] }
    therm := { Therm.init with
      shutdown := s.therm.shutdown, shutAtUs := s.therm.shutAtUs, shutLast := s.therm.shutLast, inlet := s.therm.inlet,
      outlet := s.therm.outlet } }

/-- The RoT erases partition keys and job keys, and generates a new key for slot 8 (R608). -/
def eraseKeys (s : State) : State :=
  { s with sec := { s.sec with
      keys := tabSet none (s.sec.keys.filter fun e => 10 ≤ e.1) 8 (some (s.sec.keyGen + 1))
      keyVals := s.sec.keyVals.filter (fun e => 10 ≤ e.1)
      keyGen := s.sec.keyGen + 1, jobs := [],
      acts := (s.sec.acts.filter fun a => a.act = .disable).map fun a => { a with armed := false, running := false } } }

/-- Records a measurement; a change raises SEC_MEAS_GEN (R597). -/
def measure (i : Nat) (d : Digest) (s : State) : State :=
  { s with sec := { s.sec with
      meas := tabSet 0 s.sec.meas i d
      measGen := if tabGet 0 s.sec.meas i = d then s.sec.measGen else s.sec.measGen + 1 } }

/-- The bundle slot that is not running. -/
def otherSlot (s : State) : Nat := 1 - s.upd.running

/-- Whether the running bundle is on trial. -/
def onTrial (s : State) : Bool := (s.upd.slots.getD s.upd.running .init).state = .trial

/-- Fallback (R805): the trial slot is FAILED, the other slot active with its own settings record. -/
def fallBack (s : State) : State :=
  let o := s.upd.slots.getD (otherSlot s) .init
  let s := bump 0x110048 s
  { s with upd := { s.upd with
      slots := s.upd.slots.modify s.upd.running fun b => { b with state := .failed },
      running := otherSlot s, selector := otherSlot s, settings := o.shared ++ o.locals, schema := o.schema,
      trialEndUs := none, live := none, trialBlocked := false, trialLive := false } }

/-- A device reset (R694): held results are dropped, keys are erased, the main domain is lost, and HEALTH.MODE reads
RESETTING. `counted` says whether it counts toward escalation (R697); the third counted within 900 s leaves the module
Dark (R696). `off` turns the main regulators off. A trial bundle falls back (R805) unless the reset activates it. -/
def deviceReset (counted off activation : Bool) (s : State) : State :=
  let s := resetMain (eraseKeys (dropHeld (fun _ => true) s))
  let fell := onTrial s && !activation
  let s := if fell then fallBack s else s
  let win := devWindow s ++ (if counted then [s.time] else [])
  let s := { s with
    fault := { s.fault with devWin := win, devTotal := s.fault.devTotal + 1 }
    boot := { s.boot with
      mode := if activation || fell then .updating else if off then .standby else .resetting, updating := false, step := 0, ready := false, lockLate := false, failed := false, fitting := [] }
    pins := if off then { s.pins with regulators := false, pwrGood := false } else s.pins }
  let s := logReset 5 0xFFFF s
  if counted && win.length ≥ 3 then goDark s else s

end Sys2Proof.Machine
end

