-- ==== Sys2Proof/Machine/MgmtOps.lean ====
section
/-! DEFINITION. Management commands (R592, R606, R607, R699): who may send them, their replies; and how the flats are divided
(R242 to R245, R263). -/

namespace Sys2Proof.Machine

open Sys2Proof

/-! ### Sessions and replies -/

/-- Whether a session's heartbeats have lapsed. HeartbeatPeriod is 10 s (R600); PRESUMED, DSP0274: a responder ends a session that has
not sent one for twice the period (notes/assumptions/105.md). -/
def lapsed (s : State) (x : Session) : Bool := x.phase = .established && s.time > x.beatUs + 20000000

def sessionOf (s : State) (i : Nat) : Option Session := (tabGet none s.sec.sessions i).filter fun x => !lapsed s x
def setSession (i : Nat) (x : Option Session) (s : State) : State :=
  { s with sec := { s.sec with sessions := tabSet none s.sec.sessions i x } }

/-- The role of a command's source: that of its session, or the operator's for a House frame, which only a holder of the House key
can send (R588, R606). None where the command does not reach the RoT. -/
def mgmtRole (s : State) (m : Mgmt) : Option Role :=
  match m.src with
  | .house => if s.sec.house then some .operator else none
  | .session i => match sessionOf s i with
    | some x => if x.phase = .established then some x.role else none
    | none => none

/-- The body of a reply (R606): TAG, STATUS, and the result from byte 8, which is 0 where there is none. -/
def replyBody (m : Mgmt) (st : Status) (vals : List DWord) : List Byte :=
  leBytes 4 m.tag.toNat ++ [st, 0, 0, 0] ++ (if vals.isEmpty then [0] else vals).flatMap fun v => leBytes 8 v.toNat

/-- Where a reply travels (R606): as CLASS 5 to a House frame's sender, or as VENDOR_DEFINED_RESPONSE, secured, in its session. -/
def carryReply (m : Mgmt) (body : List Byte) (s : State) : State :=
  match m.src with
  | .house => sendHouse 5 body s
  | .session i => match sessionOf s i with
    | some x => sendSpdm x.port true 0x7E body s
    | none => s

/-- The reply to a management command (R606). -/
def mgmtReply (m : Mgmt) (st : Status) (vals : List DWord) (s : State) : State :=
  emit (.mgmt m.src m.tag st vals) (carryReply m (replyBody m st vals) s)

/-- A reply with no result. -/
def mgmtSt (m : Mgmt) (st : Status) (s : State) : State := mgmtReply m st [] s

/-- A tenant command of the partition that it targets. -/
def asTenant (m : Mgmt) (r : Role) : Bool := r = .tenant m.target.toNat && m.target.toNat < 8
/-- An operator command. -/
def asOperator (r : Role) : Bool := r = .operator

/-- A status that the manual leaves open, other than ST_OK: one of the table of R12 or of the firmware range (R12, R13). -/
def freeStatus (purpose : Nat) (s : State) : Status :=
  let k := (freeVal purpose s).toNat % 32
  BitVec.ofNat 8 (if k < 15 then k + 1 else 0x71 + k)

/-- A management command: the RoT answers while 12 V standby is present. `house` says whether the command may travel in a House
frame, `allow` which roles may send it (R607), and `dark` whether a Dark module accepts it (R699). While no bundle slot has passed, the RoT accepts no House frame (R596). -/
def mgmtCmd (m : Mgmt) (house : Bool) (allow : Role → Bool) (dark : Bool) (s : State) (body : State) : Res :=
  .next (if !s.pins.standby then s
    else match mgmtRole s m with
    | none => s
    | some r =>
      if m.src = .house && !house then mgmtSt m 0x80 s
      else if !allow r then mgmtSt m 0x82 s
      else if s.fault.dark && !dark then mgmtSt m 0x0D s
      else if m.src = .house && s.sec.bootStatus ≠ 0 then mgmtSt m (freeStatus 26 s) (drawn s)
      else body)

/-- A tenant command that travels in a session only. -/
def tenantCmd (m : Mgmt) (s : State) (body : State) : Res := mgmtCmd m false (asTenant m) false s body
/-- An operator command that travels in a session only. -/
def operatorCmd (m : Mgmt) (s : State) (body : State) : Res := mgmtCmd m false asOperator false s body
/-- An operator command that may travel in a House frame. -/
def houseCmd (m : Mgmt) (s : State) (body : State) : Res := mgmtCmd m true asOperator false s body

/-! ### Wall-clock labels (R103 to R105, R673) -/

/-- The label of this moment, in ns: 0 until a wall-clock time has been received since standby was applied (R105). -/
def wallLabel (s : State) : DWord :=
  match s.beat.wall with
  | none => 0
  | some (w, t) => BitVec.ofNat 64 (w + 1000 * (s.time - t))

/-- Issues a label: the label, and whether its record sets CLOCK_STEPPED (R104). -/
def issueAt (l : DWord) (s : State) : DWord × Bool × State :=
  if s.beat.wall.isNone then (l, s.energy.stepped, s)
  else
    let st := decide (l < s.energy.labelHigh) || (s.energy.stepped && decide (l ≤ s.energy.labelHigh))
    (l, st, { s with energy := { s.energy with
      stepped := st, labelHigh := if s.energy.labelHigh < l then l else s.energy.labelHigh } })

/-- Issues the label of a record that is written now. -/
def issueLabel (s : State) : DWord × Bool × State := issueAt (wallLabel s) s

/-! ### The lifecycle (R597) -/

/-- SEC_LIFE. -/
def lifeWord (s : State) : Word :=
  BitVec.ofNat 32 (s.sec.claims.length % 8 * 2 ^ 9 + b2n (s.sec.claims.any Prod.snd) * 2 ^ 8 + b2n s.sec.debugOpen * 8 + s.sec.life % 8)

/-- Measurement 10, SEC_LIFE. -/
def measureLife (s : State) : State := measure 10 (Config.sha384 (leBytes 4 (lifeWord s).toNat)) s

/-! ### The alias key and accounting (R599, R620) -/

/-- Bytes 0–183 of an ACCOUNTING body (R620). -/
def accountLine (s : State) (r : BillRecord) : List Byte :=
  leBytes 8 r.period ++ leBytes 8 r.first.toNat ++ leBytes 8 r.last.toNat ++ leBytes 8 r.labelFirst.toNat ++
    leBytes 8 r.labelLast.toNat ++ leBytes 4 (b2n r.stepped + 2 * b2n r.partialRec) ++ leBytes 4 s.boot.serial.toNat ++
    (List.range 8).flatMap (fun n => leBytes 8 (r.energy.getD n 0) ++ leBytes 8 (r.eus.getD n 0)) ++ leBytes 8 (BitVec.ofInt 64 r.operator).toNat

/-- The alias key (R599). -/
def aliasKey (s : State) : Digest := Config.aliasKey (tabGet 0 s.sec.meas 2) (tabGet 0 s.sec.meas 10)

/-- The body of an ACCOUNTING frame (R620): the record and the alias key's signature of it. -/
def accountBytes (s : State) (r : BillRecord) : List Byte :=
  let b := accountLine s r
  b ++ Config.aliasSign (aliasKey s) b

/-! ### The flats (R242 to R245, R263) -/

/-- The unretired flats of the partition pool. -/
def poolFlats (s : State) : List Nat :=
  (List.range 128).filter fun f => (areaOf s f).isNone && !(flatOf s f).retired

/-- FLIES_Pn_GUAR. -/
def guarReg (s : State) (n : Nat) : Nat := regF s (0x30200 + 0x20 * n) 7 0

/-- The sum of the guarantees of the enabled partitions and of `part`, whose guarantee is taken as `v` (R245). -/
def guarSum (s : State) (part v : Nat) : Nat :=
  sumNat ((part :: s.sec.enabled.filter (· ≠ part)).map fun n => if n = part then v else guarReg s n)

/-- Whether the guarantees fit the pool. -/
def guarFits (s : State) (part v : Nat) : Bool := guarSum s part v ≤ (poolFlats s).length

/-- The partitions that are short (R263): the highest-numbered enabled ones, as many as it takes until the guarantees of the others
fit. -/
def shortParts (s : State) : List Nat :=
  let en := (List.range 8).filter fun n => s.sec.enabled.contains n
  let fits (k : Nat) : Bool := sumNat ((en.take k).map fun n => tabGet 4 s.flies.guar n) ≤ (poolFlats s).length
  en.drop (((List.range (en.length + 1)).reverse.find? fits).getD 0)

/-- Takes the flats of partitions that hold none any more from them (R244, R263): they are unheld, and are cleared (R252). -/
def releaseFlats (parts : List Nat) (s : State) : State :=
  ((List.range 128).filter fun f => parts.contains (flatOf s f).holder).foldl (fun t f =>
    setFlat f { flatOf t f with holder := 0xD, lent := false, clearing := true } t) s

/-- Brings the short partitions up to date: one that becomes short holds no flats, and its requests end with ST_NO_FLIES (R263,
R264). -/
def updateShort (s : State) : State :=
  let sh := shortParts s
  failRequests (fun r => sh.contains r.part) 6 0 (releaseFlats sh { s with flies := { s.flies with short := sh } })

end Sys2Proof.Machine
end

