-- ==== Sys2Proof/Machine/NetOps.lean ====
section
/-! DEFINITION. How events and results leave (R549 to R559, R564 to R566, R573, R579), and the Curtain's gates (R471 to
R487). -/

namespace Sys2Proof.Machine

open Sys2Proof

/-! ### Interrupt vectors (R564, R565) -/

/-- The register key of a function's MSI-X vector control word. It holds the complement of the Mask bit, which a reset
sets (PRESUMED, PCI Express; notes/assumptions/34.md). -/
def msixKey (fn vec : Nat) : Nat := 2 ^ 32 * (fn + 1) + 0xBE000 + 16 * vec + 12

/-- The last vector of a function (R534). -/
def lastVec (fn : Nat) : Nat := if fn = 0 then 31 else 15

/-- Signals a vector: a masked one becomes pending. -/
def signalVec (fn v : Nat) (s : State) : State :=
  let v := if v > lastVec fn then 0 else v
  if bitAt (regW s (msixKey fn v)) 0 then emit (.msi fn v) s
  else { s with net := { s.net with msix := tabSet false s.net.msix (32 * fn + v) true } }

/-! ### Completion queues (R551 to R557) -/

/-- The address of a register of a queue pair. -/
def qpAddr (fn k off : Nat) : Nat := 0xB1000 + 0x1000 * fnSlice fn + 0x40 * k + off

/-- Depths of the submission and completion queues. -/
def sqDepth (s : State) (fn k : Nat) : Nat := 2 ^ regF s (qpAddr fn k 0x10) 26 23
def cqDepth (s : State) (fn k : Nat) : Nat := 2 ^ regF s (qpAddr fn k 0x10) 22 19

/-- Whether an entry can be written (R555). -/
def cqRoom (s : State) (fn k : Nat) : Bool :=
  let q := qpOf s fn k
  (q.cqTail + 1) % cqDepth s fn k ≠ q.cqHead

/-- The partition of a queue pair's messages (R589). -/
def qpPart (s : State) (fn k : Nat) : Nat := if fn = 0 then regF s (qpAddr fn k 0x10) 29 27 else fn - 1

/-- Signals a CQ when enough entries have accumulated (R566). -/
def coalesce (fn k : Nat) (s : State) : State :=
  let q := qpOf s fn k
  let q := { q with unsignalled := q.unsignalled + 1, oldestUs := if q.unsignalled = 0 then s.time else q.oldestUs }
  if q.unsignalled ≥ max 1 (regF s (qpAddr fn k 0x14) 7 0) then
    signalVec fn (regF s (qpAddr fn k 0x10) 18 14) (setQp fn k { q with unsignalled := 0 } s)
  else setQp fn k q s

/-- Writes a CQ entry (R551, R552). -/
def writeCq (fn k event : Nat) (status : Status) (cid : BitVec 16) (length nbuf : Nat) (job seq : DWord) (s : State) : State :=
  let q := qpOf s fn k
  let tail := (q.cqTail + 1) % cqDepth s fn k
  let e : CqEntry := ⟨fn, k, event, status, cid, length, nbuf, q.sqHead, job, seq, q.phase⟩
  coalesce fn k (emit (.cq e) (setQp fn k { q with cqTail := tail, phase := if tail = 0 then !q.phase else q.phase } s))

/-- The OVERFLOW entry that goes ahead of the next entry (R558). -/
def writeOverflow (fn k : Nat) (s : State) : State :=
  let q := qpOf s fn k
  if q.drops.all (· = 0) || !cqRoom s fn k then s
  else
    let seq := q.drops.getD 0 0 + q.drops.getD 1 0 * 2 ^ 16 + q.drops.getD 2 0 * 2 ^ 32 + q.drops.getD 3 0 * 2 ^ 48
    writeCq fn k 5 0x0F 0 0 0 0 (BitVec.ofNat 64 seq) (setQp fn k { q with drops := [0, 0, 0, 0] } s)

/-- Whether the next entry may be written: an OVERFLOW entry that is due has been. -/
def cqClear (s : State) (fn k : Nat) : Bool := (qpOf s fn k).drops.all (· = 0) && cqRoom s fn k

/-- The buffers, from the oldest, that a message of a size spans (R549); none when those posted do not hold it. -/
def rxSpan : Nat → List (BitVec 16 × Nat) → Option Nat
  | _, [] => none
  | size, (_, n) :: rest => if size ≤ n then some 1 else (rxSpan (size - n) rest).map (· + 1)

/-- Takes the head of a queue pair's wait queue. -/
def popWait (fn k : Nat) (s : State) : State := modQp fn k (fun q => { q with wait := q.wait.drop 1 }) s

/-- The key epoch that seals a job's outbound message of a Beat (R579): the newest one that was installed before the edge
that began the Beat. -/
def sealEpoch (s : State) (job : DWord) (beat : DWord) : Option Word :=
  (jobKey s job).map fun k =>
    match k.prev with
    | some (e, _) => if k.newestBeat.toNat < beat.toNat then k.newest else e
    | none => k.newest

/-- The size of a sealed message (R574). -/
def sealedSize (plain : Nat) : Nat := 48 + plain

/-- The header of a sealed message (R574): SENDER is this module's SLOT_ID. -/
def sealHeader (s : State) (job : DWord) (epoch : Word) (kind stream : Nat) (seq : DWord) (length : Nat) : List Byte :=
  leBytes 8 job.toNat ++ leBytes 4 epoch.toNat ++ leBytes 1 1 ++ leBytes 1 kind ++ leBytes 1 stream ++ leBytes 1 0 ++
    leBytes 8 seq.toNat ++ leBytes 4 length ++ leBytes 1 s.pins.slotId.toNat ++ leBytes 3 0

/-- The GCM initialisation vector of a message (R577). -/
def sealIv (s : State) (kind : Nat) (seq : DWord) : List Byte :=
  leBytes 8 seq.toNat ++ leBytes 1 kind ++ leBytes 1 s.pins.slotId.toNat ++ leBytes 2 0

/-- A message sealed under an epoch of its job key. -/
def sealOut (s : State) (route : Route) (part : Nat) (job : DWord) (epoch : Word) (kind stream : Nat) (seq : DWord) (plain : List Byte)
    (size : Nat) : SealedOut :=
  ⟨route, part, sealHeader s job epoch kind stream seq (size - 48), sealIv s kind seq, plain, size⟩

/-! ### RoCE queue pairs (R570 to R573) -/

/-- Whether a RoCE queue pair's port sends: its role is served by a port whose link is up and not paused, and the pair is
not stopped (R569, R581, R582). -/
def roceSends (s : State) (q : Rqp) : Bool :=
  !q.stopped && (List.range 5).any fun n =>
    let p := tabGet Port.init s.net.ports n
    p.role = some q.role && !p.failed && p.link && !p.paused

/-- Packets of a message (R569: the path MTU is 4,096 bytes). -/
def packets (size : Nat) : Nat := cdiv size 4096

/-- Sends one message on a RoCE queue pair: its PSN goes on. -/
def roceOut (qpn : Nat) (q : Rqp) (kind stream : Nat) (job seq beat : DWord) (plain : List Byte) (size : Nat) (s : State) : State :=
  match sealEpoch s job beat with
  | none => s
  | some e =>
    let m := sealOut s (.roce qpn) q.part job e kind stream seq plain size
    emit (.sealed m) (setRqp qpn (some { q with
      sendPsn := q.sendPsn + BitVec.ofNat 24 (packets size), sent := q.sent ++ [(q.sendPsn, m)] }) s)

/-- Replies and members' messages at the head of a RoCE queue pair's wait queue leave while its port sends; a result waits for its
gate. -/
def drainRoce (qpn : Nat) : Nat → State → State
  | 0, s => s
  | fuel + 1, s =>
    match rqpOf s qpn with
    | none => s
    | some q =>
      if !roceSends s q then s
      else match q.wait with
        | .reply r _ :: rest =>
          drainRoce qpn fuel (roceOut qpn { q with wait := rest } 0x11 0xFF r.job r.seq r.made (replyBytes r) (sealedSize 32)
            (setRqp qpn (some { q with wait := rest }) s))
        | .member kind job seq plain :: rest =>
          drainRoce qpn fuel (roceOut qpn { q with wait := rest } kind 0xFF job seq s.beat.num plain (sealedSize plain.length)
            (setRqp qpn (some { q with wait := rest }) s))
        | .error _ _ _ _ :: rest => drainRoce qpn fuel (setRqp qpn (some { q with wait := rest }) s)
        | .walkon _ _ _ :: rest => drainRoce qpn fuel (setRqp qpn (some { q with wait := rest }) s)
        | _ => s

/-- Every RoCE queue pair sends what it can. -/
def drainAll (s : State) : State :=
  (s.net.rqps.map Prod.fst).foldl (fun t q => drainRoce q 257 t) s

/-! ### The Curtain's gates -/

/-- Whether the gates are closed (R472, R698). -/
def gatesClosed (s : State) : Bool := s.curtain.pinLow || s.curtain.mgmt || s.curtain.rehearsal || s.fault.dark

def resultOf (s : State) (id : Nat) : Option Result := s.curtain.results.find? fun r => r.id = id
def setResult (r : Result) (s : State) : State :=
  { s with curtain := { s.curtain with results := s.curtain.results.map fun x => if x.id = r.id then r else x } }

/-- Takes a result's event out of the wait queue of its route. -/
def unqueue (r : Result) (s : State) : State :=
  match r.route with
  | .pcie fn k _ => modQp fn k (fun q => { q with wait := q.wait.filter (· ≠ .result r.id) }) s
  | .roce qpn => match rqpOf s qpn with
    | some q => setRqp qpn (some { q with wait := q.wait.filter (· ≠ .result r.id) }) s
    | none => s
  | .internal => s

/-- Whether a result's port is ready to start sending it (R557, R886). -/
def atGate (s : State) (r : Result) : Bool :=
  match r.route with
  | .pcie fn k _ =>
    let q := qpOf s fn k
    q.en && !q.err && q.wait.head? = some (.result r.id) && cqClear s fn k && (rxSpan r.size q.rx).isSome
  | .roce qpn => match rqpOf s qpn with
    | some q => q.wait.head? = some (.result r.id) && roceSends s q
    | none => false
  | .internal => true

/-- Bytes that a partition's held results fill (R479). -/
def heldBytes (s : State) (part : Nat) : Nat :=
  sumNat ((s.curtain.results.filter fun x => x.state = .held && x.part = part).map Result.size)

/-- Drops a partition's oldest held results until `size` bytes fit its share of 16 MiB (R479). -/
def makeRoom (part size : Nat) : Nat → State → State
  | 0, s => s
  | fuel + 1, s =>
    if heldBytes s part + size ≤ 2 ^ 24 then s
    else match s.curtain.results.find? fun x => x.state = .held && x.part = part with
      | none => s
      | some x => makeRoom part size fuel (dropResult x.id s)

/-- Holds a result (R479): its HELD ring entry is written when it is held first (R466). -/
def holdResult (r : Result) (s : State) : State :=
  let s := makeRoom r.part r.size s.curtain.results.length s
  let first := r.heldEdges.isNone
  let s := setResult { r with state := .held, heldEdges := some (r.heldEdges.getD 0) } s
  if first then ringWrite 1 0 r.part r.slot.isSome r.ntok r.outSeq r.req s else s

/-- A result reaches its gate (R471, R476, R479, R483, R487). A module that does not run sends none (R631): it discards them, as in a
rehearsal (DESIGN CHOICE, notes/assumptions/113.md). -/
def reachGate (r : Result) (s : State) : State :=
  if !runs s then forgetResult r.id (unqueue r s)
  else if !gatesClosed s then setResult { r with state := .sending } s
  else
    let s := unqueue r s
    if s.curtain.rehearsal then forgetResult r.id s
    else if bitAt s.curtain.policy r.part then holdResult r s
    else dropResult r.id s

/-- Whether the port of a result serves (R482). -/
def portServes (s : State) (r : Result) : Bool :=
  match r.route with
  | .pcie fn k _ => (qpOf s fn k).en
  | .roce qpn => (match rqpOf s qpn with | some q => roleServed s q.role | none => false)
  | .internal => true

/-- A held result leaves the hold area ahead of everything queued at its port; one whose queue pair is disabled or whose
port is out of service is dropped (R482, R558, R568). -/
def releaseResult (r : Result) (s : State) : State :=
  if !portServes s r then
    match r.route with
    | .pcie fn _ _ => dropResult r.id (bump (resDropCnt (fnSlice fn)) s)
    | _ => dropResult r.id s
  else
    let s := setResult { r with state := .queued } s
    match r.route with
    | .pcie fn k _ => modQp fn k (fun q => { q with wait := .result r.id :: q.wait }) s
    | .roce qpn => match rqpOf s qpn with
      | some q => setRqp qpn (some { q with wait := .result r.id :: q.wait }) s
      | none => s
    | .internal => s

/-- When the gates open, the held results leave in commit order, and so each job's in output sequence order (R481). -/
def gatesOpen (s : State) : State :=
  if gatesClosed s then s
  else ((s.curtain.results.filter fun r => r.state = .held).reverse).foldl (fun t r => releaseResult r t) s

end Sys2Proof.Machine
end

