-- ==== Sys2Proof/Machine/MemOps.lean ====
section
/-! DEFINITION. Stacked memory: frames and their placement (R296 to R299), ECC and poison (R302 to R304), the page
tables and the walk (R317 to R320), copy-on-write, commit and rollback (R324 to R335), and reads and writes of device
virtual addresses. -/

namespace Sys2Proof.Machine

open Sys2Proof

/-! ### Placement (R296 to R299) -/

def frameBytes : Nat := 65536
/-- Frames of the device, and of the software pool (R296, R299). -/
def frameCount : Nat := 4423680
def poolFrames : Nat := 4194304

/-- The stack of a physical address (R297). -/
def paStack (pa : Nat) : Nat := pa / 256 % 8
/-- The offset of a physical address within its stack's 8 KiB piece of the frame (R297). -/
def pieceOff (pa : Nat) : Nat := pa % frameBytes / 2048 * 256 + pa % 256
/-- The logical channel of a frame (R298). -/
def frameLc (f : Nat) : Nat := f % 30
/-- The row of a frame's pieces in their logical channel (R298). -/
def frameRow (f : Nat) : Nat := f / 30
/-- Rows of a pseudo-channel. -/
def channelRows : Nat := 147456

/-- The rows that a migration has copied by now: at the 16 GB/s of its step 2, 125 rows in 64 µs (R308, R309). DESIGN CHOICE: the copy
runs at that rate (notes/assumptions/92.md). -/
def copiedRows (s : State) (g : Migration) : Nat := min channelRows ((s.time - g.startUs) * 125 / 64)

/-- The copy pointer as HBM_Mk_MIG_ROW shows it. -/
def copyPointer (s : State) (g : Migration) : Nat := min (channelRows - 1) (copiedRows s g)

/-- The physical pseudo-channel that serves a row of a logical channel of a stack (R298, R308). An access to the row under copy waits for
it, and then finds it in the spare. -/
def servedBy (s : State) (m lc row : Nat) : Nat :=
  let k := tabGet Stack.init s.hbm.hbmStacks m
  match k.migration with
  | some g => if g.lc = lc then (if row ≤ copiedRows s g then g.dst else g.src) else (tabGet none k.map lc).getD lc
  | none => (tabGet none k.map lc).getD lc

/-- Where a physical address lies: stack, pseudo-channel, row, and offset in the row (R297, R298). -/
def placeOf (s : State) (pa : Nat) : Nat × Nat × Nat × Nat :=
  let f := pa / frameBytes
  (paStack pa, servedBy s (paStack pa) (frameLc f) (frameRow f), frameRow f, pieceOff pa)

/-- Whether a frame lies in service. -/
def frameIn (s : State) (f : Nat) : Bool := f < frameCount && !s.hbm.lcRetired.contains (frameLc f)

def frameOf (s : State) (f : Nat) : Frame := tabGet Frame.init s.mem.frames f
def setFrame (f : Nat) (x : Frame) (s : State) : State :=
  { s with mem := { s.mem with frames := tabSet Frame.init s.mem.frames f x } }

/-- Whether nothing owns a frame. -/
def Frame.free (x : Frame) : Bool := x.owner.isNone && x.count = 0 && !x.resv

/-- The lowest `n` frames of the pool that are free, from `c` on; `t` holds the listed frames from `c` on. -/
def gapFrames (retired : List Nat) : Nat → Nat → Nat → Tab Frame → List Nat
  | 0, _, _, _ => []
  | _ + 1, 0, _, _ => []
  | fuel + 1, n + 1, c, t =>
    if c ≥ poolFrames then []
    else if retired.contains (frameLc c) then gapFrames retired fuel (n + 1) (c + 1) t
    else match t with
      | [] => c :: gapFrames retired fuel n (c + 1) []
      | (k, x) :: u =>
        if k < c then gapFrames retired fuel (n + 1) c u
        else if k = c then
          (if x.free then c :: gapFrames retired fuel n (c + 1) u else gapFrames retired fuel (n + 1) (c + 1) u)
        else c :: gapFrames retired fuel n (c + 1) ((k, x) :: u)

/-- The lowest `n` free frames of the pool (DESIGN CHOICE: one pool, lowest frame first; notes/assumptions/20.md). -/
def freeFrames (s : State) (n : Nat) : List Nat :=
  gapFrames s.hbm.lcRetired (32 * (n + s.mem.frames.length + 1)) n 0 s.mem.frames

/-- Whether the free frames cover a need. -/
def framesCover (s : State) (n : Nat) : Bool := (freeFrames s n).length = n

/-- The dirty bitmap of a module that serves its state to a joining partner takes a frame (R653). -/
def markDirty (f : Nat) (s : State) : State :=
  if s.pair.serving && !s.pair.dirty.contains f then { s with pair := { s.pair with dirty := s.pair.dirty ++ [f] } } else s

/-- Zeroes a frame under a key slot (R335). -/
def zeroFrame (f slot : Nat) (s : State) : State :=
  let m := s.mem
  let gen := (tabGet none s.sec.keys slot).getD 0
  markDirty f <| setFrame f { frameOf s f with wkey := some (slot, gen) } { s with mem := { m with
    bytes := tabClear m.bytes (frameBytes * f) frameBytes
    poison := tabClear m.poison (1024 * f) 1024
    flips := tabClear m.flips (1024 * f) 1024
    corrupt := tabClear m.corrupt (1024 * f) 1024 } }

/-- Takes a frame for a space: owned, zeroed under the space's key. -/
def takeFrame (f space count : Nat) (resv : Bool) (s : State) : State :=
  let s := zeroFrame f space s
  setFrame f { frameOf s f with owner := some space, count := count, resv := resv } s

/-- Returns a frame to the free frames. -/
def freeFrame (f : Nat) (s : State) : State := setFrame f { Frame.init with wkey := (frameOf s f).wkey } s

/-- Lowers a frame's count by one; at 0 the frame is free (R331). -/
def lowerFrame (f : Nat) (s : State) : State :=
  let x := frameOf s f
  if x.count ≤ 1 then freeFrame f s else setFrame f { x with count := x.count - 1 } s

/-- Raises a frame's count by one (R324). -/
def raiseFrame (f : Nat) (s : State) : State :=
  let x := frameOf s f
  setFrame f { x with count := x.count + 1 } s

/-! ### Page tables (R317, R318) -/

/-- The key of a page table entry: the space, the level, and the address bits above the entry's reach. -/
def ptKey (space level va : Nat) : Nat :=
  (space * 4 + level) * 2 ^ 32 + va / 2 ^ (if level = 0 then 39 else if level = 1 then 30 else if level = 2 then 21 else 16)

def ptOf (s : State) (space level va : Nat) : DWord := tabGet 0#64 s.mem.pt (ptKey space level va)
def setPt (space level va : Nat) (w : DWord) (s : State) : State :=
  { s with mem := { s.mem with pt := tabSet 0#64 s.mem.pt (ptKey space level va) w } }

/-! ### Where page tables lie (R316, R317) -/

/-- The key of the page table of a level that a walk of an address reads. -/
def tableKey (space level va : Nat) : Nat :=
  (space * 4 + level) * 2 ^ 32 + va / 2 ^ (if level = 0 then 48 else if level = 1 then 39 else if level = 2 then 30 else 21)

/-- The physical address of that table; 0 for none. -/
def tableAt (s : State) (space level va : Nat) : Nat := tabGet 0 s.mem.tables (tableKey space level va)

/-- The index of an address in a table of a level (R317). -/
def tableIndex (level va : Nat) : Nat :=
  if level = 0 then va / 2 ^ 39 % 512 else if level = 1 then va / 2 ^ 30 % 512 else if level = 2 then va / 2 ^ 21 % 512
  else va / 2 ^ 16 % 32

/-- The physical address of the entry that a walk reads at a level. -/
def entryAddr (s : State) (space level va : Nat) : Nat := tableAt s space level va + 8 * tableIndex level va

/-- The frames of the firmware hold that may take an L0 table: MMU_Pn_ROOT gives its address in units of 512 KiB. The count table of R324
lies before them (DESIGN CHOICE, notes/assumptions/21.md). -/
def rootFrames : List Nat := (List.range 16).map fun i => poolFrames + 136 + 8 * i

/-- The first frame of the hold that other firmware data takes. -/
def holdBase : Nat := poolFrames + 264 + 8192 + 16384 + 32768

/-- The physical address of count table 0, once a start has placed it: the tables of R324, the count tables, the token logs and the prefix
page lists follow one another (DESIGN CHOICE, notes/assumptions/21.md). -/
def countBase (s : State) : Nat := if s.mem.rcBase = 0 then 0 else s.mem.rcBase + 65536 * 264

/-- The lowest free frame of the firmware hold at or above `f`. -/
def holdFrame (s : State) : Nat → Nat → Option Nat
  | 0, _ => none
  | fuel + 1, f =>
    if f ≥ frameCount then none
    else if frameIn s f && (frameOf s f).free then some f else holdFrame s fuel (f + 1)

/-- The lowest free frame of the firmware hold. -/
def freeHold (s : State) : Option Nat := holdFrame s (s.mem.frames.length + 30 * 8 + 1) holdBase

/-- A frame of the hold becomes the firmware's. -/
def ownHold (f : Nat) (s : State) : State := setFrame f { frameOf s f with owner := some 8, count := 1, resv := false } s

/-- The next place of a page table of some bytes: in the frame that takes small tables, or in a new one. -/
def placeTable (size : Nat) (s : State) : State × Nat :=
  let fresh (s : State) : State × Nat :=
    match freeHold s with
    | none => (s, 0)
    | some f => (ownHold f { s with mem := { s.mem with tableFrame := some (f, size) } }, 65536 * f)
  match s.mem.tableFrame with
  | some (f, used) =>
    let a := (used + size - 1) / size * size
    if a + size ≤ 65536 then ({ s with mem := { s.mem with tableFrame := some (f, a + size) } }, 65536 * f + a) else fresh s
  | none => fresh s

/-- The first root place that is in service and not taken. -/
def placeRoot (s : State) : State × Nat :=
  match rootFrames.find? fun f => frameIn s f && (frameOf s f).free with
  | some f => (ownHold f s, 65536 * f)
  | none => (s, 0)

/-- Gives a walk's table of a level a place, when it has none: an L0 table in 512 KiB units, L1 and L2 tables of 4,096 bytes, an L3 table
of 256 bytes (R317). -/
def needTable (space level va : Nat) (s : State) : State :=
  if tableAt s space level va ≠ 0 then s
  else
    let r := if level = 0 then placeRoot s else placeTable (if level = 3 then 256 else 4096) s
    { r.1 with mem := { r.1.mem with tables := tabSet 0 r.1.mem.tables (tableKey space level va) r.2 } }

/-- A table pointer of a space to a table (R318). -/
def ptPointer (space addr : Nat) : DWord := BitVec.ofNat 64 (2 ^ 63 + space * 2 ^ 52 + addr % 2 ^ 39)

/-- A 64 KiB leaf (R318). -/
def ptLeaf (r w cow kv : Bool) (owner frame step : Nat) : DWord :=
  BitVec.ofNat 64 (3 * 2 ^ 62 + b2n r * 2 ^ 61 + b2n w * 2 ^ 60 + b2n cow * 2 ^ 59 + b2n kv * 2 ^ 58 + owner * 2 ^ 52 +
    frame * 2 ^ 16 + step)

/-- Fields of a leaf. -/
def leafFrame (w : DWord) : Nat := fld w 38 16
def leafStep (w : DWord) : Nat := fld w 15 0
def leafOwner (w : DWord) : Nat := fld w 55 52

/-- Sets the table pointer of a level to the table below it, when it is not valid. -/
def linkTable (space level va : Nat) (s : State) : State :=
  let s := needTable space (level + 1) va s
  if bitAt (ptOf s space level va) 63 then s else setPt space level va (ptPointer space (tableAt s space (level + 1) va)) s

/-- Maps a 64 KiB page: the leaf, and the tables and table pointers above it. -/
def mapLeaf (space va : Nat) (w : DWord) (s : State) : State :=
  setPt space 3 va w (linkTable space 2 va (linkTable space 1 va (linkTable space 0 va (needTable space 0 va s))))

/-! ### Translation caches (R321, R322) -/

/-- The set of a translation cache that holds a tag. The manual gives no index function, so that it is a free value
(notes/assumptions/23.md). -/
def tcSet (t : TcTag) : Nat := (Config.freeValue 41 (t.part * 2 ^ 33 + t.page / 65536 * 2 + b2n t.big)).toNat % 512

/-- A range leaves all four translation caches, and the walkers' cache (R326, R332, R337). -/
def dropCached (space lo hi : Nat) (s : State) : State :=
  { s with mem := { s.mem with
      tc := tabMap [] (fun _ ts => ts.filter fun t =>
        !(t.part = space && lo < t.page + (if t.big then 2097152 else 65536) && t.page < hi)) s.mem.tc
      upper := s.mem.upper.filter fun k => k / 2 ^ 34 ≠ space } }

/-- Whether a walk of a page ends at a 2 MiB leaf. -/
def bigLeaf (s : State) (part va : Nat) : Bool := bitAt (ptOf s part 2 va) 63 && bitAt (ptOf s part 2 va) 62

/-- The tag of a page. -/
def tcTag (s : State) (part va : Nat) : TcTag :=
  if bigLeaf s part va then ⟨part, va / 2097152 * 2097152, true⟩ else ⟨part, va / 65536 * 65536, false⟩

/-- Puts an item into a list of at most `cap` items: which one leaves a full list is a free value (notes/assumptions/23.md). -/
def cachePut {α : Type} [DecidableEq α] (cap pick : Nat) (x : α) (xs : List α) : List α :=
  if xs.contains x then xs
  else if xs.length < cap then xs ++ [x]
  else xs.eraseIdx (pick % cap) ++ [x]

/-- One look-up of a cluster's translation cache: a hit, or a miss whose walk fills it, but with no entry that has V = 0 (R321, R322).
The counter that rises is MMU_TC_HIT_CNTc or MMU_TC_MISS_CNTc. -/
def tcLookup (cluster part va : Nat) (s : State) : State :=
  let t := tcTag s part va
  let k := 512 * cluster + tcSet t
  let ways := tabGet [] s.mem.tc k
  if ways.contains t then bump (0x70080 + 8 * cluster) s
  else
    let s := bump (0x70084 + 8 * cluster) s
    let ok (l : Nat) : Bool := bitAt (ptOf s part l va) 63
    let pick := (freeVal 4 s).toNat
    let tc := if (t.big && ok 2) || ok 3 then tabSet [] s.mem.tc k (cachePut 16 pick t ways) else s.mem.tc
    let upper := ((List.range 3).filter ok).foldl (fun u l => cachePut 1024 (pick / 2 ^ (16 * (l + 1))) (ptKey part l va) u) s.mem.upper
    drawn { s with mem := { s.mem with tc := tc, upper := upper } }

/-- The valid 64 KiB leaf of a page. -/
def leafAt (s : State) (space va : Nat) : Option DWord :=
  let w := ptOf s space 3 va
  if bitAt w 63 then some w else none

/-- Unmaps a 64 KiB page, and lowers the count of its frame. -/
def unmapPage (space va : Nat) (s : State) : State :=
  match leafAt s space va with
  | none => s
  | some w => lowerFrame (leafFrame w) (setPt space 3 va 0 s)

/-- The mapped 64 KiB pages of a space from `lo` up to `hi`, with their leaves. -/
def leavesIn (s : State) (space lo hi : Nat) : List (Nat × DWord) :=
  s.mem.pt.filterMap fun e =>
    if e.1 / 2 ^ 32 = space * 4 + 3 && bitAt e.2 63 then
      let va := e.1 % 2 ^ 32 * 65536
      if lo ≤ va && va < hi then some (va, e.2) else none
    else none

/-- The spaces and pages that map a frame. -/
def mappersOf (s : State) (f : Nat) : List (Nat × Nat) :=
  s.mem.pt.filterMap fun e =>
    if e.1 / 2 ^ 32 % 4 = 3 && bitAt e.2 63 && leafFrame e.2 = f then some (e.1 / 2 ^ 34, e.1 % 2 ^ 32 * 65536) else none

/-- Start of the KV range of a request table index (R314). -/
def kvBase (r : Nat) : Nat := 0x800000000000 + r * 0x100000000
/-- The request table index that owns a KV address. -/
def kvOwner (va : Nat) : Option Nat :=
  if 0x800000000000 ≤ va && va < 0xA00000000000 then some ((va - 0x800000000000) / 0x100000000) else none

/-! ### The walk (R319, R320) -/

/-- How an access is translated. -/
inductive Walk where
  | fault (sub : Nat)
  | ok (pa : Nat)
  /-- a write that first copies the page that lies at this physical address (R326) -/
  | copy (pa : Nat)
deriving DecidableEq, Repr

/-- The journal of a step (R326, R330). -/
def journalOf (s : State) (part stepId : Nat) : Option Journal :=
  s.mem.journals.find? fun j => j.part = part && j.stepId = stepId

/-- Shared key slots granted to a partition: MMU_Pn_SHARE. -/
def shareGranted (s : State) (part slot : Nat) : Bool :=
  10 ≤ slot && slot ≤ 13 && bitAt (regW s (0x70108 + 0x20 * part)) (slot - 10)

/-- The owner rule of R319. -/
def ownerOk (s : State) (part slot : Nat) : Bool := slot = part || slot = 8 || shareGranted s part slot

/-- The subcause of R319 at a table pointer, or none. -/
def pointerFault (s : State) (part : Nat) (w : DWord) (level : Nat) : Option Nat :=
  if !bitAt w 63 then some 1
  else if fld w 57 56 ≠ 0 || fld w 51 39 ≠ 0 || (bitAt w 62 && level < 2) then some 2
  else if !frameIn s (fld w 38 8 * 256 / 65536) then some 5
  else if !ownerOk s part (leafOwner w) then some 3
  else none

/-- The rule of R320: allowed, allowed with a copy, or a PERM fault (or the faults of a copy). -/
def permCheck (s : State) (part stepId : Nat) (write : Bool) (w : DWord) (pa : Nat) : Walk :=
  if !write then (if bitAt w 61 then .ok pa else .fault 4)
  else if leafOwner w ≠ part then .fault 4
  else
    let kv := bitAt w 58
    let wr := bitAt w 60
    if wr && !kv then .ok pa
    else if wr && kv && leafStep w = stepId then .ok pa
    else if (wr && kv) || bitAt w 59 then
      match journalOf s part stepId with
      | none => .fault 7
      | some j => if j.entries.length ≥ 8192 then .fault 6 else if j.frames.isEmpty then .fault 7 else .copy pa
    else .fault 4

/-- The checks at a leaf of a level, and the access. -/
def leafWalk (s : State) (part stepId : Nat) (write : Bool) (w : DWord) (level va : Nat) : Walk :=
  if !bitAt w 63 then .fault 1
  else if fld w 57 56 ≠ 0 || fld w 51 39 ≠ 0 || !bitAt w 62 || (level = 2 && (bitAt w 58 || bitAt w 59)) then .fault 2
  else
    let pa := if level = 3 then leafFrame w * 65536 + va % 65536 else fld w 38 21 * 2 ^ 21 + va % 2 ^ 21
    if !frameIn s (pa / 65536) then .fault 5
    else if !ownerOk s part (leafOwner w) then .fault 3
    else if !keyHeld s (leafOwner w) then .fault 8
    else permCheck s part stepId write w pa

/-- A walk (R319) of partition `part`'s space: the first rule broken by the first entry that breaks one. -/
def walk (s : State) (part stepId : Nat) (write : Bool) (va : Nat) : Walk :=
  if va ≥ 2 ^ 48 || (0xA00000000000 ≤ va && va < 0xF00000000000) then .fault 1
  else match pointerFault s part (ptOf s part 0 va) 0 with
  | some c => .fault c
  | none => match pointerFault s part (ptOf s part 1 va) 1 with
    | some c => .fault c
    | none =>
      let l2 := ptOf s part 2 va
      if bitAt l2 63 && bitAt l2 62 then leafWalk s part stepId write l2 2 va
      else match pointerFault s part l2 2 with
        | some c => .fault c
        | none => leafWalk s part stepId write (ptOf s part 3 va) 3 va

/-! ### Errors of the stacks (R303, R304) -/

/-- Who makes an access: its partition, step and unit, and what its records carry (R22, R664); and the pages of it that an earlier
epoch has checked, with their leaves (R338). -/
structure MemCtx where
  part : Nat
  stepId : Nat
  unit : Nat
  ctx : DWord
  origin : Byte
  held : List (Nat × DWord)
deriving DecidableEq, Repr

/-- The access context of a unit that runs an entry. -/
def entryMem (c : EntryCtx) (unit kind : Nat) : MemCtx := ⟨c.part, c.stepId, unit, ctxOf c, originOf kind false, []⟩

/-- The access context of firmware or the host, for a partition. -/
def partMem (part kind : Nat) (fw : Bool) : MemCtx := ⟨part, 0xFFFF, 0xFFFF, noCtx part, originOf kind fw, []⟩

/-- The leaf by which an earlier epoch has checked a page of an access. -/
def heldLeaf (c : MemCtx) (va : Nat) : Option DWord := (c.held.find? fun e => e.1 = va / 65536 * 65536).map Prod.snd

/-- The translation of an access: by the leaf of its old epoch, or by a walk (R319, R338). -/
def walkFor (s : State) (c : MemCtx) (write : Bool) (va : Nat) : Walk :=
  match heldLeaf c va with
  | some w => leafWalk s c.part c.stepId write w 3 va
  | none => walk s c.part c.stepId write va

/-- The smallest power of two at or above a number: the bucket count of R401. -/
def powerAbove : Nat → Nat → Nat → Nat
  | 0, b, _ => b
  | fuel + 1, b, n => if b ≥ n then b else powerAbove fuel (2 * b) n

/-- The tree nodes of a partition, in ascending index. -/
def treeNodes (s : State) (part : Nat) : List (Nat × Node) :=
  s.serve.nodes.filterMap fun e =>
    match e.2 with | some n => if e.1 / 2 ^ 22 = part then some (e.1 % 2 ^ 22, n) else none | none => none

/-- Writes CHILDREN, the bucket chains and the bucket heads of a partition's tree (R401). DESIGN CHOICE: a chain runs
in ascending node index (notes/assumptions/28.md). -/
def relinkTree (part : Nat) (s : State) : State :=
  let size := powerAbove 23 1 (regF s (0x90208 + 0x40 * part) 22 0)
  let ns := treeNodes s part
  let bucket (n : Node) : Nat := n.hash.toNat % size
  let keep := s.serve.nodes.filter fun e => e.1 / 2 ^ 22 ≠ part
  let nodes := ns.foldl (fun t e => tabSet none t (2 ^ 22 * part + e.1) (some { e.2 with
    children := (ns.filter fun q => q.2.parent = some e.1).length
    next := (ns.find? fun q => e.1 < q.1 && bucket q.2 = bucket e.2).map Prod.fst })) keep
  let heads := s.serve.buckets.filter fun e => e.1 / 2 ^ 23 ≠ part
  let buckets := ns.foldl (fun t e =>
    let k := 2 ^ 23 * part + bucket e.2
    if (tabGet none t k).isSome then t else tabSet none t k (some e.1)) heads
  { s with serve := { s.serve with nodes := nodes, buckets := buckets } }

/-- Removes tree nodes from the tree of a partition, and lowers the count of each of their pages (R405). A request whose
LAST_NODE goes has none. -/
def dropNodes (part : Nat) (p : Nat → Node → Bool) (s : State) : State :=
  let dead := (treeNodes s part).filter fun e => p e.1 e.2
  let gone (r : Request) : Bool := r.part = part && (match r.lastNode with | some k => dead.any fun e => e.1 = k | none => false)
  let hit (k : Nat) : Bool := k / 2 ^ 22 = part && dead.any fun e => e.1 = k % 2 ^ 22
  let s := { s with serve := { s.serve with
    nodes := tabFilter (fun k _ => !hit k) s.serve.nodes
    reqs := tabMap none (fun _ r => r.map fun r => if gone r then { r with lastNode := none } else r) s.serve.reqs } }
  relinkTree part ((dead.flatMap fun e => e.2.pages).foldl (fun t f => lowerFrame f t) s)

/-- The tree nodes of a partition that hold a frame, and every node below them. -/
def nodesHolding (s : State) (part f : Nat) : List Nat :=
  let nodes := s.serve.nodes.filterMap fun e =>
    match e.2 with | some n => if e.1 / 2 ^ 22 = part then some (e.1 % 2 ^ 22, n) else none | none => none
  let below (xs : List Nat) : List Nat :=
    (nodes.filter fun e => xs.contains e.1 || (match e.2.parent with | some q => xs.contains q | none => false)).map Prod.fst
  let rec grow : Nat → List Nat → List Nat
    | 0, xs => xs
    | n + 1, xs => let ys := below xs; if ys.length = xs.length then xs else grow n ys
  grow nodes.length ((nodes.filter fun e => e.2.pages.contains f).map Prod.fst)

/-- The Stage Manager's action on a poisoned frame (the table that follows R304). -/
def poisonAction (f m : Nat) (s : State) : State :=
  let unit := BitVec.ofNat 16 (0x4000 + m)
  let x := frameOf s f
  if f ≥ poolFrames then { s with fault := { s.fault with fwPoison := true } }
  else
    let maps := mappersOf s f
    let kv := maps.filterMap fun e => (kvOwner e.2).map fun r => (e.1, r)
    let s := kv.foldl (fun t e => match reqOf t e.2 with
      | some r => if r.part = e.1 then failRequest e.2 3 unit t else t
      | none => t) s
    let s := (List.range 8).foldl (fun t p => let ns := nodesHolding t p f; dropNodes p (fun i _ => ns.contains i) t) s
    let uses (v : Variant) : Bool :=
      (match x.owner with | some o => 10 ≤ o && shareGranted s v.part o | none => false) ||
        maps.any fun e => e.1 = v.part && v.experts.any fun w =>
          w.weights / 65536 * 65536 ≤ e.2 && e.2 < w.weights + w.weightBytes
    let hit := tabKeys (fun _ v => match v with | some v => uses v | none => false) s.serve.variants
    let s := { s with serve := { s.serve with
      variants := tabMap none (fun i v => if hit.contains i then v.map fun v => { v with unavailable := true } else v) s.serve.variants } }
    failRequests (fun r => hit.contains r.variant) 3 unit s

/-- Whether a poisoned frame is one whose loss is not retried: a KV page or weights (R445). -/
def poisonFatal (s : State) (f : Nat) : Bool :=
  (mappersOf s f).any (fun e => (kvOwner e.2).isSome) || (match (frameOf s f).owner with | some o => 10 ≤ o | none => false) ||
    s.serve.variants.any fun e => match e.2 with
      | some v => (mappersOf s f).any fun m => m.1 = v.part && v.experts.any fun w =>
          w.weights / 65536 * 65536 ≤ m.2 && m.2 < w.weights + w.weightBytes
      | none => false

/-- A trigger of R306: the pseudo-channel, in service, waits for its migration in order (R307). -/
def trigger (m pc : Nat) (s : State) : State :=
  let k := tabGet Stack.init s.hbm.hbmStacks m
  let serves := k.map.any fun e => e.2 = some pc
  let runs := match k.migration with | some x => x.src = pc | none => false
  if serves && !runs && !s.hbm.trigQ.contains (m, pc) then
    { s with hbm := { s.hbm with trigQ := s.hbm.trigQ ++ [(m, pc)] } }
  else s

/-- A corrected error of a pseudo-channel, by hours of the RoT's timer: more than 64 in one hour are a trigger (R306). -/
def countCe (m pc : Nat) (s : State) : State :=
  let k := tabGet Stack.init s.hbm.hbmStacks m
  let key := 32 * (s.time / 3600000000) + pc % 32
  let n := tabGet 0 k.ceHour key + 1
  let s := { s with hbm := { s.hbm with
    hbmStacks := tabSet Stack.init s.hbm.hbmStacks m { k with ceHour := tabSet 0 k.ceHour key n } } }
  if n > 64 then trigger m pc s else s

/-- What the code of R302 finds in a granule. -/
inductive Ecc where
  | clean
  | corrected
  | uncorrectable
  /-- more bits have flipped than the code can tell: the word is taken as good, or is corrected to a wrong one -/
  | wrong (counted : Bool)
deriving DecidableEq, Repr

/-- Bits of a stored granule: 512, and 11 check bits (R302). -/
def granuleBits : Nat := 523

/-- The extended Hamming code of R302, by the bits that have flipped: the syndrome is the exclusive or of their positions, and the parity
is that of their number. PRESUMED: position 0 is the parity of all bits and the powers of two are the other check bits, as the code is
usually laid out; the manual states no layout (notes/assumptions/93.md). -/
def hammingDecode (flips : List Nat) : Ecc :=
  let synd := flips.foldl Nat.xor 0
  if flips.length % 2 = 1 then
    (if flips.length = 1 then .corrected else if synd < granuleBits then .wrong true else .uncorrectable)
  else if synd ≠ 0 then .uncorrectable
  else if flips = [] then .clean
  else .wrong false

/-- The parity errors that an access to a stack meets are over: more than 3 in a row make it uncorrectable (R300). -/
def parityFails (m : Nat) (s : State) : Bool := 3 < (tabGet Stack.init s.hbm.hbmStacks m).parity
def parityDone (m : Nat) (s : State) : State :=
  let k := tabGet Stack.init s.hbm.hbmStacks m
  if k.parity = 0 then s else { s with hbm := { s.hbm with hbmStacks := tabSet Stack.init s.hbm.hbmStacks m { k with parity := 0 } } }

/-- What an uncorrectable error does, found by an access in a granule (R304): the granule is poisoned, the error is recorded and counted,
the step of the access does not commit, and the Stage Manager acts on the frame. -/
def poisonFound (c : MemCtx) (g : Nat) (s : State) : State :=
  let m := paStack (64 * g)
  let f := g / 1024
  let fatal := if poisonFatal s f then some 3 else none
  let s := bump (0x8010C + 0x80 * m) { s with mem := { s.mem with poison := tabSet false s.mem.poison g true } }
  let cause := (freeVal 2 s).toNat % 256
  let s := logEvent { evBase s 3 cause 0 with
    ctx := c.ctx, origin := c.origin, unit := 0x4000 + m, addr := BitVec.ofNat 64 (64 * g) } (drawn s)
  poisonAction f m (if c.unit = 0xFFFF && c.stepId = 0xFFFF then s else stepBroken c.part c.stepId (0x4000 + m) fatal s)

/-- What a read does that takes a granule for good: a corrected error is counted (R303); a word that the code took for good wrongly
holds what it holds. -/
def granuleTaken (ecc : Ecc) (g : Nat) (s : State) : State :=
  let m := paStack (64 * g)
  let wrong := ecc = .wrong true || ecc = .wrong false
  let s := if wrong then { s with mem := { s.mem with corrupt := tabSet false s.mem.corrupt g true } } else s
  if ecc = .corrected || ecc = .wrong true then countCe m (placeOf s (64 * g)).2.1 (bump (0x80108 + 0x80 * m) s) else s

/-- A read of one granule: a corrected error is written back and counted (R303); an uncorrectable error, one of parity that three
retries do not clear (R300), or a granule already poisoned, is handled under R304. The answer says whether the granule is poisoned. -/
def readGranule (c : MemCtx) (g : Nat) (s : State) : State × Bool :=
  let ecc := hammingDecode (tabGet [] s.mem.flips g)
  let bad := tabGet false s.mem.poison g || ecc = .uncorrectable || parityFails (paStack (64 * g)) s
  let s := parityDone (paStack (64 * g)) { s with mem := { s.mem with flips := tabSet [] s.mem.flips g [] } }
  if bad then (poisonFound c g s, true) else (granuleTaken ecc g s, false)

/-- Reads every granule of a physical range. -/
def readGranules (c : MemCtx) (pa n : Nat) (s : State) : State × Bool :=
  (List.range ((pa + n + 63) / 64 - pa / 64)).foldl (fun t i =>
    let r := readGranule c (pa / 64 + i) t.1
    (r.1, t.2 || r.2)) (s, false)

/-- The bytes of a physical range: what a poisoned granule holds is a free value, and what one whose errors the code took for good
holds. -/
def physBytes (s : State) (pa n : Nat) : List Byte :=
  (List.range n).map fun i =>
    if tabGet false s.mem.poison ((pa + i) / 64) || tabGet false s.mem.corrupt ((pa + i) / 64) then Config.poisonByte (pa + i) else tabGet 0#8 s.mem.bytes (pa + i)

/-- Writes bytes of whole granules: their poison goes (R304). -/
def physWrite (pa : Nat) (bs : List Byte) (s : State) : State :=
  let n := (pa + bs.length + 63) / 64 - pa / 64
  let s := if bs = [] then s else markDirty (pa / 65536) s
  { s with mem := { s.mem with
      bytes := tabWrite 0#8 s.mem.bytes pa bs
      poison := if bs = [] then s.mem.poison else tabClear s.mem.poison (pa / 64) n
      flips := if bs = [] then s.mem.flips else tabClear s.mem.flips (pa / 64) n
      corrupt := if bs = [] then s.mem.corrupt else tabClear s.mem.corrupt (pa / 64) n } }

/-- A merge into one granule (R879): a poisoned granule takes nothing, and stays poisoned. -/
def mergeGranule (c : MemCtx) (pa : Nat) (bs : List Byte) (s : State) : State × Bool :=
  let r := readGranule c (pa / 64) s
  if r.2 then r
  else
    let s := markDirty (pa / 65536) r.1
    ({ s with mem := { s.mem with bytes := tabWrite 0#8 s.mem.bytes pa bs } }, false)

/-- Stores bytes within one frame: a granule that is written whole takes them (R304), and one that is written in part is
merged (R879). The answer says whether a granule took nothing. -/
def storePhys (c : MemCtx) (pa : Nat) (bs : List Byte) (s : State) : State × Bool :=
  let head := if pa % 64 = 0 then 0 else min (64 - pa % 64) bs.length
  let mid := (bs.length - head) / 64 * 64
  let part (a : Nat) (xs : List Byte) (r : State × Bool) : State × Bool :=
    if xs = [] then r else let q := mergeGranule c a xs r.1; (q.1, r.2 || q.2)
  let r := part pa (bs.take head) (s, false)
  let r := (physWrite (pa + head) ((bs.drop head).take mid) r.1, r.2)
  part (pa + head + mid) (bs.drop (head + mid)) r

/-- The pieces of a range, one for each page it touches (R323). -/
def pieces : Nat → Nat → Nat → List (Nat × Nat)
  | 0, _, _ => []
  | fuel + 1, va, n =>
    if n = 0 then []
    else
      let k := min n (65536 - va % 65536)
      (va, k) :: pieces fuel (va + k) (n - k)

def pagePieces (va n : Nat) : List (Nat × Nat) := pieces (n / 65536 + 2) va n

/-- Writes tokens of an extended token log from a position on: token p lies at byte 4p of its frames (R382). -/
def storeExt (part : Nat) (ext : List Nat) (from_ : Nat) (ts : List Word) (s : State) : State :=
  if ext = [] then s
  else
    let bs := ts.flatMap fun t => leBytes 4 t.toNat
    (pagePieces (4 * from_) bs.length).foldl (fun t p =>
      match ext[p.1 / 65536]? with
      | some f => (storePhys (partMem part 5 true) (65536 * f + p.1 % 65536) (slice bs (p.1 - 4 * from_) p.2) t).1
      | none => t) s

/-- A device reset that an uncorrectable error in firmware data asks for (R304, R735): the next start is cold. -/
def settle (s : State) : State :=
  if s.fault.fwPoison then
    deviceReset true false false { s with
      fault := { s.fault with fwPoison := false }, boot := { s.boot with coldForced := true } }
  else s

/-! ### Copy-on-write, commit and rollback (R324 to R335) -/

/-- Changes the journal of a step. -/
def modJournal (part stepId : Nat) (f : Journal → Journal) (s : State) : State :=
  { s with mem := { s.mem with
      journals := s.mem.journals.map fun j => if j.part = part && j.stepId = stepId then f j else j } }

/-- The listed entries of a block of a table, moved to another block. -/
def movedBlock {α : Type} (d : Tab α) (unit src dst : Nat) : Tab α :=
  (d.filter fun e => unit * src ≤ e.1 && e.1 < unit * src + unit).map fun e => (e.1 - unit * src + unit * dst, e.2)

/-- Copies a page and the poison of its granules to another frame (R326). -/
def copyPage (src dst : Nat) (s : State) : State :=
  let m := s.mem
  let bytes := (movedBlock m.bytes 65536 src dst).foldl (fun t e => tabSet 0#8 t e.1 e.2) (tabClear m.bytes (65536 * dst) 65536)
  let poison := (movedBlock m.poison 1024 src dst).foldl (fun t e => tabSet false t e.1 e.2) (tabClear m.poison (1024 * dst) 1024)
  let corrupt := (movedBlock m.corrupt 1024 src dst).foldl (fun t e => tabSet false t e.1 e.2) (tabClear m.corrupt (1024 * dst) 1024)
  markDirty dst { s with mem := { m with
    bytes := bytes, poison := poison, corrupt := corrupt, flips := tabClear m.flips (1024 * dst) 1024 } }

/-- The copy of R326 that a write to a page triggers; a page that needs none, or finds no frame, stays. -/
def cowCopy (c : MemCtx) (va : Nat) (s : State) : State :=
  match walk s c.part c.stepId true va with
  | .copy _ =>
    match journalOf s c.part c.stepId, leafAt s c.part va with
    | some j, some old =>
      match j.frames with
      | [] => s
      | f :: rest =>
        let src := leafFrame old
        let r := readGranules c (65536 * src) 65536 s
        let s := copyPage src f r.1
        let gen := (tabGet none s.sec.keys c.part).getD 0
        let s := setFrame f { owner := some c.part, count := 1, resv := false, wkey := some (c.part, gen) } s
        let s := setPt c.part 3 va (ptLeaf true true false true c.part f c.stepId) s
        let s := dropCached c.part (va / 65536 * 65536) (va / 65536 * 65536 + 65536) s
        bump 0x70044 (modJournal c.part c.stepId (fun j => { j with
          frames := rest, entries := j.entries ++ [⟨va / 65536 * 65536, old, false⟩] }) s)
    | _, _ => s
  | _ => s

/-- Reserves frames for a step (R328): its journal begins, with the frames that it may take. -/
def reserveStep (part stepId n : Nat) (s : State) : State :=
  let fs := freeFrames s n
  let s := fs.foldl (fun t f => takeFrame f part 0 true t) s
  { s with mem := { s.mem with journals := s.mem.journals ++ [⟨part, stepId, [], fs⟩] } }

/-- Maps a fresh KV page for a step from its reservation (R329); a mapping beyond the journal's 8,192 entries is a JOURNAL_FULL fault, and
the step does not commit (R330). -/
def mapFresh (part stepId va : Nat) (s : State) : State :=
  match journalOf s part stepId with
  | none => s
  | some j =>
    match j.frames with
    | [] => s
    | f :: rest =>
      if (leafAt s part va).isSome then s
      else if j.entries.length ≥ 8192 then bump 0x70040 (stepBroken part stepId 0xFFFF none s)
      else
        let s := mapLeaf part va (ptLeaf true true false true part f stepId) (takeFrame f part 1 false s)
        modJournal part stepId (fun j => { j with
          frames := rest, entries := j.entries ++ [⟨va / 65536 * 65536, 0, true⟩] }) s

/-- Ends a step's journal: the frames that it did not use are free again. -/
def dropJournal (part stepId : Nat) (s : State) : State :=
  match journalOf s part stepId with
  | none => s
  | some j =>
    let s := j.frames.foldl (fun t f => freeFrame f t) s
    { s with mem := { s.mem with journals := s.mem.journals.filter fun j => !(j.part = part && j.stepId = stepId) } }

/-- R331: every journalled leaf is marked committed, and every frame that a copy replaced is lowered. -/
def journalCommit (part stepId : Nat) (s : State) : State :=
  match journalOf s part stepId with
  | none => s
  | some j =>
    let s := j.entries.foldl (fun t e =>
      let t := setPt part 3 e.va (ptOf t part 3 e.va ||| 0xFFFF#64) t
      if e.fresh then t else lowerFrame (leafFrame e.old) t) s
    dropJournal part stepId s

/-- R332: copies are restored, fresh pages unmapped, and their frames are free again. -/
def journalRollback (part stepId : Nat) (s : State) : State :=
  match journalOf s part stepId with
  | none => s
  | some j =>
    let s := j.entries.reverse.foldl (fun t e =>
      dropCached part e.va (e.va + 65536)
        (freeFrame (leafFrame (ptOf t part 3 e.va)) (setPt part 3 e.va (if e.fresh then 0 else e.old) t))) s
    dropJournal part stepId (bumpBy 0x70048 (j.entries.filter fun e => !e.fresh).length s)

/-- Raises a space's epoch for a range, which leaves every cache (R337). -/
def raiseEpoch (space lo hi : Nat) (s : State) : State :=
  dropCached space lo hi { s with mem := { s.mem with epochs := tabMod 0#32 s.mem.epochs space (· + 1) } }

/-- An epoch command of the Stage Manager's own, for a range that no access under way can touch: it completes at once (R337, R339). -/
def ownEpoch (space lo hi : Nat) (s : State) : State := bump 0x7004C (raiseEpoch space lo hi s)

/-- Unmaps every page of a range, by an epoch command when there is one (R337). -/
def unmapRange (space lo hi : Nat) (s : State) : State :=
  let ps := leavesIn s space lo hi
  if ps = [] then s else ps.foldl (fun t e => unmapPage space e.1 t) (ownEpoch space lo hi s)

/-- Unmaps every KV page of a request, when its entry becomes free. -/
def unmapRequest (part i : Nat) (s : State) : State := unmapRange part (kvBase i) (kvBase (i + 1)) s

/-! ### Device virtual accesses -/

/-- The first fault of a range: its address and subcause. A write that would copy meets no fault. -/
def rangeFault (s : State) (c : MemCtx) (write : Bool) (va n : Nat) : Option (Nat × Nat) :=
  (pagePieces va n).findSome? fun p =>
    match walkFor s c write p.1 with | .fault k => some (p.1, k) | _ => none

/-- Whether a write of a range waits for a copy of one of its pages (R326). -/
def rangeCopies (s : State) (c : MemCtx) (va n : Nat) : Option Nat :=
  (pagePieces va n).findSome? fun p => match walkFor s c true p.1 with | .copy _ => some p.1 | _ => none

/-- What a read of a device virtual range finds: its bytes, whether a granule was poisoned, or a translation fault. -/
structure DvRead where
  st : State
  bytes : List Byte
  fault : Option (Nat × Nat)
  poisoned : Bool

/-- Reads a device virtual range for an access. -/
def dvRead (c : MemCtx) (va n : Nat) (s : State) : DvRead :=
  match rangeFault s c false va n with
  | some e => { st := bump 0x70040 s, bytes := [], fault := some e, poisoned := false }
  | none =>
    (pagePieces va n).foldl (fun r p =>
      match walkFor r.st c false p.1 with
      | .ok pa =>
        let g := readGranules c pa p.2 r.st
        { r with st := g.1, bytes := r.bytes ++ physBytes g.1 pa p.2, poisoned := r.poisoned || g.2 }
      | _ => r) { st := s, bytes := [], fault := none, poisoned := false }

/-- Notes what a step's write outside KV pages replaces, so that a cut can discard it (R74). -/
def noteUndo (c : MemCtx) (va pa n : Nat) (s : State) : State :=
  let kv := match (heldLeaf c va).or (leafAt s c.part va) with | some w => bitAt w 58 | none => false
  if kv || (c.unit = 0xFFFF && c.stepId = 0xFFFF) then s
  else
    let old := (List.range n).map fun i => (pa + i, tabGet 0#8 s.mem.bytes (pa + i))
    modGroup c.part c.stepId (fun g => { g with undo := old ++ g.undo }) s

/-- Stores bytes at a device virtual range whose walks succeed; the answer says whether a poisoned granule took
nothing. -/
def dvStoreP (c : MemCtx) (va : Nat) (bs : List Byte) (s : State) : State × Bool :=
  let r := (pagePieces va bs.length).foldl (fun (r : (State × Bool) × List Byte) p =>
    match walkFor r.1.1 c true p.1 with
    | .ok pa =>
      let q := storePhys c pa (r.2.take p.2) (noteUndo c p.1 pa p.2 r.1.1)
      ((q.1, r.1.2 || q.2), r.2.drop p.2)
    | _ => (r.1, r.2.drop p.2)) ((s, false), bs)
  r.1

/-- Stores bytes at a device virtual range whose walks succeed. -/
def dvStore (c : MemCtx) (va : Nat) (bs : List Byte) (s : State) : State := (dvStoreP c va bs s).1

/-- Writes a device virtual range for an access that makes its own copies (R326): a fault leaves everything as it is. -/
def dvWrite (c : MemCtx) (va : Nat) (bs : List Byte) (s : State) : State × Option (Nat × Nat) :=
  match rangeFault s c true va bs.length with
  | some e => (bump 0x70040 s, some e)
  | none =>
    let s := (pagePieces va bs.length).foldl (fun t p => cowCopy c p.1 t) s
    (dvStore c va bs s, none)

/-- The status with which the requests of a step end for a translation fault, where the fault is not retried: an empty key slot (R345). -/
def faultFatal (sub : Nat) : Option Status := if sub = 8 then some 0x0B else none

/-- A step meets a translation fault at an address: each of its requests from which the Stage Manager revoked the address ends FAILED with
ST_REVOKED, and is not retried (R343). -/
def noteRevoked (part stepId va : Nat) (s : State) : State :=
  match groupOf s part stepId with
  | none => s
  | some g => g.plan.reqs.foldl (fun t i => modReq i (fun r =>
      if r.state.live && r.revoked.any (fun q => q.1 ≤ va && va < q.1 + q.2) then { r with failAtEnd := r.failAtEnd.or (some 5) } else r) t) s

/-! ### Errors that strike (R239, R300, R302) -/

/-- A bit of a stored granule flips. -/
def flipBit (g b : Nat) (s : State) : State :=
  let xs := tabGet [] s.mem.flips g
  { s with mem := { s.mem with flips := tabSet [] s.mem.flips g (if xs.contains b then xs.filter (· ≠ b) else xs ++ [b]) } }

/-- A bit of a 64-bit word of the Flies flips: one is correctable, more are not (R239). -/
def flipWord (w : Nat) (s : State) : State :=
  let x := match tabGet none s.flies.latent w with | none => some true | some _ => some false
  { s with flies := { s.flies with latent := tabSet none s.flies.latent w x } }

/-- What strikes the memories in an idle microsecond, if anything: a free value (DESIGN CHOICE, notes/assumptions/93.md). -/
def strike (s : State) : State :=
  let v := (freeVal 40 s).toNat
  drawn (match v % 4 with
    | 1 => flipBit (v / 4 % (1024 * frameCount)) (v / 2 ^ 40 % granuleBits) s
    | 2 => flipWord (v / 4 % (128 * 8192)) s
    | 3 =>
      let m := v / 4 % 8
      let k := tabGet Stack.init s.hbm.hbmStacks m
      { s with hbm := { s.hbm with hbmStacks := tabSet Stack.init s.hbm.hbmStacks m { k with parity := v / 32 % 8 } } }
    | _ => s)

end Sys2Proof.Machine
end

