-- ==== Sys2Proof/Machine/HelperOps.lean ====
section
/-! DEFINITION. Helper faults (R171, R173), and the abandonment of a unit's work by a reset (R688). -/

namespace Sys2Proof.Machine

open Sys2Proof

/-- Whether two contexts are of the same entry. -/
def sameEntry (c d : EntryCtx) : Bool :=
  c.index = d.index && c.stepId = d.stepId && c.beat = d.beat && c.slot = d.slot && c.part = d.part

/-- Whether an engine still runs the entry that posted a job. -/
def jobAlive (s : State) (j : HelperJob) : Bool :=
  match (engOf s j.eng).run with
  | some c => sameEntry c j.ctx && ((engOf s j.eng).phase = .running || (engOf s j.eng).phase = .ending)
  | none => false

/-- One helper job less of the entry that posted it. -/
def helperLess (j : HelperJob) (s : State) : State :=
  if jobAlive s j then modEng j.eng (fun x => { x with helpers := x.helpers - 1 }) s else s

/-- The control and status registers with which the Stagehand runtime starts a helper program. DESIGN CHOICE, as the manual gives the runtime
no program (notes/assumptions/110.md): the floating-point and vector units are on (mstatus.FS and VS), and where no PMP region is configured,
region 0 opens the whole address space to user mode. -/
def helperCsr (csr : Tab DWord) : Tab DWord :=
  let ms := tabGet 0#64 csr 0x300
  let on (v : DWord) (i : Nat) : DWord := if fld v (i + 1) i = 0 then setFld v (i + 1) i 1 else v
  let t := tabSet 0#64 csr 0x300 (on (on ms 13) 9)
  if tabGet 0#64 csr 0x3A0 = 0 && tabGet 0#64 csr 0x3A2 = 0 then
    tabSet 0#64 (tabSet 0#64 t 0x3A0 0x1F#64) 0x3B0 0x3FFFFFFFFFFFFF#64
  else t

/-- A Stagehand whose job has ended. -/
def Stagehand.ended (h : Stagehand) : Stagehand :=
  { h with
    resv := none
    phase := .idle, job := none, xq := [], wait := none, machine := true
    serv := { h.serv with lastPart := if h.phase = .clearing then none else h.serv.lastPart } }

/-- HELPER_FAULT (R171, R173): the job ends, a HELPER record is written, and the entry that posted the job takes a
deferred exception whose record names the pc of its sys.hcall. -/
def raiseHelperFault (k addr : Nat) (status : Status) (detail : List Nat) (s : State) : State :=
  let h := shOf s k
  match h.job with
  | none => s
  | some j =>
    let s := bump (0x60008 + 0x200 * k) (setSh k h.ended s)
    let cause := (freeVal 3 s).toNat % 256
    let s := logEvent { evBase s 1 cause 0 with
      ctx := ctxOf j.ctx, origin := originOf 1 false, unit := unitCode (shRef k), pc := h.pc.toNat % 2 ^ 20,
      addr := BitVec.ofNat 64 addr, status := status, detail := detail } (drawn s)
    if jobAlive s j then
      reportDeferred j.eng 0x0A (modEng j.eng (fun x =>
        { x with helpers := x.helpers - 1, deferred := x.deferred ++ [⟨false, 0x0A, j.pc, addr, status, detail⟩] }) s)
    else s

end Sys2Proof.Machine
end

