-- ==== Sys2Proof/Machine/OrderOps.lean ====
section
/-! DEFINITION. Running Orders: the fields of R50 and R51, validation (R52 to R54, R126, R153), readiness (R56 to R61,
R251, R253), and what becomes of a commit group that fails or is cut (R74 to R78, R332, R443 to R445). -/

namespace Sys2Proof.Machine

open Sys2Proof

/-! ### Fields (R51) -/

def eKind (e : Entry) : Nat := fld e.w0 63 60
def eTarget (e : Entry) : Nat := fld e.w0 55 48
def eProg (e : Entry) : Nat := fld e.w0 47 0
def eStep (e : Entry) : Nat := fld e.w1 63 48
def eArg (e : Entry) : Nat := fld e.w1 47 0
def eNwait (e : Entry) : Nat := fld e.w3 33 32
def eNsig (e : Entry) : Nat := fld e.w3 35 34
def eXoff (e : Entry) : Nat := fld e.w3 63 48
def eXlen (e : Entry) : Nat := fld e.w3 47 40
def eCnt0 (e : Entry) : Nat := fld e.w4 15 8
def eCnt1 (e : Entry) : Nat := fld e.w4 31 24
def eFlat0 (e : Entry) : Nat := fld e.w4 6 0
def eFlat1 (e : Entry) : Nat := fld e.w4 22 16
def ePredUj (e : Entry) : Nat := fld e.w5 47 24
def ePredUs (e : Entry) : Nat := fld e.w5 19 0
def eReq (e : Entry) : Nat := fld e.w6 55 40
def eEarliest (e : Entry) : Nat := fld e.w6 39 20
def eDeadline (e : Entry) : Nat := fld e.w6 19 0
def eIndex (e : Entry) : Nat := fld e.w7 11 0
/-- The partition of an entry. The PART field of a SELFTEST entry is ignored. -/
def ePart (e : Entry) : Nat := if eKind e = 4 then 0 else fld e.w0 59 57

/-- The flats of an entry. -/
def eFlats (e : Entry) : List Nat :=
  (List.range (eCnt0 e)).map (eFlat0 e + ·) ++ (List.range (eCnt1 e)).map (eFlat1 e + ·)

/-- The extension items of an entry. -/
def eItems (o : Order) (e : Entry) : List Word := (o.xlist.drop (eXoff e)).take (eXlen e)

/-- The wait list of an entry: Cue Light and count. -/
def eWaits (o : Order) (e : Entry) : List (Nat × Nat) :=
  ([(fld e.w2 15 0, fld e.w3 7 0), (fld e.w2 31 16, fld e.w3 15 8)].take (eNwait e)) ++
    ((eItems o e).filter fun w => !bitAt w 31).map fun w => (fld w 15 0, fld w 23 16)

/-- The signals of an entry (R59): Cue Light and increment. -/
def eSigs (o : Order) (e : Entry) : List (Nat × Nat) :=
  ([(fld e.w2 47 32, fld e.w3 23 16), (fld e.w2 63 48, fld e.w3 31 24)].take (eNsig e)) ++
    ((eItems o e).filter fun w => bitAt w 31).map fun w => (fld w 15 0, fld w 23 16)

/-- The 64 bytes of an entry. -/
def entryBytes (e : Entry) : List Byte :=
  [e.w0, e.w1, e.w2, e.w3, e.w4, e.w5, e.w6, e.w7].flatMap fun w => leBytes 8 w.toNat

/-- Bytes 0–123 of a Running Order header (R50). -/
def headerBytes (h : RoHeader) : List Byte :=
  leBytes 8 h.beatNo.toNat ++ leBytes 2 h.entryCount.toNat ++ leBytes 2 h.xlistCount.toNat ++ leBytes 4 h.periodUs.toNat ++
    leBytes 4 h.eBudgetUj.toNat ++ leBytes 4 h.eDrawUj.toNat ++ leBytes 4 h.walkonUj.toNat ++ leBytes 4 h.walkonEus.toNat ++
    leBytes 48 h.configDigest.toNat ++ leBytes 4 h.coefGen.toNat ++ slice h.resv 0 40

/-- A Running Order as it lies in its staging area. -/
def orderBytes (o : Order) : List Byte :=
  headerBytes o.hdr ++ leBytes 4 o.hdr.crc.toNat ++ o.entries.flatMap entryBytes ++ o.xlist.flatMap fun w => leBytes 4 w.toNat

/-! ### Argument blocks (R117) -/

/-- The 64-byte prefix of an argument block; `cl` holds the four bytes of CL_BASE and CL_COUNT. -/
def blockPrefix (beat : DWord) (req stepId : Nat) (cl : List Byte) (seed : DWord) (slot : Nat) : List Byte :=
  leBytes 8 beat.toNat ++ leBytes 2 req ++ leBytes 2 stepId ++ slice cl 0 4 ++ leBytes 8 seed.toNat ++ leBytes 2 slot ++
    List.replicate 38 0

/-- Whether CL_BASE and CL_COUNT keep to the limits of R120 for an image that needs `clMax` Cue Lights. -/
def clFits (base count clMax : Nat) : Bool := count ≤ 1024 && clMax ≤ count && base + count ≤ 65536

/-! ### Validation -/

/-- The device virtual address of a loaded image (R125). -/
def imageAddr (k : Nat) : Nat := 0xF00000000000 + k * 0x100000

/-- The image at an address. -/
def imageAt (s : State) (a : Nat) : Option (Nat × Image) :=
  if a < 0xF00000000000 || (a - 0xF00000000000) % 0x100000 ≠ 0 then none
  else
    let k := (a - 0xF00000000000) / 0x100000
    (tabGet none s.serve.images k).map fun x => (k, x)

/-- R54: the header, for the Beat that it would run in. -/
def headerOk (o : Order) (beat : Nat) (period : Nat) : Bool :=
  crc32c (headerBytes o.hdr) = o.hdr.crc.toNat && o.hdr.resv.all (· = 0#8) && o.hdr.entryCount.toNat ≤ 4096 &&
    o.hdr.xlistCount.toNat ≤ 16384 && o.hdr.beatNo.toNat = beat && o.hdr.periodUs.toNat = period

/-- A reserved value of R51 and R52. -/
def entryResv (o : Order) (e : Entry) : Bool :=
  let t := eTarget e
  eKind e ≥ 5 || bitAt e.w0 56 || (0x20 ≤ t && t ≠ 0xFF) || fld e.w3 39 36 ≠ 0 || fld e.w4 63 32 ≠ 0 || bitAt e.w4 23 ||
    bitAt e.w4 7 || fld e.w5 63 48 ≠ 0 || fld e.w5 23 20 ≠ 0 || fld e.w7 31 12 ≠ 0 || (eReq e ≥ 8192 && eReq e ≠ 0xFFFF) ||
    eXlen e > 32 || eProg e % 8 ≠ 0 || (eKind e = 1 && eProg e ≠ 0) || eArg e % 64 ≠ 0 || eNwait e = 3 || eNsig e = 3 ||
    eCnt0 e > 128 || eCnt1 e > 128 || eXoff e + eXlen e > o.hdr.xlistCount.toNat ||
    (eItems o e).any fun w => fld w 30 24 ≠ 0

/-- Whether a logical engine is a hole or under reset. -/
def engineDown (s : State) (le : Nat) : Bool :=
  match engSlot s le with
  | none => true
  | some k => (engOf s k).serv.inReset || s.fault.clReset.contains (k / 9)

/-- FREEZE_LEAD as R45 clamps it. DESIGN CHOICE: half of an odd period is rounded down to a whole µs (notes/assumptions/89.md). -/
def freezeLead (s : State) : Nat := min s.beat.lead (s.beat.period / 2)

/-- What the planner has for the entry at a position. -/
def planOf (o : Order) (i : Nat) : EntryPlan := o.plans.getD i ⟨0, 0, false, [], 0, 0, []⟩

/-- The slice that a SELFTEST entry names in bytes 64 to 71 of its argument block: TEST, SLICE, KIND and UNIT (R706). -/
structure SliceArgs where
  test : Nat
  slice : Nat
  kind : Nat
  unit : Nat
  resv : Bool

/-- Reads a slice from the block that the Stage Manager writes for the entry at a position. -/
def sliceArgs (o : Order) (i : Nat) : SliceArgs :=
  let b (k : Nat) : Nat := ((planOf o i).args.getD k 0).toNat
  ⟨b 0, b 1, b 2, b 3, (List.range 4).any fun k => b (4 + k) ≠ 0⟩

/-- What voids a SELFTEST entry beside the rules of every entry: a PROG_ADDR that is not the BIST image's (R126, R706), and a TEST 0x01
or 0x02 slice of more than 200 µs (R708). -/
def sliceVoid (o : Order) (i : Nat) (e : Entry) : Bool :=
  let a := sliceArgs o i
  eProg e ≠ Config.bistImage || ((a.test = 1 || a.test = 2) && ePredUs e > 200)

/-- R52, R126 and R153: whether validation voids the entry at a position. -/
def entryVoid (s : State) (o : Order) (period i : Nat) (e : Entry) : Bool :=
  let part := ePart e
  crc32c ((entryBytes e).take 60) ≠ fld e.w7 63 32 || entryResv o e || eIndex e ≠ i ||
    (eTarget e ≠ 0xFF && engineDown s (eTarget e)) ||
    (eKind e ≠ 4 && (eFlats e).any fun f => (o.flats.getD f ⟨0xD, false⟩).holder ≠ part) ||
    eDeadline e > period || eDeadline e < eEarliest e + ePredUs e ||
    (eKind e ≠ 1 && eKind e ≠ 4 && (match imageAt s (eProg e) with | some (_, x) => x.part ≠ part | none => true)) ||
    (eKind e = 4 && sliceVoid o i e) ||
    (eKind e ≤ 2 && (eWaits o e ++ eSigs o e).any fun q => !cueGranted s part q.1)

/-- The positions that validation voids. -/
def voidList (s : State) (o : Order) (period : Nat) : List Nat :=
  (o.entries.zipIdx.filter fun p => entryVoid s o period p.2 p.1).map Prod.snd

/-- A VOID record, and BEAT_VOID_CNT (R53). -/
def logVoid (part stepId req index le unit : Nat) (s : State) : State :=
  let cause := (freeVal 5 s).toNat % 256
  bump 0x10050 (logEvent { evBase s 7 cause 1 with
    ctx := packCtx stepId req index le part, origin := originOf 5 false, unit := unit } (drawn s))

/-- The entries of the running Beat, with their positions. -/
def runEntries (s : State) : List (Nat × Entry) :=
  match s.ro.running with | some o => o.entries.zipIdx.map fun p => (p.2, p.1) | none => []

def statusAt (s : State) (i : Nat) : EntryStatus := tabGet .queued s.ro.status i

/-- Whether the entry at a position has not started and may still. -/
def isQueued (s : State) (i : Nat) : Bool := statusAt s i = .queued

/-- Voids one entry of the running Beat with its record (R53). -/
def voidEntry (i : Nat) (e : Entry) (s : State) : State :=
  setEntry i .voided (logVoid (ePart e) (eStep e) (eReq e) i (eTarget e) 0xFFFF s)

/-- Voids the entries of the running Beat that have not started and pass a test; their steps fail. -/
def voidWhere (p : Nat → Entry → Bool) (s : State) : State :=
  (runEntries s).foldl (fun t q =>
    if isQueued t q.1 && eKind q.2 ≠ 1 && p q.1 q.2 then stepBroken (ePart q.2) (eStep q.2) 0xFFFF none (voidEntry q.1 q.2 t) else t) s

/-! ### Readiness (R56 to R61, R251, R253) -/

/-- Whether an entry of the running Beat uses any of the flats: it has been dispatched, has not ended, is of the same
partition and belongs to another commit group (R251). -/
def flatsBusy (s : State) (part stepId : Nat) (fs : List Nat) : Bool :=
  (List.range 36).any (fun k => match (engOf s k).run with
    | some c => c.part = part && c.stepId ≠ stepId && (engOf s k).phase ≠ .idle &&
        fs.any fun f => (c.flat0 ≤ f && f < c.flat0 + c.cnt0) || (c.flat1 ≤ f && f < c.flat1 + c.cnt1)
    | none => false) ||
  s.serve.samplers.any fun p => p.2.queue.any fun q =>
    q.phase = .running && q.job.part = part && q.job.stepId.toNat ≠ stepId &&
      [q.job.flat0, q.job.flat1, q.job.flat2].any fs.contains

/-- Whether a step waits for the commit or the rollback of an earlier step of one of its requests (R333). -/
def stepWaits (s : State) (part stepId : Nat) : Bool :=
  match groupOf s part stepId with
  | none => false
  | some h => s.serve.groups.any fun g => g.beat ≠ h.beat && g.plan.reqs.any h.plan.reqs.contains

/-- R56 to R61, R251, R253, R333: whether an entry may be dispatched now. -/
def entryReady (s : State) (o : Order) (e : Entry) : Bool :=
  s.beat.cutsDone && !stepWaits s (ePart e) (eStep e) && eEarliest e ≤ s.beat.phaseUs && (eWaits o e).all (fun q => q.2 ≤ (cueOf s q.1).count) &&
    (eFlats e).all (fun f => !(flatOf s f).clearing) && !flatsBusy s (ePart e) (eStep e) (eFlats e) &&
    (eKind e = 4 || s.beat.phaseUs + ePredUs e ≤ eDeadline e)

/-! ### Steps that end without a commit -/

/-- Whether an entry or Sampler job of a step still runs. -/
def stepActive (s : State) (part stepId : Nat) : Bool :=
  (List.range 36).any (fun k => match (engOf s k).run with
    | some c => c.part = part && c.stepId = stepId && (engOf s k).phase ≠ .idle
    | none => false) ||
  s.serve.samplers.any fun p => p.2.queue.any fun q => q.phase = .running && q.job.part = part && q.job.stepId.toNat = stepId

/-- A PAUSE that waits takes effect once no step of the request is planned or running (R390). -/
def settlePause (i : Nat) (s : State) : State :=
  match reqOf s i with
  | none => s
  | some r => if r.pausePending && r.state.live && !stepBusy s i then
      setReq i (some { r with state := .paused, pausePending := false }) s else s

/-- The pauses that wait are tried again. -/
def settlePauses (s : State) : State :=
  (reqsWhere s fun r => r.pausePending).foldl (fun t i => settlePause i t) s

/-- Takes a step's jobs off the Samplers' queues. -/
def dropStepJobs (part stepId : Nat) (s : State) : State :=
  { s with serve := { s.serve with samplers := tabMap Sampler.init (fun _ q =>
      { q with queue := q.queue.filter fun j => !(j.job.part = part && j.job.stepId.toNat = stepId) }) s.serve.samplers } }

/-- Takes a group that does not commit off the groups in flight; its entries and jobs that have not started are not dispatched
any more. A Lead says so (R640). -/
def dropGroup (g : Group) (s : State) : State :=
  let s := dropStepJobs g.plan.part g.plan.stepId.toNat (sendVerdict g false s)
  let s := { s with serve := { s.serve with groups := s.serve.groups.filter fun x => x ≠ g } }
  if g.beat = s.beat.num then
    (runEntries s).foldl (fun t q =>
      if isQueued t q.1 && ePart q.2 = g.plan.part && eStep q.2 = g.plan.stepId.toNat && eKind q.2 ≠ 4 && eKind q.2 ≠ 1
      then setEntry q.1 .voided t else t) s
  else s

/-- The Walk-on slots that serve a request in a step. -/
def slotsOf (s : State) (req : Nat) : List Nat :=
  tabKeys (fun _ x => x.req = req && (x.state = .running || x.state = .planned)) s.board.slots

/-- What a step that failed does to one of its requests (R443 to R445). -/
def failOne (g : Group) (i : Nat) (s : State) : State :=
  match reqOf s i with
  | none => s
  | some r =>
    if !r.state.live then s
    else if r.cancelled then endRequest i true 0x8A 0 s
    else match g.fatal.or r.failAtEnd with
    | some st => failRequest i st g.unit s
    | none =>
      if r.retry then failRequest i 3 g.unit s
      else
        let s := bump 0x90044 (setReq i (some { r with retry := true, avoid := r.avoid ++ [g.unit] }) s)
        let s := (slotsOf s i).foldl (fun t k => slotTo k .planned 0x0E t) s
        settlePause i s

/-- STEP_FAIL (R332, R443): the step's writes are rolled back, and each of its requests is retried once or ends. -/
def failStep (g : Group) (s : State) : State :=
  let s := dropGroup g (journalRollback g.plan.part g.plan.stepId.toNat s)
  g.plan.reqs.foldl (fun t i => failOne g i t) s

/-- What a step's writes outside KV pages have replaced is put back (R74). -/
def undoWrites (g : Group) (s : State) : State :=
  { s with mem := { s.mem with bytes := g.undo.foldl (fun t b => tabSet 0#8 t b.1 b.2) s.mem.bytes } }

/-- The time that the attempt of a step took until now, in µs; none when none of its entries has started (R77). -/
def attemptUs (s : State) (g : Group) : Option Nat := g.startUs.map fun t => s.time - t

/-- What a cut does to one request of the step (R74 to R78): it is carried. -/
def carryOne (g : Group) (i : Nat) (s : State) : State :=
  match reqOf s i with
  | none => s
  | some r =>
    if !r.state.live then s
    else if r.cancelled then endRequest i true 0x8A 0 s
    else match r.failAtEnd with
    | some st => failRequest i st g.unit s
    | none =>
      let s := setReq i (some { r with status := 1, cuts := min 15 (r.cuts + 1), carry := (attemptUs s g).or r.carry }) s
      let s := (slotsOf s i).foldl (fun t k => slotTo k .planned 0x0E t) s
      settlePause i s

/-- A step that was cut at the edge (R74, R76): rolled back, counted, and carried. -/
def cutStep (g : Group) (s : State) : State :=
  let s := bump 0x10044 (dropGroup g (journalRollback g.plan.part g.plan.stepId.toNat (undoWrites g s)))
  g.plan.reqs.foldl (fun t i => carryOne g i t) s

/-- Carries out the failure of a step whose entries, jobs and drains have ended. -/
def resolveStep (part stepId : Nat) (s : State) : State :=
  match groupOf s part stepId with
  | none => s
  | some g => if g.status = .failed && g.draining = 0 && !stepActive s part stepId then failStep g s else s

/-- Every failed step of the running Beat that can be resolved. -/
def resolveSteps (s : State) : State :=
  s.serve.groups.foldl (fun t g => resolveStep g.plan.part g.plan.stepId.toNat t) s

end Sys2Proof.Machine
end

