-- ==== Sys2Proof/Machine/Xfer.lean ====
section
/-! DEFINITION. XFER instructions and their transfers (R133 to R138, R194 to R198), and copy-on-write (R326). -/

namespace Sys2Proof.Machine

open Sys2Proof

/-- The transfer that an XFER instruction asks for; R194 and R195. -/
def xferOf (x : Engine) (f : Fields) (st : Bool) (cue : Option (Nat × Nat)) (epoch : Word) : Xfer :=
  let d := rdS x f.d
  let shaped := f.d ≠ 0
  { st := st, lm := (rdS x f.a).toNat, dv := (rdS x f.b).toNat, rows := if shaped then fld d 15 0 else 1,
    len := (rdS x f.c).toNat, lmStride := if shaped then fld d 39 16 else 0,
    dvStride := if shaped then 64 * fld d 63 40 else 0, cue := cue, pc := x.pc.toNat, epoch := epoch, held := [] }

/-- R196. -/
def xferAligned (t : Xfer) (shaped : Bool) : Bool :=
  let total := t.rows * t.len
  total ≠ 0 && total % 64 = 0 && total ≤ 0x800000 && t.lm % 64 = 0 && t.dv % 64 = 0 &&
    (!shaped || (t.rows ≠ 0 && t.len % 64 = 0 && t.lmStride % 64 = 0))

/-- The last LM byte that a transfer reaches. -/
def xferLmEnd (t : Xfer) : Nat := t.lm + (t.rows - 1) * t.lmStride + t.len

/-- Issues a transfer: R133 first, then the precise checks of R196, R112 and R198. DESIGN CHOICE: that order, which the spec does not
give (notes/assumptions/98.md). -/
def xferIssue (e func : Nat) (st : Bool) (f : Fields) (s : State) : Res :=
  runEng e 0x0C func f s fun c x =>
    let epoch := tabGet 0#32 s.mem.epochs c.part
    let t := xferOf x f st none epoch
    if x.xq.length ≥ 16 then .stall
    else if !xferAligned t (f.d ≠ 0) then .exc 2 t.lm
    else if xferLmEnd t > lmSize then .exc 3 t.lm
    else if imm f 31 31 = 1 then
      match cueIndex s c (imm f 9 0) with
      | none => .exc 5 (imm f 9 0)
      | some i =>
        .ok (setEng e (advance { x with xq := x.xq ++ [xferOf x f st (some (i, imm f 30 23)) epoch] }) s)
    else .ok (setEng e (advance { x with xq := x.xq ++ [t] }) s)

/-- xfer.ld. -/
def execXferLd (e : Nat) (f : Fields) (s : State) : Res := xferIssue e 0 false f s
/-- xfer.st. -/
def execXferSt (e : Nat) (f : Fields) (s : State) : Res := xferIssue e 1 true f s

/-- A unit that moves data: an engine slot, or 64 plus a Stagehand slot. -/
def xferQueue (s : State) (u : Nat) : List Xfer := if u < 64 then (engOf s u).xq else (shOf s (u - 64)).xq

/-- The entry context of such a unit. -/
def xferCtx (s : State) (u : Nat) : Option EntryCtx :=
  if u < 64 then (engOf s u).run else ((shOf s (u - 64)).job).map HelperJob.ctx

/-- The access context of its transfers. -/
def xferMem (u : Nat) (c : EntryCtx) : MemCtx :=
  if u < 64 then entryMem c (unitCode (engRef u)) 0 else entryMem c (unitCode (shRef (u - 64))) 1

/-- Its cluster. -/
def xferCluster (u : Nat) : Nat := if u < 64 then u / 9 else (u - 64) / 18

/-- The DV rows of a transfer, with their LM addresses. -/
def xferDvRows (t : Xfer) : List (Nat × Nat) :=
  (List.range t.rows).map fun r => (t.dv + r * t.dvStride, t.lm + r * t.lmStride)

/-- The first fault that a transfer meets: row, address and subcause. -/
def xferFaultAt (s : State) (c : MemCtx) (t : Xfer) : Option (Nat × Nat) :=
  (xferDvRows t).findSome? fun r => rangeFault s c t.st r.1 t.len

/-- Whether a transfer waits for the copy of a page (R326). -/
def xferCopies (s : State) (c : MemCtx) (t : Xfer) : Bool :=
  t.st && (xferDvRows t).any fun r => (rangeCopies s c r.1 t.len).isSome

/-- Writes bytes to the local memory of a unit. -/
def unitLmWrite (u a : Nat) (bs : List Byte) (s : State) : State :=
  if u < 64 then modEng u (fun x => { x with lm := tabWrite 0#8 x.lm a bs }) s
  else modSh (u - 64) (fun h => { h with lm := tabWrite 0#8 h.lm a bs, resv := none }) s

/-- The bytes of the local memory of a unit. -/
def unitLmRead (s : State) (u a n : Nat) : List Byte :=
  if u < 64 then tabRead 0#8 (engOf s u).lm a n else tabRead 0#8 (shOf s (u - 64)).lm a n

/-- A transfer of an engine sets NAN where it writes one (R273). -/
def unitMoved (u : Nat) (bs : List Byte) (s : State) : State := if u < 64 then modEng u (fun x => withMoved x bs) s else s

/-- Moves one row. -/
def xferRow (u : Nat) (c : MemCtx) (t : Xfer) (s : State) (r : Nat × Nat) : State :=
  let s := (pagePieces r.1 t.len).foldl (fun q p => tcLookup (xferCluster u) c.part p.1 q) s
  if t.st then
    let bs := unitLmRead s u r.2 t.len
    unitMoved u bs (dvStore c r.1 bs s)
  else
    let d := dvRead c r.1 t.len s
    unitMoved u d.bytes (unitLmWrite u r.2 d.bytes d.st)

/-- Drops the oldest transfer of a unit. -/
def xferPop (u : Nat) (s : State) : State :=
  if u < 64 then modEng u (fun x => { x with xq := x.xq.tail }) s else modSh (u - 64) (fun h => { h with xq := h.xq.tail }) s

/-- Whether the transfers of a unit drain: none completes any more (R157). -/
def xferDrains (s : State) (u : Nat) : Bool := u < 64 && (engOf s u).phase = .draining

/-- The first `n` bytes that a store writes: DV address, LM address and length of each row. -/
def storeRows (t : Xfer) (n : Nat) : List (Nat × Nat × Nat) :=
  (xferDvRows t).zipIdx.filterMap fun p =>
    let k := min t.len (n - p.2 * t.len)
    if k = 0 then none else some (p.1.1, p.1.2, k)

/-- The first `n` bytes of the stores in a queue land: their order is that of issue (R134). -/
def acceptStores (u : Nat) (c : EntryCtx) : Nat → List Xfer → State → State
  | _, [], s => s
  | n, t :: ts, s =>
    let size := if t.st then t.rows * t.len else 0
    let s := (storeRows t (min n size)).foldl (fun q r =>
      dvStore { xferMem u c with held := t.held } r.1 (unitLmRead q u r.2.1 r.2.2) q) s
    if n < size then s else acceptStores u c (n - size) ts s

/-- The drain of an abandoned entry's transfers (R157): what a memory controller has accepted completes, in whole granules from the
oldest on; how much that is, is a free value (notes/assumptions/53.md). Every other write, and every load, is discarded. -/
def drainXfers (u : Nat) (s : State) : State :=
  match xferCtx s u with
  | none => s
  | some c =>
    let q := xferQueue s u
    let total := sumNat (q.map fun t => if t.st then t.rows * t.len else 0)
    if total = 0 then s else drawn (acceptStores u c (64 * ((freeVal 43 s).toNat % (total / 64 + 1))) q s)

/-- XFER_COMPLETE (R134, R136 to R138): the oldest transfer of a unit moves its data, and its Cue Light is signalled. A
transfer that meets a fault or waits for a copy does not complete. The transfers of one unit complete in their order: for those of a
Stagehand to different destinations, which R24 does not order, that is a DESIGN CHOICE (notes/assumptions/94.md). -/
def execXferComplete (e : Nat) (s : State) : Res :=
  need (e < 36 || (64 ≤ e && e < 136)) <|
    match xferQueue s e, xferCtx s e with
    | t :: _, some c =>
      let m := { xferMem e c with held := t.held }
      if xferDrains s e || (xferFaultAt s m t).isSome || xferCopies s m t then .next s
      else
        let s := xferPop e ((xferDvRows t).foldl (fun q r => xferRow e m t q r) s)
        let s := match t.cue with | some (i, n) => cueSigHw i n (ctxOf c) m.origin s | none => s
        .next (settle s)
    | _, _ => .next s

/-- XFER_FAULT (R156, R319): the oldest transfer of a unit meets a fault. The rows before it have moved, and nothing
further does; its Cue Light is not signalled. On an engine it is a deferred exception whose record carries the
subcause; on a Stagehand it is a HELPER_FAULT (R173). -/
def execXferFault (e : Nat) (s : State) : Res :=
  need (e < 36 || (64 ≤ e && e < 136)) <|
    match xferQueue s e, xferCtx s e with
    | t :: _, some c =>
      let m := { xferMem e c with held := t.held }
      let rows := (xferDvRows t).takeWhile fun r => (rangeFault s m t.st r.1 t.len).isNone
      if xferDrains s e || (t.st && rows.any fun r => (rangeCopies s m r.1 t.len).isSome) then .next s
      else match xferFaultAt s m t with
      | none => .next s
      | some (va, sub) =>
        let s := bump 0x70040 (rows.foldl (fun q r => xferRow e m t q r) s)
        let s := match faultFatal sub with
          | some st => stepBroken c.part c.stepId 0xFFFF (some st) s
          | none => noteRevoked c.part c.stepId va s
        if e < 64 then
          .next (settle (reportDeferred e 9 (modEng e (fun x =>
            { x with xq := x.xq.tail, deferred := x.deferred ++ [⟨false, 9, t.pc, va, 0, [sub]⟩] }) s)))
        else .next (settle (raiseHelperFault (e - 64) va 0 [sub] s))
    | _, _ => .next s

/-- COPY_ON_WRITE (R326, R327): a write to a page that needs a copy makes it. -/
def execCopyOnWrite (x : Access) (va : Nat) (s : State) : Res :=
  need (x.part < 8) <|
    .next (settle (cowCopy
      { part := x.part, stepId := x.stepId.toNat, unit := 0xFFFF,
        ctx := packCtx x.stepId.toNat x.req.toNat x.index.toNat x.le.toNat x.part, origin := x.origin, held := [] } va s))

end Sys2Proof.Machine
end

