-- ==== Sys2Proof/Machine/UnitOps.lean ====
section
/-! DEFINITION. The end of a unit's work, unit resets, scratchpad samples, retirement and spares (R98, R259, R682 to
R692, R696, R743 to R756). -/

namespace Sys2Proof.Machine

open Sys2Proof

/-! ### The end of an entry -/

/-- Engine time and energy of an entry that has ended (R96, R98). DESIGN CHOICE: an entry that never started or was voided counts in no
sum and is charged nothing (notes/assumptions/91.md). -/
def chargeRun (e : Nat) (c : EntryCtx) (s : State) : State :=
  { s with energy := { s.energy with ran := s.energy.ran ++ [⟨c.part, c.kind, e / 9, c.predUj, s.time - c.startUs⟩] } }

/-- The Walk-on set of a slot is cleared; WALKON_SET_FREE ends the clear (R259). -/
def releaseSet (slot : Nat) (s : State) : State :=
  { s with flies := { s.flies with
      sets := tabMap WalkonSet.init (fun _ x => if x.user = some slot then { x with clearing := true } else x) s.flies.sets } }

/-- The helper jobs that an entry posted end with it. -/
def dropHelpers (c : EntryCtx) (s : State) : State :=
  { s with sh := tabMap Stagehand.init (fun _ h =>
      let mine (j : HelperJob) : Bool := sameEntry j.ctx c
      let h := { h with queue := h.queue.filter fun j => !mine j }
      match h.job with
      | some j => if mine j then h.ended else h
      | none => h) s.sh }

/-- The window of a Walk-on is free again. -/
def leaveWindow (c : EntryCtx) (s : State) : State :=
  match c.slot with
  | none => s
  | some k => releaseSet k { s with ro := { s.ro with occupied := tabSet none s.ro.occupied c.index none } }

/-- An engine's entry has ended: the engine is idle, and what the entry held is given back. After a clear that did not complete, the
engine has no previous partition (R26). A cut entry has been charged at the edge. -/
def endRun (e : Nat) (s : State) : State :=
  let x := engOf s e
  match x.run with
  | none => setEng e { x with phase := .idle } s
  | some c =>
    let s := setEng e { x with
      phase := .idle, run := none, xq := [], wait := none, deferred := [], helpers := 0, cut := false, uncleared := false,
      serv := { x.serv with
        lastPart := if x.phase = .clearing || (x.phase = .draining && x.uncleared) then none else some c.part } } s
    leaveWindow c (dropHelpers c (if x.cut then s else chargeRun e c s))

/-! ### Scratchpad samples (R682 to R684) -/

/-- The first and the last 32 KiB of a local memory of `size` bytes. -/
def sampleBytes (t : Tab Byte) (size : Nat) : Tab Byte := tabFilter (fun a _ => a < 0x8000 || size - 0x8000 ≤ a) t

/-- The register image of an engine: s0–s31, v0–v15, p0–p7, and 128 bytes of pc and the status registers that it holds. -/
def engineImage (x : Engine) : List Byte :=
  slice ((tabRead 0#64 x.s 0 32).flatMap (fun w => leBytes 8 w.toNat) ++ (tabRead 0#32 x.v 0 2048).flatMap (fun w => leBytes 4 w.toNat) ++
    (tabRead (0 : BitVec 128) x.p 0 8).flatMap (fun (p : BitVec 128) => leBytes 16 p.toNat) ++
    leBytes 8 x.pc.toNat ++ leBytes 8 x.round.toNat ++ leBytes 8 x.flags.toNat) 0 8704

/-- The register image of a Stagehand: x, f and v registers, pc and the CSRs that a user program reaches. -/
def shImage (h : Stagehand) : List Byte :=
  slice ((tabRead 0#64 h.x 0 32).flatMap (fun w => leBytes 8 w.toNat) ++ (tabRead 0#64 h.f 0 32).flatMap (fun w => leBytes 8 w.toNat) ++
    tabRead 0#8 h.v 0 2048 ++ leBytes 8 h.pc.toNat ++ leBytes 8 h.zshtmo.toNat ++
    [1, 2, 3, 8, 9, 10, 15, 0xC20, 0xC21, 0xC22].flatMap fun k => leBytes 8 (tabGet 0#64 h.csr k).toNat) 0 4096

/-- The partition of the last entry or job of a unit, whose sample is sealed for it. -/
def samplePart (s : State) (u : UnitRef) : Option Nat :=
  match u.kind with
  | .engine => ((engOf s (9 * u.cluster + u.slot)).run.map EntryCtx.part).or (engOf s (9 * u.cluster + u.slot)).serv.lastPart
  | .stagehand => ((shOf s (18 * u.cluster + u.slot)).job.map fun j => j.ctx.part).or (shOf s (18 * u.cluster + u.slot)).serv.lastPart
  | _ => none

/-- The context of the work that a unit runs, for its reset record. -/
def unitCtx (s : State) (u : UnitRef) : DWord :=
  match u.kind with
  | .engine => match (engOf s (9 * u.cluster + u.slot)).run with | some c => ctxOf c | none => noCtx 0
  | .stagehand => match (shOf s (18 * u.cluster + u.slot)).job with | some j => ctxOf j.ctx | none => noCtx 0
  | _ => noCtx 0

/-- The key that seals a partition's samples (R683): the first 32 bytes of HMAC-SHA-384, keyed with its memory key, over DM9-SAMPLE. -/
def sampleKey (s : State) (part : Nat) : List Byte :=
  (leBytes 48 (Config.hmacSha384 (leBytes 64 (tabGet 0 s.sec.keyVals part).toNat)
    [0x44, 0x4D, 0x39, 0x2D, 0x53, 0x41, 0x4D, 0x50, 0x4C, 0x45]).toNat).take 32

/-- Takes a scratchpad sample of a unit (R682, R684): its number, and whether an uncopied sample was overwritten. -/
def takeSample (u : UnitRef) (s : State) : State × Option (Nat × Bool) :=
  match samplePart s u with
  | none => (s, none)
  | some p =>
    if !keyHeld s p || regF s 0xD0000 16 16 = 0 then (s, none)
    else
      let k := s.fault.nextSample
      let eng := u.kind = .engine
      let g := engOf s (9 * u.cluster + u.slot)
      let h := shOf s (18 * u.cluster + u.slot)
      let x : Sample :=
        { no := k, part := p, unit := u, record := s.fault.head + BitVec.ofNat 64 s.fault.fifo.length, ctx := unitCtx s u
          regs := if eng then engineImage g else shImage h
          bytes := if eng then sampleBytes g.lm 0xC00000 else sampleBytes h.lm 0x80000
          key := sampleKey s p, copied := false }
      let old := s.fault.samples
      let lost := old.length ≥ 64 && (match old.head? with | some y => !y.copied | none => false)
      let s := bump 0xD0058 { s with fault := { s.fault with
        samples := (if old.length ≥ 64 then old.tail else old) ++ [x], nextSample := k + 1,
        sampleLast := tabSet 0#32 s.fault.sampleLast p (BitVec.ofNat 32 k ^^^ 0xFFFFFFFF#32) } }
      (s, some (k, lost))

/-! ### Unit resets (R686 to R690) -/

/-- The Sampler that a unit reference names: 0 to 3 in clusters, 4 the shared spare. -/
def samplerNo (u : UnitRef) : Nat := if u.slot = 4 then 4 else u.cluster
/-- The reference of a Sampler. -/
def samplerRef (p : Nat) : UnitRef := if p = 4 then ⟨.sampler, 0, 4⟩ else ⟨.sampler, p, 0⟩

/-- Voids every entry of a failed commit group that has not started (R688). -/
def voidFailed (part stepId : Nat) (s : State) : State :=
  voidWhere (fun _ e => eKind e ≠ 4 && ePart e = part && eStep e = stepId) s

/-- An engine's entry is abandoned by a reset (R688), after the drain of R687. -/
def dropEntry (e : Nat) (s : State) : State :=
  let s := drainXfers e s
  let x := engOf s e
  match x.run with
  | none => s
  | some c =>
    let s := if x.phase = .draining then modGroup c.part c.stepId (fun g => { g with draining := g.draining - 1 }) s else s
    let s := if c.slot.isNone then setEntry c.index .faulted s else s
    voidFailed c.part c.stepId (endRun e (stepBroken c.part c.stepId (unitCode (engRef e)) none s))

/-- A helper job that runs or waits on a Stagehand under reset is abandoned after the drain of R687: its entry's step fails (R688). -/
def dropJobs (k : Nat) (s : State) : State :=
  let s := drainXfers (64 + k) s
  let h := shOf s k
  let js := h.job.toList ++ h.queue
  let s := setSh k { h.ended with queue := [] } s
  js.foldl (fun t j =>
    voidFailed j.ctx.part j.ctx.stepId (stepBroken j.ctx.part j.ctx.stepId (unitCode (shRef k)) none (helperLess j t))) s

/-- The Sampler jobs that run on a cluster's Sampler are abandoned (R688). -/
def dropSamplerJobs (c : Nat) (s : State) : State :=
  let q := tabGet Sampler.init s.serve.samplers c
  let run := q.queue.filter fun j => j.phase = .running
  let s := { s with serve := { s.serve with samplers := tabSet Sampler.init s.serve.samplers c { q with
    queue := q.queue.map fun j => if j.phase = .running then { j with phase := .failed } else j } } }
  run.foldl (fun t j => voidFailed j.job.part j.job.stepId.toNat
    (stepBroken j.job.part j.job.stepId.toNat (0x2000 + 256 * c) none t)) s

/-- What a reset does to one unit: its work is abandoned, and its registers and local memory are cleared. -/
def clearUnit (u : UnitRef) (s : State) : State :=
  match u.kind with
  | .engine =>
    let e := 9 * u.cluster + u.slot
    let s := dropEntry e s
    let x := engOf s e
    setEng e { Engine.init with serv := { x.serv with inReset := true, lastPart := none }, excLast := x.excLast } s
  | .stagehand =>
    let k := 18 * u.cluster + u.slot
    let s := dropJobs k s
    let h := shOf s k
    setSh k { Stagehand.init with serv := { h.serv with inReset := true, lastPart := none } } s
  | .sampler =>
    (List.range 4).foldl (fun t c =>
      let q := tabGet Sampler.init t.serve.samplers c
      if q.phys = some (samplerNo u) then
        let t := dropSamplerJobs c t
        let q := tabGet Sampler.init t.serve.samplers c
        { t with serve := { t.serve with samplers := tabSet Sampler.init t.serve.samplers c { q with inReset := true } } }
      else t) s
  | _ => s

/-- The origin byte of that context: the unit's own kind, or the control hub's firmware where it runs nothing (R664, R665). -/
def unitOrigin (s : State) (u : UnitRef) : Byte :=
  match u.kind with
  | .engine => if (engOf s (9 * u.cluster + u.slot)).run.isSome then originOf 0 false else originOf 5 true
  | .stagehand => if (shOf s (18 * u.cluster + u.slot)).job.isSome then originOf 1 false else originOf 5 true
  | _ => originOf 5 true

/-- UNIT_RESET (R686): a sample is taken, the unit is cleared, and a RESET record is written. A cause that the manual
does not give is a free value. UNIT_RESET_DONE ends it. -/
def unitReset (u : UnitRef) (cause : Option Nat) (s : State) : State :=
  let ctx := unitCtx s u
  let origin := unitOrigin s u
  let r := takeSample u s
  let s := clearUnit u r.1
  let s := bump 0xD0040 { s with fault := { s.fault with unitWin := s.fault.unitWin ++ [(s.time, u)] } }
  let code := cause.getD ((freeVal 6 s).toNat % 256)
  logEvent { evBase s 9 code 2 with
    ctx := ctx, origin := origin, unit := unitCode u, flags := (match r.2 with | some (_, l) => 2 + 4 * b2n l | none => 0),
    sampleNo := (match r.2 with | some (k, _) => BitVec.ofNat 32 k | none => 0xFFFFFFFF#32) } (drawn s)

/-- Resets of a unit within 900 s (R696, R697). -/
def unitResets (s : State) (u : UnitRef) : Nat :=
  (s.fault.unitWin.filter fun x => x.2 = u && s.time < x.1 + 900000000).length

/-! ### The inventory record (R744, R745) -/

/-- The copy of the inventory record with the higher GEN that is valid (R746). -/
def inventory (s : State) : Inventory :=
  let a := s.boot.copies.getD 0 .init
  let b := s.boot.copies.getD 1 .init
  if !a.valid then b else if !b.valid then a else if b.gen > a.gen then b else a

/-- Bits as bytes, the first bit lowest. -/
def bitBytes (n : Nat) (p : Nat → Bool) : List Byte :=
  leBytes n (sumNat ((List.range (8 * n)).map fun i => if p i then 2 ^ i else 0))

/-- A map of the record as `n` bytes; an item past its end is excluded. -/
def mapBytes (xs : List Nat) (n : Nat) : List Byte := (List.range n).map fun i => BitVec.ofNat 8 (xs.getD i 0xFF)

/-- The inventory record (R744). -/
def inventoryBytes (serial : Word) (x : Inventory) : List Byte :=
  let b := leBytes 4 0x52564E49 ++ leBytes 4 1 ++ leBytes 8 x.gen ++ leBytes 4 serial.toNat ++ leBytes 4 0 ++
    mapBytes x.eng 36 ++ mapBytes x.sh 72 ++ mapBytes x.sampler 5 ++ mapBytes x.video 5 ++ mapBytes x.walker 3 ++
    List.replicate 3 0 ++ mapBytes x.pc 256 ++ bitBytes 4 (x.lcRetired.contains ·) ++
    bitBytes 16 (x.flatsRetired.contains ·) ++ leBytes 4 x.lastFullH ++
    ((List.range 8).map fun m => BitVec.ofInt 8 (x.trainTemp.getD m 0)) ++ List.replicate 72 0
  b ++ leBytes 4 (crc32c b)

/-- The fuse yield map: a good bit for each item, in the order in which the manual lists the items
(notes/assumptions/41.md). -/
def fuseBytes (s : State) : List Byte :=
  let ok (k : UnitKind) (c u : Nat) : Bool := !s.boot.fuseBad.contains ⟨k, c, u⟩
  bitBytes 64 fun i =>
    if i < 36 then ok .engine (i / 9) (i % 9)
    else if i < 108 then ok .stagehand ((i - 36) / 18) ((i - 36) % 18)
    else if i < 113 then !s.boot.fuseBad.contains (samplerRef (i - 108))
    else if i < 118 then ok .video 0 (i - 113)
    else if i < 121 then ok .walker 0 (i - 118)
    else if i < 377 then !s.boot.fuseBadPc.contains (i - 121)
    else if i < 505 then !s.boot.fuseBadFlat.contains (i - 377)
    else i < 510 && ok .port 0 (i - 505)

/-- Measurement 8 (R597): the fuse yield map and the inventory record. -/
def measureUnits (s : State) : State :=
  measure 8 (Config.sha384 (fuseBytes s ++ inventoryBytes s.boot.serial (inventory s))) s

/-- Writes a change of the record into the copy with the lower GEN (R745). -/
def persist (f : Inventory → Inventory) (s : State) : State :=
  let a := s.boot.copies.getD 0 .init
  let b := s.boot.copies.getD 1 .init
  let x := { f (inventory s) with valid := true, gen := max a.gen b.gen + 1 }
  measureUnits { s with boot := { s.boot with copies := if a.gen ≤ b.gen then [x, b] else [a, x] } }

/-- Sets one map byte of a unit. -/
def mapByte (u : UnitRef) (v : Nat) (x : Inventory) : Inventory :=
  match u.kind with
  | .engine => { x with eng := x.eng.set (9 * u.cluster + u.slot) v }
  | .stagehand => { x with sh := x.sh.set (18 * u.cluster + u.slot) v }
  | .sampler => { x with sampler := x.sampler.set (samplerNo u) v }
  | .video => { x with video := x.video.set u.slot v }
  | .walker => { x with walker := x.walker.set u.slot v }
  | _ => x

/-- The logical number or role that a unit serves. -/
def unitRole (s : State) (u : UnitRef) : Option Nat :=
  match u.kind with
  | .engine => (engOf s (9 * u.cluster + u.slot)).serv.role
  | .stagehand => (shOf s (18 * u.cluster + u.slot)).serv.role
  | .sampler => (List.range 4).find? fun c => (tabGet Sampler.init s.serve.samplers c).phys = some (samplerNo u)
  | _ => none

/-- Whether a unit is a spare that may be fitted (R753). -/
def spareGood (x : UnitServ) : Bool := x.spare && !x.retired && !x.inReset

/-- Whether the shared spare Sampler is free: good, serving no cluster, and not being fitted to one (R16). -/
def spareSampler (s : State) : Bool :=
  (inventory s).sampler.getD 4 0xFF = 0xFE && !s.serve.samplersOut.contains 4 && !s.boot.fitting.any (fun f => f.unit = samplerRef 4) &&
    s.serve.samplers.all fun q => q.2.phys ≠ some 4

/-- Whether a unit has failed a slice that has not run again (R733). -/
def unitDoubted (s : State) (u : UnitRef) : Bool := s.bist.recheck.any fun q => q.1.unit = u

/-- The lowest-numbered spare that can take the place of a unit, and has failed no test: of its cluster, or the shared spare
Sampler (R753, R756). -/
def spareFor (s : State) (u : UnitRef) : Option UnitRef :=
  match u.kind with
  | .engine => ((List.range 9).map fun k => (⟨.engine, u.cluster, k⟩ : UnitRef)).find? fun v =>
      spareGood (engOf s (9 * v.cluster + v.slot)).serv && !unitDoubted s v
  | .stagehand => ((List.range 18).map fun k => (⟨.stagehand, u.cluster, k⟩ : UnitRef)).find? fun v =>
      spareGood (shOf s (18 * v.cluster + v.slot)).serv && !unitDoubted s v
  | .sampler => if spareSampler s && !unitDoubted s (samplerRef 4) then some (samplerRef 4) else none
  | _ => none

/-- Marks a unit as out of service for good. One that served a logical number bars the confirmation of a trial (R803). -/
def markRetired (u : UnitRef) (s : State) : State :=
  let served := (unitRole s u).isSome
  let out (x : UnitServ) : UnitServ := { x with role := none, spare := false, retired := true, inReset := false }
  let s := match u.kind with
    | .engine => modEng (9 * u.cluster + u.slot) (fun x => { x with serv := out x.serv }) s
    | .stagehand => modSh (18 * u.cluster + u.slot) (fun x => { x with serv := out x.serv }) s
    | .sampler =>
      let p := samplerNo u
      { s with serve := { s.serve with
          samplersOut := p :: s.serve.samplersOut
          samplers := tabMap Sampler.init (fun _ q => if q.phys = some p then { q with phys := none, inReset := false } else q)
            s.serve.samplers } }
    | _ => s
  { persist (mapByte u 0xFF) s with
    pair := { s.pair with mapChanged := true }
    upd := { s.upd with trialBlocked := s.upd.trialBlocked || served } }

/-- A spare takes the place of a retired unit: it is taken off the spares and runs the known-answer run (R753). With no
spare, the logical number is a hole, and the entries queued for it are voided (R696, R754). -/
def fitSpare (u : UnitRef) (role : Nat) (s : State) : State :=
  match spareFor s u with
  | some v =>
    let off (x : UnitServ) : UnitServ := { x with spare := false }
    let s := match v.kind with
      | .engine => modEng (9 * v.cluster + v.slot) (fun x => { x with serv := off x.serv }) s
      | .stagehand => modSh (18 * v.cluster + v.slot) (fun x => { x with serv := off x.serv }) s
      | _ => s
    { s with boot := { s.boot with fitting := s.boot.fitting ++ [⟨v, role, false⟩] } }
  | none => if u.kind = .engine then voidWhere (fun _ e => eKind e ≠ 4 && eTarget e = role) s else s

/-- A slot is retired (R696): its logical number takes a spare, or becomes a hole. -/
def retireUnit (u : UnitRef) (s : State) : State :=
  let role := unitRole s u
  let s := markRetired u s
  match role with
  | some r => fitSpare u r s
  | none => s

/-! ### Cluster resets -/

/-- The engines, Stagehands and Sampler of a cluster. -/
def clusterUnits (c : Nat) : List UnitRef :=
  (List.range 9).map (fun k => (⟨.engine, c, k⟩ : UnitRef)) ++ (List.range 18).map fun k => (⟨.stagehand, c, k⟩ : UnitRef)

/-- Whether a slot holds a unit that has not been retired. -/
def unitFitted (s : State) (u : UnitRef) : Bool :=
  match u.kind with
  | .engine => let x := (engOf s (9 * u.cluster + u.slot)).serv; x.role.isSome || x.spare
  | .stagehand => let x := (shOf s (18 * u.cluster + u.slot)).serv; x.role.isSome || x.spare
  | _ => true

/-- A cluster reset (R686, R688, R692): a FABRIC record, the units' samples with a record each, every unit cleared, and
a RESET record. The cluster's translation cache is emptied; its Cue Lights stay as they are. -/
def clusterReset (c : Nat) (s : State) : State :=
  let cause := (freeVal 7 s).toNat % 256
  let s := logEvent { evBase s 13 cause 3 with unit := 0xF000 + 256 * c + 0xFF } (drawn s)
  let s := (clusterUnits c).foldl (fun t u =>
    if !unitFitted t u then t
    else
      let ctx := unitCtx t u
      let origin := unitOrigin t u
      let r := takeSample u t
      let t := clearUnit u r.1
      match r.2 with
      | some (k, l) => logEvent { evBase t 9 cause 3 with
          ctx := ctx, origin := origin, unit := unitCode u, flags := 2 + 4 * b2n l, sampleNo := BitVec.ofNat 32 k } t
      | none => t) s
  let s := (List.range 5).foldl (fun t p =>
    if (tabGet Sampler.init t.serve.samplers c).phys = some p then clearUnit (samplerRef p) t else t) s
  let s := bump 0xD0044 { s with fault := { s.fault with
    clReset := if s.fault.clReset.contains c then s.fault.clReset else s.fault.clReset ++ [c]
    clusterWin := s.fault.clusterWin ++ [(s.time, c)] }, mem := { s.mem with tc := tabFilter (fun k _ => k / 512 ≠ c) s.mem.tc } }
  logEvent { evBase s 9 cause 3 with unit := 0xF000 + 256 * c + 0xFF } s

/-- Resets of a cluster within 900 s. -/
def clusterResets (s : State) (c : Nat) : Nat :=
  (s.fault.clusterWin.filter fun x => x.2 = c && s.time < x.1 + 900000000).length

/-- A cluster is fenced until the next device reset (R696): its logical units become holes. -/
def fenceCluster (c : Nat) (s : State) : State :=
  let hole (x : UnitServ) : UnitServ := { x with role := none, spare := false, inReset := false }
  let les := (List.range 9).filterMap fun k => (engOf s (9 * c + k)).serv.role
  let s := (List.range 9).foldl (fun t k => modEng (9 * c + k) (fun x => { x with serv := hole x.serv }) t) s
  let s := (List.range 18).foldl (fun t k => modSh (18 * c + k) (fun x => { x with serv := hole x.serv }) t) s
  let spare := spareSampler s
  let q := tabGet Sampler.init s.serve.samplers c
  let s := { s with
    fault := { s.fault with clReset := s.fault.clReset.filter (· ≠ c), clOut := s.fault.clOut ++ [c] }
    serve := { s.serve with
      samplers := tabSet Sampler.init s.serve.samplers c { q with phys := none, inReset := false } }
    boot := if spare then { s.boot with fitting := s.boot.fitting ++ [⟨samplerRef 4, c, false⟩] } else s.boot }
  voidWhere (fun _ e => eKind e ≠ 4 && les.contains (eTarget e)) s

end Sys2Proof.Machine
end

