-- ==== Sys2Proof/Machine/PairOps.lean ====
section
/-! DEFINITION. Operations of a pair (R631 to R663): link messages, stand-down, failover and digests. -/

namespace Sys2Proof.Machine

open Sys2Proof

def pairCode : PairMode → Nat
  | .solo => 0 | .lead => 1 | .understudy => 2 | .resync => 3 | .rehearsal => 4 | .stoodDown => 5

/-- Stands the module down (R652): a PAIR record with the reason, the status, and the divergent Beat. -/
def standDown (reason : Nat) (status : Status) (beat : DWord) (s : State) : State :=
  let s := { s with
    pair := { s.pair with mode := .stoodDown, reason := reason, status := status,
                          diverge := if reason = 2 || reason = 1 then beat else s.pair.diverge,
                          drCount := 0, resync := .off, selfOwn := .none, selfPartner := none, serving := false,
                          verdicts := [], inputs := [], held := [], order := none }
    curtain := { s.curtain with rehearsal := false } }
  logEvent { evBase s 10 reason 8 with status := status, addr := beat } s

/-- The pairing edge's number: the higher of the two Beat numbers plus 2 (R653). -/
def pairingNum (s : State) : DWord := BitVec.ofNat 64 (max s.beat.num.toNat s.pair.partnerBeat.toNat + 2)

/-- The logical engines and Stagehands in service, as bit maps. -/
def leMap (s : State) : Word :=
  BitVec.ofNat 32 (sumNat ((List.range 32).map fun l => if (engSlot s l).isSome then 2 ^ l else 0))
def lsMap (s : State) : DWord :=
  BitVec.ofNat 64 (sumNat ((List.range 64).map fun l => if (shSlot s l).isSome then 2 ^ l else 0))

/-- Measurements 2 to 6, in index order: the bytes over which PARTS is taken (R660). -/
def measBytes (s : State) : List Byte := [2, 3, 4, 5, 6].flatMap fun i => leBytes 48 (tabGet 0 s.sec.meas i).toNat

/-- A variant record as its 64 bytes, for the partition log and WEIGHTS. -/
def variantBytes (r : VariantRec) : List Byte :=
  let h := leBytes 4 r.magic.toNat ++ leBytes 2 r.npriv.toNat ++ [r.routeK, 0] ++ leBytes 4 r.vocab.toNat ++
    leBytes 4 r.kvTokenBytes.toNat ++ leBytes 8 r.baseId.toNat ++ leBytes 8 r.expertTbl.toNat ++ leBytes 8 r.draftProg.toNat ++
    leBytes 8 r.prefillProg.toNat ++ leBytes 8 r.decodeProg.toNat ++ leBytes 4 r.maxCtx.toNat
  h ++ leBytes 4 (crc32c h)

/-- The bytes over which WEIGHTS is taken (R661): the base models, then the resident variants by partition and number. -/
def weightBytes (s : State) : List Byte :=
  Config.baseIds.flatMap (fun b => leBytes 8 b.toNat) ++ (List.range 8).flatMap fun p => s.serve.variants.flatMap fun e =>
    match e.2 with
    | some v => if v.part = p then
        [BitVec.ofNat 8 p, BitVec.ofNat 8 e.1] ++ leBytes 48 (Config.sha384 (variantBytes v.desc)).toNat ++ leBytes 4 v.pubs ++
          leBytes 48 (Config.sha384 v.lastPub).toNat
      else []
    | none => []

/-- The bundle slot whose parts serve: while a live roll goes on, the old parts until the edge of b + 5 (R808). -/
def servingSlot (s : State) : Nat :=
  match s.upd.live with
  | some l => if l.step < 6 && (l.back || l.step > 0) then otherSlot s else s.upd.running
  | none => s.upd.running

/-- The serving bundle's version bytes and settings schema. -/
def bundleWord (s : State) : Word :=
  let b := s.upd.slots.getD (servingSlot s) .init
  let v (i : Nat) : Nat := (b.version.getD i 0).toNat
  BitVec.ofNat 32 (v 0 * 2 ^ 24 + v 1 * 2 ^ 16 + v 2 * 2 ^ 8 + s.upd.schema.toNat)

/-- Whether a settings entry belongs to the local section (R799). -/
def localEntry (a : Nat) : Bool := a ≥ 0x80000000 || [0x10000, 0x10020, 0x10024, 0xB0034, 0xB0038].contains a

/-- The shared section of the settings record in use (R799). -/
def sharedSettings (s : State) : List (Nat × Word) := s.upd.settings.filter fun e => !localEntry e.1

/-- Settings entries as bytes, and bytes 0 to 7 of the record in use: MAGIC and SCHEMA (R798). -/
def settingBytes (xs : List (Nat × Word)) : List Byte := xs.flatMap fun e => leBytes 4 e.1 ++ leBytes 4 e.2.toNat
def settingsHead (s : State) : List Byte := leBytes 4 0x53544553 ++ leBytes 4 s.upd.schema.toNat

/-- The settings record in use (R798). -/
def settingsRecord (s : State) : List Byte :=
  let locals := s.upd.settings.filter fun e => localEntry e.1
  settingsHead s ++ leBytes 4 (sharedSettings s).length ++ leBytes 4 locals.length ++ List.replicate 48 0 ++
    settingBytes (sharedSettings s) ++ settingBytes locals

/-- The module's own configuration record (R660, R799). -/
def ownConfig (s : State) : ConfigRec :=
  { bundle := bundleWord s
    parts := Config.sha384 (measBytes s)
    settings := Config.sha384 (settingsHead s ++ settingBytes (sharedSettings s))
    weights := Config.sha384 (weightBytes s)
    leMap := leMap s, lsMap := lsMap s
    samplers := BitVec.ofNat 8 (sumNat ((List.range 4).map fun c =>
      if (tabGet Sampler.init s.serve.samplers c).phys.isSome then 2 ^ c else 0))
    walkers := BitVec.ofNat 8 s.serve.walkers
    videos := BitVec.ofNat 8 ((List.range 5).filter fun k =>
      let v := tabGet VEngine.init s.video.engines k; v.inService && !v.failed).length
    ports := BitVec.ofNat 8 (sumNat ((List.range 4).map fun r => if roleServed s r then 2 ^ r else 0))
    lcRetired := BitVec.ofNat 32 (sumNat (s.hbm.lcRetired.eraseDups.map fun l => 2 ^ l)) }

/-- Whether two configuration records agree (R662): a difference in UNIT_MAP is tolerated, and one in BUNDLE or PARTS under ROLL. -/
def configAgrees (roll : Bool) (a b : ConfigRec) : Bool :=
  a.settings = b.settings && a.weights = b.weights && (roll || (a.bundle = b.bundle && a.parts = b.parts))

/-- Whether the UNIT_MAP components differ. -/
def mapDiffers (a b : ConfigRec) : Bool :=
  !(a.leMap = b.leMap && a.lsMap = b.lsMap && a.samplers = b.samplers && a.walkers = b.walkers && a.videos = b.videos &&
    a.ports = b.ports && a.lcRetired = b.lcRetired)

def rollSet (s : State) : Bool := regF s 0xC0000 1 1 = 1

/-- Whether the partner enables the same partitions with the same tenant bindings. -/
def sameBindings (s : State) (f : JoinFacts) : Bool :=
  (List.range 8).all fun n =>
    (f.bindings.find? fun b => b.1 = n).map Prod.snd = if partEnabled s n then tabGet none s.sec.bindings n else none

/-- Whether this module takes its edges from the partner under R41, through BEAT_IN, or from the partner's PTP domain. -/
def sameEdges (s : State) (f : JoinFacts) : Bool :=
  regF s 0x10000 1 0 = 1 || (regF s 0x10000 1 0 = 2 && f.ptpDomain = some (regF s 0x10024 7 0))

/-- R633: the first condition that does not hold, the keys before the others, by its status. What the partner has told of itself has come
with its CONFIG, and a partner that has told nothing meets no condition (notes/assumptions/61.md). -/
def joinCheck (s : State) : Option Status :=
  match s.pair.partnerCfg, s.pair.partnerFacts with
  | some c, some f =>
    if !s.sec.house || !f.house || !f.keys.all (keyHeld s) then some 0x0B
    else if !configAgrees (rollSet s) c (ownConfig s) || !sameBindings s f || freezeLead s < 250 || f.lead < 250 || !sameEdges s f
    then some 0x81 else none
  | _, _ => some (if s.sec.house then 0x81 else 0x0B)

/-- A module that stood down enters RESYNC again by itself, while the conditions of R633 hold (R651). A rehearsal is part of a
resynchronisation, which starts again at the bulk copy (R655, R658). -/
def autoResync (rehearsal : Bool) (s : State) : State :=
  if regF s 0xC0000 0 0 = 0 then s
  else match joinCheck s with
    | some _ => s
    | none => { s with pair := { s.pair with
        mode := .resync, resync := if rehearsal then .rounds 0 else .pairing false (pairingNum s), drCount := 0, rejoin := false } }

/-- A lag (R641): counted, stood down, and RESYNC. In REHEARSAL it clears PAIR_DR_COUNT (R658). -/
def pairLag (s : State) : State := autoResync (s.pair.mode = .rehearsal) (standDown 3 0 s.beat.num (bump 0xC004C s))

/-- A module that stood down for a lag or a late order, or is to join again once it is ready, tries at every edge until the conditions
hold (R651, R777). -/
def rejoinEdge (s : State) : State :=
  if (s.pair.mode = .stoodDown && (s.pair.reason = 3 || s.pair.reason = 4)) || (s.pair.rejoin && s.boot.ready && s.pair.mode = .solo)
  then autoResync false s else s

/-- The bytes of a configuration record (R660): MAJOR stands in byte 8, and the settings schema in byte 11. -/
def configBytes (r : ConfigRec) : List Byte :=
  leBytes 4 0x47494643 ++ leBytes 4 1 ++ (leBytes 4 r.bundle.toNat).reverse ++ leBytes 4 0 ++ leBytes 48 r.parts.toNat ++
    leBytes 48 r.settings.toNat ++ leBytes 48 r.weights.toNat ++ leBytes 4 r.leMap.toNat ++ leBytes 8 r.lsMap.toNat ++
    [r.samplers, r.walkers, r.videos, r.ports] ++ leBytes 4 r.lcRetired.toNat ++ List.replicate 76 0

/-- The configuration digest (R662). -/
def configDigest (s : State) : Digest := Config.sha384 (configBytes (ownConfig s))

/-- The coefficients in their order, as a CONFIG carries them when COEF_GEN has changed (R642). -/
def coefFields (s : State) : List Nat := (List.range 68).map fun k => tabGet 0 s.energy.coef k

/-- Sends the configuration record (R635, R662), and with it the coefficients when they have changed. -/
def sendConfig (coefs : Bool) (s : State) : State :=
  let b := configBytes (ownConfig s)
  sendHouse 3 b (sendPair 0xA 0xFF (b ++ if coefs then Config.linkBody 0xA (coefFields s) else []) s)

/-- Records in ascending order of JOB_ID, KIND, STREAM and SEQ (R646): an insertion sort. -/
def recordLe (a b : List Byte) : Bool :=
  let k (r : List Byte) : List Nat := [leAt r 0 8, leAt r 8 1, leAt r 9 1, leAt r 16 8]
  let rec le : List Nat → List Nat → Bool
    | x :: xs, y :: ys => x < y || (x = y && le xs ys)
    | _, _ => true
  le (k a) (k b)

def sortRecords : List (List Byte) → List (List Byte)
  | [] => []
  | r :: rs =>
    let rec ins (r : List Byte) : List (List Byte) → List (List Byte)
      | [] => [r]
      | x :: xs => if recordLe r x then r :: x :: xs else x :: ins r xs
    ins r (sortRecords rs)

/-- The records of the messages whose commit Beat is a given one. -/
def recordsOf (s : State) (beat : DWord) : List (List Byte) := (s.pair.records.filter fun r => r.1 = beat).map Prod.snd

/-- The output digest of a Beat (R646). -/
def outputDigest (s : State) (beat : DWord) : Digest := Config.sha384 ((sortRecords (recordsOf s beat)).flatMap id)

/-- CARRY, FLAGS and the other packed bytes of a request table entry (R394). -/
def requestBytes (i : Nat) (r : Request) : List Byte :=
  leBytes 8 r.jobId.toNat ++ leBytes 2 i ++ [BitVec.ofNat 8 (reqCode r.state), r.status] ++
    leBytes 1 (r.part + 16 * r.prio) ++ leBytes 1 r.age ++
    leBytes 1 (r.cuts + 16 * b2n r.retry + 32 * b2n r.promoted) ++
    leBytes 1 (b2n r.insert + 2 * b2n r.countFull + 4 * b2n r.spread.isSome + 8 * b2n r.pausePending) ++
    leBytes 1 r.variant ++ leBytes 1 r.ncand ++ leBytes 2 r.topK ++ leBytes 4 r.temp.toNat ++ leBytes 4 r.topP.toNat ++
    leBytes 4 r.pres.toNat ++ leBytes 4 r.freq.toNat ++ leBytes 4 r.rep.toNat ++ leBytes 2 r.window ++
    leBytes 2 r.failUnit.toNat ++ leBytes 4 r.len ++ leBytes 4 r.logLen ++ leBytes 4 r.maxNew ++ leBytes 4 r.emitted ++
    leBytes 4 r.pending.toNat ++ leBytes 8 r.seed.toNat ++ leBytes 4 r.outSeq ++ leBytes 4 r.prefixTokens ++
    leBytes 8 r.admitBeat.toNat ++ leBytes 8 r.lastBeat.toNat ++ (slice (r.stop.flatMap fun w => leBytes 4 w.toNat) 0 16) ++
    leBytes 4 r.distinct ++ leBytes 4 (r.lastNode.getD 0xFFFFFFFF) ++ leBytes 8 0

/-- Commit records in ascending request index, then partition and step (R647): an insertion sort. -/
def sortCommits : List CommitRec → List CommitRec
  | [] => []
  | r :: rs =>
    let before (a b : CommitRec) : Bool :=
      a.req < b.req || (a.req = b.req && (a.part < b.part || (a.part = b.part && a.stepId ≤ b.stepId)))
    let rec ins (r : CommitRec) : List CommitRec → List CommitRec
      | [] => [r]
      | x :: xs => if before r x then r :: x :: xs else x :: ins r xs
    ins r (sortCommits rs)

/-- The state digest of a Beat (R647; the bytes of a commit record are the model's, notes/assumptions/87.md). -/
def stateDigest (s : State) (beat : DWord) : Digest :=
  let reqs := s.serve.reqs.flatMap fun e => match e.2 with
    | some r => if r.state.live then requestBytes e.1 { r with failUnit := 0 } else []
    | none => []
  let recs := (sortCommits (s.serve.records.filter fun r => r.beat = beat)).flatMap fun r =>
    leBytes 2 r.req ++ leBytes 1 r.part ++ leBytes 2 r.stepId ++ leBytes 8 r.beat.toNat
  let trees := (List.range 8).flatMap fun p =>
    leBytes 4 (s.serve.nodes.filter fun e => e.1 / 2 ^ 22 = p).length
  Config.sha384 (leBytes 8 beat.toNat ++ reqs ++ recs ++ trees)

/-- A Beat's digests as they stand. -/
def digestsOf (s : State) (beat : DWord) : BeatDigests := ⟨beat, outputDigest s beat, stateDigest s beat⟩

/-- The digests of the Beat that ends are taken at its edge (R648). Its records stay for one Beat more: a step may still commit under
it (R640). -/
def closeDigest (s : State) : State :=
  let n := s.beat.num
  { s with pair := { s.pair with
      own := digestsOf s n :: s.pair.own.take 7, endCount := (recordsOf s n).length
      records := s.pair.records.filter fun r => r.1 = n
      slackEnd := s.pair.slackRun, slackRun := 0xFFFFFFFF } }

/-- A commit under a Beat that has ended enters the digests of that Beat (R640, R646; notes/assumptions/87.md). -/
def lateDigest (beat : DWord) (s : State) : State :=
  if s.pair.own.head?.map BeatDigests.beat = some beat then
    { s with pair := { s.pair with own := digestsOf s beat :: s.pair.own.drop 1, endCount := (recordsOf s beat).length } }
  else s

end Sys2Proof.Machine
end

