-- ==== Sys2Proof/Machine/Spread.lean ====
section
/-! DEFINITION. Head-spread sets (R370 to R377): the members, what they send one another, and what they keep. -/

namespace Sys2Proof.Machine

open Sys2Proof

/-- The registered set of a request. -/
def spreadOf (s : State) (r : Request) : Option SpreadSet := match r.spread with | some k => tabGet none s.serve.sets k | none => none

/-- The ranks of the other members. -/
def otherRanks (x : SpreadRec) : List Nat := (List.range x.nmod.toNat).filter (· ≠ x.rank.toNat)

/-- The RoCE queue pair of a member (R370). -/
def rankQp (x : SpreadRec) (k : Nat) : Nat := (x.qps.getD k 0#32).toNat

/-- The KV groups of a layer that a member holds (R371). -/
def rankGroups (x : SpreadRec) (k : Nat) : List Nat :=
  let n := x.ngroup.toNat / x.nmod.toNat
  (List.range n).map (k * n + ·)

/-! ### Messages (R372, R575) -/

/-- The 16-byte prefix of a COLLECTIVE or ABORT (R575). -/
structure SpreadPrefix where
  setId : Word
  req : Nat
  layer : Nat
  step : Nat
  rank : Nat

def spreadPrefix (bs : List Byte) : SpreadPrefix :=
  ⟨BitVec.ofNat 32 (leAt bs 0 4), leAt bs 4 2, leAt bs 6 2, leAt bs 8 4, leAt bs 12 1⟩

/-- The bytes of a prefix. -/
def prefixBytes (p : SpreadPrefix) : List Byte :=
  leBytes 4 p.setId.toNat ++ leBytes 2 p.req ++ leBytes 2 p.layer ++ leBytes 4 p.step ++ leBytes 1 p.rank ++ leBytes 3 0

/-- SEQ of a member's message: step << 32 | layer << 8 | rank, where an ABORT puts 0xFFFF for its layer (R575). -/
def memberSeq (step layer rank : Nat) : DWord := BitVec.ofNat 64 (step * 2 ^ 32 + layer % 65536 * 256 + rank % 256)

/-- Hands a message to the queue pair of another member, which sends it when it can (R572, R573). -/
def sendMember (x : SpreadRec) (k kind : Nat) (job seq : DWord) (plain : List Byte) (s : State) : State :=
  drainRoce (rankQp x k) 257 (queueRoce (rankQp x k) (.member kind job seq plain) (emit (.member (rankQp x k) kind seq plain) s))

/-- Hands a message to every other member. -/
def toMembers (x : SpreadRec) (kind : Nat) (job seq : DWord) (plain : List Byte) (s : State) : State :=
  (otherRanks x).foldl (fun t k => sendMember x k kind job seq plain t) s

/-- The plaintext of the ABORT of a request's step (R378, R575). -/
def abortPlain (x : SpreadRec) (req step : Nat) : List Byte := prefixBytes ⟨x.setId, req, 0, step, x.rank.toNat⟩

/-- The plaintext of a contribution (R372, R575). -/
def contribPlain (x : SpreadRec) (req : Nat) (c : Contribution) : List Byte :=
  prefixBytes ⟨x.setId, req, c.layer, c.step, c.rank⟩ ++ c.bytes

/-! ### What a member keeps (R373, R376) -/

/-- Contributions in ascending order of step, layer and rank (R373). -/
def insertContrib (c : Contribution) : List Contribution → List Contribution
  | [] => [c]
  | d :: ds =>
    if c.step < d.step || (c.step = d.step && (c.layer < d.layer || (c.layer = d.layer && c.rank < d.rank))) then c :: d :: ds
    else d :: insertContrib c ds

/-- Whether every other member has sent a contribution for a later step. -/
def allLater (x : SpreadRec) (r : Request) (step : Nat) : Bool :=
  (otherRanks x).all fun k => r.contribIn.any fun c => c.rank = k && step < c.step

/-- What a member keeps of the contributions it sent (R376): those of its current step, and those of its last committed step until each
other member has sent one for a later step. -/
def keepSent (x : SpreadRec) (r : Request) : Request :=
  { r with contribOut := r.contribOut.filter fun c => r.stepNo ≤ c.step || (c.step + 1 = r.stepNo && !allLater x r c.step) }

/-- The head outputs of a layer, in ascending order of rank, once every member's contribution to it is there (R373). -/
def gather (x : SpreadRec) (r : Request) (layer : Nat) : Request :=
  let cs := r.contribIn.filter fun c => c.step = r.stepNo && c.layer = layer
  if (List.range x.nmod.toNat).all (fun k => cs.any fun c => c.rank = k) && !r.gathered.any (fun g => g.1 = layer) then
    { r with gathered := r.gathered ++ [(layer, cs.flatMap Contribution.bytes)] }
  else r

/-- A contribution is kept; it may complete a layer, and may be what a member waits for (R372, R373, R376). -/
def takeContrib (x : SpreadRec) (c : Contribution) (r : Request) : Request :=
  keepSent x (gather x { r with contribIn := insertContrib c r.contribIn } c.layer)

/-- A step commits: what belongs to it goes, but what the member sent (R376). -/
def nextContribs (x : Option SpreadSet) (r : Request) : Request :=
  let r := { r with stepNo := r.stepNo + 1, spreadEdges := none, gathered := [], contribIn := r.contribIn.filter fun c => c.step > r.stepNo }
  match x with
  | some x => keepSent x.desc r
  | none => r

/-- The contribution of this member to a layer of the request's current step is sent to every other member, and kept (R372, R376). One
that a cut attempt has sent already is not sent again: its bits are the same. -/
def contribute (x : SpreadRec) (req layer : Nat) (bytes : List Byte) (s : State) : State :=
  match reqOf s req with
  | none => s
  | some r =>
    let c : Contribution := ⟨r.stepNo, layer, x.rank.toNat, bytes⟩
    if r.contribOut.any fun d => d.step = c.step && d.layer = layer then s
    else
      let s := setReq req (some (takeContrib x c { r with contribOut := r.contribOut ++ [c] })) s
      toMembers x 0x21 r.jobId (memberSeq c.step layer c.rank) (contribPlain x req c) s

/-- The requests of a step that is under way. -/
def stepReqs (s : State) (part stepId : Nat) : List Nat :=
  match s.serve.groups.find? fun g => g.status = .active && g.plan.part = part && g.plan.stepId.toNat = stepId with
  | some g => g.plan.reqs
  | none => []

/-- The contributions that an entry's retirement sends (R372). The manual does not say which unit forms a contribution, nor how many bytes
it has: whether the entry ends a layer, which layer, and the head outputs are free values (notes/assumptions/104.md). -/
def entryContribs (reqs : List Nat) (s : State) : State :=
  reqs.foldl (fun t i => match reqOf t i with
    | none => t
    | some r => match spreadOf t r with
      | none => t
      | some x =>
        let w := freeVal 44 t
        let bytes := (List.range (fld w 31 16)).map fun j => (Config.freeValue 45 (t.free * 65536 + j)).truncate 8
        if bitAt w 32 then contribute x.desc i (fld w 15 0) bytes (drawn t) else drawn t) s

end Sys2Proof.Machine
end

