-- ==== Sys2Proof/Machine/StepOps.lean ====
section
/-! DEFINITION. The commit of a step (R28, R29, R331, R364 to R366, R438 to R442, R464, R527, R576). -/

namespace Sys2Proof.Machine

open Sys2Proof

/-- The Sampler jobs of a step that are still held. -/
def stepJobs (s : State) (part stepId : Nat) : List QJob :=
  s.serve.samplers.flatMap fun q => q.2.queue.filter fun j => j.job.part = part && j.job.stepId.toNat = stepId

/-- The entries of a step in the running Beat. -/
def stepEntries (s : State) (part stepId : Nat) : List Nat :=
  ((runEntries s).filter fun q => eKind q.2 ≠ 4 && eKind q.2 ≠ 1 && ePart q.2 = part && eStep q.2 = stepId).map Prod.fst

/-- R438: whether every entry of a group has retired and every Sampler job has completed. A group of an ended Beat is
one whose last entry completed before the edge (R75). -/
def groupComplete (s : State) (g : Group) : Bool :=
  let step := g.plan.stepId.toNat
  g.status = .active && g.draining = 0 &&
    (g.beat ≠ s.beat.num ||
      ((stepEntries s g.plan.part step).all (fun i => statusAt s i = .retired) && !stepActive s g.plan.part step)) &&
    (stepJobs s g.plan.part step).all fun j => j.phase = .complete

/-- The group that a step's command names, of whichever Beat. -/
def findGroup (s : State) (part stepId : Nat) : Option Group :=
  s.serve.groups.find? fun g => g.plan.part = part && g.plan.stepId.toNat = stepId

/-- The rows and the result words of a step's jobs, as they lie in memory. -/
def stepRows (m : MemCtx) (jobs : List QJob) (s : State) : State × List (DWord × DWord) × Bool :=
  jobs.foldl (fun acc j =>
    let a := dvRead m j.job.rowmap (8 * j.job.nrows) acc.1
    let b := dvRead m j.job.outAddr (8 * j.job.nrows) a.st
    let word (bs : List Byte) (k : Nat) : DWord := BitVec.ofNat 64 (leAt bs (8 * k) 8)
    let bad := a.poisoned || b.poisoned || a.fault.isSome || b.fault.isSome
    (b.st, acc.2.1 ++ (List.range j.job.nrows).map (fun k => (word a.bytes k, word b.bytes k)), acc.2.2 || bad)) (s, [], false)

/-- What the rows say of one request: the drawn tokens in row order (R364), and whether a row failed (R436). -/
def rowsOf (rows : List (DWord × DWord)) (req : Nat) : List Word × Bool :=
  let mine := rows.filter fun r => fld r.1 15 0 = req
  (mine.filterMap fun r => if bitAt r.2 32 then some (r.2.truncate 32) else none, mine.any fun r => bitAt r.2 34)

/-- Step 2 of R439: the tokens that are emitted, and whether a stop token ended them. -/
def emission (r : Request) (ys : List Word) : List Word × Bool :=
  let ys := ys.take (r.maxNew - r.emitted)
  let stops (t : Word) : Bool := t ≠ 0xFFFFFFFF#32 && r.stop.contains t
  match ys.findIdx? stops with
  | some k => (ys.take (k + 1), true)
  | none => (ys, false)

/-- The variant of a request, when it is resident. -/
def variantOf (s : State) (r : Request) : Option Variant := tabGet none s.serve.variants r.variant

/-- Whether a variant allows prefix sharing (R402). Whether its KV is token-major is a free value of the variant
(notes/assumptions/27.md). -/
def prefixShared (s : State) (v : Nat) : Bool :=
  match tabGet none s.serve.variants v with
  | some x => x.desc.kvTokenBytes.toNat % 1024 = 0 && (Config.freeValue 12 v).getLsbD 0
  | none => false

/-- The status that a commit gives a request while it lives (R527): ST_STALE_STREAM in a Beat whose record for its group
has OMIT set. -/
def commitStatus (s : State) (i : Nat) : Status :=
  if s.video.groups.any fun g => g.2.attached.contains i && g.2.omitNow then 2 else 0

/-- The plaintext of a RESULT (R576). -/
def resultPlain (req : Nat) (st : Status) (beat : DWord) (ys : List Word) : List Byte :=
  leBytes 2 req ++ [st, BitVec.ofNat 8 ys.length] ++ leBytes 4 0 ++ leBytes 8 beat.toNat ++ ys.flatMap fun t => leBytes 4 t.toNat

/-- Whether this module emits a request's results: only rank 0 of a head-spread set does (R374). -/
def emits (s : State) (r : Request) : Bool :=
  match r.spread with
  | none => true
  | some k => match tabGet none s.serve.sets k with | some x => x.desc.rank = 0 | none => true

/-- Forms a result and passes it on (R29, R439 step 6): it takes the job's next output sequence number. -/
def emitResult (i : Nat) (r : Request) (ys : List Word) (st : Status) (beat : DWord) (slot : Option Nat) (s : State) : State :=
  let seq := tabGet 0 s.serve.jobSeq r.jobId.toNat
  let plain := resultPlain i st beat ys
  let res : Result :=
    { id := s.curtain.nextId, part := r.part, job := r.jobId, req := i, outSeq := seq, ntok := ys.length, tokens := ys,
      status := st, beat := beat, slot := slot, route := r.route, kind := 0x12, stream := 0xFF, size := 48 + plain.length,
      bytes := plain, state := .queued, heldEdges := none }
  let s := { s with
    serve := { s.serve with jobSeq := tabSet 0 s.serve.jobSeq r.jobId.toNat (seq + 1) }
    curtain := { s.curtain with results := s.curtain.results ++ [res], nextId := s.curtain.nextId + 1 } }
  let s := modReq i (fun r => { r with outSeq := seq + 1 }) (addRecord beat r.jobId 0x12 0xFF seq plain s)
  let s := match slot with
    | some k => setSlot k { slotOf s k with outSeq := BitVec.ofNat 16 seq } s
    | none => s
  sendEvent r.route (.result res.id) s

/-- The chunks of 64 tokens that a commit completes (R404). -/
def newChunks (old new : Nat) : List Nat := (List.range (min (new / 64) 4096)).filter fun c => old / 64 ≤ c

/-- Steps 5 to 7 of R439 for one request. `n` is the number of KV tokens that the step wrote for it: a step that emits nothing adds the
tokens of the prompt that it wrote, and a decode step none (R366). -/
def commitOne (rows : List (DWord × DWord)) (beat : DWord) (i n : Nat) (s : State) : State :=
  match reqOf s i with
  | none => s
  | some r =>
    if !r.state.live then s
    else
      let res := rowsOf rows i
      let em := emission r res.1
      let ys := if res.2 then [] else em.1
      let t := logAppendAll r ys
      let len := if !ys.isEmpty then t.logLen - 1 else if r.state = .decode then r.len else r.len + n
      let maxCtx := match variantOf s r with | some v => v.desc.maxCtx.toNat | none => 2 ^ 32
      let emitted := r.emitted + ys.length
      let full := !ys.isEmpty && (emitted ≥ r.maxNew || len ≥ maxCtx)
      let st := commitStatus s i
      let final : Option (Bool × Status) :=
        if res.2 then some (false, 0x8E)
        else if em.2 then some (true, 0)
        else if full then some (true, 0x89)
        else match r.failAtEnd with
          | some f => some (false, f)
          | none => none
      let slots := slotsOf s i
      let t := nextContribs (spreadOf s r) t
      let s := setReq i (some { t with
        len := len, emitted := emitted, pending := (ys.getLast?).getD r.pending, lastBeat := beat, age := 0, cuts := 0, carry := none,
        retry := false, promoted := false, avoid := [], status := st,
        treeQ := if r.insert && prefixShared s r.variant then r.treeQ ++ newChunks r.len len else r.treeQ
        state := if (r.state = .admitted || r.state = .prefill) && !ys.isEmpty && len + 1 = t.logLen then .decode else r.state })
        (storeExt r.part r.ext r.logLen ys s)
      let shown : Status := match final with
        | some (true, f) => if f = 0 then st else f
        | some (false, f) => f
        | none => st
      let s := if ys.isEmpty || !emits s r then s else emitResult i r ys shown beat slots.head? s
      let s := slots.foldl (fun t k => slotTo k .done 0 t) s
      let s := match final with
        | some (d, f) => endRequest i d (if f = 0 then st else f) 0 s
        | none => s
      settlePause i s

/-- A committed step of a fine-tuning job adds to the training copy of its variant (R418). -/
def commitTrain (part : Nat) (s : State) : State :=
  match s.serve.train.find? fun j => j.part = part with
  | none => s
  | some j =>
    let n := tabGet 0 s.serve.trainCopy j.variant + 1
    { s with serve := { s.serve with
        trainCopy := tabSet 0 s.serve.trainCopy j.variant n
        train := if j.steps ≤ 1 then s.serve.train.erase j
          else s.serve.train.map fun x => if x = j then { x with steps := x.steps - 1 } else x } }

/-- The lowest of some request indices; 0xFFFF for none. -/
def lowestReq (xs : List Nat) : Nat := xs.foldl min 0xFFFF

/-- The commit of a group (R438, R439, R640): a Lead's verdict, the record, R331, and every request of the group. -/
def commitGroup (g : Group) (beat : DWord) (s : State) : State :=
  let part := g.plan.part
  let step := g.plan.stepId.toNat
  let m : MemCtx := { partMem part 5 true with stepId := step, ctx := packCtx step 0xFFFF 0xFFF 0xFF part }
  let r := stepRows m (stepJobs s part step) s
  if r.2.2 then resolveStep part step (stepBroken part step 0xFFFF none r.1)
  else
    let s := sendVerdict g true r.1
    let s := bump 0x90040 { s with serve := { s.serve with
      records := (⟨part, step, beat, lowestReq g.plan.reqs⟩ : CommitRec) :: s.serve.records.take 511 } }
    let s := dropStepJobs part step (journalCommit part step s)
    let s := { s with serve := { s.serve with groups := s.serve.groups.filter fun x => x ≠ g } }
    let s := if g.plan.train then commitTrain part s else s
    (g.plan.reqs.zipIdx).foldl (fun t p => commitOne r.2.1 beat p.1 (g.plan.ntok.getD p.2 0) t) s

/-- The commit of a group under the Beat of its verdict (R640). -/
def commitLate (g : Group) (beat : DWord) (s : State) : State := lateDigest beat (commitGroup g beat s)

/-- A completed step that a CANCEL prevents (R441): its writes are discarded, the cancelled requests end (R442), and
the others are planned again. -/
def discardStep (g : Group) (s : State) : State :=
  let part := g.plan.part
  let step := g.plan.stepId.toNat
  let s := dropGroup g (journalRollback part step s)
  g.plan.reqs.foldl (fun t i =>
    match reqOf t i with
    | some r =>
      if r.state.live && r.cancelled then endRequest i true 0x8A 0 t
      else settlePause i ((slotsOf t i).foldl (fun u k => slotTo k .planned 0x0E u) t)
    | none => t) s

/-- Whether a CANCEL accepted before the commit record prevents a step's commit (R441). -/
def stepCancelled (s : State) (g : Group) : Bool :=
  g.plan.reqs.any fun i => match reqOf s i with | some r => r.state.live && r.cancelled | none => false

end Sys2Proof.Machine
end

