-- ==== Sys2Proof/Machine/MboxOps.lean ====
section
/-! DEFINITION. Operations that the mailbox commands share (R384 to R390, R598, R610, R876, R883): checks, replies, reads of
partition memory, the partition log, the firmware window, and commands that owe their reply. -/

namespace Sys2Proof.Machine

open Sys2Proof

/-! ### Commands and replies -/

/-- A field of INLINE, by its header byte offset (R876). -/
def inl (c : Cmd) (off len : Nat) : Nat := leAt c.inline (off - 32) len

/-- Whether every INLINE byte outside the given fields is 0 (R876). -/
def inlineClear (c : Cmd) (used : List (Nat × Nat)) : Bool :=
  c.inline.length = 28 && (c.inline.zipIdx).all fun e =>
    e.1 = 0#8 || used.any fun u => u.1 ≤ e.2 + 32 && e.2 + 32 < u.1 + u.2

/-- The Beat from whose freeze a command takes effect (R385, R387); on an Understudy the one that the Lead's INPUT names
(R638). -/
def effectBeat (s : State) : DWord := s.pair.inputBeat.getD (s.beat.num + (if s.beat.halfPassed then 2 else 1))

/-- The reply to a command (R385). -/
def replyOf (c : Cmd) (st : Status) (detail : Nat) (result beat : DWord) : Reply :=
  { route := c.route, part := c.part, tag := c.tag, status := st, detail := detail, result := result, beat := beat,
    job := c.job, seq := c.seq, made := 0 }

/-- Answers a command. -/
def answer (c : Cmd) (st : Status) (detail : Nat) (result : DWord) (s : State) : State :=
  settle (sendReply (replyOf c st detail result (effectBeat s)) s)

/-- Answers a command that is refused. -/
def refuse (c : Cmd) (st : Status) (s : State) : State := answer c st 0 0 s

/-- The checks of R389, with the reserved INLINE bytes of R876, and the length of the arguments. -/
def cmdCheck (c : Cmd) (opcode argLen : Nat) (used : List (Nat × Nat)) : Option Status :=
  if c.opcode.toNat ≠ opcode || !c.crcOk || !c.resvOk || !inlineClear c used then some 0x80
  else if c.argLen.toNat ≠ argLen then some 0x81
  else none

/-- A command runs in the Stage Manager of a started main domain, on behalf of the partition that its transport
fixes. -/
def mailbox (c : Cmd) (s : State) (k : State) : Res :=
  need (c.part < 8) (.next (if s.beat.started then k else s))

/-! ### Reads of partition memory (R883) -/

/-- What a command's read of partition memory gives: its bytes, or the status and the detail of its refusal. -/
inductive MemRead where
  | bytes (bs : List Byte)
  | bad (st : Status) (detail : Nat)

/-- Reads partition memory for a command. -/
def readPart (part va n : Nat) (s : State) : State × MemRead :=
  let r := dvRead (partMem part 5 true) va n s
  match r.fault with
  | some f => (r.st, .bad 0x81 f.2)
  | none => (r.st, if r.poisoned then .bad 3 0 else .bytes r.bytes)

/-- 32-bit tokens. -/
def tokensOf (n : Nat) (bs : List Byte) : List Word := (List.range n).map fun i => BitVec.ofNat 32 (leAt bs (4 * i) 4)

/-- The 64-byte header of a command, as it was sent. -/
def cmdBytes (c : Cmd) : List Byte :=
  let h := leBytes 2 c.opcode.toNat ++ leBytes 2 0 ++ leBytes 4 c.tag.toNat ++ leBytes 4 c.argLen.toNat ++
    leBytes 4 c.part ++ leBytes 8 c.obj.toNat ++ leBytes 8 c.beat.toNat ++ c.inline
  h ++ leBytes 4 (crc32c h)

/-! ### The partition log (R598) -/

/-- Extends the log of a partition with an accepted object. -/
def extendLog (part kind : Nat) (obj : List Byte) (s : State) : State :=
  let old := leBytes 48 (tabGet 0 s.sec.meas (16 + part)).toNat
  let new := Config.sha384 (old ++ [BitVec.ofNat 8 kind] ++ leBytes 48 (Config.sha384 obj).toNat)
  { s with sec := { s.sec with
      meas := tabSet 0 s.sec.meas (16 + part) new
      measGen := s.sec.measGen + 1
      logGen := tabMod 0#32 s.sec.logGen part (· + 1) } }

/-! ### The firmware window (R125, R314, R360) -/

/-- Puts a page of bytes into firmware-held memory, mapped read-only into a partition's firmware window. -/
def holdPage (part va : Nat) (bs : List Byte) (s : State) : State :=
  match freeHold s with
  | none => s
  | some f => physWrite (65536 * f) bs (mapLeaf part va (ptLeaf true false false false 8 f 0xFFFF) (takeFrame f 8 1 false s))

/-- Puts an object into the firmware window of a partition. -/
def holdObject (part va : Nat) (bs : List Byte) (s : State) : State :=
  (List.range (cdiv bs.length 65536)).foldl (fun t k => holdPage part (va + 65536 * k) (slice bs (65536 * k) 65536) t) s

/-- Takes an object out of the firmware window. -/
def dropObject (part va n : Nat) (s : State) : State := unmapRange part va (va + n) s

/-- The device virtual address of a registered mask object. -/
def maskBase (i : Nat) : Nat := 0xF80000000000 + i * 0x10000000

/-- The index of the mask at an address. -/
def maskAt (a : Nat) : Option Nat :=
  if a < 0xF80000000000 || (a - 0xF80000000000) % 0x10000000 ≠ 0 then none else some ((a - 0xF80000000000) / 0x10000000)

/-! ### Commands that owe their reply (R130, R390, R415) -/

/-- The Running Orders that are frozen or being built. -/
def orders (s : State) : List Order := s.ro.running.toList ++ s.ro.frozen.toList ++ s.ro.published.toList

/-- Whether an image is in use: a Running Order refers to it, or a Walk-on of it is under way. -/
def imageUsed (s : State) (k : Nat) : Bool :=
  (orders s).any (fun o => o.entries.any fun e => eKind e ≠ 1 && eKind e ≠ 4 && eProg e = imageAddr k) ||
    s.board.slots.any fun q => q.2.reg.isSome && q.2.image = k &&
      (q.2.state = .pending || q.2.state = .running || q.2.state = .planned)

/-- Whether a step of a Running Order may read a mask of a partition: a program names its masks by address, so every
order that places an entry of the partition may. -/
def maskUsed (s : State) (part : Nat) : Bool :=
  (orders s).any fun o => o.entries.any fun e => eKind e ≠ 1 && eKind e ≠ 4 && ePart e = part

/-- Whether a variant is in use (R415). -/
def variantUsed (s : State) (v : Nat) : Bool :=
  !(liveWhere s fun r => r.variant = v).isEmpty ||
    (orders s).any (fun o => o.steps.any fun p => p.reqs.any fun i => match reqOf s i with | some r => r.variant = v | none => false) ||
    s.serve.train.any fun j => j.variant = v && (orders s).any fun o => o.steps.any fun p => p.train && p.part = j.part

/-- Ends the registration of a Walk-on slot: its reservation is free again. -/
def unregSlot (i : Nat) (s : State) : State :=
  let s := (tabGet [] s.mem.slotResv i).foldl (fun t f => freeFrame f t) s
  setSlot i { slotOf s i with reg := none, leaving := false, samplerTpl := none, argTpl := [], pages := 0 }
    { s with mem := { s.mem with slotResv := tabSet [] s.mem.slotResv i [] } }

/-- Unloads an image (R129, R130). A Walk-on slot whose program it is serves no more. -/
def dropImage (k : Nat) (s : State) : State :=
  match tabGet none s.serve.images k with
  | none => s
  | some x =>
    let s := dropObject x.part (imageAddr k) 0x100000 { s with serve := { s.serve with images := tabSet none s.serve.images k none } }
    (tabKeys (fun _ q => q.reg.isSome && q.image = k) s.board.slots).foldl (fun t i => unregSlot i t) s

/-- Takes a mask object out of use. -/
def dropMask (i : Nat) (s : State) : State :=
  match tabGet none s.serve.masks i with
  | none => s
  | some x => dropObject x.part (maskBase i) 0x10000000 { s with serve := { s.serve with masks := tabSet none s.serve.masks i none } }

/-- A variant leaves the device: its private experts leave the pool (R415). -/
def dropVariant (v : Nat) (s : State) : State :=
  { s with serve := { s.serve with
      variants := tabSet none s.serve.variants v none
      train := s.serve.train.filter fun j => j.variant ≠ v
      trainCopy := tabSet 0 s.serve.trainCopy v 0
      publishes := s.serve.publishes.filter fun p => p.variant ≠ v } }

/-- Whether what a command waits for is still in use. -/
def oweUsed (s : State) : OweKind → Bool
  | .variant v => variantUsed s v
  | .mask i => (match tabGet none s.serve.masks i with | some x => maskUsed s x.part | none => false)
  | .image k => imageUsed s k

/-- What an owed command does in the end. -/
def oweDrop : OweKind → State → State
  | .variant v => dropVariant v
  | .mask i => dropMask i
  | .image k => dropImage k

/-- Images that are to be unloaded go once nothing refers to them (R129, R130); one that a command unloads goes with its reply. -/
def settleImages (s : State) : State :=
  (tabKeys (fun _ x => match x with | some x => x.unloading | none => false) s.serve.images).foldl (fun t k =>
    if imageUsed t k || t.serve.owed.any (fun q => q.1 = .image k) then t else dropImage k t) s

/-- Every command whose condition holds is carried out and answered. The conditions are looked at when the command is
accepted and at each Beat edge. -/
def settleOwed (s : State) : State :=
  settleImages (s.serve.owed.foldl (fun t q =>
    if oweUsed t q.1 then t
    else
      let t := oweDrop q.1 { t with serve := { t.serve with owed := t.serve.owed.erase q } }
      sendReply { q.2 with beat := effectBeat t } t) s)

/-- A command is accepted and owes its reply. -/
def owe (c : Cmd) (k : OweKind) (s : State) : State :=
  settleOwed { s with serve := { s.serve with owed := s.serve.owed ++ [(k, replyOf c 0 0 0 0)] } }

end Sys2Proof.Machine
end

