-- ==== Sys2Proof/Machine/MemCmds.lean ====
section
/-! DEFINITION. The mailbox commands that map and revoke memory: MEM_MAP, MEM_UNMAP, MEM_PROTECT (R335 to R343, R390), and the
completion of an epoch command. -/

namespace Sys2Proof.Machine

open Sys2Proof

/-- The start and the length of the DV range of a command (R876). -/
def rangeOf (c : Cmd) : Nat × Nat := (inl c 32 8, inl c 40 8)

/-- Whether a range is a whole number of pages of the general range (R314, R876). -/
def rangeOk (va n : Nat) : Bool := va % 65536 = 0 && n % 65536 = 0 && 0 < n && va + n ≤ 2 ^ 47

/-- The page addresses of a range. -/
def rangePages (va n : Nat) : List Nat := (List.range (n / 65536)).map fun k => va + 65536 * k

/-- Whether a page is mapped, or awaits the completion of the epoch command that unmaps it (R340). -/
def pageTaken (s : State) (space va : Nat) : Bool := ptOf s space 3 va ≠ 0 || (bitAt (ptOf s space 2 va) 63 && bitAt (ptOf s space 2 va) 62)

/-- Whether any page of a range is taken. -/
def rangeTaken (s : State) (space va n : Nat) : Bool :=
  s.mem.pt.any fun e =>
    e.1 / 2 ^ 32 = space * 4 + 3 && va ≤ e.1 % 2 ^ 32 * 65536 && e.1 % 2 ^ 32 * 65536 < va + n

/-- The reserved bits of the permission byte of a command (R876). -/
def permBitsOk (c : Cmd) : Bool := inl c 48 1 < 4

/-- Maps fresh frames over a range (R335, R390). -/
def mapRange (part va n : Nat) (r w : Bool) (s : State) : State :=
  (((rangePages va n).zip (freeFrames s (n / 65536)))).foldl (fun t p =>
    mapLeaf part p.1 (ptLeaf r w false false part p.2 0xFFFF) (takeFrame p.2 part 1 false t)) s

/-- What a MEM_MAP does. -/
def memMapOp (c : Cmd) (s : State) : State :=
  match cmdCheck c 0x20 0 [(32, 8), (40, 8), (48, 1)] with
  | some st => refuse c st s
  | none =>
    let (va, n) := rangeOf c
    if !permBitsOk c then refuse c 0x80 s
    else if !keyHeld s c.part then refuse c 0x0B s
    else if !rangeOk va n || rangeTaken s c.part va n then refuse c 0x81 s
    else if !framesCover s (n / 65536) then refuse c 0x8D s
    else answer c 0 0 0 (mapRange c.part va n (bitAt (c.inline.getD 16 0) 0) (bitAt (c.inline.getD 16 0) 1) s)

/-- MEM_MAP (R335, R390, R610). -/
def execMemMap (c : Cmd) (s : State) : Res := mailbox c s (memMapOp c s)

/-! ### Epoch commands (R336 to R342) -/

/-- A leaf under an epoch command: V falls for an unmapping, R and W change for a protection. -/
def epochLeaf (op : EpochOp) (w : DWord) : DWord :=
  match op with
  | .unmap => setFld w 63 63 0
  | .protect r x => setFld (setFld w 61 61 (b2n r)) 60 60 (b2n x)

/-- The leaf of a page that a transfer has checked, when its walk ends at a page that the access may use at once. -/
def checkedLeaf (s : State) (m : MemCtx) (st : Bool) (va : Nat) : Option (Nat × DWord) :=
  match walk s m.part m.stepId st va with
  | .ok _ => (leafAt s m.part va).map fun w => (va / 65536 * 65536, w)
  | _ => none

/-- An outstanding transfer at an epoch command: which of its accesses to the range are already checked is a free value `pick`, a bit for
each page; their walks stand, and the others are repeated (R323, R337, R338; notes/assumptions/53.md). -/
def keepXfer (x : EpochCmd) (m : MemCtx) (pick : Nat) (epoch : Word) (t : Xfer) (s : State) : Xfer :=
  let pages := ((xferDvRows t).flatMap fun r => pagePieces r.1 t.len).map Prod.fst
  let hit := (pages.filter fun a => x.va ≤ a && a < x.va + x.len && (heldLeaf { m with held := t.held } a).isNone).zipIdx
  let held := t.held ++ hit.filterMap fun p => if pick / 2 ^ (p.2 % 64) % 2 = 1 then checkedLeaf s m t.st p.1 else none
  { t with held := held, epoch := if held = [] then epoch else t.epoch }

/-- The outstanding transfers of a unit at an epoch command. -/
def keepUnit (x : EpochCmd) (epoch : Word) (u : Nat) (s : State) : State :=
  match xferCtx s u with
  | some c =>
    if c.part = x.space && xferQueue s u ≠ [] then
      let q := (xferQueue s u).zipIdx.map fun p =>
        keepXfer x (xferMem u c) (Config.freeValue 42 (4096 * s.free + p.2)).toNat epoch p.1 s
      drawn (if u < 64 then modEng u (fun e => { e with xq := q }) s else modSh (u - 64) (fun h => { h with xq := q }) s)
    else s
  | none => s

/-- The units that move data. -/
def xferUnits : List Nat := List.range 36 ++ (List.range 72).map (64 + ·)

/-- Issues an epoch command: what is checked stays checked, its space's epoch rises, its pages change, and the caches forget them
(R337, R338). -/
def startEpoch (x : EpochCmd) (s : State) : State :=
  let epoch := tabGet 0#32 s.mem.epochs x.space + 1
  let s := raiseEpoch x.space x.va (x.va + x.len) (xferUnits.foldl (fun t u => keepUnit x epoch u t) s)
  (leavesIn s x.space x.va (x.va + x.len)).foldl (fun t e => setPt x.space 3 e.1 (epochLeaf x.op e.2) t) s

/-- Whether an access of a space that an old epoch has checked is still under way (R339). A reset that drops a transfer completes it
(R341). -/
def oldAccess (s : State) (space : Nat) : Bool :=
  xferUnits.any fun u => match xferCtx s u with
    | some c => c.part = space && (xferQueue s u).any fun t => t.held ≠ []
    | none => false

/-- Takes an epoch command, or refuses the fifth that would wait (R342). -/
def takeEpoch (c : Cmd) (op : EpochOp) (va n : Nat) (s : State) : State :=
  let q := s.mem.epochQ
  if q.length ≥ 5 then refuse c 0x0E { s with mem := { s.mem with epochStatus := 0x0E } }
  else
    let x : EpochCmd := ⟨c.part, va, n, op, replyOf c 0 0 0 0⟩
    let s := { s with mem := { s.mem with epochQ := q ++ [x], epochStatus := 0 } }
    let s := mapReqs (fun _ r => if r.part = c.part && r.state.live then { r with revoked := r.revoked ++ [(va, n)] } else r) s
    if q.isEmpty then startEpoch x s else s

/-- What a MEM_UNMAP does. -/
def memUnmapOp (c : Cmd) (s : State) : State :=
  match cmdCheck c 0x21 0 [(32, 8), (40, 8)] with
  | some st => refuse c st s
  | none =>
    let (va, n) := rangeOf c
    if !rangeOk va n then refuse c 0x81 s else takeEpoch c .unmap va n s

/-- MEM_UNMAP (R337, R342, R390): it replies on its completion. -/
def execMemUnmap (c : Cmd) (s : State) : Res := mailbox c s (memUnmapOp c s)

/-- What a MEM_PROTECT does. -/
def memProtectOp (c : Cmd) (s : State) : State :=
  match cmdCheck c 0x22 0 [(32, 8), (40, 8), (48, 1)] with
  | some st => refuse c st s
  | none =>
    let (va, n) := rangeOf c
    if !permBitsOk c then refuse c 0x80 s
    else if !rangeOk va n then refuse c 0x81 s
    else takeEpoch c (.protect (bitAt (c.inline.getD 16 0) 0) (bitAt (c.inline.getD 16 0) 1)) va n s

/-- MEM_PROTECT (R337, R342, R390): it replies on its completion. -/
def execMemProtect (c : Cmd) (s : State) : Res := mailbox c s (memProtectOp c s)

/-- The pages of a completed unmapping leave their space, and their frames' counts fall (R340). -/
def releaseRange (space va n : Nat) (s : State) : State :=
  (s.mem.pt.filter fun e => e.1 / 2 ^ 32 = space * 4 + 3 && va ≤ e.1 % 2 ^ 32 * 65536 && e.1 % 2 ^ 32 * 65536 < va + n &&
      !bitAt e.2 63).foldl (fun t e => lowerFrame (leafFrame e.2) (setPt space 3 (e.1 % 2 ^ 32 * 65536) 0 t)) s

/-- EPOCH_COMPLETE (R339, R341, R342): the command in progress, when it is one of the space and no access that an older epoch has
checked is under way, ends with its reply, and the next one is issued. -/
def execEpochComplete (space : Nat) (s : State) : Res :=
  need (space < 9) <|
    match s.mem.epochQ with
    | [] => .next s
    | x :: rest =>
      if x.space ≠ space || oldAccess s space then .next s
      else
        let s := if x.op = .unmap then releaseRange x.space x.va x.len s else s
        let s := bump 0x7004C { s with mem := { s.mem with epochQ := rest } }
        let s := sendReply { x.reply with beat := effectBeat s } s
        match rest with
        | [] => .next s
        | y :: _ => .next (startEpoch y s)

end Sys2Proof.Machine
end

