-- ==== Sys2Proof/Machine/Program.lean ====
section
/-! DEFINITION. The mailbox commands that act on program images (R122 to R130), Walk-on slots (R65, R256, R328, R460) and mask
objects (R357, R358). -/

namespace Sys2Proof.Machine

open Sys2Proof

/-! ### Load-time validation (R122, R123) -/

/-- The LM bytes and alignment of an LM instruction whose address is given by its immediate (R111, R189). -/
def lmFoot (func : Nat) : Nat × Nat :=
  if func ≤ 1 || func = 8 then (1, 1) else if func ≤ 3 || func = 9 then (2, 2) else if func ≤ 5 || func = 0xA then (4, 4)
  else if func = 6 || func = 0xB then (8, 8) else if func = 0x12 then (4, 4)
  else if func = 0x14 || func = 0x15 then (16, 16) else (512, 64)

/-- The FL bytes and alignment of a FLY instruction (R111, R229). -/
def flFoot (func : Nat) : Nat × Nat :=
  if func = 0 || func = 2 then (4, 4) else if func = 4 || func = 5 then (512, 64) else (8, 8)

/-- The address that an immediate gives. -/
def immAddr (f : Fields) : Nat := (sext f.imm).toNat

/-- Check 4 of one word. -/
def lmFootOk (major func : Nat) (f : Fields) : Bool :=
  !(major = 0x08 && func ≤ 0x15 && f.b = 0) ||
    ((immAddr f) % (lmFoot func).2 = 0 && immAddr f + (lmFoot func).1 ≤ lmSize)

/-- The smallest indivisible Flies footprint of an instruction (R203), with the smallest legal K. -/
def flatFoot (major func : Nat) (f : Fields) : Nat :=
  let fa := imm f 28 25
  let fb := imm f 24 21
  let k := if fa = 7 || fa = 8 || fb = 7 || fb = 8 then 256 else 128
  let rows := imm f 17 11 + 1
  if major ≠ 0x10 then 0
  else if func = 0 then
    (if imm f 20 20 = 1 then tileBytes fa rows k else 0) + (if imm f 19 19 = 1 then tileBytes fb 128 k else 0)
  else if func = 2 then (if imm f 20 20 = 1 then tileBytes fa rows 128 else 0)
  else if func = 3 then (if imm f 20 20 = 1 then tileBytes 0 rows 128 else 0)
  else 0

/-- Check 5 of one word. -/
def flFootOk (flMin major func : Nat) (f : Fields) : Bool :=
  (!(major = 0x20 && f.b = 0) || ((immAddr f) % (flFoot func).2 = 0 && immAddr f + (flFoot func).1 ≤ flMin)) &&
    flatFoot major func f ≤ flMin

/-- Check 6 of one word: the index of a CUE instruction without a base register, and that of an XFER which signals. -/
def cueIdxOk (clMax major : Nat) (f : Fields) : Bool :=
  !((major = 0x1C && f.b = 0) || (major = 0x0C && bitAt f.imm 31)) || imm f 9 0 < clMax

/-- Check 3 of the word at an index: a branch stays inside the image. -/
def branchInside (count i major : Nat) (f : Fields) : Bool :=
  major ≠ 0x03 ||
    (let t : Int := (8 * i : Nat) + f.imm.toInt
     0 ≤ t && t < (8 * count : Nat))

/-- Whether the last word is CTRL.END or an unconditional branch. -/
def endsWell (ws : List DWord) : Bool :=
  match ws.getLast? with
  | some w => (wordMajor w = 0 && wordFunc w = 1) || (wordMajor w = 3 && wordFunc w = 8)
  | none => false

/-- The header fields of an image (R122). -/
structure ImageHead where
  ok : Bool
  count : Nat
  walkon : Bool
  train : Bool
  progId : Word
  flMin : Nat
  flWant : Nat
  clMax : Nat
deriving DecidableEq, Repr

/-- Reads an image's header, and whether it passes check 1. -/
def imageHead (bs : List Byte) : ImageHead :=
  let n := leAt bs 8 4
  let flags := leAt bs 6 2
  { ok := leAt bs 0 4 = 0x58565349 && leAt bs 4 2 = 3 && n ≤ 131064 && bs.length = 64 + 8 * n && flags < 4 &&
      leAt bs 26 34 = 0 && leAt bs 60 4 = crc32c (slice bs 0 60 ++ bs.drop 64)
    count := n, walkon := flags % 2 = 1, train := flags / 2 % 2 = 1, progId := BitVec.ofNat 32 (leAt bs 12 4),
    flMin := leAt bs 16 4, flWant := leAt bs 20 4, clMax := leAt bs 24 2 }

/-- The instruction words of an image. -/
def imageWords (bs : List Byte) : List DWord := (List.range ((bs.length - 64) / 8)).map fun i => BitVec.ofNat 64 (leAt bs (64 + 8 * i) 8)

/-- The index of the first word that fails a test. -/
def firstBad (ws : List DWord) (p : Nat → Nat → Nat → Fields → Bool) : Option Nat :=
  ws.zipIdx.findSome? fun e => if p e.2 (wordMajor e.1) (wordFunc e.1) (wordFields e.1) then none else some e.2

/-- Check 7 of R123: the Flies holding and the Cue Light window that the header asks for. -/
def headFits (flMin flWant clMax guar : Nat) : Bool :=
  flMin % 65536 = 0 && flMin ≤ 65536 * guar && clMax ≤ 1024 && flMin ≤ flWant && flWant ≤ 8388608

/-- The checks of R123 in their order: the first that fails, and the instruction that it concerns. -/
def imageCheck (bs : List Byte) (guar : Nat) : Option (Nat × Nat) :=
  let h := imageHead bs
  let ws := imageWords bs
  if !h.ok then some (1, 0)
  else match firstBad ws (fun _ m k f => wordOk m k f) with
  | some i => some (2, i)
  | none => match firstBad ws (fun i m _ f => branchInside h.count i m f) with
    | some i => some (3, i)
    | none =>
      if !endsWell ws then some (3, h.count - 1)
      else match firstBad ws (fun _ m k f => lmFootOk m k f) with
      | some i => some (4, i)
      | none => match firstBad ws (fun _ m k f => flFootOk h.flMin m k f) with
        | some i => some (5, i)
        | none => match firstBad ws (fun _ m _ f => cueIdxOk h.clMax m f) with
          | some i => some (6, i)
          | none => if headFits h.flMin h.flWant h.clMax guar then none else some (7, 0)

/-- The guarantee of a partition, in flats (R244). -/
def guarOf (s : State) (part : Nat) : Nat := tabGet 4 s.flies.guar part

/-- What a PROG_LOAD does (R122 to R125, R610, R883). The reply to a refused image holds the check's number as its detail
and the instruction's index as its result (notes/assumptions/30.md). -/
def progLoadOp (c : Cmd) (s : State) : State :=
  match cmdCheck c 0x10 0 [(32, 8), (40, 4)] with
  | some st => refuse c st s
  | none =>
    let va := inl c 32 8
    let n := inl c 40 4
    if !keyHeld s c.part then refuse c 0x0B s
    else if va % 64 ≠ 0 then refuse c 0x81 s
    else if n < 64 || n > 64 + 8 * 131064 then answer c 0x0A 1 0 s
    else
      let m := readPart c.part va n s
      match m.2 with
      | .bad st k => answer c st k 0 m.1
      | .bytes bs =>
        match imageCheck bs (guarOf s c.part) with
        | some (k, i) => answer c 0x0A k (BitVec.ofNat 64 i) m.1
        | none =>
          let s := m.1
          let k := s.serve.nextImage
          let h := imageHead bs
          let s := { s with serve := { s.serve with
            nextImage := k + 1
            images := tabSet none s.serve.images k (some ⟨c.part, h.walkon, h.train, h.progId, h.flMin, h.flWant, h.clMax, imageWords bs, false⟩) } }
          answer c 0 0 (BitVec.ofNat 64 (imageAddr k)) (extendLog c.part 1 bs (holdObject c.part (imageAddr k) bs s))

/-- PROG_LOAD (R390). -/
def execProgLoad (c : Cmd) (s : State) : Res := mailbox c s (progLoadOp c s)

/-- What a PROG_UNLOAD does (R130, R390). -/
def progUnloadOp (c : Cmd) (s : State) : State :=
  match cmdCheck c 0x11 0 [] with
  | some st => refuse c st s
  | none =>
    match imageAt s c.obj.toNat with
    | none => refuse c 0x81 s
    | some (k, x) =>
      if x.part ≠ c.part then refuse c 0x82 s
      else if x.unloading then refuse c 0x81 s
      else owe c (.image k) { s with serve := { s.serve with
        images := tabSet none s.serve.images k (some { x with unloading := true }) } }

/-- PROG_UNLOAD (R130, R388, R390). -/
def execProgUnload (c : Cmd) (s : State) : Res := mailbox c s (progUnloadOp c s)

/-! ### Walk-on slots -/

/-- A Sampler job descriptor from its 64 bytes (R427), for a cluster. -/
def parseJob (cluster : Nat) (bs : List Byte) : SamplerJob :=
  let b (k : Nat) : Nat := leAt bs k 1
  { cluster := cluster, stepId := BitVec.ofNat 16 (leAt bs 0 2), part := b 2 % 8, nrows := b 3, waitCl := leAt bs 4 2,
    waitCnt := leAt bs 6 2, doneCl := leAt bs 8 2, doneInc := leAt bs 10 2, flat0 := b 12, flat1 := b 13, flat2 := b 14,
    walkon := b 15 % 2 = 1, logits := leAt bs 16 8, rowStride := leAt bs 24 4, vocab := leAt bs 28 4,
    rowmap := leAt bs 32 8, outAddr := leAt bs 40 8, beatKey := BitVec.ofNat 64 (leAt bs 48 8),
    resvOk := b 2 < 8 && b 15 < 2 && leAt bs 56 4 = 0, crcOk := leAt bs 60 4 = crc32c (slice bs 0 60) }

/-- The predicted time of a slot program at throttle step 0, in µs. The prediction is the Stage Manager's own, so it is a
free value. -/
def predictedUs (s : State) : Nat := (freeVal 9 s).toNat % 2 ^ 32

/-- The Sampler job template of a WALKON_REG, when it names one. -/
def readTemplate (part va : Nat) (s : State) : State × MemRead := if va = 0 then (s, .bytes []) else readPart part va 64 s

/-- Registers a slot program: it takes its reservation (R328). -/
def regSlot (slot part image pages predUs : Nat) (tpl : Option SamplerJob) (args : List Byte) (s : State) : State :=
  let fs := freeFrames s pages
  let s := fs.foldl (fun t f => takeFrame f part 0 true t) s
  setSlot slot { slotOf s slot with
    reg := some part, image := image, samplerTpl := tpl, argTpl := args, pages := pages, predUs := predUs, leaving := false }
    { s with mem := { s.mem with slotResv := tabSet [] s.mem.slotResv slot fs } }

/-- The checks of a WALKON_REG before it reads memory (R65, R256, R388, R460, R876). -/
def walkonRegCheck (c : Cmd) (s : State) : Option Status :=
  match cmdCheck c 0x12 0 [(32, 8), (40, 8), (48, 2), (52, 4)] with
  | some st => some st
  | none =>
    let slot := inl c 48 2
    match imageAt s c.obj.toNat with
    | none => some 0x81
    | some (_, x) =>
      if x.part ≠ c.part then some 0x82
      else if slot > 127 then some 0x81
      else if (match (slotOf s slot).reg with | some p => decide (p ≠ c.part) | none => false) then some 0x82
      else if x.unloading || !x.walkon then some 0x81
      else if x.flMin > 196608 then some 0x06
      else if s.beat.period < 4 * (predictedUs s + 2) then some 0x88
      else if inl c 40 8 % 64 ≠ 0 then some 0x81
      else none

/-- CL_MAX of the image at an address. -/
def clMaxOf (s : State) (a : Nat) : Nat := match imageAt s a with | some (_, x) => x.clMax | none => 0

/-- What a WALKON_REG does (R390, R463, R883). A slot that its partition registers again takes the new program. DESIGN CHOICE: a template
whose CL_BASE and CL_COUNT break R120 is refused with FW_BAD_ARG (notes/assumptions/95.md). -/
def walkonRegOp (c : Cmd) (s : State) : State :=
  match walkonRegCheck c s with
  | some st => refuse c st s
  | none =>
    let slot := inl c 48 2
    let pages := inl c 52 4
    let a := readTemplate c.part (inl c 32 8) s
    match a.2 with
    | .bad st k => answer c st k 0 a.1
    | .bytes jb =>
      let b := readPart c.part (inl c 40 8) 256 a.1
      let job := parseJob 0 jb
      match b.2 with
      | .bad st k => answer c st k 0 b.1
      | .bytes args =>
        let fresh := unregSlot slot b.1
        if jb ≠ [] && (!job.resvOk || !job.crcOk) then refuse c 0x81 b.1
        else if !clFits (leAt args 12 2) (leAt args 14 2) (clMaxOf s c.obj.toNat) then refuse c 0x81 b.1
        else if !framesCover fresh pages then refuse c 0x8D b.1
        else match imageAt s c.obj.toNat with
          | none => refuse c 0x81 b.1
          | some (k, _) => answer c 0 0 0 (drawn (regSlot slot c.part k pages (predictedUs s) (if jb = [] then none else some job) args fresh))

/-- WALKON_REG (R65, R256, R328, R390, R460, R463). -/
def execWalkonReg (c : Cmd) (s : State) : Res := mailbox c s (walkonRegOp c s)

/-- What a WALKON_UNREG does: the slot leaves at the next Beat edge (R390). -/
def walkonUnregOp (c : Cmd) (s : State) : State :=
  match cmdCheck c 0x13 0 [] with
  | some st => refuse c st s
  | none =>
    let slot := c.obj.toNat
    if slot > 127 then refuse c 0x81 s
    else match (slotOf s slot).reg with
      | none => refuse c 0x81 s
      | some p => if p ≠ c.part then refuse c 0x82 s
        else answer c 0 0 0 (setSlot slot { slotOf s slot with leaving := true } s)

/-- WALKON_UNREG (R388, R390). -/
def execWalkonUnreg (c : Cmd) (s : State) : Res := mailbox c s (walkonUnregOp c s)

/-! ### Mask objects (R357, R358) -/

/-- The fields of a mask object's header. -/
structure MaskHead where
  nqt : Nat
  nkt : Nat
  nbmp : Nat
  tbl : Nat
  bmp : Nat
  ok : Bool
deriving DecidableEq, Repr

/-- Reads a mask object's header, and whether its fields are in range. -/
def maskHead (bs : List Byte) : MaskHead :=
  let q := leAt bs 4 2
  let k := leAt bs 6 2
  let n := leAt bs 8 4
  { nqt := q, nkt := k, nbmp := n, tbl := leAt bs 12 4, bmp := leAt bs 16 4
    ok := leAt bs 0 4 = 0x4B53414D && 1 ≤ q && q ≤ 256 && 1 ≤ k && k ≤ 256 && n ≤ q * k && leAt bs 12 4 % 64 = 0 &&
      leAt bs 16 4 % 64 = 0 && leAt bs 20 40 = 0 }

/-- The tile words. -/
def maskTiles (n : Nat) (bs : List Byte) : List Word := (List.range n).map fun i => BitVec.ofNat 32 (leAt bs (4 * i) 4)

/-- Whether a tile word is legal: SUM 0, 1 or 2, with a bitmap index only where SUM is 2. -/
def tileOk (nbmp : Nat) (w : Word) : Bool :=
  let sum := fld w 31 30
  if sum = 2 then fld w 29 0 < nbmp else sum ≠ 3 && fld w 29 0 = 0

/-- R358 for one tile: a bitmap that allows every pair, or none, becomes a summary. -/
def tileCanon (bitmaps : List (List Byte)) (w : Word) : Word :=
  if fld w 31 30 = 2 then
    let b := bitmaps.getD (fld w 29 0) []
    if b.all (· = 0xFF#8) then 0 else if b.all (· = 0#8) then 0x40000000#32 else w
  else w

/-- The bitmaps that tiles still use, in table order. -/
def usedBitmaps (tiles : List Word) : List Nat :=
  tiles.foldl (fun acc w => if fld w 31 30 = 2 && !acc.contains (fld w 29 0) then acc ++ [fld w 29 0] else acc) []

/-- R358: the tiles and the bitmaps of a registered mask. -/
def maskCanon (tiles : List Word) (bitmaps : List (List Byte)) : List Word × List (List Byte) :=
  let ts := tiles.map (tileCanon bitmaps)
  let used := usedBitmaps ts
  (ts.map fun w => if fld w 31 30 = 2 then BitVec.ofNat 32 (2 ^ 31 + used.idxOf (fld w 29 0)) else w,
    used.map fun k => bitmaps.getD k [])

/-- A registered mask object as it lies in firmware-held memory: the layout of R357, the tables packed. -/
def maskBytes (nqt nkt : Nat) (tiles : List Word) (bitmaps : List (List Byte)) : List Byte :=
  let tb := tiles.flatMap fun w => leBytes 4 w.toNat
  let pad := List.replicate (cdiv tb.length 64 * 64 - tb.length) (0#8)
  let bm := bitmaps.flatMap id
  let h := leBytes 4 0x4B53414D ++ leBytes 2 nqt ++ leBytes 2 nkt ++ leBytes 4 bitmaps.length ++ leBytes 4 64 ++
    leBytes 4 (64 + cdiv tb.length 64 * 64) ++ List.replicate 40 0
  h ++ leBytes 4 (crc32c (h ++ tb ++ bm)) ++ tb ++ pad ++ bm

/-- Registers a mask object, and gives its address. -/
def regMask (c : Cmd) (h : MaskHead) (tiles : List Word) (bitmaps : List (List Byte)) (obj : List Byte) (s : State) : State :=
  match tabFree s.serve.masks (2 ^ 15) with
  | none => refuse c 0x8D s
  | some i =>
    let m := maskCanon tiles bitmaps
    let s := { s with serve := { s.serve with masks := tabSet none s.serve.masks i (some ⟨c.part, h.nqt, h.nkt, m.1, m.2, false⟩) } }
    answer c 0 0 (BitVec.ofNat 64 (maskBase i)) (extendLog c.part 4 obj (holdObject c.part (maskBase i) (maskBytes h.nqt h.nkt m.1 m.2) s))

/-- What a MASK_REG does (R357, R358, R610, R883). -/
def maskRegOp (c : Cmd) (s : State) : State :=
  match cmdCheck c 0x18 0 [] with
  | some st => refuse c st s
  | none =>
    let va := c.obj.toNat
    if !keyHeld s c.part then refuse c 0x0B s
    else if va % 64 ≠ 0 || va ≥ 2 ^ 47 then refuse c 0x81 s
    else
      let a := readPart c.part va 64 s
      match a.2 with
      | .bad st k => answer c st k 0 a.1
      | .bytes hb =>
        let h := maskHead hb
        if !h.ok || va + h.tbl + 4 * h.nqt * h.nkt > 2 ^ 47 || va + h.bmp + 2048 * h.nbmp > 2 ^ 47 then refuse c 0x81 a.1
        else
          let t := readPart c.part (va + h.tbl) (4 * h.nqt * h.nkt) a.1
          match t.2 with
          | .bad st k => answer c st k 0 t.1
          | .bytes tb =>
            let b := readPart c.part (va + h.bmp) (2048 * h.nbmp) t.1
            match b.2 with
            | .bad st k => answer c st k 0 b.1
            | .bytes bb =>
              let tiles := maskTiles (h.nqt * h.nkt) tb
              let bitmaps := (List.range h.nbmp).map fun i => slice bb (2048 * i) 2048
              if leAt hb 60 4 ≠ crc32c (hb.take 60 ++ tb ++ bb) || !tiles.all (tileOk h.nbmp) then refuse c 0x81 b.1
              else regMask c h tiles bitmaps (hb ++ tb ++ bb) b.1

/-- MASK_REG (R357, R358, R360, R390). -/
def execMaskReg (c : Cmd) (s : State) : Res := mailbox c s (maskRegOp c s)

/-- What a MASK_UNREG does (R390). -/
def maskUnregOp (c : Cmd) (s : State) : State :=
  match cmdCheck c 0x19 0 [] with
  | some st => refuse c st s
  | none =>
    match maskAt c.obj.toNat with
    | none => refuse c 0x81 s
    | some i => match tabGet none s.serve.masks i with
      | none => refuse c 0x81 s
      | some x =>
        if x.part ≠ c.part then refuse c 0x82 s
        else if x.unloading then refuse c 0x81 s
        else owe c (.mask i) { s with serve := { s.serve with
          masks := tabSet none s.serve.masks i (some { x with unloading := true }) } }

/-- MASK_UNREG (R388, R390). -/
def execMaskUnreg (c : Cmd) (s : State) : Res := mailbox c s (maskUnregOp c s)

end Sys2Proof.Machine
end

