-- ==== Sys2Proof/Machine/Request.lean ====
section
/-! DEFINITION. The mailbox commands that act on requests: SUBMIT, CANCEL, PAUSE, RESUME, APPEND, QUERY (R390 to R399, R441,
R442), and the prefix walk (R400 to R403). -/

namespace Sys2Proof.Machine

open Sys2Proof

/-! ### Admission (R391 to R393) -/

/-- Whether a binary32 value is finite. -/
def finite32 (w : Word) : Bool := fld w 30 23 ≠ 0xFF
/-- Whether a binary32 value is finite and above 0. -/
def positive32 (w : Word) : Bool := finite32 w && 0 < w.toNat && w.toNat < 0x80000000

/-- Check 1 of R392: the CRC, the reserved bits and the field ranges of R391. -/
def descOk (d : ReqDesc) : Bool :=
  d.crcOk && d.resvOk && fld d.prioFlags 7 5 = 0 && d.variant.toNat < 64 && 1 ≤ d.ncand.toNat && d.ncand.toNat ≤ 8 &&
    1 ≤ d.promptLen.toNat && d.promptLen.toNat ≤ 262143 && 1 ≤ d.maxNew.toNat &&
    (d.temp = 0 || positive32 d.temp) && positive32 d.topP && d.topP.toNat ≤ 0x3F800000 &&
    1 ≤ d.topK.toNat && d.topK.toNat ≤ 1024 && d.window.toNat ≤ 32768 && finite32 d.pres && finite32 d.freq &&
    positive32 d.rep && d.stop.length = 4

/-- Frames of the extended token log of a variant (R382): none up to a MAX_CTX of 32,768. -/
def extFrames (v : VariantRec) : Nat := if v.maxCtx.toNat ≤ 32768 then 0 else cdiv v.maxCtx.toNat 16384

/-- Whether a key of the job is installed for the partition. -/
def jobKeyHeld (s : State) (part : Nat) (job : DWord) : Bool :=
  match jobKey s job with | some k => k.part = part && !k.dropping | none => false

/-- A variant that a SUBMIT may name (check 5, R415). -/
def residentVariant (s : State) (part v : Nat) : Option Variant :=
  match tabGet none s.serve.variants v with
  | some x => if x.part = part && !x.unloading && !x.unavailable then some x else none
  | none => none

/-- The lowest request table index that is not occupied (R393, R882). -/
def freeIndex (s : State) : Option Nat := tabFree s.serve.reqs 8192

/-- Checks 1 to 10 of R392, in their order: the first failure, or none. -/
def admitCheck (s : State) (part : Nat) (d : ReqDesc) : Option Status :=
  if !descOk d then some 0x81
  else if !partEnabled s part then some 0x83
  else if partShort s part then some 0x06
  else if !jobKeyHeld s part d.jobId then some 0x0B
  else match residentVariant s part d.variant.toNat with
    | none => some 0x87
    | some v =>
      if d.promptLen.toNat + d.maxNew.toNat > v.desc.maxCtx.toNat then some 0x88
      else if fld d.prioFlags 3 0 > regF s (0x90204 + 0x40 * part) 3 0 then some 0x86
      else if liveCount s part ≥ regF s (0x90200 + 0x40 * part) 13 0 then some 0x85
      else if (freeIndex s).isNone then some 0x84
      else if !framesCover s (extFrames v.desc) then some 0x8D
      else none

/-- The lowest registered head-spread set of a partition, which a long-context request runs on (R370, R382). -/
def spreadSetOf (s : State) (part : Nat) : Option Nat :=
  (tabKeys (fun _ x => match x with | some x => x.part = part && !x.leaving | none => false) s.serve.sets).head?

/-- The request table entry at admission (R393, R394), before its prompt enters the log. -/
def newRequest (s : State) (c : Cmd) (d : ReqDesc) (spread : Option Nat) (ext : List Nat) : Request :=
  { jobId := d.jobId, state := .admitted, status := 0, part := c.part, prio := fld d.prioFlags 3 0, age := 0, cuts := 0, carry := none,
    retry := false, promoted := false, insert := bitAt d.prioFlags 4, countFull := false, spread := spread,
    pausePending := false, variant := d.variant.toNat, ncand := d.ncand.toNat, topK := d.topK.toNat, temp := d.temp,
    topP := d.topP, pres := d.pres, freq := d.freq, rep := d.rep, window := d.window.toNat, failUnit := 0, len := 0,
    logLen := 0, maxNew := d.maxNew.toNat, emitted := 0, pending := 0, seed := d.seed,
    outSeq := tabGet 0 s.serve.jobSeq d.jobId.toNat, prefixTokens := 0, admitBeat := s.beat.num, lastBeat := 0,
    stop := d.stop, distinct := 0, lastNode := none, route := c.route, log := [], counts := [], ext := ext,
    cancelled := false, failAtEnd := none, revoked := [], stepNo := 0, spreadEdges := none, contribIn := [],
    contribOut := [], gathered := [], avoid := [], walked := false, treeQ := [], treeDue := [] }

/-- Admits a request at an index (R393): its log, its count table, and the frames of an extended log. -/
def admitReq (i : Nat) (c : Cmd) (d : ReqDesc) (prompt : List Word) (s : State) : State :=
  let v := residentVariant s c.part d.variant.toNat
  let n := match v with | some v => extFrames v.desc | none => 0
  let ext := freeFrames s n
  let s := ext.foldl (fun t f => takeFrame f c.part 0 true t) s
  let spread := if n = 0 then none else spreadSetOf s c.part
  bumpServe c.part 0 (setReq i (some (logAppendAll (newRequest s c d spread ext) prompt)) (storeExt c.part ext 0 prompt s))

/-- A refused SUBMIT is counted (SERVE_Pn_REFUSE_CNT). -/
def refuseSubmit (c : Cmd) (st : Status) (detail : Nat) (s : State) : State := answer c st detail 0 (bumpServe c.part 1 s)

/-- What a SUBMIT does. -/
def submitOp (c : Cmd) (d : ReqDesc) (s : State) : State :=
  match cmdCheck c 1 128 [] with
  | some st => refuseSubmit c st 0 s
  | none =>
    if partEnabled s c.part && !keyHeld s c.part then refuseSubmit c 0x0B 0 s
    else match admitCheck s c.part d with
      | some st => refuseSubmit c st 0 s
      | none =>
        let r := readPart c.part d.prompt.toNat (4 * d.promptLen.toNat) s
        match r.2, freeIndex s with
        | .bad st k, _ => refuseSubmit c st k r.1
        | .bytes bs, some i => answer c 0 0 (BitVec.ofNat 64 i) (admitReq i c d (tokensOf d.promptLen.toNat bs) r.1)
        | .bytes _, none => refuseSubmit c 0x84 0 r.1

/-- SUBMIT (R390 to R393). -/
def execSubmit (c : Cmd) (d : ReqDesc) (s : State) : Res := mailbox c s (submitOp c d s)

/-! ### Commands on a request (R388, R398, R399) -/

/-- The request that a command names, or the status that refuses the command. -/
def namedReq (s : State) (c : Cmd) : Status × Option Request :=
  if c.obj.toNat > 8191 then (0x8B, none)
  else match reqOf s c.obj.toNat with
    | none => (0x8B, none)
    | some r => if r.part ≠ c.part then (0x82, none) else if r.jobId ≠ c.job then (0x8B, none) else (0, some r)

/-- Runs a command on the request that it names. -/
def onRequest (c : Cmd) (opcode : Nat) (used : List (Nat × Nat)) (s : State) (k : Nat → Request → State) : State :=
  match cmdCheck c opcode 0 used with
  | some st => refuse c st s
  | none => match namedReq s c with
    | (_, some r) => k c.obj.toNat r
    | (st, none) => refuse c st s

/-- What a CANCEL does (R441, R442). -/
def cancelOp (c : Cmd) (s : State) : State :=
  onRequest c 2 [] s fun i r =>
    if !r.state.live then refuse c 0x90 s
    else if stepRunning s i then answer c 0 0 0 (setReq i (some { r with cancelled := true }) s)
    else answer c 0 0 0 (endRequest i true 0x8A 0 s)

/-- CANCEL (R390, R441, R442). -/
def execCancel (c : Cmd) (s : State) : Res := mailbox c s (cancelOp c s)

/-- What a PAUSE does (R390, R395). -/
def pauseOp (c : Cmd) (s : State) : State :=
  onRequest c 3 [] s fun i r =>
    if r.state = .prefill || r.state = .decode then
      answer c 0 0 0 (settlePause i (setReq i (some { r with pausePending := true }) s))
    else refuse c 0x90 s

/-- PAUSE (R390, R395, R399). -/
def execPause (c : Cmd) (s : State) : Res := mailbox c s (pauseOp c s)

/-- The state that a RESUME gives: PREFILL while tokens other than the pending token await prefill. -/
def resumeState (r : Request) : ReqState := if r.emitted = 0 || r.len + 1 < r.logLen then .prefill else .decode

/-- What a RESUME does (R390, R395). -/
def resumeOp (c : Cmd) (s : State) : State :=
  onRequest c 4 [] s fun i r =>
    if r.state = .paused then answer c 0 0 0 (setReq i (some { r with state := resumeState r }) s) else refuse c 0x90 s

/-- RESUME (R390, R395, R399). -/
def execResume (c : Cmd) (s : State) : Res := mailbox c s (resumeOp c s)

/-- Bytes of APPEND and of PROG_LOAD: an address and a length (R876). -/
def addrLen : List (Nat × Nat) := [(32, 8), (40, 4)]

/-- What an APPEND does (R390, R425). -/
def appendOp (c : Cmd) (s : State) : State :=
  onRequest c 5 addrLen s fun i r =>
    let n := inl c 40 4
    let maxCtx := match variantOf s r with | some v => v.desc.maxCtx.toNat | none => 0
    if r.state ≠ .paused then refuse c 0x90 s
    else if n = 0 || n > 8192 then refuse c 0x81 s
    else if r.logLen + n + r.maxNew - r.emitted > maxCtx then refuse c 0x88 s
    else
      let m := readPart c.part (inl c 32 8) (4 * n) s
      match m.2 with
      | .bad st k => answer c st k 0 m.1
      | .bytes bs =>
        answer c 0 0 0 (modReq i (fun r => { logAppendAll r (tokensOf n bs) with state := .prefill })
          (storeExt r.part r.ext r.logLen (tokensOf n bs) m.1))

/-- APPEND (R390, R395, R399, R883). -/
def execAppend (c : Cmd) (s : State) : Res := mailbox c s (appendOp c s)

/-- What a QUERY answers (R390). -/
def queryOp (c : Cmd) (s : State) : State :=
  onRequest c 6 [] s fun _ r =>
    answer c 0 (reqCode r.state + 256 * (reqStatus s r).toNat) (BitVec.ofNat 64 (r.len % 2 ^ 32 + r.emitted % 2 ^ 32 * 2 ^ 32)) s

/-- QUERY (R390). -/
def execQuery (c : Cmd) (s : State) : Res := mailbox c s (queryOp c s)

/-! ### The prefix walk (R400 to R403) -/

/-- The identity of a chunk (R400) from that of the chunk before it. -/
def chunkIdent (prev : List Byte) (part variant : Nat) (toks : List Word) : List Byte :=
  (leBytes 48 (Config.sha384 (prev ++ [BitVec.ofNat 8 part, BitVec.ofNat 8 variant, 0, 0] ++
    toks.flatMap fun t => leBytes 4 t.toNat)).toNat).take 16

/-- The tokens of chunk c of a request's log. -/
def chunkTokens (r : Request) (c : Nat) : List Word := tabRead 0#32 r.log (64 * c) 64

/-- The identities of chunks 0 to n − 1 of a request. -/
def chunkIdents (r : Request) (n : Nat) : List (List Byte) :=
  (List.range n).foldl (fun acc c =>
    acc ++ [chunkIdent (acc.getLast?.getD (List.replicate 16 0)) r.part r.variant (chunkTokens r c)]) []

/-- The node of a chunk: one whose HASH, CHECK, PART, VARIANT and PARENT all match (R403). -/
def findNode (s : State) (part variant : Nat) (parent : Option Nat) (ident : List Byte) : Option (Nat × Node) :=
  (treeNodes s part).find? fun e =>
    e.2.hash.toNat = leAt ident 0 8 && e.2.check.toNat = leAt ident 8 8 && e.2.variant = variant && e.2.parent = parent

/-- The chunks of a request that have nodes, from chunk 0 on. -/
def matchNodes (s : State) (r : Request) : Option Nat → List (List Byte) → List (Nat × Node)
  | _, [] => []
  | parent, x :: xs =>
    match findNode s r.part r.variant parent x with
    | none => []
    | some e => e :: matchNodes s r (some e.1) xs

/-- A page of a matched node is mapped into the request's KV range with W = 0 and COW = 1, and its count rises. -/
def sharePage (part va frame : Nat) (s : State) : State :=
  raiseFrame frame (mapLeaf part va (ptLeaf true false true true part frame 0xFFFF) s)

/-- A request that awaits its walk: ADMITTED, of a variant that allows prefix sharing (R402, R403). -/
def walkReady (s : State) (r : Request) : Bool := r.state = .admitted && !r.walked && prefixShared s r.variant

/-- PREFIX_WALK (R403), before a step of the request is planned: the matched chunks' pages are counted and mapped, and PREFIX_TOKENS, LEN and LAST_USE are set.
The request adopts the last matched node as its LAST_NODE (DEDUCED, notes/assumptions/29.md). -/
def execPrefixWalk (req : Nat) (s : State) : Res :=
  need (req < 8192) <|
    match reqOf s req with
    | none => .next s
    | some r =>
      if !walkReady s r || s.serve.walkers = 0 || stepBusy s req then .next s
      else
        let hits := matchNodes s r none (chunkIdents r (min ((r.logLen - 1) / 64) 4095))
        let pages := hits.flatMap fun e => e.2.pages
        let ids := hits.map Prod.fst
        let s := (pages.zipIdx).foldl (fun t p => sharePage r.part (kvBase req + 65536 * p.2) p.1 t) s
        let s := { s with serve := { s.serve with nodes := tabMap none (fun k n =>
          if k / 2 ^ 22 = r.part && ids.contains (k % 2 ^ 22) then n.map fun n => { n with lastUse := s.beat.num } else n) s.serve.nodes } }
        .next (bump 0x9004C (bumpBy 0x90050 hits.length (setReq req (some { r with
          walked := true, prefixTokens := 64 * hits.length, len := 64 * hits.length,
          lastNode := (ids.getLast?).orElse fun _ => r.lastNode }) s)))

end Sys2Proof.Machine
end

