-- ==== Sys2Proof/Machine/StepCmds.lean ====
section
/-! DEFINITION. STEP_COMMIT (R438), the limits on carried and waiting requests (R78, R81), and head-spread sets'
messages and timeout (R372 to R380). -/

namespace Sys2Proof.Machine

open Sys2Proof

/-- STEP_COMMIT (R438 to R442, R631): a complete group commits. A step whose Running Order the partner froze waits for its verdict, and
commits with the verdict's Beat, or is discarded (R640). -/
def execStepCommit (part : Nat) (stepId : BitVec 16) (s : State) : Res :=
  need (part < 8) <|
    match findGroup s part stepId.toNat with
    | none => .next s
    | some g =>
      if !runs s || !groupComplete s g || g.awaiting then .next s
      else if stepCancelled s g then .next (discardStep g s)
      else if needsVerdict s g then
        match s.pair.verdicts.find? fun v => v.1 = stepId.toNat with
        | some (_, true, b) =>
          let s := { s with pair := { s.pair with verdicts := s.pair.verdicts.filter fun v => v.1 ≠ stepId.toNat } }
          .next (settle (commitLate g b s))
        | some (_, false, _) =>
          let s := { s with pair := { s.pair with verdicts := s.pair.verdicts.filter fun v => v.1 ≠ stepId.toNat } }
          .next (cutStep g s)
        | none => .next { s with serve := { s.serve with
            groups := s.serve.groups.map fun x => if x = g then { x with awaiting := true } else x } }
      else .next (settle (commitGroup g s.beat.num s))

/-- CARRY_LIMIT (R78): a request cut CARRY_LIMIT times in succession ends FAILED with ST_CARRIED. -/
def execCarryLimit (req : Nat) (s : State) : Res :=
  need (req < 8192) <|
    match reqOf s req with
    | none => .next s
    | some r => .next (if r.state.live && regF s 0x1000C 27 24 ≤ r.cuts then failRequest req 1 0 s else s)

/-- AGE_PROMOTE (R81): a request whose age has reached MAX_WAIT is promoted for one step. -/
def execAgePromote (req : Nat) (s : State) : Res :=
  need (req < 8192) <|
    match reqOf s req with
    | none => .next s
    | some r =>
      .next (if r.state.live && r.state ≠ .paused && regF s 0x1000C 23 16 ≤ r.age
        then setReq req (some { r with promoted := true }) s else s)

/-! ### Head-spread sets (R370 to R381) -/

/-- TIMEOUT_BEATS; 0 selects 2. -/
def timeoutBeats (x : SpreadRec) : Nat := if x.timeoutBeats = 0 then 2 else x.timeoutBeats.toNat

/-- Whether a contribution of the request's current step is missing: another member has sent none, or not one for every
layer that some member has sent. -/
def contribMissing (x : SpreadRec) (r : Request) : Bool :=
  let now := r.contribIn.filter fun c => c.step = r.stepNo
  let layers := (now.map Contribution.layer).eraseDups
  layers.isEmpty || (otherRanks x).any fun k => layers.any fun l => !now.any fun c => c.rank = k && c.layer = l

/-- HEAD_SPREAD_TIMEOUT (R378, R379): the request ends with ST_PEER_TIMEOUT, its step's entries that have not started are
voided, and ABORT goes to every other member. -/
def execHeadSpreadTimeout (req : Nat) (s : State) : Res :=
  need (req < 8192) <|
    match reqOf s req with
    | none => .next s
    | some r =>
      match spreadOf s r, r.spreadEdges with
      | some x, some n =>
        if !r.state.live || n < timeoutBeats x.desc || !contribMissing x.desc r then .next s
        else
          let gs := s.serve.groups.filter fun g => g.status = .active && g.plan.reqs.contains req
          let s := failRequest req 4 0 s
          let s := gs.foldl (fun t g => voidFailed g.plan.part g.plan.stepId.toNat t) s
          .next (resolveSteps (toMembers x.desc 0x22 r.jobId (memberSeq r.stepNo 0xFFFF x.desc.rank.toNat)
            (abortPlain x.desc req r.stepNo) s))
      | _, _ => .next s

/-- The request that a member's message names, when it is live, of the message's job and set, and from another member. -/
def spreadTarget (s : State) (job : DWord) (plain : List Byte) : Option (SpreadPrefix × Request) :=
  let p := spreadPrefix plain
  match reqOf s p.req with
  | some r => match spreadOf s r with
    | some x =>
      if r.state.live && r.jobId = job && x.desc.setId = p.setId && p.rank < x.desc.nmod.toNat && p.rank ≠ x.desc.rank.toNat
      then some (p, r) else none
    | none => none
  | none => none

/-- What a contribution does: it is kept, in rank order, for a step that still waits for it (R372, R373, R580). -/
def collectiveOp (job : DWord) (plain : List Byte) (s : State) : State :=
  match spreadTarget s job plain with
  | none => s
  | some (p, r) =>
    let c : Contribution := ⟨p.step, p.layer, p.rank, plain.drop 16⟩
    let known := r.contribIn.any fun d => d.step = c.step && d.layer = c.layer && d.rank = c.rank
    if known || p.step < r.stepNo || p.step > r.stepNo + 1 then s
    else match spreadOf s r with
      | some x => setReq p.req (some (takeContrib x.desc c r)) s
      | none => s

/-- COLLECTIVE (R372, R373). -/
def execCollective (m : Sealed) (s : State) : Res := .next (collectiveOp m.jobId m.plain s)

/-- What an ABORT does (R380): the request ends with ST_PEER_TIMEOUT at the end of its step in progress, or at once. -/
def abortOp (job : DWord) (plain : List Byte) (s : State) : State :=
  match spreadTarget s job plain with
  | none => s
  | some (p, r) =>
    if stepRunning s p.req then setReq p.req (some { r with failAtEnd := some 4 }) s else failRequest p.req 4 0 s

/-- ABORT (R380). -/
def execAbort (m : Sealed) (s : State) : Res := .next (abortOp m.jobId m.plain s)

/-- RESEND_REQUEST (R376, R377): the contributions of the named step that the member has kept are sent to the member that asks. -/
def execResendRequest (setId : Word) (req step rank : Nat) (s : State) : Res :=
  match reqOf s req with
  | none => .next s
  | some r => match spreadOf s r with
    | none => .next s
    | some x =>
      let known := x.desc.setId = setId && rank < x.desc.nmod.toNat && rank ≠ x.desc.rank.toNat
      .next (if known then (r.contribOut.filter fun c => c.step = step).foldl (fun t c =>
        sendMember x.desc rank 0x21 r.jobId (memberSeq c.step c.layer c.rank) (contribPlain x.desc req c) t) s else s)

end Sys2Proof.Machine
end

