-- ==== Sys2Proof/Machine/Variants.lean ====
section
/-! DEFINITION. The mailbox commands that act on variants, prefix trees, head-spread sets and fine-tuning (R370, R390, R404 to
R420, R884). -/

namespace Sys2Proof.Machine

open Sys2Proof

/-! ### Variants -/

/-- The checks of R408 and R884 on a variant record. -/
def variantRecOk (r : VariantRec) : Bool :=
  r.crcOk && r.resvOk && r.magic = 0x544E5256#32 && r.npriv.toNat ≤ 64 && 1 ≤ r.routeK.toNat && r.routeK.toNat ≤ 16 &&
    1 ≤ r.vocab.toNat && r.vocab.toNat ≤ 262144 && (r.maxCtx.toNat ≤ 32768 || r.maxCtx.toNat = 262144) &&
    r.kvTokenBytes.toNat * r.maxCtx.toNat ≤ 2 ^ 32

/-- The private expert entries of an expert table (R409). -/
def parseExperts (n : Nat) (bs : List Byte) : List Expert :=
  (List.range n).map fun i => let e := 32 * i
    { layer := leAt bs e 2, weightBytes := leAt bs (e + 4) 4, weights := leAt bs (e + 8) 8, row := leAt bs (e + 16) 8 }

/-- Whether the reserved bytes of every expert entry are 0. -/
def expertsOk (n : Nat) (bs : List Byte) : Bool :=
  (List.range n).all fun i => leAt bs (32 * i + 2) 2 = 0 && leAt bs (32 * i + 24) 8 = 0

/-- The weight bytes of all private experts on the device (R410). -/
def poolBytes (s : State) : Nat :=
  sumNat (s.serve.variants.map fun e => match e.2 with | some v => sumNat (v.experts.map Expert.weightBytes) | none => 0)

/-- What a VARIANT_LOAD does (R408 to R410, R610, R883, R884). The variant takes the lowest free number. -/
def variantLoadOp (c : Cmd) (r : VariantRec) (s : State) : State :=
  match cmdCheck c 0x28 64 [] with
  | some st => refuse c st s
  | none =>
    if !keyHeld s c.part then refuse c 0x0B s
    else if !variantRecOk r then refuse c 0x81 s
    else
      let m := readPart c.part r.expertTbl.toNat (32 * r.npriv.toNat) s
      match m.2 with
      | .bad st k => answer c st k 0 m.1
      | .bytes bs =>
        let ex := parseExperts r.npriv.toNat bs
        if !expertsOk r.npriv.toNat bs then refuse c 0x81 m.1
        else if poolBytes m.1 + sumNat (ex.map Expert.weightBytes) > regF m.1 0x90010 15 0 * 2 ^ 20 then refuse c 0x8C m.1
        else match tabFree m.1.serve.variants 64 with
          | none => refuse c 0x8C m.1
          | some v => answer c 0 0 (BitVec.ofNat 64 v) (extendLog c.part 3 (variantBytes r) { m.1 with serve := { m.1.serve with
              variants := tabSet none m.1.serve.variants v (some ⟨c.part, r, ex, none, 0, [], false, false⟩) } })

/-- VARIANT_LOAD (R390, R408 to R410, R884). -/
def execVariantLoad (c : Cmd) (r : VariantRec) (s : State) : Res := mailbox c s (variantLoadOp c r s)

/-- The variant that a command names, or the status that refuses the command. -/
def namedVariant (s : State) (c : Cmd) : Status × Option Variant :=
  if c.obj.toNat > 63 then (0x81, none)
  else match tabGet none s.serve.variants c.obj.toNat with
    | none => (0x87, none)
    | some v => if v.part ≠ c.part then (0x82, none) else if v.unloading then (0x87, none) else (0, some v)

/-- Runs a command on the variant that it names. -/
def onVariant (c : Cmd) (opcode : Nat) (used : List (Nat × Nat)) (s : State) (k : Nat → Variant → State) : State :=
  match cmdCheck c opcode 0 used with
  | some st => refuse c st s
  | none => match namedVariant s c with
    | (_, some v) => k c.obj.toNat v
    | (st, none) => refuse c st s

/-- What a VARIANT_UNLOAD does (R407, R415). -/
def variantUnloadOp (c : Cmd) (s : State) : State :=
  onVariant c 0x29 [] s fun i v =>
    owe c (.variant i) (dropNodes c.part (fun _ n => n.variant = i) { s with serve := { s.serve with
      variants := tabSet none s.serve.variants i (some { v with unloading := true }) } })

/-- VARIANT_UNLOAD (R388, R390, R407, R415). -/
def execVariantUnload (c : Cmd) (s : State) : Res := mailbox c s (variantUnloadOp c s)

/-- What an EXPERT_PUBLISH does (R419, R420, R598, R883). Its reply names BEAT, from whose freeze it takes effect. -/
def expertPublishOp (c : Cmd) (s : State) : State :=
  onVariant c 0x2A [(32, 8)] s fun i v =>
    if c.beat.toNat ≤ (effectBeat s).toNat then refuse c 0x8F s
    else
      let m := readPart c.part (inl c 32 8) (sumNat (v.experts.map Expert.weightBytes)) s
      match m.2 with
      | .bad st k => answer c st k 0 m.1
      | .bytes _ => settle (sendReply (replyOf c 0 0 0 c.beat) (extendLog c.part 5 (cmdBytes c) { m.1 with serve := { m.1.serve with
          publishes := m.1.serve.publishes ++ [⟨i, c.beat, inl c 32 8, cmdBytes c⟩] } }))

/-- EXPERT_PUBLISH (R388, R390, R419, R420). -/
def execExpertPublish (c : Cmd) (s : State) : Res := mailbox c s (expertPublishOp c s)

/-! ### Prefix trees -/

/-- What a TREE_FLUSH does: every node of the partition leaves at the next Beat edge (R390). -/
def treeFlushOp (c : Cmd) (s : State) : State :=
  match cmdCheck c 0x30 0 [] with
  | some st => refuse c st s
  | none => answer c 0 0 0 { s with serve := { s.serve with
      flush := if s.serve.flush.contains c.part then s.serve.flush else s.serve.flush ++ [c.part] } }

/-- TREE_FLUSH (R390). -/
def execTreeFlush (c : Cmd) (s : State) : Res := mailbox c s (treeFlushOp c s)

/-- Frames of the partition that the steps of the order being built reserve (R328, R405). -/
def resvNeed (s : State) (part : Nat) : Nat :=
  match s.ro.published with
  | some o => sumNat ((o.steps.filter fun p => p.part = part).map fun p => p.copies + p.fresh.length)
  | none => 0

/-- Whether one more node of `pages` pages exceeds a limit of R405. -/
def treeFull (s : State) (part pages : Nat) : Bool :=
  (treeNodes s part).length + 1 > regF s (0x90208 + 0x40 * part) 22 0 ||
    4 * (sumNat (s.serve.nodes.map fun e => match e.2 with | some n => n.pages.length | none => 0) + pages) > 2 ^ 31 ||
    !framesCover s (resvNeed s part)

/-- The leaf node of a partition with the lowest LAST_USE, then the lowest index, but the node `keep` (R405). -/
def oldestLeaf (s : State) (part : Nat) (keep : Option Nat) : Option Nat :=
  ((treeNodes s part).filter fun e => e.2.children = 0 && some e.1 ≠ keep).foldl (fun best e =>
    match best with
    | none => some (e.1, e.2.lastUse)
    | some (k, u) => if e.2.lastUse.toNat < u.toNat then some (e.1, e.2.lastUse) else some (k, u)) none |>.map Prod.fst

/-- Evicts leaf nodes until a node fits (R405). -/
def evictFor (part pages : Nat) (keep : Option Nat) : Nat → State → State
  | 0, s => s
  | fuel + 1, s =>
    if !treeFull s part pages then s
    else match oldestLeaf s part keep with
      | none => s
      | some k => evictFor part pages keep fuel (bump 0x90054 (dropNodes part (fun i _ => i = k) s))

/-- The frames of the KV pages of chunk `c` of a request; none when a page is not mapped. -/
def chunkFrames (s : State) (req : Nat) (r : Request) (kvBytes c : Nat) : Option (List Nat) :=
  ((List.range (kvBytes / 1024)).map fun j => leafAt s r.part (kvBase req + c * 64 * kvBytes + 65536 * j)).foldr
    (fun x acc => match x, acc with | some w, some fs => some (leafFrame w :: fs) | _, _ => none) (some [])

/-- The lowest free node index of a partition's tree. -/
def freeNode (s : State) (part : Nat) : Nat :=
  let used := (treeNodes s part).map Prod.fst
  ((List.range (used.length + 1)).find? fun i => !used.contains i).getD 0

/-- The node that stands for a chunk, of whatever index its parent has: the identity folds in the chunks before it (R400, R404). -/
def chunkNode (s : State) (r : Request) (ident : List Byte) (c : Nat) : Option (Nat × Node) :=
  (treeNodes s r.part).find? fun e =>
    e.2.hash.toNat = leAt ident 0 8 && e.2.check.toNat = leAt ident 8 8 && e.2.variant = r.variant && e.2.depth = c

/-- The 128 bytes of a node (R401). -/
def nodeBytes (part : Nat) (n : Node) : List Byte :=
  let b := leBytes 8 n.hash.toNat ++ leBytes 8 n.check.toNat ++ leBytes 4 (n.parent.getD 0xFFFFFFFF) ++ leBytes 4 n.children ++
    leBytes 4 (n.next.getD 0xFFFFFFFF) ++ leBytes 1 part ++ leBytes 1 n.variant ++ leBytes 2 n.depth ++ leBytes 2 n.pages.length ++
    List.replicate 6 0 ++ leBytes 8 n.lastUse.toNat ++ List.replicate 76 0
  b ++ leBytes 4 (crc32c b)

/-- One queued update: chunk `c` of a request adopts the node it has, or takes a new one when chunk c − 1 is the request's LAST_NODE or
c is 0 (R404). -/
def treeChunk (req : Nat) (ids : List (List Byte)) (c : Nat) (s : State) : State :=
  match reqOf s req with
  | none => s
  | some r =>
    let parent := if c = 0 then none else r.lastNode
    let ident := ids.getD c []
    let depthOk := c = 0 || (match r.lastNode with
      | some k => (match tabGet none s.serve.nodes (2 ^ 22 * r.part + k) with | some n => n.depth + 1 = c | none => false)
      | none => false)
    match chunkNode s r ident c with
      | some e => setReq req (some { r with lastNode := some e.1 }) s
      | none =>
        if !depthOk then s
        else match variantOf s r with
        | none => s
        | some v =>
          match chunkFrames s req r v.desc.kvTokenBytes.toNat c with
          | none => s
          | some fs =>
            let s := evictFor r.part fs.length parent (treeNodes s r.part).length s
            if treeFull s r.part fs.length then s
            else
              let k := freeNode s r.part
              let n : Node :=
                { hash := BitVec.ofNat 64 (leAt ident 0 8), check := BitVec.ofNat 64 (leAt ident 8 8), parent := parent,
                  children := 0, next := none, variant := r.variant, depth := c, pages := fs, lastUse := s.beat.num }
              let s := fs.foldl (fun t f => raiseFrame f t) { s with serve := { s.serve with
                nodes := tabSet none s.serve.nodes (2 ^ 22 * r.part + k) (some n) } }
              modReq req (fun r => { r with lastNode := some k }) (relinkTree r.part s)

/-- The queued updates of one request, in ascending chunk number. -/
def treeRequest (req : Nat) (s : State) : State :=
  match reqOf s req with
  | none => s
  | some r =>
    let ids := chunkIdents r ((r.treeDue.foldl max 0) + 1)
    let s := r.treeDue.foldl (fun t c => treeChunk req ids c t) s
    modReq req (fun r => { r with treeDue := [] }) s

/-- TREE_UPDATE (R404 to R406): the updates queued during the ended Beat, one request at a time in ascending index. -/
def execTreeUpdate (part : Nat) (s : State) : Res :=
  need (part < 8) (.next ((reqsWhere s fun r => r.part = part && !r.treeDue.isEmpty).foldl (fun t i => treeRequest i t) s))

/-! ### Head-spread sets (R370) -/

/-- The field ranges of a head-spread record. -/
def spreadRecOk (r : SpreadRec) : Bool :=
  r.resvOk && 2 ≤ r.nmod.toNat && r.nmod.toNat ≤ 8 && r.rank.toNat < r.nmod.toNat && r.ngroup.toNat % r.nmod.toNat = 0 &&
    0 < r.ngroup.toNat && r.timeoutBeats.toNat ≤ 15 && r.qps.length = 8

/-- What a SPREAD_REG does (R370, R390). -/
def spreadRegOp (c : Cmd) (r : SpreadRec) (s : State) : State :=
  match cmdCheck c 0x38 48 [] with
  | some st => refuse c st s
  | none =>
    if !spreadRecOk r then refuse c 0x81 s
    else match tabGet none s.serve.sets r.setId.toNat with
      | some x => refuse c (if x.part ≠ c.part then 0x82 else 0x81) s
      | none => answer c 0 0 0 { s with serve := { s.serve with
          sets := tabSet none s.serve.sets r.setId.toNat (some ⟨c.part, r, false⟩) } }

/-- SPREAD_REG (R370, R390). -/
def execSpreadReg (c : Cmd) (r : SpreadRec) (s : State) : Res := mailbox c s (spreadRegOp c r s)

/-- Whether a registered set stays: one that is to leave stays while a request of it is live (R390). -/
def setStays (s : State) (k : Nat) (x : Option SpreadSet) : Bool :=
  match x with
  | some x => !(x.leaving && (liveWhere s fun r => r.spread = some k).isEmpty)
  | none => true

/-- Sets that are to leave go once no request of the set is live (R390). -/
def settleSets (s : State) : State :=
  { s with serve := { s.serve with sets := tabFilter (setStays s) s.serve.sets } }

/-- What a SPREAD_UNREG does (R390). -/
def spreadUnregOp (c : Cmd) (s : State) : State :=
  match cmdCheck c 0x39 0 [] with
  | some st => refuse c st s
  | none => match tabGet none s.serve.sets c.obj.toNat with
    | none => refuse c 0x81 s
    | some x => if x.part ≠ c.part then refuse c 0x82 s
      else answer c 0 0 0 (settleSets { s with serve := { s.serve with
        sets := tabSet none s.serve.sets c.obj.toNat (some { x with leaving := true }) } })

/-- SPREAD_UNREG (R388, R390). -/
def execSpreadUnreg (c : Cmd) (s : State) : Res := mailbox c s (spreadUnregOp c s)

/-! ### Fine-tuning -/

/-- What a TRAIN_SUBMIT does: it queues fine-tuning of the variant's private experts (R390, R417). -/
def trainSubmitOp (c : Cmd) (s : State) : State :=
  onVariant c 0x40 [(32, 8), (40, 4)] s fun i _ =>
    if inl c 40 4 = 0 then refuse c 0x81 s
    else answer c 0 0 0 { s with serve := { s.serve with
      train := s.serve.train ++ [⟨i, c.part, inl c 32 8, inl c 40 4, c.route, c.tag⟩] } }

/-- TRAIN_SUBMIT (R388, R390). -/
def execTrainSubmit (c : Cmd) (s : State) : Res := mailbox c s (trainSubmitOp c s)

end Sys2Proof.Machine
end

