-- ==== Sys2Proof/Machine/ThermOps.lean ====
section
/-! DEFINITION. Temperatures, throttle steps, stack levels and the peak guard (R816 to R832). -/

namespace Sys2Proof.Machine

open Sys2Proof

/-! ### Sensors -/

/-- The key of a die sensor: engines from 0, Stagehand groups from 40, video engines from 60, memory PHYs from 70. -/
def sensorKey : Sensor → Nat
  | .engine k => k | .shGroup g => 40 + g | .video k => 60 + k | .phy m => 70 + m

/-- Whether an operand names a sensor (R818). -/
def sensorName : Sensor → Bool
  | .engine k => k < 36 | .shGroup g => g < 12 | .video k => k < 5 | .phy m => m < 8

/-- Every die sensor. -/
def dieSensors : List Nat :=
  List.range 36 ++ (List.range 12).map (40 + ·) ++ (List.range 5).map (60 + ·) ++ (List.range 8).map (70 + ·)

/-- The cluster of a die sensor; 4 is the hub. -/
def sensorHome (k : Nat) : Nat := if k < 36 then k / 9 else if k < 52 then (k - 40) / 3 else 4

/-- The temperature of a unit: its sensor's, or, while that is excluded, the highest of the others of its cluster or of the hub plus
5 °C (R819). -/
def unitTemp (s : State) (k : Nat) : Int :=
  if s.therm.excluded.contains k then
    let others := dieSensors.filter fun j => j ≠ k && sensorHome j = sensorHome k && !s.therm.excluded.contains j
    (others.map fun j => tabGet 0 s.therm.sensors j).foldl max (match others.head? with | some j => tabGet 0 s.therm.sensors j | none => 0) + 5
  else tabGet 0 s.therm.sensors k

/-- The threshold of a unit (R822): engines take THERM_CTRL.ENG_LIMIT_C. -/
def unitLimit (s : State) (k : Nat) : Int := if k < 36 then (regF s 0xF0000 15 8 : Nat) else 95

/-! ### Records -/

/-- A unit reference of a sensor. -/
def sensorUnit (k : Nat) : Nat :=
  if k < 36 then unitCode (engRef k)
  else if k < 52 then unitCode ⟨.stagehand, (k - 40) / 3, 6 * ((k - 40) % 3)⟩
  else if k < 65 then unitCode ⟨.video, 0, k - 60⟩
  else unitCode ⟨.phy, 0, k - 70⟩

/-- A THERMAL record (R832). -/
def logTherm (cause action unit : Nat) (s : State) : State :=
  logEvent { evBase s 12 cause action with origin := originOf 7 true, unit := unit } s

/-! ### Steps (R821 to R826) -/

def stepOf (s : State) (k : Nat) : Nat := tabGet 0 s.therm.steps k
def setStep (k v : Nat) (s : State) : State := { s with therm := { s.therm with steps := tabSet 0 s.therm.steps k v } }

/-- A time at step 0, in whatever unit, at a throttle step: step v runs at (16 − v)/16 of the clock, and boost, 0xF, at 16/15 of it. -/
def clockTime (step t : Nat) : Nat := if step = 15 then cdiv (15 * t) 16 else cdiv (16 * t) (16 - step)

/-- The cause of a unit's throttle records. -/
def stepCause (k : Nat) : Nat := if k < 36 then 1 else 3

/-- One step down, to the floor of step 8; from boost the unit goes to step 0 (R826). A unit that leaves step 0 writes a record
(R832). -/
def stepDown (k : Nat) (s : State) : State :=
  let v := stepOf s k
  if v = 8 then s
  else
    let s := bump 0xF0040 (setStep k (if v = 15 then 0 else v + 1) s)
    if v = 0 then logTherm (stepCause k) 0 (sensorUnit k) s else s

/-- One step up; a unit that returns to step 0 writes a record. -/
def stepUp (k : Nat) (s : State) : State :=
  let v := stepOf s k
  if v = 0 || v = 15 then s
  else
    let s := setStep k (v - 1) s
    if v = 1 then logTherm (stepCause k) 0 (sensorUnit k) s else s

/-- Whether 100 µs have passed since a unit's last step down (R822). -/
def mayStepDown (s : State) (k : Nat) : Bool :=
  let t := tabGet 0 s.therm.lastDown k
  t = 0 || t + 100 ≤ s.time + 1

/-- What a reading does to its unit (R822, R825). -/
def throttleUnit (k : Nat) (s : State) : State :=
  let t := unitTemp s k
  let lim := unitLimit s k
  let s := if t > lim - 5 && !s.therm.warm.contains k then { s with therm := { s.therm with warm := k :: s.therm.warm } } else s
  let s := if k < 36 && t > 90 && !s.therm.warm90.contains k then { s with therm := { s.therm with warm90 := k :: s.therm.warm90 } } else s
  let hotOut := k < 36 && t ≥ 105 && stepOf s k = 8 && !s.therm.leftOut.contains k
  let s := if hotOut then
      logTherm 7 0 (sensorUnit k) { s with therm := { s.therm with
        leftOut := k :: s.therm.leftOut, cooled := s.therm.cooled.filter (· ≠ k) } }
    else s
  if t > lim && mayStepDown s k then
    stepDown k { s with therm := { s.therm with lastDown := tabSet 0 s.therm.lastDown k (s.time + 1) } }
  else s

/-! ### Stack levels (R822) -/

def stackOf (s : State) (m : Nat) : Stack := tabGet Stack.init s.hbm.hbmStacks m
def setStack (m : Nat) (x : Stack) (s : State) : State :=
  { s with hbm := { s.hbm with hbmStacks := tabSet Stack.init s.hbm.hbmStacks m x } }

/-- The level that a temperature calls for, above thresholds that lie 5 °C apart from `base`. -/
def levelFor (base t : Int) : Nat := if t > base + 10 then 3 else if t > base + 5 then 2 else if t > base then 1 else 0

/-- The level that a stack's own sensor and its PHY call for. -/
def stackWants (s : State) (m : Nat) : Nat := max (levelFor 85 (stackOf s m).tempC) (levelFor 95 (unitTemp s (70 + m)))

/-- Whether a stack at a level is 3 °C below the level's thresholds. -/
def stackCool (s : State) (m level : Nat) : Bool :=
  (stackOf s m).tempC ≤ 80 + 5 * (level : Int) - 3 && unitTemp s (70 + m) ≤ 90 + 5 * (level : Int) - 3

/-- What a reading does to its stack: the level rises at once (R822). -/
def throttleStack (m : Nat) (s : State) : State :=
  let x := stackOf s m
  let w := stackWants s m
  let s := if w > x.level then
      let s := bump 0xF0044 (setStack m { x with level := w } s)
      if x.level = 0 then logTherm 2 0 (0x4000 + m) s else s
    else s
  let lv := (stackOf s m).level
  let since := tabGet 0 s.therm.coolSince m
  let since' := if lv > 0 && stackCool s m lv then (if since = 0 then s.time + 1 else since) else 0
  { s with therm := { s.therm with coolSince := tabSet 0 s.therm.coolSince m since' } }

/-- A stack goes one level up at a Beat edge after 10 ms of cool readings. -/
def stackEdge (s : State) (m : Nat) : State :=
  let x := stackOf s m
  let since := tabGet 0 s.therm.coolSince m
  if x.level = 0 || since = 0 || s.time + 1 < since + 10000 then s
  else
    let s := setStack m { x with level := x.level - 1 } { s with therm := { s.therm with coolSince := tabSet 0 s.therm.coolSince m 0 } }
    let s := if x.level = 1 then logTherm 2 0 (0x4000 + m) s else s
    throttleStack m s

/-- A unit goes one step up at a Beat edge after a whole Beat at or below its threshold less 5 °C, at most once in 10 ms
(R822, R828). -/
def unitEdge (s : State) (k : Nat) : State :=
  let v := stepOf s k
  let up := tabGet 0 s.therm.lastUp k
  if v = 0 || v = 15 || v ≤ tabGet 0 s.therm.guardSteps k || s.therm.warm.contains k || unitTemp s k > unitLimit s k - 5 ||
      (up ≠ 0 && s.time + 1 < up + 10000) then s
  else stepUp k { s with therm := { s.therm with lastUp := tabSet 0 s.therm.lastUp k (s.time + 1) } }

/-! ### The peak guard (R816, R817) -/

/-- Whether the average of the last 1,000 IN54 samples lies above a limit in W. -/
def guardAbove (s : State) (w : Nat) : Bool :=
  s.therm.recent.length = 1000 && sumNat s.therm.recent > 10 * w * 1000

/-- Every engine in service steps down once. -/
def guardStep (s : State) : State :=
  (List.range 36).foldl (fun t k =>
    if stepOf t k = 8 then t
    else
      let t := stepDown k t
      { t with therm := { t.therm with guardSteps := tabMod 0 t.therm.guardSteps k (· + 1) } }) s

/-- The guard's steps are released at a Beat edge, one per engine (R817). -/
def guardEdge (s : State) : State :=
  if !s.therm.guardOn || sumNat s.therm.recent > 10 * s.energy.cap * s.therm.recent.length then s
  else
    let s := (List.range 36).foldl (fun t k =>
      if tabGet 0 t.therm.guardSteps k = 0 then t
      else stepUp k { t with therm := { t.therm with guardSteps := tabMod 0 t.therm.guardSteps k (· - 1) } }) s
    if s.therm.guardSteps.isEmpty then logTherm 4 0 0xFFFF { s with therm := { s.therm with guardOn := false } } else s

/-! ### Boost (R826) -/

/-- Whether the running Running Order carries a SELFTEST entry for an engine. -/
def selftestOn (s : State) (e : Nat) : Bool :=
  match (engOf s e).serv.role with
  | some l => (match s.ro.running with
    | some o => o.entries.zipIdx.any fun q => eKind q.1 = 4 &&
        (eTarget q.1 = l || ((sliceArgs o q.2).kind = 0 && (sliceArgs o q.2).unit = l))
    | none => false)
  | none => false

/-- Boost at a Beat edge: whether the planner sets an engine to it is a free choice (notes/assumptions/12.md). -/
def boostEdge (s : State) (e : Nat) : State :=
  let may := regF s 0xF0000 0 0 = 1 && unitTemp s e ≤ 85 && !selftestOn s e
  let v := stepOf s e
  if v = 0 && may && Config.boostWanted e s.free then setStep e 15 s
  else if v = 15 && !(may && Config.boostWanted e s.free) then setStep e 0 s
  else s

/-- Every change of a step or level at a Beat edge. -/
def thermEdge (s : State) : State :=
  let units := List.range 36 ++ (List.range 12).map (40 + ·) ++ (List.range 5).map (60 + ·)
  let s := units.foldl unitEdge (guardEdge s)
  let s := (List.range 8).foldl stackEdge s
  let s := (List.range 36).foldl boostEdge s
  let cooled := s.therm.cooled ++ s.therm.leftOut.filter fun k => !s.therm.warm90.contains k && unitTemp s k ≤ 90 && !s.therm.cooled.contains k
  drawn { s with therm := { s.therm with cooled := cooled, warm := [], warm90 := [] } }

/-- Engines that return at a freeze (R825). -/
def thermHalf (s : State) : State :=
  { s with therm := { s.therm with
      leftOut := s.therm.leftOut.filter fun k => !s.therm.cooled.contains k, cooled := [] } }

/-! ### Shutdown (R829, R830) -/

/-- A thermal shutdown: a THERMAL record, and a device reset with the main regulators off. -/
def thermalShutdown (s : State) : State :=
  let s := bump 0xF004C (logTherm 5 5 0xFFFF s)
  deviceReset true true false { s with therm := { s.therm with shutdown := true, shutAtUs := s.time, shutLast := true } }

end Sys2Proof.Machine
end

