-- ==== Sys2Proof/Machine/HalfOps.lean ====
section
/-! DEFINITION. The Half (R45 to R54): what the Stage Manager may publish, the fallback Running Order, and how a Running Order is
frozen, validated and staged. -/

namespace Sys2Proof.Machine

open Sys2Proof

/-! ### The next Beat -/

/-- The period of the next Beat, once the next The Half has passed (R34). -/
def nextPeriod (s : State) : Nat := (if s.beat.halfPassed then s.beat.periodNext else s.beat.periodPend).getD s.beat.period

/-- The number of the next Beat (R42, R653). -/
def nextNum (s : State) : DWord :=
  match s.pair.resync with
  | .pairing true b0 => b0
  | _ => s.beat.num + 1

/-- Whether the module plans and freezes its own Running Orders (R631, R659): an Understudy that takes the lead at the next edge does,
and the Lead that gives it up does not. -/
def freezesOwn (s : State) : Bool :=
  match s.pair.mode with
  | .solo => true
  | .lead => s.pair.swapBeat ≠ some s.beat.num
  | .understudy => s.pair.swapBeat = some s.beat.num
  | _ => false

/-! ### The fallback (R48) -/

/-- Sets the CRC of an entry (R51). -/
def sealEntry (e : Entry) : Entry := { e with w7 := setFld e.w7 63 32 (crc32c ((entryBytes e).take 60)) }

/-- A WINDOW entry that spans the Scene. -/
def wholeWindow (le index period : Nat) : Entry :=
  sealEntry
    { w0 := BitVec.ofNat 64 (2 ^ 60 + le * 2 ^ 48), w1 := BitVec.ofNat 64 (0xFFFF * 2 ^ 48), w2 := 0, w3 := 0, w4 := 0,
      w5 := BitVec.ofNat 64 period, w6 := BitVec.ofNat 64 (0xFFFF * 2 ^ 40 + period), w7 := BitVec.ofNat 64 index }

/-- Whether an engine is left out of the next order: too hot (R825), being checked again after a failed slice (R733), or on the cluster
that takes new parts in a live roll (R808). -/
def engineOut (s : State) (le : Nat) : Bool :=
  match engSlot s le with
  | none => false
  | some k =>
    (s.therm.leftOut.contains k && !s.therm.cooled.contains k) || unitDoubted s (engRef k) ||
      clusterRolls (k / 9)
where
  /-- The cluster that the order of the running Beat's The Half leaves out. -/
  clusterRolls (c : Nat) : Bool :=
    match s.upd.live with | some l => decide (l.step = c + 1) | none => false

/-- The holder of each pool flat when every partition holds its guarantee and nothing is lent (R244): the flats go to the partitions
in ascending order, from the lowest on, which is a DESIGN CHOICE (notes/assumptions/101.md). -/
def guarHolder (s : State) (f : Nat) : Nat :=
  let hs := ((List.range 8).filter fun n => partEnabled s n && !partShort s n).flatMap fun n =>
    List.replicate (tabGet 4 s.flies.guar n) n
  (((poolFlats s).zip hs).find? fun p => p.1 = f).elim 0xD Prod.snd

/-- The fallback Running Order: only Walk-on windows, one on each logical engine in service that is not left out. -/
def fallbackOrder (s : State) : Order :=
  let les := (List.range 32).filter fun l => (engSlot s l).isSome && !engineOut s l
  let period := nextPeriod s
  let h : RoHeader :=
    { beatNo := nextNum s, entryCount := BitVec.ofNat 16 les.length, xlistCount := 0, periodUs := BitVec.ofNat 32 period,
      eBudgetUj := BitVec.ofNat 32 ((if s.beat.halfPassed then s.energy.capNext else s.energy.capPend).getD s.energy.cap * period), eDrawUj := 0, walkonUj := 0,
      walkonEus := BitVec.ofNat 32 (les.length * period), configDigest := tabGet 0 s.sec.meas 9, coefGen := s.energy.gen,
      resv := List.replicate 40 0, crc := 0 }
  { hdr := { h with crc := BitVec.ofNat 32 (crc32c (headerBytes h)) }, entries := les.zipIdx.map fun p => wholeWindow p.1 p.2 period, xlist := [],
    jobs := [], steps := [], plans := [], flats := (List.range 128).map fun f =>
      let x := flatOf s f
      if x.retired then ⟨0xE, false⟩ else match areaOf s f with
        | some a => ⟨areaCodes.getD a 8, false⟩
        | none => ⟨guarHolder s f, false⟩ }

/-! ### What the Stage Manager publishes -/

/-- The WINDOW entries of an order as spans of the Scene. -/
def windowSpans (o : Order) : List (Nat × Nat) :=
  (o.entries.filter fun e => eKind e = 1).map fun e => (eEarliest e, eDeadline e)

/-- The spans in which the windows are open for sure: each may begin with a clear of 2 µs (R67). -/
def openSpans (o : Order) : List (Nat × Nat) := (windowSpans o).map fun x => (if x.1 = 0 then 2 else x.1 + 2, x.2)

/-- Whether spans cover everything from `t` to `period` (R63). -/
def spansCover (xs : List (Nat × Nat)) (period : Nat) : Nat → Nat → Bool
  | 0, t => t ≥ period
  | fuel + 1, t =>
    if t ≥ period then true
    else
      let t' := xs.foldl (fun m x => if x.1 ≤ t then max m x.2 else m) t
      if t' = t then false else spansCover xs period fuel t'

/-! #### What the planner sees of the clocks (R827) -/

/-- The slower of two steps. -/
def slower (a b : Nat) : Nat := if a = 15 then b else if b = 15 then a else max a b

/-- The step of a logical engine as the planner takes it: in a pair the Lead plans on the lower clock of the two (R636). -/
def planStepOf (s : State) (le : Nat) : Nat :=
  let own := match engSlot s le with | some k => stepOf s k | none => 0
  match s.pair.partner with
  | some b => if leads s then slower own (fld b.clk (4 * le + 3) (4 * le)) else own
  | none => own

/-- The step with which an entry is predicted; an "any" entry may land on the slowest engine that takes part. -/
def entryStep (s : State) (e : Entry) : Nat :=
  if eTarget e = 0xFF then
    ((List.range 32).filter fun l => (engSlot s l).isSome && !engineOut s l).foldl (fun m l => slower m (planStepOf s l)) 15
  else planStepOf s (eTarget e)

/-- The fraction of 7.68 TB/s that the lowest stack allows, in percent (R822, R827). -/
def bandwidthPct (s : State) : Nat :=
  [100, 75, 50, 25].getD ((List.range 8).foldl (fun m k => max m (stackOf s k).level) 0) 25

/-- The predicted time of a registered slot program that is not suspended, on a window's engine (R64, R66). -/
def longestSlot (s : State) (period step : Nat) : Nat :=
  s.board.slots.foldl (fun m e => if e.2.reg.isSome && period ≥ 4 * (e.2.predUs + 2) then max m (clockTime step e.2.predUs) else m) 0

/-- R62 to R64: the windows of an order. R63 does not apply while a cutover holds work off (R653). -/
def windowsOk (s : State) (o : Order) : Bool :=
  let xs := openSpans o
  let period := nextPeriod s
  let pct := regF s 0x1000C 5 0
  let holdOff := (match s.pair.resync with | .cutover _ => true | _ => false)
  100 * sumNat ((windowSpans o).map fun x => x.2 - x.1) ≥ pct * 32 * period &&
  (holdOff || spansCover xs period xs.length 2) &&
  o.entries.all fun e => eKind e ≠ 1 || eEarliest e + longestSlot s period (entryStep s e) + 2 ≤ eDeadline e

/-- R85: the energy budget of the next Beat. -/
def nextBudget (s : State) : Nat :=
  (if s.beat.halfPassed then s.energy.capNext else s.energy.capPend).getD s.energy.cap * nextPeriod s

/-- The reserve against which an order is planned: in a pair the lesser of the two (R636). -/
def planReserve (s : State) : Int :=
  match s.pair.partner with
  | some b => if leads s then min s.energy.reserve (1000 * b.reserveMj) else s.energy.reserve
  | none => s.energy.reserve

/-- R636: the pair unit map holds only the logical engines that the partner has in service too. -/
def pairPlanned (s : State) (e : Entry) : Bool :=
  eKind e = 4 || eTarget e = 0xFF || !leads s ||
    match s.pair.partner with
    | some b => b.leMap.getLsbD (eTarget e)
    | none => true

/-- E_base: the base energy of the last closed Beat, for the period of the next one (R90). -/
def predictedBase (s : State) : Nat := (s.energy.lastBase * nextPeriod s / (s.energy.lastBaseUs : Int)).toNat

/-- R32, R85, R90 to R92: the order's energy. -/
def energyOk (s : State) (o : Order) : Bool :=
  let e := nextBudget s
  let reserve := planReserve s
  let draw := o.hdr.eDrawUj.toNat
  let plan := predictedBase s + sumNat ((o.entries.filter fun x => eKind x ≠ 1).map ePredUj) + o.hdr.walkonUj.toNat
  let free : Int := reserve - s.energy.drawRunning
  let budget : Int := if reserve < 0 then (e : Int) + reserve else e
  o.hdr.eBudgetUj.toNat = e && (plan : Int) ≤ budget + draw && (64 * draw ≤ regF s 0x20008 5 0 * e) && (draw = 0 || (draw : Int) ≤ free)

/-! #### Predictions (R27, R60, R77, R827, R887) -/

/-- The measured time of the cut attempt that an entry's step carries: the longest of its requests (R77). -/
def carriedUs (s : State) (o : Order) (e : Entry) : Option Nat :=
  (o.steps.find? fun p => p.part = ePart e && p.stepId.toNat = eStep e).bind fun p =>
    p.reqs.foldl (fun m i => match (reqOf s i).bind Request.carry, m with
      | some c, some d => some (max c d)
      | some c, none => some c
      | none, m => m) none

/-- The partitions of which an engine may hold something when an entry of its queue starts: those of the entry before it, or, for the
first of the queue, of the engine and of its queue in the running Beat. None stands for an unknown one: a Walk-on's or a self-test's. -/
def partsBefore (s : State) (o : Order) (i : Nat) (e : Entry) : List (Option Nat) :=
  let of (x : Entry) : Option Nat := if eKind x = 1 || eKind x = 4 then none else some (ePart x)
  match ((o.entries.take i).filter fun x => eTarget x = eTarget e).getLast? with
  | some x => [of x]
  | none =>
    (match engSlot s (eTarget e) with | some k => [(engOf s k).serv.lastPart] | none => [none]) ++
      ((runEntries s).filter fun q => eTarget q.2 = eTarget e).map fun q => of q.2

/-- Whether the predicted time of an entry includes the clear (R27, R60). -/
def needsClear (s : State) (o : Order) (i : Nat) (e : Entry) : Bool :=
  eTarget e = 0xFF || (partsBefore s o i e).any (· ≠ some (ePart e))

/-- The time that the builder predicts for an entry, in ns: the slower of its program on the engine's clock and of its transfers at
the memory's bandwidth. DESIGN CHOICE: how the two join (notes/assumptions/90.md). -/
def builtNs (s : State) (e : Entry) (p : EntryPlan) : Nat :=
  max (clockTime (entryStep s e) p.clockNs) (cdiv (100 * p.memNs) (bandwidthPct s)) + if p.clear then 2000 else 0

/-- The predicted time of an entry, in ns: of a carried step, the measured time of the cut attempt plus 25 % (R77). -/
def entryNs (s : State) (o : Order) (e : Entry) (p : EntryPlan) : Nat :=
  match carriedUs s o e with
  | some m => 1250 * m + if p.clear then 2000 else 0
  | none => builtNs s e p

/-- A coefficient as the planner takes it: in a pair the Lead plans on the greater of the two modules' (R636). -/
def planCoef (s : State) (k : Nat) : Nat :=
  let own := tabGet 0 s.energy.coef k
  if leads s && s.pair.mode ≠ .solo then max own (s.pair.partnerCoef.getD k 0) else own

/-- pred_uj in 2 to the −16 pJ units of its coefficients: the clusters that the entry may run on. -/
def predCost (s : State) (c ns : Nat) (p : EntryPlan) : Nat :=
  ns * planCoef s (17 * c + 16) +
    1000 * sumNat ((List.range 15).map fun k => p.counts.getD k 0 * planCoef s (17 * c + k))

/-- PRED_UJ (R887): pred_uj rounded up; an "any" entry takes the dearest cluster. -/
def predUjOf (s : State) (e : Entry) (ns : Nat) (p : EntryPlan) : Nat :=
  let cs := if eTarget e = 0xFF then List.range 4 else [eTarget e / 8]
  cdiv (cs.foldl (fun m c => max m (predCost s c ns p)) 0) 65536000

/-- PRED_US of every entry, and the clear where it is due: windows are spans, and a slice's time is its test's. -/
def timesPlanned (s : State) (o : Order) : Bool :=
  o.entries.zipIdx.all fun q => eKind q.1 = 1 || eKind q.1 = 4 ||
    (let p := planOf o q.2
     ePredUs q.1 = cdiv (entryNs s o q.1 p) 1000 && (p.clear || !needsClear s o q.2 q.1))

/-- What the builder puts into an order with the coefficient set of its time (R95, R887), the engine time that its windows hold, and the
Cue Light windows of its argument blocks (R120). -/
def orderCosted (s : State) (o : Order) : Bool :=
  o.hdr.coefGen = s.energy.gen && o.hdr.walkonEus.toNat = sumNat ((windowSpans o).map fun x => x.2 - x.1) &&
    o.entries.zipIdx.all fun q => eKind q.1 = 1 || eKind q.1 = 4 ||
      (let p := planOf o q.2
       ePredUj q.1 = predUjOf s q.1 (entryNs s o q.1 p) p &&
         clFits p.clBase p.clCount (match imageAt s (eProg q.1) with | some (_, x) => x.clMax | none => 0))

/-! #### Steps and entries -/

/-- Whether a KEY_DROP_PART or a PART_DISABLE of a partition is pending: the planner places nothing of it any more (R611, R617). -/
def partLeaves (s : State) (part : Nat) : Bool := s.sec.acts.any fun a => a.part = part && a.act ≠ .reset

/-- R83, R122, R127, R129: an entry's partition has allowance, and its image the flats that it needs; a TRAIN entry runs an image that may,
and an image that is to be unloaded is not planned. -/
def entryPlanned (s : State) (e : Entry) : Bool :=
  eKind e = 1 || eKind e = 4 ||
    (!partDeferred s (ePart e) && !partLeaves s (ePart e) && match imageAt s (eProg e) with
      | some (_, x) => x.flMin ≤ 65536 * (eCnt0 e + eCnt1 e) && (x.train || eKind e ≠ 2) && !x.unloading
      | none => true)

/-- Whether a step may be planned for a request of a partition: it is live, and no PAUSE or CANCEL stands against it (R390, R395,
R441). -/
def reqPlanned (s : State) (part i : Nat) : Bool :=
  match reqOf s i with
  | some r => r.part = part && r.state.live && r.state ≠ .paused && !r.pausePending && !r.cancelled
  | none => false

/-- Whether a request's previous step has not committed yet: it is under way, or frozen for the next Beat (R49). -/
def stepAhead (s : State) (i : Nat) : Bool :=
  s.serve.groups.any (fun g => g.plan.reqs.contains i) ||
    match s.ro.frozen with | some o => o.steps.any fun p => p.reqs.contains i | none => false

/-- R49, R83, R334: a step's requests have committed their previous step, its partition has allowance, and a step that writes KV has a
STEP_ID of its own. -/
def stepPlanned (s : State) (p : StepPlan) : Bool :=
  p.reqs.all (fun i => !stepAhead s i && reqPlanned s p.part i) && !partDeferred s p.part && !partLeaves s p.part &&
    (p.stepId ≠ 0xFFFF || (p.ntok.all (· = 0) && p.fresh = [])) && p.copies + p.fresh.length ≤ 8192 &&
    p.fresh.all fun va => va % 65536 = 0 && (match kvOwner va with | some i => p.reqs.contains i | none => false)

/-- Frames that the steps of an order need reserved, but those of Walk-ons, whose slots hold theirs (R328). -/
def framesNeeded (o : Order) : Nat := sumNat ((o.steps.filter fun p => p.slot.isNone).map fun p => p.copies + p.fresh.length)

/-- The rank of a step among the candidates (R71, R79, R81, R417): Walk-ons that are still pending, then promoted requests, then the
others by the first in rank of their requests, and training last. -/
def stepKey (s : State) (p : StepPlan) : Nat :=
  let rs := p.reqs.filterMap fun i => (reqOf s i).map fun r => (r, i)
  let cls := if p.slot.isSome then 0 else if rs.any (fun q => q.1.promoted) then 1 else if p.train then 3 else 2
  cls * 2 ^ 90 + rs.foldl (fun m q => min m (rankKey q.1 q.2)) (2 ^ 89)

/-- Whether numbers never fall. -/
def rising : List Nat → Bool
  | a :: b :: t => a ≤ b && rising (b :: t)
  | _ => true

/-- Whether the next order has to hold a step of a request: it is promoted, it would not be given a step within MAX_WAIT Beats, or its
step is carried or retried (R77, R81, R82, R443). A carried step whose predicted time exceeds the period has no place in any order. -/
def mustPlan (s : State) (i : Nat) (r : Request) : Bool :=
  r.state.live && reqPlanned s r.part i && !stepAhead s i && !partDeferred s r.part &&
    (match r.carry with | some m => decide (cdiv (5 * m) 4 ≤ nextPeriod s) | none => true) &&
    (r.promoted || r.carry.isSome || r.retry ||
      ((r.state = .prefill || r.state = .decode) && regF s 0x1000C 23 16 ≤ r.age + 1))

/-- R49, R77, R79, R81, R82: one step for a request, in the order of rank, and none left out that the order has to hold. -/
def stepsPlanned (s : State) (o : Order) : Bool :=
  noDup (o.steps.flatMap StepPlan.reqs) && rising (o.steps.map (stepKey s)) &&
    s.serve.reqs.all fun e => match e.2 with
      | some r => !mustPlan s e.1 r || o.steps.any fun p => p.reqs.contains e.1
      | none => true

/-- R71: a slot whose Walk-on The Half found pending, or whose step is planned again, has its step in the order. -/
def slotsPlanned (s : State) (o : Order) : Bool :=
  s.board.slots.all fun e =>
    let due := match e.2.reg with
      | some p => reqPlanned s p e.2.req && !stepAhead s e.2.req && !partDeferred s p
      | none => false
    e.2.state ≠ .planned || !due || o.steps.any fun p => p.slot = some e.1 && p.reqs.contains e.2.req

/-- R444: a retried step stands on none of the units that its failure records name, while another of the kind is in service. -/
def retryPlanned (s : State) (o : Order) (p : StepPlan) : Bool :=
  let avoid := (p.reqs.filterMap fun i => (reqOf s i).map Request.avoid).flatten.map BitVec.toNat
  let engines := (List.range 32).filterMap (engSlot s)
  let other := engines.any fun k => !avoid.contains (unitCode (engRef k))
  let samplers := (List.range 4).filter fun c => (tabGet Sampler.init s.serve.samplers c).phys.isSome
  (o.entries.all fun e => eKind e = 1 || eKind e = 4 || ePart e ≠ p.part || eStep e ≠ p.stepId.toNat ||
    ((!other || (match engSlot s (eTarget e) with
        | some k => !avoid.contains (unitCode (engRef k))
        | none => avoid.all fun u => u ≥ 0x1000)) &&
      (eFlats e).all fun f => !avoid.contains (0x3000 + f))) &&
  o.jobs.all fun j => j.part ≠ p.part || j.stepId ≠ p.stepId || !avoid.contains (0x2000 + 256 * j.cluster) ||
    samplers.all fun c => avoid.contains (0x2000 + 256 * c)

/-- Whether an entry may stand on its engine: not on one that is left out, but for a self-test of it after a failed slice. -/
def targetPlanned (s : State) (e : Entry) : Bool :=
  !engineOut s (eTarget e) || (eKind e = 4 && !engineOut.clusterRolls s ((engSlot s (eTarget e)).getD 0 / 9))

/-- R636: the pair unit map holds only the Samplers that the partner has in service too; its CONFIG record names them. -/
def samplerPaired (s : State) (c : Nat) : Bool :=
  !leads s || match s.pair.partnerCfg with
    | some x => x.samplers.getLsbD c
    | none => true

/-- Whether a Sampler job stands on a Sampler in service that is not left out (R84, R636, R733, R808), with three flats of its partition
(R249, R250, R262). -/
def jobPlanned (s : State) (o : Order) (j : SamplerJob) : Bool :=
  samplerPaired s j.cluster &&
  !engineOut.clusterRolls s j.cluster && noDup [j.flat0, j.flat1, j.flat2] &&
    [j.flat0, j.flat1, j.flat2].all (fun f => (o.flats.getD f ⟨0xD, false⟩).holder = j.part) &&
    match (tabGet Sampler.init s.serve.samplers j.cluster).phys with
    | some p => !unitDoubted s (samplerRef p)
    | none => false

/-- The unit that a slice of an order tests, as the codes KIND and UNIT of R706, and those that a running order's logical numbers
give it: the physical slot on this module (R711). -/
def sliceUnit (s : State) (a : SliceArgs) : Option UnitRef :=
  match a.kind with
  | 0 => (engSlot s a.unit).map engRef
  | 1 => (shSlot s a.unit).map shRef
  | 2 => if a.unit < 4 then (tabGet Sampler.init s.serve.samplers a.unit).phys.map samplerRef else none
  | 6 => if a.unit < 4 then ((inventory s).video.findIdx? (· = a.unit)).map fun k => ⟨.video, 0, k⟩ else none
  | 7 => if a.unit ≥ 2 then none else ((inventory s).walker.findIdx? (· = a.unit)).map fun k => ⟨.walker, 0, k⟩
  | _ => none

/-- Slices of a unit's test (R734); the known-answer run has ten parts at most (R710). -/
def sliceCount (kind : UnitKind) (test : Nat) : Nat :=
  match kind, test with
  | .engine, 1 => 12 | .engine, 2 => 24 | .stagehand, 1 => 4 | .stagehand, 2 => 4 | .sampler, 1 => 3 | .walker, 1 => 2
  | .video, 1 => 6 | .video, 2 => 1 | .flat, 2 => 1 | .phy, 3 => 1 | .port, 4 => 1 | .clock, 5 => 1 | .clock, 6 => 1 | .clock, 7 => 1
  | .engine, 0x10 => 10 | .stagehand, 0x10 => 10 | .sampler, 0x10 => 10 | .walker, 0x10 => 10 | .video, 0x10 => 10
  | _, _ => 0

/-- Whether two spans of a Scene overlap. -/
def spansMeet (x y : Entry) : Bool := eEarliest y < eDeadline x && eEarliest x < eDeadline y

/-- The earliest that a Sampler job can begin: with the first entry of its step. DESIGN CHOICE: a job has no span of its own
(notes/assumptions/44.md). -/
def jobFrom (o : Order) (j : SamplerJob) : Nat :=
  ((o.entries.filter fun e => eKind e = 0 && ePart e = j.part && eStep e = j.stepId.toNat).map eEarliest).foldl min (2 ^ 32)

/-- R710: whether something else stands on the unit of a slice within its span: another slice of the unit, an entry or a window of its
engine, or a job of its Sampler. -/
def sliceMeets (o : Order) (i : Nat) (x : Entry) : Bool :=
  let a := sliceArgs o i
  (o.entries.zipIdx.any fun q => q.2 ≠ i && spansMeet x q.1 &&
    ((eKind q.1 = 4 && (sliceArgs o q.2).kind = a.kind && (sliceArgs o q.2).unit = a.unit) ||
      (a.kind = 0 && eTarget q.1 = a.unit) || (eTarget x ≠ 0xFF && eTarget q.1 = eTarget x))) ||
    (a.kind = 2 && o.jobs.any fun j => j.cluster = a.unit && jobFrom o j < eDeadline x)

/-- The slice of an entry on this module. -/
def sliceOf (s : State) (o : Order) (i : Nat) (e : Entry) : Option Slice :=
  let a := sliceArgs o i
  (sliceUnit s a).map fun u => ⟨a.test, a.slice, u, true, ePredUs e, i⟩

/-- Whether two slices are the same slice of the same unit's test. -/
def sameSlice (x y : Slice) : Bool := x.test = y.test && x.slice = y.slice && x.unit = y.unit

/-- Whether an order holds a slice. -/
def holdsSlice (s : State) (o : Order) (x : Slice) : Bool :=
  o.entries.zipIdx.any fun q => eKind q.1 = 4 && (match sliceOf s o q.2 q.1 with | some y => sameSlice x y | none => false)

/-- Parts of the self-check: below 3,000 µs it takes ten Beats (R650, R710). -/
def selfPartCount (s : State) : Nat := if s.beat.period < 3000 then 10 else 1

/-- The engines whose self-check has not passed, and its next part (R650). -/
def selfLeft (s : State) : List (Nat × Nat) :=
  ((List.range 32).filterMap fun l => if engineOut s l then none else engSlot s l).filterMap fun k =>
    ((List.range (selfPartCount s)).find? fun p => !s.pair.selfParts.contains (k, p)).map fun p => (k, p)

/-- The slices that the next Running Order has to hold: those aborted 16 times in a row (R730), the second run of a failed one within
8 Beats (R733), and, of the Lead, the self-check (R650). -/
def slicesDue (s : State) : List Slice :=
  s.bist.starved ++
    (s.bist.recheck.filter fun q => q.1.planned && !decide (nextNum s < q.2 + 8)).map Prod.fst ++
    if s.pair.mode = .lead && s.pair.selfOwn = .planned && !decide (nextNum s < s.pair.selfBeat) then
      (selfLeft s).map fun p => ⟨0x10, p.2, engRef p.1, true, 0, 0⟩
    else []

/-- R706, R708 to R710, R730, R733: every slice names a unit and a slice of its test, of 200 µs at most but for the known-answer run;
nothing else stands on its unit in its span; none is planned while BIST_CTRL.EN is 0, and none that is due is left out. -/
def slicesPlanned (s : State) (o : Order) : Bool :=
  (o.entries.zipIdx.all fun q => eKind q.1 ≠ 4 ||
    (let a := sliceArgs o q.2
     regF s 0xE0000 0 0 = 1 && !a.resv && (match sliceUnit s a with | some u => a.slice < sliceCount u.kind a.test | none => false) &&
       !sliceVoid o q.2 q.1 && !sliceMeets o q.2 q.1)) &&
    (regF s 0xE0000 0 0 = 0 || (slicesDue s).all (holdsSlice s o))

/-- ENERGY_Pn_SHARE: the largest share of E_beat that a partition's entries may be planned. -/
def sharePlanned (s : State) (o : Order) : Bool :=
  (List.range 8).all fun n =>
    100 * sumNat ((o.entries.filter fun x => eKind x ≠ 1 && eKind x ≠ 4 && ePart x = n).map ePredUj) ≤
      regF s (0x20100 + 0x40 * n) 6 0 * nextBudget s

/-- R242, R244, R263: the holder of every flat is that of its area, or, in the pool, an enabled partition that is not short, or none. -/
def flatsPlanned (s : State) (o : Order) : Bool :=
  (List.range 128).all fun f =>
    let h := (o.flats.getD f ⟨0xD, false⟩).holder
    if (flatOf s f).retired || (areaOf s f).isSome then 8 ≤ h && h ≠ 0xD
    else h = 0xD || (h < 8 && partEnabled s h && !partShort s h)

/-- R244, R247: every partition that is enabled and not short holds its guarantee, beside what is lent to it. -/
def heldPlanned (s : State) (o : Order) : Bool :=
  (List.range 8).all fun n => !partEnabled s n || partShort s n ||
    (o.flats.filter fun u => u.holder = n && !u.lent).length = guarReg s n

/-- The flats that an entry is given, what its image needs and what it can use, in flats, and the rank of its step (R249). -/
def lending (s : State) (o : Order) (e : Entry) : Option (Nat × Nat × Nat × Nat) :=
  if eKind e = 1 || eKind e = 4 then none
  else (imageAt s (eProg e)).map fun x =>
    ((eFlats e).length, x.2.flMin / 65536, x.2.flWant / 65536,
      match o.steps.find? fun p => p.part = ePart e && p.stepId.toNat = eStep e with
      | some p => stepKey s p
      | none => 2 ^ 100)

/-- R249: an entry is given flats up to its FL_WANT, and one that is lent flats beyond its FL_MIN stands behind no entry of higher
rank that could use more. -/
def loansPlanned (s : State) (o : Order) : Bool :=
  let xs := o.entries.filterMap fun e => (lending s o e).map fun l =>
    (l, (eFlats e).any fun f => (o.flats.getD f ⟨0xD, false⟩).lent)
  xs.all fun y => y.1.1 ≤ y.1.2.2.1 &&
    (!y.2 || y.1.1 ≤ y.1.2.1 || xs.all fun x => y.1.2.2.2 ≤ x.1.2.2.2 || x.1.2.2.1 ≤ x.1.1)

/-- R416: a decode step takes one token of each request, or, of a variant with a draft program, up to NCAND within MAX_CTX; and the draft
programs of its requests' variants run in its first entries. -/
def draftPlanned (s : State) (o : Order) (p : StepPlan) : Bool :=
  let decode := (p.reqs.zipIdx.filterMap fun q => (reqOf s q.1).bind fun r =>
    if r.state = .decode then (variantOf s r).map fun v => (r, v.desc, p.ntok.getD q.2 0) else none)
  let drafts := (decode.filter fun x => x.2.1.draftProg ≠ 0).map fun x => x.2.1.draftProg.toNat
  let progs := (o.entries.filter fun e => eKind e = 0 && ePart e = p.part && eStep e = p.stepId.toNat).map eProg
  decode.all (fun x => if x.2.1.draftProg = 0 then x.2.2 = 1
    else 1 ≤ x.2.2 && x.2.2 ≤ x.1.ncand && x.1.len + x.2.2 ≤ x.2.1.maxCtx.toNat) &&
  drafts.all fun d => (progs.takeWhile fun g => drafts.contains g).contains d

/-- The planned starts of a queue's entries: each as soon as the one before it ends, and not before its EARLIEST. -/
def queueStarts : Nat → List Entry → List (Entry × Nat)
  | _, [] => []
  | t, e :: es => let a := max t (eEarliest e); (e, a) :: queueStarts (a + ePredUs e) es

/-- R417: the TRAIN entries of an engine hold up none of its other entries and windows. -/
def trainPlanned (o : Order) : Bool :=
  (List.range 32).all fun t =>
    let q := o.entries.filter fun e => eTarget e = t
    (queueStarts 0 q).filter (fun x => eKind x.1 ≠ 2) = queueStarts 0 (q.filter fun e => eKind e ≠ 2)

/-- The hold-off of a cutover (R653): 200 µs and 12 µs for each frame of PAIR_DELTA_MAX. -/
def holdOffUs (s : State) : Nat := 200 + 12 * regF s 0xC0008 7 0

/-- R653: while a cutover holds work off, no MODEL, TRAIN or WINDOW entry may start before edge c + H. -/
def holdOffPlanned (s : State) (o : Order) : Bool :=
  match s.pair.resync with
  | .cutover c =>
    !s.pair.serving || decide (nextNum s < c) ||
      (o.entries.all fun x => eKind x ≥ 3 || holdOffUs s ≤ ((nextNum s).toNat - c.toNat) * nextPeriod s + eEarliest x)
  | _ => true

/-- What the Stage Manager must keep to in a Running Order that it publishes, and in the one that it freezes. -/
def orderPlanned (s : State) (o : Order) : Bool :=
  windowsOk s o && energyOk s o && timesPlanned s o && stepsPlanned s o && slotsPlanned s o && o.steps.all (retryPlanned s o) &&
    o.entries.all (entryPlanned s) && o.steps.all (stepPlanned s) &&
    o.entries.all (targetPlanned s) && o.entries.all (pairPlanned s) && o.jobs.all (jobPlanned s o) && slicesPlanned s o && trainPlanned o && o.steps.all (draftPlanned s o) && sharePlanned s o && flatsPlanned s o &&
    holdOffPlanned s o && framesCover s (framesNeeded o)

/-- What the order is built with: its costs, and the flats of every holding (R95, R120, R244, R247, R249, R887). -/
def orderBuilt (s : State) (o : Order) : Bool := orderCosted s o && heldPlanned s o && loansPlanned s o

/-- What the planner's output is a function of (R84). -/
def planInput (s : State) : PlanInput :=
  { reqs := s.serve.reqs, ledger := s.energy, engines := (List.range 36).map fun k => (engOf s k).serv.role
    stagehands := (List.range 72).map fun k => (shOf s k).serv.role, beat := nextNum s }

/-- R84: the same inputs give the same order again. -/
def sameOutput (s : State) (o : Order) : Bool :=
  match s.ro.planned with
  | some (x, y) => x ≠ planInput s || y = o
  | none => true

/-! ### Freezing -/

/-- The staging area that the next Running Order takes (R242): not the one of the running Beat. -/
def stagingBase (s : State) : Nat := areaBase s (1 - s.ro.area)

/-- Copies a Running Order to its staging area. -/
def stageOrder (o : Order) (s : State) : State :=
  { s with flies := { s.flies with mem := tabWrite 0#8 s.flies.mem (65536 * stagingBase s) ((orderBytes o).take 393216) } }

/-- The VOID records of a validation (R53). -/
def logVoids (o : Order) (void : List Nat) (s : State) : State :=
  (o.entries.zipIdx).foldl (fun t q =>
    if void.contains q.2 then logVoid (ePart q.1) (eStep q.1) (eReq q.1) q.2 (eTarget q.1) 0xFFFF t else t) s

/-- The carried steps of an order are planned again: nothing is carried any more (R77), and no slice is due again (R730). -/
def takeCarried (o : Order) (s : State) : State :=
  let s := { s with bist := { s.bist with starved := s.bist.starved.filter fun x => !holdsSlice s o x } }
  (o.steps.flatMap StepPlan.reqs).foldl (fun t i => modReq i (fun r => { r with carry := none }) t) s

/-- Reserves a planned step's frames and maps its fresh pages (R328, R329). -/
def planStep (s : State) (p : StepPlan) : State :=
  let part := p.part
  let step := p.stepId.toNat
  p.fresh.foldl (fun t va => mapFresh part step va t) (reserveStep part step (p.copies + p.fresh.length) s)

/-- The members of a head-spread set are asked for the contributions of a carried step (R377). -/
def askResend (p : StepPlan) (s : State) : State :=
  p.reqs.foldl (fun t i => match reqOf t i with
    | some r => match r.spread.bind fun k => tabGet none t.serve.sets k with
      | some x => if r.cuts > 0 then
          (otherRanks x.desc).foldl (fun u k => emit (.resendReq (rankQp x.desc k) x.desc.setId i r.stepNo) u) t
        else t
      | none => t
    | none => t) s

/-- The argument block of an entry (R117). -/
def argBlock (s : State) (e : Entry) (p : EntryPlan) : List Byte :=
  let seed := match reqOf s (eReq e) with | some r => r.seed | none => 0
  blockPrefix (nextNum s) (eReq e) (eStep e) (leBytes 2 p.clBase ++ leBytes 2 p.clCount) seed 0xFFFF ++ slice p.args 0 192

/-- The Stage Manager writes the argument blocks of an order's entries (R117, R120). -/
def writeBlocks (o : Order) (s : State) : State :=
  o.entries.zipIdx.foldl (fun t q =>
    if eKind q.1 = 1 || eKind q.1 = 4 then t
    else (dvWrite (partMem (ePart q.1) 5 true) (eArg q.1) (argBlock t q.1 (planOf o q.2)) t).1) s

/-- An order that passes R54 is validated entry by entry, and frozen. -/
def freezeValid (o : Order) (s : State) : State :=
  let void := voidList s o (nextPeriod s)
  let s := logVoids o void { s with ro := { s.ro with frozen := some o, frozenVoid := void, nextFallback := false, published := none } }
  let s := writeBlocks o (takeCarried o (stageOrder o s))
  o.steps.foldl (fun t p => askResend p (planStep t p)) s

/-- The fallback is frozen, and HALF_MISSED set (R48, R54). -/
def freezeFallback (s : State) : State :=
  let o := fallbackOrder s
  stageOrder o (setRegF 0x1001C 3 3 1 { s with ro := { s.ro with
    frozen := some o, frozenVoid := [], nextFallback := true, published := none, fallback := o } })

/-- Freezes an order for the next Beat, or the fallback. -/
def freezeOrder (o : Option Order) (s : State) : State :=
  match o with
  | some o => if headerOk o (nextNum s).toNat (nextPeriod s) then freezeValid o s else freezeFallback s
  | none => freezeFallback s

/-- The Lead's order is published, on a module that takes it (R637). -/
def takeOrder (o : Order) (s : State) : State :=
  if headerOk o (nextNum s).toNat (nextPeriod s) then freezeValid o { s with pair := { s.pair with ordersLate := 0 } } else s

/-! ### What else The Half does -/

/-- Requests that use an image: their variant's programs name it. -/
def usesImage (s : State) (k : Nat) (r : Request) : Bool :=
  match tabGet none s.serve.variants r.variant with
  | some v => [v.desc.draftProg.toNat, v.desc.prefillProg.toNat, v.desc.decodeProg.toNat].contains (imageAddr k)
  | none => false

/-- Requests that use an image through the Walk-on slot of their step (R129). -/
def walksImage (s : State) (k i : Nat) : Bool :=
  s.board.slots.any fun q => q.2.reg.isSome && q.2.image = k && q.2.req = i &&
    (q.2.state = .pending || q.2.state = .running || q.2.state = .planned)

/-- R128, R129: the requests that use an image which its partition's new guarantee no longer fits end with ST_BAD_PROGRAM, and the image
is unloaded once no Running Order refers to it (R130). -/
def revalidate (part guar : Nat) (s : State) : State :=
  let bad := tabKeys (fun _ x => match x with | some x => x.part = part && x.flMin > 65536 * guar | none => false) s.serve.images
  let s := bad.foldl (fun t k =>
    let t := (liveWhere t fun r => r.part = part).foldl (fun u i => match reqOf u i with
      | some r => if usesImage u k r || walksImage u k i then failRequest i 0x0A 0 u else u
      | none => u) t
    { t with serve := { t.serve with images := tabMap none (fun j x =>
        if j = k then x.map fun x => { x with unloading := true } else x) t.serve.images } }) s
  settleOwed s

/-- A partition's written guarantee takes effect (R246). -/
def applyGuar (s : State) (n : Nat) : State :=
  let old := tabGet 4 s.flies.guar n
  let new := guarReg s n
  let s := if new < old then revalidate n new s else s
  { s with flies := { s.flies with guar := tabSet 4 s.flies.guar n new } }

/-- A Walk-on still pending is planned as an ordinary step (R71). -/
def planWalkons (s : State) : State :=
  (tabKeys (fun _ x => x.state = .pending) s.board.slots).foldl (fun t k => slotTo k .planned 0x0E t) s

/-- The EXPERT_PUBLISH commands of a Beat take effect (R407, R419): every node of the variant leaves its tree. -/
def applyPublishes (beat : DWord) (s : State) : State :=
  let due := s.serve.publishes.filter fun p => p.beat = beat
  let s := { s with serve := { s.serve with publishes := s.serve.publishes.filter fun p => p.beat ≠ beat } }
  due.foldl (fun t p => match tabGet none t.serve.variants p.variant with
    | some v => dropNodes v.part (fun _ n => n.variant = p.variant) { t with serve := { t.serve with
        variants := tabSet none t.serve.variants p.variant
          (some { v with served := some p.addr, pubs := v.pubs + 1, lastPub := p.cmd }) } }
    | none => t) s

/-- What waits for the edge after the next The Half is armed (R34, R46, R611, R617, R653, R702). -/
def armPending (s : State) : State :=
  { s with
    beat := { s.beat with
      halfPassed := true, periodNext := s.beat.periodPend, leadNext := s.beat.leadPend, periodPend := none, leadPend := none }
    sec := { s.sec with acts := s.sec.acts.map fun a => { a with armed := true } }
    energy := { s.energy with capNext := s.energy.capPend, capPend := none }
    pair := { s.pair with resync := match s.pair.resync with | .pairing _ b => .pairing true b | x => x } }

end Sys2Proof.Machine
end

