-- ==== Sys2Proof/Machine/VideoOps.lean ====
section
/-! DEFINITION. Operations on video streams, groups and tiles that the video commands share (R497 to R533). -/

namespace Sys2Proof.Machine

open Sys2Proof

def streamOf (s : State) (m : Nat) : Stream := tabGet Stream.init s.video.streams m
def setStream (m : Nat) (x : Stream) (s : State) : State :=
  { s with video := { s.video with streams := tabSet Stream.init s.video.streams m x } }
def groupRec (s : State) (g : Nat) : VGroup := tabGet VGroup.init s.video.groups g
def setGroupRec (g : Nat) (x : VGroup) (s : State) : State :=
  { s with video := { s.video with groups := tabSet VGroup.init s.video.groups g x } }
def vengOf (s : State) (k : Nat) : VEngine := tabGet VEngine.init s.video.engines k
def setVeng (k : Nat) (x : VEngine) (s : State) : State :=
  { s with video := { s.video with engines := tabSet VEngine.init s.video.engines k x } }

/-- Streams 0 to 47 that are not CLOSED. -/
def openStreams (s : State) : List (Nat × Stream) :=
  (List.range 48).filterMap fun m => let x := streamOf s m; if x.state = .closed then none else some (m, x)

/-- KIND of a stream: 0 HEVC decode, 1 AV1 decode, 2 HEVC encode. -/
def Stream.kind (x : Stream) : Nat := match x.desc with | some d => d.kind.toNat | none => 0
def Stream.isDecode (x : Stream) : Bool := x.state ≠ .closed && x.kind ≠ 2

/-- FLAGS of the open descriptor (R497). -/
def Stream.flag (x : Stream) (i : Nat) : Bool := match x.desc with | some d => bitAt d.flags i | none => false
def Stream.gdr (x : Stream) : Bool := x.flag 2

/-- The video engines that serve. -/
def videoEngines (s : State) : Nat := ((List.range 5).filter fun k => let v := vengOf s k; v.inService && !v.failed).length

/-! ### Tiles (R497, R511) -/

/-- PATCH and SCALE of TILE_FMT. -/
def patchOf (d : OpenDesc) : Nat := if fld d.tileFmt 5 4 = 0 then 16 else 32
def scaleOf (d : OpenDesc) : Nat := 2 ^ fld d.tileFmt 7 6
/-- Rows of a tile, and elements of a row. -/
def tileRows (d : OpenDesc) : Nat :=
  (d.cropW.toNat / scaleOf d / patchOf d) * (d.cropH.toNat / scaleOf d / patchOf d)
def tileRowElems (d : OpenDesc) : Nat := 3 * patchOf d * patchOf d
/-- Bytes of a tile, and T: rounded up to 65,536 bytes. -/
def tileSize (d : OpenDesc) : Nat := tileRows d * tileRowElems d * (if fld d.tileFmt 3 0 = 1 then 2 else 1)
def tilePitch (d : OpenDesc) : Nat := cdiv (tileSize d) 65536 * 65536

/-- An RGB value in FP32, clamped to 0 to 1. The manual fixes the matrix and the range but not the order of the FP32
operations, so the value before the clamp is free (notes/assumptions/36.md). -/
def rgbValue (depth matrix : Nat) (full : Bool) (y cb cr ch : Nat) : Word :=
  let v : Word := (Config.freeValue 15
    ((((((matrix * 2 + b2n full) * 16 + depth % 16) * 65536 + y) * 65536 + cb) * 65536 + cr) * 4 + ch)).truncate 32
  max32 0#32 (min32 f32One v)

/-- The matrix and the range of a decoded picture: those that it signals, or BT.709 limited range (R511). Matrices have the numbers of
ITU-T H.273, in which BT.709 is 1. -/
def colourOf (r : Decoded) : Nat × Bool := r.colour.getD (1, false)

/-- The RGB value of a luma sample of a decoded picture: it takes the chroma of its 2 × 2 block. -/
def pixel (r : Decoded) (width x y ch : Nat) : Word :=
  let c := y / 2 * ((width + 1) / 2) + x / 2
  rgbValue r.depth (colourOf r).1 (colourOf r).2 (r.luma.getD (y * width + x) 0) (r.cb.getD c 0) (r.cr.getD c 0) ch

/-- An output pixel: the tree sum of its SCALE × SCALE inputs in raster order, times 1 / SCALE². -/
def scaledPixel (d : OpenDesc) (r : Decoded) (x y ch : Nat) : Word :=
  let k := scaleOf d
  let ins := (List.range (k * k)).map fun i =>
    pixel r d.width.toNat (d.cropX.toNat + x * k + i % k) (d.cropY.toNat + y * k + i / k) ch
  mul32 .nearest (treeSum .nearest ins) (BitVec.ofNat 32 ((127 - 2 * fld d.tileFmt 7 6) * 2 ^ 23))

/-- An element in TILE_FMT: R276 with round-to-nearest-even, or round(255 v) − 128 for INT8. -/
def tileElem (fm : Nat) (v : Word) : List Byte :=
  if fm = 0xB then
    match dec32 v with
    | .fin _ m e => [BitVec.ofNat 8 (roundAt .nearest (255 * m) e 0 + 128)]
    | _ => [0]
  else leBytes (if fm = 1 then 2 else 1) (convertDown fm .nearest (dec32 v)).1

/-- The bytes of the tile of a decoded picture (R511). -/
def tileBytesOf (d : OpenDesc) (r : Decoded) : List Byte :=
  let p := patchOf d
  let across := d.cropW.toNat / scaleOf d / p
  (List.range (tileRows d)).flatMap fun row => (List.range (tileRowElems d)).flatMap fun i =>
    let ch := i / (p * p)
    let q := i % (p * p)
    tileElem (fld d.tileFmt 3 0) (scaledPixel d r (row % across * p + q % p) (row / across * p + q / p) ch)

/-- Buffers that the device never writes (R512): bound in the running or the next Beat, or the last good frame's. -/
def Stream.heldBufs (x : Stream) : List Nat := (x.bound.toList ++ x.boundNext.toList ++ x.good.toList).map ReadyFrame.buf

/-- A free tile buffer of a stream. -/
def Stream.freeBuf (x : Stream) : Option Nat :=
  match x.desc with
  | some d => (List.range d.nbuf.toNat).find? fun b => !x.heldBufs.contains b
  | none => none

/-! ### The encoder (R494, R495, R528) -/

/-- Bytes of a source frame: NV12, or P010 with TEN_BIT. -/
def sourceBytes (d : OpenDesc) : Nat := d.width.toNat * d.height.toNat * 3 / 2 * (if bitAt d.flags 3 then 2 else 1)

/-- The rows of 32 × 32 coding tree units of a picture. -/
def ctuRows (d : OpenDesc) : Nat := cdiv d.height.toNat 32

/-- The figures of the open descriptor that the encoder's output depends on (R495). -/
def encFigures (d : OpenDesc) : List Nat :=
  [d.flags.toNat, d.width.toNat, d.height.toNat, d.frameUs.toNat, d.rate.toNat, d.qp.toNat, d.refresh.toNat, d.keyInt.toNat]

/-- Whether the newest source picture is coded as an I picture: the first one, and on a stream that is not a GDR stream each key picture.
Every other one is a P picture, whose one reference is the picture before it (R494, R531). -/
def intraPicture (d : OpenDesc) (ps : List (List Byte × Bool)) : Bool :=
  ps.length ≤ 1 || (!bitAt d.flags 2 && (ps.getLast?.map Prod.snd).getD true)

/-- The CTU rows of the slice that begins at a row: one at the least, and whole rows only (R494). -/
def sliceSpan (d : OpenDesc) (ps : List (List Byte × Bool)) (row : Nat) : Nat :=
  1 + Config.sliceRows (encFigures d) ps row % (ctuRows d - row)

/-- The QP of a slice (R494): the descriptor's, or that of the constant bit rate. -/
def sliceQp (d : OpenDesc) (ps : List (List Byte × Bool)) (row : Nat) : Nat :=
  if d.rate = 0 then d.qp.toNat else Config.sliceQp (encFigures d) ps row % 52

/-- The bytes of the slice that begins at a row. -/
def sliceBytes (d : OpenDesc) (ps : List (List Byte × Bool)) (row : Nat) : List Byte :=
  Config.sliceBits (encFigures d) ps (intraPicture d ps) (sliceQp d ps row) row (sliceSpan d ps row)

/-- The bytes of every slice of a picture from a row on. -/
def pictureBytes (d : OpenDesc) (ps : List (List Byte × Bool)) : Nat → Nat → List Byte
  | 0, _ => []
  | fuel + 1, row =>
    if ctuRows d ≤ row then [] else sliceBytes d ps row ++ pictureBytes d ps fuel (row + sliceSpan d ps row)

/-- What an encode engine gives next for a picture (R529): with LOWLAT the slice at the row that it has reached, otherwise the whole
picture; and the row that it reaches with it. -/
def encoderGives (d : OpenDesc) (x : Stream) : List Byte × Nat :=
  if bitAt d.flags 1 then (sliceBytes d x.pictures x.ctuRow, x.ctuRow + sliceSpan d x.pictures x.ctuRow)
  else (pictureBytes d x.pictures (ctuRows d) 0, ctuRows d)

/-! ### Groups (R513 to R526) -/

/-- The streams of a group, in ascending number. -/
def groupMembers (s : State) (g : Nat) : List (Nat × Stream) :=
  (openStreams s).filter fun e => e.2.isDecode && e.2.state ≠ .draining && e.2.group = g

/-- The DV address of the group record of a stream (R497). -/
def recAddr (d : OpenDesc) : Nat := d.tileBase.toNat / 65536 * 65536 + d.recCl.toNat

/-- The access context of the video control core for a partition. -/
def videoMem (part : Nat) : MemCtx := partMem part 3 true

/-- A stream leaves its group as it closes. When it is the group's first stream, its other members form groups of one
again. -/
def leaveGroup (m : Nat) (s : State) : State :=
  if (streamOf s m).group ≠ m then s
  else
    let s := ((openStreams s).filter fun e => e.2.group = m && e.1 ≠ m).foldl (fun t e => setStream e.1 { e.2 with group := e.1 } t) s
    setGroupRec m .init s

/-- A stream closes: the frame that an engine holds for it is dropped. -/
def closeStream (m : Nat) (s : State) : State :=
  let s := setStream m .init (leaveGroup m s)
  { s with video := { s.video with engines := tabMap VEngine.init (fun _ v =>
      { v with
        stream := if v.stream = some m then none else v.stream, frame := if v.stream = some m then none else v.frame
        ctx := if v.ctx = some m then none else v.ctx }) s.video.engines } }

/-- Every stream of a partition closes (R499). -/
def closeStreams (part : Nat) (s : State) : State :=
  ((openStreams s).filter fun e => e.2.part = part).foldl (fun t e => closeStream e.1 t) s

/-- R520: an accepted GROUP_SET of group `g` takes effect. -/
def applyGroupSet (g : Nat) (s : State) : State :=
  match (groupRec s g).pendingSet with
  | none => s
  | some ms =>
    let old := ((openStreams s).filter fun e => e.2.isDecode && e.2.group = g && !ms.contains e.1).map Prod.fst
    let joins := ms.filter fun m => (streamOf s m).isDecode && (streamOf s m).part = (streamOf s g).part
    let gone := joins.filter fun m => m ≠ g
    let att := gone.flatMap fun m => (groupRec s m).attached
    let s := old.foldl (fun t m => setStream m { streamOf t m with group := m } t) s
    let s := joins.foldl (fun t m => setStream m { streamOf t m with group := g } t) s
    let s := gone.foldl (fun t m => setGroupRec m .init t) s
    let x := groupRec s g
    setGroupRec g { x with pendingSet := none, attached := x.attached ++ att.filter fun i => !x.attached.contains i } s

/-- Whether a member is late at a binding point (R521): `newest` is the newest CAPTURE_US among the group's members. -/
def memberLate (s : State) (newest : Nat) (x : Stream) : Bool :=
  match x.good, x.desc with
  | some f, some d => 2 * (newest - f.captureUs.toNat) > d.frameUs.toNat || 2 * (s.time - f.readyUs) > 3 * d.frameUs.toNat
  | _, _ => true

/-- A member entry of the group record (R518). -/
def memberBytes (m : Nat) (x : Stream) (stale : Bool) : List Byte :=
  let d := x.desc
  match x.good with
  | some f =>
    [BitVec.ofNat 8 m, BitVec.ofNat 8 (b2n stale + 4 * b2n f.filmGrain), BitVec.ofNat 8 (min 255 x.staleBeats), BitVec.ofNat 8 f.buf] ++
      leBytes 4 f.frameNo ++ leBytes 8 f.captureUs.toNat ++
      leBytes 8 (match d with | some d => d.tileBase.toNat + f.buf * tilePitch d | none => 0) ++ leBytes 8 0
  | none => [BitVec.ofNat 8 m, 2, BitVec.ofNat 8 (min 255 x.staleBeats), 0] ++ leBytes 28 0

/-- A group record (R518). -/
def recordBytes (beat : Nat) (skipIt : Bool) (members : List (List Byte)) : List Byte :=
  leBytes 8 beat ++ [BitVec.ofNat 8 members.length, BitVec.ofNat 8 (b2n skipIt)] ++ leBytes 54 0 ++ members.flatMap id

/-- Writes a group's record for Beat `n` with the given members, each with whether it is stale, and clears the ready Cue
Light (R514, R524). -/
def writeRecord (g n : Nat) (members : List (Nat × Bool)) (s : State) : State :=
  match (streamOf s g).desc with
  | none => s
  | some d =>
    let xs := members.map fun e => (e.1, streamOf s e.1, e.2)
    let limit := regF s 0xA0000 19 16
    let skipIt := xs.any fun e => e.2.1.staleBeats > limit || e.2.1.good.isNone
    let s := cueSet (d.readyCl.toNat + n % 2) 0 s
    let bs := recordBytes n skipIt (xs.map fun e => memberBytes e.1 e.2.1 e.2.2)
    let s := (dvWrite (videoMem (streamOf s g).part) (recAddr d + 512 * (n % 2)) bs s).1
    let x := groupRec s g
    let s := setGroupRec g { x with omitNext := skipIt, unready := some (n % 2) } s
    let p := (streamOf s g).part
    if skipIt then bump 0xA0050 { s with video := { s.video with omitCnt := tabMod 0#32 s.video.omitCnt p (· + 1) } } else s

/-- Binds one member for the next Beat (R522, R523): late or not. -/
def bindMember (late : Bool) (m : Nat) (s : State) : State :=
  let x := streamOf s m
  let s := if late && x.good.isSome then bump 0xA004C s else s
  setStream m { x with
    boundNext := x.good, stale := late && x.good.isSome,
    staleBeats := if late then min 255 (x.staleBeats + 1) else 0 } s

/-- Binds one group for Beat `n` (R513, R514, R521 to R524). -/
def bindGroup (n g : Nat) (s : State) : State :=
  let ms := groupMembers s g
  if ms.isEmpty then s
  else
    let newest := ms.foldl (fun a e => match e.2.good with | some f => max a f.captureUs.toNat | none => a) 0
    let late := ms.map fun e => (e.1, memberLate s newest e.2)
    let s := late.foldl (fun t e => bindMember e.2 e.1 t) s
    writeRecord g n (late.map fun e => (e.1, e.2 && (streamOf s e.1).good.isSome)) s

/-! ### A video engine out of service (R510, R696, R733, R745, R756) -/

/-- The good spare video engine. -/
def spareVideo (s : State) : Option Nat :=
  (List.range 5).find? fun k => let v := vengOf s k; v.spare && !v.failed && !v.selftest

/-- A video engine is retired: the record shows it, and the spare takes over its role. -/
def videoOut (k : Nat) (s : State) : State :=
  let role := (inventory s).video.getD k 0xFF
  let s := setVeng k { vengOf s k with failed := true, inService := false, spare := false, stream := none, frame := none, ctx := none } s
  let s := persist (mapByte ⟨.video, 0, k⟩ 0xFF) { s with pair := { s.pair with mapChanged := true }, upd := { s.upd with trialBlocked := true } }
  if role ≥ 0xFE then s
  else match spareVideo s with
    | some j => persist (mapByte ⟨.video, 0, j⟩ role) (setVeng j { vengOf s j with spare := false, inService := true } s)
    | none => s

end Sys2Proof.Machine
end

