-- ==== Sys2Proof/Machine/Video.lean ====
section
/-! DEFINITION. The video commands and events (R496 to R532). -/

namespace Sys2Proof.Machine

open Sys2Proof

/-! ### STREAM_OPEN (R497, R498) -/

/-- Check 1 of R498: reserved values, field ranges, and what R490 and R491 forbid. -/
def openFieldsOk (d : OpenDesc) : Bool :=
  let enc := d.kind = 2#8
  let fm := fld d.tileFmt 3 0
  d.resvOk && d.codecOk && d.kind.toNat ≤ 2 && (d.stream.toNat < 48 || d.stream = 0xFF#8) && fld d.flags 7 4 = 0 &&
    3 ≤ d.nbuf.toNat && d.nbuf.toNat ≤ 8 && 1 ≤ d.width.toNat && d.width.toNat ≤ 4096 && 1 ≤ d.height.toNat &&
    d.height.toNat ≤ 2304 && 8333 ≤ d.frameUs.toNat && d.frameUs.toNat ≤ 1000000 &&
    (enc || ((fm = 1 || fm = 3 || fm = 0xB) && fld d.tileFmt 5 4 ≤ 1 && fld d.tileFmt 7 6 ≤ 2)) &&
    d.tileBase.toNat % 65536 = 0 && d.refBase.toNat % 65536 = 0 && (enc || d.rate = 0) && d.qp.toNat ≤ 51 &&
    (if enc && bitAt d.flags 2 then 2 ≤ d.refresh.toNat && d.refresh.toNat ≤ 64 else d.refresh = 0)

/-- Check 2: the crop rectangle. -/
def cropOk (d : OpenDesc) : Bool :=
  d.cropX.toNat + d.cropW.toNat ≤ d.width.toNat && d.cropY.toNat + d.cropH.toNat ≤ d.height.toNat &&
    d.cropW.toNat % (scaleOf d * patchOf d) = 0 && d.cropH.toNat % (scaleOf d * patchOf d) = 0

/-- Check 3: the reference area. The bit depth of a decode stream is that of its coded picture; the descriptor names one
only for encode, so a decode stream is held to 8 bits. -/
def refOk (d : OpenDesc) : Bool :=
  let n := if d.kind = 0#8 then 6 else if d.kind = 1#8 then 8 else 1
  let b := if bitAt d.flags 3 then 2 else 1
  2 * d.refLen.toNat ≥ (n + 1) * d.width.toNat * d.height.toNat * 3 * b

/-- Bytes of the tile ring, or of the source ring of an encode stream (R528). -/
def ringBytes (d : OpenDesc) : Nat :=
  if d.kind = 2#8 then d.nbuf.toNat * sourceBytes d
  else d.nbuf.toNat * tilePitch d

/-- Check 4: Cue Lights and addresses. -/
def reachOk (s : State) (part : Nat) (d : OpenDesc) : Bool :=
  let cls := if d.kind = 2#8 then [d.readyCl.toNat, d.recCl.toNat] else [d.readyCl.toNat, d.readyCl.toNat + 1]
  cls.all (fun i => cueGranted s part i) && d.tileBase.toNat + ringBytes d ≤ 2 ^ 47 && d.refBase.toNat + d.refLen.toNat ≤ 2 ^ 47 &&
    (d.kind = 2#8 || recAddr d + 1024 ≤ 2 ^ 47)

/-- A sum of WIDTH × HEIGHT × 10⁶ / FRAME_US as a fraction. -/
def pixelRate (ds : List OpenDesc) : Nat × Nat :=
  ds.foldl (fun q d => (q.1 * d.frameUs.toNat + d.width.toNat * d.height.toNat * 1000000 * q.2, q.2 * d.frameUs.toNat)) (0, 1)

/-- Whether the rate of some streams exceeds `g` gigapixels a second. -/
def rateOver (ds : List OpenDesc) (g : Nat) : Bool := let q := pixelRate ds; q.1 > g * 1000000000 * q.2

/-- The open descriptors in force. -/
def openDescs (s : State) : List OpenDesc := (openStreams s).filterMap fun e => e.2.desc

/-- The checks of R498 in their order. -/
def openCheck (s : State) (part : Nat) (d : OpenDesc) : Option Status :=
  if !openFieldsOk d || !cropOk d || !refOk d || !reachOk s part d then some 0x81
  else if bitAt d.flags 2 && (regF s (0xA0400 + 0x20 * part) 0 0 = 0 || ((openStreams s).filter fun e => e.2.gdr).length ≥ 8) then some 0x83
  else if (openStreams s).length ≥ 48 || (d.stream ≠ 0xFF#8 && (streamOf s d.stream.toNat).state ≠ .closed) then some 0x0E
  else if rateOver (d :: openDescs s) (videoEngines s) || (d.kind = 2#8 && rateOver ((d :: openDescs s).filter fun x => x.kind = 2#8) 1)
    then some 0x0E
  else none

/-- What a STREAM_OPEN does (R496 to R499). -/
def streamOpenOp (c : Cmd) (d : OpenDesc) (s : State) : State :=
  match cmdCheck c 0x100 64 [] with
  | some st => refuse c st s
  | none => match openCheck s c.part d with
    | some st => refuse c st s
    | none =>
      let m := if d.stream = 0xFF#8 then ((List.range 48).find? fun i => (streamOf s i).state = .closed).getD 0 else d.stream.toNat
      let enc := d.kind = 2#8
      answer c 0 0 (BitVec.ofNat 64 m) (setGroupRec m .init (setStream m { Stream.init with
        state := if enc then .running else .waitKey, part := c.part, route := c.route, desc := some d, needKey := !enc, group := m } s))

/-- STREAM_OPEN (R496 to R499, R520). -/
def execStreamOpen (c : Cmd) (d : OpenDesc) (s : State) : Res := mailbox c s (streamOpenOp c d s)

/-! ### Commands on streams and groups -/

/-- Runs a command on the open stream that OBJ names. -/
def onStream (c : Cmd) (opcode : Nat) (s : State) (k : Nat → Stream → State) : State :=
  match cmdCheck c opcode 0 [] with
  | some st => refuse c st s
  | none =>
    let m := c.obj.toNat
    if m ≥ 48 then refuse c 0x81 s
    else
      let x := streamOf s m
      if x.state = .closed then refuse c 0x81 s else if x.part ≠ c.part then refuse c 0x82 s else k m x

/-- What a STREAM_CLOSE does (R499). -/
def streamCloseOp (c : Cmd) (s : State) : State :=
  onStream c 0x101 s fun m x =>
    if x.state = .draining then refuse c 0x90 s else answer c 0 0 0 (setStream m { x with state := .draining } s)

/-- STREAM_CLOSE (R496, R499). -/
def execStreamClose (c : Cmd) (s : State) : Res := mailbox c s (streamCloseOp c s)

/-- Whether a DRAINING stream may close: no engine holds a frame of it, and it is bound in no Beat (R499). -/
def drained (s : State) (m : Nat) : Bool :=
  let x := streamOf s m
  x.state = .draining && !x.redo && x.bound.isNone && x.boundNext.isNone && (List.range 5).all fun k => (vengOf s k).stream ≠ some m

/-- STREAM_CLOSED (R499). -/
def execStreamClosed (stream : Nat) (s : State) : Res :=
  need (stream < 48) (.next (if drained s stream then closeStream stream s else s))

/-- The streams that a GROUP_SET lists (R519): up to the first 0xFF of INLINE bytes 32 to 39. -/
def listedStreams (c : Cmd) : List Nat := ((c.inline.take 8).takeWhile (· ≠ 0xFF#8)).map BitVec.toNat

/-- The checks of R519 in their order. -/
def groupSetCheck (s : State) (c : Cmd) : Option Status :=
  let l := listedStreams c
  if l.isEmpty || !((c.inline.take 8).drop l.length).all (· = 0xFF#8) || !(c.inline.drop 8).all (· = 0#8) then some 0x81
  else if c.obj.toNat ≠ l.headD 0 then some 0x81
  else if !noDup l || !l.all (fun m => m < 48 && (streamOf s m).isDecode) then some 0x81
  else if l.any (fun m => (streamOf s m).part ≠ c.part) then some 0x82
  else if l.any (fun m => (streamOf s m).group ≠ c.obj.toNat && ((groupMembers s (streamOf s m).group).length > 1)) then some 0x0E
  else none

/-- What a GROUP_SET does: it takes effect at the next binding point (R519, R520). -/
def groupSetOp (c : Cmd) (s : State) : State :=
  match cmdCheck c 0x102 0 [(32, 28)] with
  | some st => refuse c st s
  | none => match groupSetCheck s c with
    | some st => refuse c st s
    | none => answer c 0 0 0 (setGroupRec c.obj.toNat { groupRec s c.obj.toNat with pendingSet := some (listedStreams c) } s)

/-- GROUP_SET (R496, R519, R520). -/
def execGroupSet (c : Cmd) (s : State) : Res := mailbox c s (groupSetOp c s)

/-- What a GROUP_ATTACH does (R496, R527, R876). -/
def groupAttachOp (c : Cmd) (s : State) : State :=
  match cmdCheck c 0x103 0 [(32, 2), (34, 1)] with
  | some st => refuse c st s
  | none =>
    let g := c.obj.toNat
    let i := inl c 32 2
    if inl c 34 1 > 1 then refuse c 0x80 s
    else if g ≥ 48 || !(streamOf s g).isDecode || (streamOf s g).group ≠ g then refuse c 0x81 s
    else if (streamOf s g).part ≠ c.part then refuse c 0x82 s
    else match reqOf s i with
      | none => refuse c 0x8B s
      | some r =>
        if r.part ≠ c.part then refuse c 0x82 s
        else
          let x := groupRec s g
          let rest := x.attached.filter (· ≠ i)
          answer c 0 0 0 (setGroupRec g { x with attached := if inl c 34 1 = 1 then rest ++ [i] else rest } s)

/-- GROUP_ATTACH (R388, R398, R496, R527). -/
def execGroupAttach (c : Cmd) (s : State) : Res := mailbox c s (groupAttachOp c s)

/-- What a KEY_REQ does (R531, R532). -/
def keyReqOp (c : Cmd) (s : State) : State :=
  onStream c 0x104 s fun m x =>
    if x.kind ≠ 2 then refuse c 0x81 s else answer c 0 0 0 (setStream m { x with keyReq := true } s)

/-- KEY_REQ (R496, R531, R532). -/
def execKeyReq (c : Cmd) (s : State) : Res := mailbox c s (keyReqOp c s)

/-- STATE of a stream (R533). -/
def streamCode : StreamState → Nat
  | .closed => 0 | .waitKey => 1 | .running => 2 | .draining => 3

/-- What a STREAM_QUERY answers (R496): STATE, NEED_KEY, newest ready FRAME_NO and STALE_BEATS. DESIGN CHOICE: bytes 0, 1, 4
to 7 and 2 of the result, since the manual does not place them (notes/assumptions/36.md). -/
def streamQueryOp (c : Cmd) (s : State) : State :=
  onStream c 0x105 s fun _ x =>
    let no := match x.good with | some f => f.frameNo % 2 ^ 32 | none => 0
    answer c 0 0 (BitVec.ofNat 64 (streamCode x.state + 2 ^ 8 * b2n x.needKey + 2 ^ 16 * min 255 x.staleBeats + 2 ^ 32 * no)) s

/-- STREAM_QUERY (R496). -/
def execStreamQuery (c : Cmd) (s : State) : Res := mailbox c s (streamQueryOp c s)

/-! ### Input and decoding (R499 to R512) -/

/-- What an access unit's payload does (R499, R502, R503). An access unit that is discarded counts once, with its last payload. -/
def videoAuOp (au : AccessUnit) (s : State) : State :=
  let m := au.stream.toNat
  let x := streamOf s m
  let no := au.frameNo.toNat
  let open_ := m < 48 && x.isDecode && x.state ≠ .draining && x.part = au.part && (match x.desc with | some d => d.jobId = au.job | none => false)
  let goesOn := x.gather > 0 && x.lastNo = some no
  let fresh := match x.lastNo with | some l => decide (l < no) | none => true
  if !open_ then bump 0xA0048 s
  else if !(goesOn || fresh) then (if bitAt au.flags 0 then bump 0xA0048 s else s)
  else
    let n := (if goesOn then x.gather - 1 else 0) + au.bytes
    let disc := bitAt au.flags 1
    let x : Stream := { x with
      lastNo := some no
      state := if disc && x.state == .running then .waitKey else x.state
      needKey := x.needKey || disc }
    if bitAt au.flags 0 then
      setStream m { x with gather := 0, frames := x.frames ++ [⟨no, au.captureUs, n, s.time⟩] } s
    else setStream m { x with gather := n + 1 } s

/-- VIDEO_AU (R499, R500, R502, R503). -/
def execVideoAu (au : AccessUnit) (s : State) : Res := need (au.part < 8) (.next (if s.beat.started then videoAuOp au s else s))

/-- The streams whose next frame an idle engine may take (R504, R512). -/
def pendingStreams (s : State) : List (Nat × Stream × PendFrame) :=
  (openStreams s).filterMap fun e =>
    match e.2.frames with
    | f :: _ =>
      if e.2.isDecode && e.2.freeBuf.isSome && (List.range 5).all (fun k => (vengOf s k).stream ≠ some e.1) then some (e.1, e.2, f) else none
    | [] => none

/-- The deadline of a frame (R507). -/
def frameDeadline (x : Stream) (f : PendFrame) : Nat := f.arrivalUs + (match x.desc with | some d => d.frameUs.toNat | none => 0)

/-- The first of the entries with the least key. -/
def leastBy {α : Type} (key : α → Nat) (xs : List α) : Option α :=
  xs.foldl (fun b x => match b with | none => some x | some y => if key x < key y then some x else some y) none

/-- The frame that an idle engine takes (R507, R508). -/
def nextFrame (s : State) : Option (Nat × Stream × PendFrame) :=
  let ps := pendingStreams s
  if regF s 0xA0000 20 20 = 0 then leastBy (fun e => frameDeadline e.2.1 e.2.2) ps
  else
    let live := ps.filter fun e => e.2.1.flag 0
    leastBy (fun e => e.2.2.arrivalUs) (if live.isEmpty then ps else live)

/-- Whether a video engine is idle and may take a frame (R505, R509). -/
def vengIdle (v : VEngine) : Bool := v.inService && !v.failed && !v.selftest && v.stream.isNone

/-- An engine takes a stream: a switch is counted (R506). -/
def takeStream (k m : Nat) (f : PendFrame) (s : State) : State :=
  let v := vengOf s k
  let s := if v.ctx = some m then s else bump 0xA0054 s
  setVeng k { v with stream := some m, frame := some f, ctx := some m } s

/-- FRAME_DECODE_START (R504 to R509, R512). -/
def execFrameDecodeStart (k : Nat) (s : State) : Res :=
  need (k < 5) <|
    match nextFrame s with
    | none => .next s
    | some (m, x, f) =>
      if vengIdle (vengOf s k) then .next (takeStream k m f (setStream m { x with frames := x.frames.drop 1 } s)) else .next s

/-- The stream after a decoded frame (R499, R501): whether the frame becomes ready. -/
def decodeState (x : Stream) (r : Decoded) : StreamState × Bool :=
  match x.state with
  | .running => if r.good then (.running, true) else (.waitKey, false)
  | .waitKey => if r.good && (r.randomAccess || (x.gdr && r.recoveryPoint)) then (.running, true) else (.waitKey, false)
  | st => (st, false)

/-- A good frame becomes ready: its tile is written into a free buffer (R511, R512). A tile that meets a translation fault
is not ready. -/
def makeReady (m : Nat) (f : PendFrame) (r : Decoded) (s : State) : State :=
  let x := streamOf s m
  match x.desc, x.freeBuf with
  | some d, some b =>
    let w := dvWrite (videoMem x.part) (d.tileBase.toNat + b * tilePitch d) (tileBytesOf d r) s
    match w.2 with
    | some _ => w.1
    | none =>
      let t : ReadyFrame := ⟨f.frameNo, f.captureUs, b, s.time, r.filmGrain⟩
      bump 0xA0040 (setStream m { streamOf w.1 m with good := some t, ready := [t] } w.1)
  | _, _ => s

/-- Whether a frame is decoded at all: in WAIT_KEY none is before the random access point (R500). -/
def decodes (x : Stream) (r : Decoded) : Bool :=
  x.state ≠ .waitKey || r.randomAccess || (x.gdr && r.recoveryPoint)

/-- FRAME_DECODE_DONE (R499 to R501, R511): the engine's frame ends. -/
def execFrameDecodeDone (k : Nat) (r : Decoded) (s : State) : Res :=
  need (k < 5) <|
    let v := vengOf s k
    match v.stream, v.frame with
    | some m, some f =>
      let x := streamOf s m
      if !x.isDecode then .next s
      else
        let d := decodeState x r
        let s := setVeng k { v with stream := none, frame := none } s
        let s := if r.good || !decodes x r then s else bump 0xA0044 s
        let s := setStream m { x with state := d.1, needKey := x.needKey && d.1 ≠ .running || d.1 = .waitKey } s
        .next (settle (if d.2 then makeReady m f r s else s))
    | _, _ => .next s

/-! ### Binding (R513 to R526) -/

/-- What a BIND names (R517): the Beat, and each stream with the number of the frame that it binds. -/
def bindFields (n : Nat) (s : State) : List Nat :=
  n :: s.video.streams.flatMap fun e => match (streamOf s e.1).boundNext with
    | some f => [e.1, f.frameNo]
    | none => []

/-- The binding point of the running Beat, BIND_LEAD_US before its end: every group is bound for the next Beat in ascending number; a
leading module sends its binding. An Understudy and a module in Dress Rehearsal do not bind frames themselves. -/
def bindPointOp (s : State) : State :=
  let s := passPhase (s.beat.period - s.video.bindLead) { s with video := { s.video with bindDone := true } }
  if follows s then s
  else
    let n := (nextNum s).toNat
    let s := (List.range 48).foldl (fun t g => applyGroupSet g t) s
    let s := (List.range 48).foldl (fun t g => bindGroup n g t) s
    settle (if leads s then sendFields 5 0xFF (bindFields n s) s else s)

/-- BIND_POINT (R513, R514, R517, R520 to R524, R653): once in each Beat. -/
def execBindPoint (s : State) : Res := .next (if s.beat.started && !s.video.bindDone then bindPointOp s else s)

/-- BIND_READY (R514): the group's record and tiles are complete, and its ready Cue Light is set to 1. -/
def execBindReady (group : Nat) (s : State) : Res :=
  need (group < 48) <|
    let x := groupRec s group
    match x.unready, (streamOf s group).desc with
    | some k, some d => .next (setGroupRec group { x with unready := none } (cueSet (d.readyCl.toNat + k) 1 s))
    | _, _ => .next s

/-! ### Encoding (R528 to R531) -/

/-- Whether the next source frame of a stream begins a refresh wave or is an IDR picture (R531). -/
def keyFrame (x : Stream) (d : OpenDesc) : Bool :=
  x.keyReq || x.source = 0 || (d.keyInt ≠ 0 && x.source % d.keyInt.toNat = 0)

/-- An engine takes the next source frame: the WAITD of 1 on the source Cue Light, the frame's bytes from its buffer of the source ring,
and the done Cue Light's signal. -/
def encodeStartOp (k m : Nat) (x : Stream) (d : OpenDesc) (s : State) : State :=
  let src := d.readyCl.toNat
  let a := dvRead (videoMem x.part) (d.tileBase.toNat + x.source % d.nbuf.toNat * sourceBytes d) (sourceBytes d) s
  let s := a.st
  let s := setCue src { cueOf s src with count := (cueOf s src).count - 1 } s
  let s := takeStream k m ⟨x.source, 0, 0, s.time⟩ s
  let wave := bitAt d.flags 2 && keyFrame x d
  let s := setStream m { x with
    source := x.source + 1, keyReq := false, slices := 0, skip := 0, ctuRow := 0, pictures := x.pictures ++ [(a.bytes, keyFrame x d)]
    refresh := if wave then d.refresh.toNat - 1 else x.refresh - 1 } s
  cueSigHw d.recCl.toNat 1 (noCtx x.part) (originOf 3 false) s

/-- ENCODE_FRAME_START (R510, R528, R531): an idle engine takes the next source frame after a WAITD of 1 on the source Cue Light,
and the done Cue Light is signalled. A frame whose engine failed has been taken before: it is only processed again. DESIGN CHOICE: which
of the decode and encode frames an engine takes first, since the manual names no arrival of a source frame (notes/assumptions/36.md). -/
def execEncodeFrameStart (k stream : Nat) (s : State) : Res :=
  need (k < 5 && stream < 48) <|
    let x := streamOf s stream
    match x.desc with
    | none => .next s
    | some d =>
      if !(x.kind = 2 && vengIdle (vengOf s k) && (List.range 5).all (fun j => (vengOf s j).stream ≠ some stream)) then .next s
      else if x.redo then
        .next (takeStream k stream ⟨x.source - 1, 0, 0, s.time⟩ (setStream stream { x with redo := false, ctuRow := 0 } s))
      else if x.state = .running && 1 ≤ (cueOf s d.readyCl.toNat).count then .next (settle (encodeStartOp k stream x d s))
      else .next s

/-- An encoded slice or frame becomes a result (R529, R530). -/
def encodedResult (m : Nat) (x : Stream) (job : DWord) (bytes : List Byte) (s : State) : State :=
  let res : Result :=
    { id := s.curtain.nextId, part := x.part, job := job, req := 0, outSeq := x.outSeq, ntok := 0, tokens := [], status := 0,
      beat := s.beat.num, slot := none, route := x.route, kind := 0x13, stream := m, size := 48 + bytes.length, bytes := bytes,
      state := .queued, heldEdges := none }
  let s := { s with curtain := { s.curtain with results := s.curtain.results ++ [res], nextId := s.curtain.nextId + 1 } }
  let s := setStream m { x with outSeq := x.outSeq + 1, slices := x.slices + 1 } s
  sendEvent x.route (.result res.id) (addRecord s.beat.num job 0x13 m x.outSeq bytes s)

/-- ENCODE_RESULT (R494, R495, R529, R530): with LOWLAT each slice is a result, otherwise each frame is. The command carries the bytes, and
whether they hold the last slice; it stands for nothing when they are not what the encoder gives (notes/assumptions/36.md). The engine
is free after the frame's last slice. A slice of a repeated frame that has already left does not leave again. -/
def execEncodeResult (k : Nat) (bytes : List Byte) (lastSlice : Bool) (s : State) : Res :=
  need (k < 5) <|
    let v := vengOf s k
    match v.stream with
    | none => .next s
    | some m =>
      let x := streamOf s m
      match x.desc with
      | none => .next s
      | some d =>
        let out := encoderGives d x
        if x.kind ≠ 2 || bytes ≠ out.1 || lastSlice ≠ decide (ctuRows d ≤ out.2) then .next s
        else
          let x := { x with ctuRow := out.2 }
          let s := if x.skip > 0 then setStream m { x with skip := x.skip - 1 } s else encodedResult m x d.jobId bytes s
          .next (if lastSlice then setVeng k { v with stream := none, frame := none } s else s)

/-! ### Engine failure (R510) -/

/-- VIDEO_ENGINE_FAIL (R510, R745): the failure is recorded, the frame in progress is processed again from its start, and
the spare takes over the role. -/
def execVideoEngineFail (k : Nat) (s : State) : Res :=
  need (k < 5) <|
    let v := vengOf s k
    if v.failed || !v.inService then .next s
    else
      let s := match v.stream, v.frame with
        | some m, some f =>
          let x := streamOf s m
          if x.kind = 2 then setStream m { x with redo := true, skip := x.slices } s else setStream m { x with frames := f :: x.frames } s
        | _, _ => s
      let cause := (freeVal 14 s).toNat % 256
      let s := logEvent { evBase s 6 cause 7 with unit := unitCode ⟨.video, 0xF, k⟩, origin := originOf 3 true } (drawn s)
      .next (videoOut k s)

end Sys2Proof.Machine
end

