-- ==== Sys2Proof/Machine/SealOps.lean ====
section
/-! DEFINITION. Inbound sealed messages (R574 to R580): the checks, the records that their plaintexts hold, and what an accepted
message does (R384, R496, R502, R575, R638). -/

namespace Sys2Proof.Machine

open Sys2Proof

/-! ### Plaintexts -/

/-- A little-endian field of a record as a word. -/
def recW (n : Nat) (bs : List Byte) (off : Nat) : BitVec n := BitVec.ofNat n (leAt bs off (n / 8))

/-- Whether `len` bytes from `off` are 0. -/
def zeroAt (bs : List Byte) (off len : Nat) : Bool := leAt bs off len = 0

/-- The command that a plaintext holds (R384). The transport fixes its partition. -/
def parseCmd (route : Route) (part : Nat) (job seq : DWord) (bs : List Byte) : Cmd :=
  { part := part, route := route, job := job, seq := seq, opcode := recW 16 bs 0, tag := recW 32 bs 4,
    argLen := recW 32 bs 8, obj := recW 64 bs 16, beat := recW 64 bs 24, inline := slice bs 32 28,
    resvOk := zeroAt bs 2 2 && zeroAt bs 13 3 && leAt bs 8 4 % 8 = 0 && leAt bs 8 4 ≤ 4032,
    crcOk := decide (bs.length = 64 + leAt bs 8 4) && decide (leAt bs 60 4 = crc32c (bs.take 60 ++ bs.drop 64)) }

/-- The request descriptor of R391. -/
def parseReqDesc (bs : List Byte) : ReqDesc :=
  { jobId := recW 64 bs 0, variant := recW 8 bs 8, ncand := recW 8 bs 9, prioFlags := recW 8 bs 10, promptLen := recW 32 bs 12,
    prompt := recW 64 bs 16, maxNew := recW 32 bs 24, temp := recW 32 bs 28, topP := recW 32 bs 32, topK := recW 16 bs 36,
    window := recW 16 bs 38, pres := recW 32 bs 40, freq := recW 32 bs 44, rep := recW 32 bs 48, seed := recW 64 bs 52,
    stop := (List.range 4).map fun i => recW 32 bs (60 + 4 * i),
    resvOk := zeroAt bs 11 1 && leAt bs 10 1 < 32 && zeroAt bs 76 48,
    crcOk := decide (leAt bs 124 4 = crc32c (bs.take 124)) }

/-- The variant record of R408. -/
def parseVariantRec (bs : List Byte) : VariantRec :=
  { magic := recW 32 bs 0, npriv := recW 16 bs 4, routeK := recW 8 bs 6, vocab := recW 32 bs 8, kvTokenBytes := recW 32 bs 12,
    baseId := recW 64 bs 16, expertTbl := recW 64 bs 24, draftProg := recW 64 bs 32, prefillProg := recW 64 bs 40,
    decodeProg := recW 64 bs 48, maxCtx := recW 32 bs 56, resvOk := zeroAt bs 7 1,
    crcOk := decide (leAt bs 60 4 = crc32c (bs.take 60)) }

/-- The head-spread record of R370. -/
def parseSpreadRec (bs : List Byte) : SpreadRec :=
  { setId := recW 32 bs 0, nmod := recW 8 bs 4, rank := recW 8 bs 5, ngroup := recW 16 bs 6, timeoutBeats := recW 8 bs 8,
    qps := (List.range 8).map fun i => recW 32 bs (16 + 4 * i), resvOk := zeroAt bs 9 7 }

/-- The open descriptor of R497. -/
def parseOpenDesc (bs : List Byte) : OpenDesc :=
  { stream := recW 8 bs 0, kind := recW 8 bs 1, flags := recW 8 bs 2, nbuf := recW 8 bs 3, width := recW 16 bs 4,
    height := recW 16 bs 6, frameUs := recW 32 bs 8, tileFmt := recW 8 bs 12, cropX := recW 16 bs 16, cropY := recW 16 bs 18,
    cropW := recW 16 bs 20, cropH := recW 16 bs 22, tileBase := recW 64 bs 24, refBase := recW 64 bs 32, refLen := recW 32 bs 40,
    rate := recW 32 bs 44, qp := recW 8 bs 48, refresh := recW 8 bs 49, keyInt := recW 16 bs 50, jobId := recW 64 bs 52,
    readyCl := recW 16 bs 60, recCl := recW 16 bs 62, resvOk := zeroAt bs 13 3, codecOk := true }

/-- The payload of R502, whose data follows its 16-byte prefix. -/
def parseAu (part : Nat) (job : DWord) (bs : List Byte) : AccessUnit :=
  { part := part, job := job, stream := recW 8 bs 0, flags := recW 8 bs 1, frameNo := recW 32 bs 4, captureUs := recW 64 bs 8,
    bytes := bs.length - 16 }

/-! ### What accepted messages do -/

/-- A Stage Manager command (R390): an OPCODE that the table does not list is refused (R389). -/
def commandOp (c : Cmd) (args : List Byte) (s : State) : State :=
  match c.opcode.toNat with
  | 0x01 => submitOp c (parseReqDesc args) s
  | 0x02 => cancelOp c s
  | 0x03 => pauseOp c s
  | 0x04 => resumeOp c s
  | 0x05 => appendOp c s
  | 0x06 => queryOp c s
  | 0x10 => progLoadOp c s
  | 0x11 => progUnloadOp c s
  | 0x12 => walkonRegOp c s
  | 0x13 => walkonUnregOp c s
  | 0x18 => maskRegOp c s
  | 0x19 => maskUnregOp c s
  | 0x20 => memMapOp c s
  | 0x21 => memUnmapOp c s
  | 0x22 => memProtectOp c s
  | 0x28 => variantLoadOp c (parseVariantRec args) s
  | 0x29 => variantUnloadOp c s
  | 0x2A => expertPublishOp c s
  | 0x30 => treeFlushOp c s
  | 0x38 => spreadRegOp c (parseSpreadRec args) s
  | 0x39 => spreadUnregOp c s
  | 0x40 => trainSubmitOp c s
  | _ => refuse c 0x80 s

/-- A video command (R496). -/
def videoCommandOp (c : Cmd) (args : List Byte) (s : State) : State :=
  match c.opcode.toNat with
  | 0x100 => streamOpenOp c (parseOpenDesc args) s
  | 0x101 => streamCloseOp c s
  | 0x102 => groupSetOp c s
  | 0x103 => groupAttachOp c s
  | 0x104 => keyReqOp c s
  | 0x105 => streamQueryOp c s
  | _ => refuse c 0x80 s

/-- The DV address of a DATA message, and its data (R575). -/
def dataAddr (plain : List Byte) : Nat := leAt plain 0 8

/-- Writes the payload of a DATA message at its address (R575). -/
def dataOp (part : Nat) (plain : List Byte) (s : State) : State :=
  settle (dvWrite (partMem part 4 false) (dataAddr plain) (plain.drop 8) s).1

/-- What an accepted message does, by KIND (R575). -/
def messageOp (m : HeldMsg) (s : State) : State :=
  match m.kind with
  | 1 => commandOp (parseCmd m.route m.part m.job m.seq m.plain) (m.plain.drop 64) s
  | 2 => videoCommandOp (parseCmd m.route m.part m.job m.seq m.plain) (m.plain.drop 64) s
  | 3 => dataOp m.part m.plain s
  | 4 => videoAuOp (parseAu m.part m.job m.plain) s
  | 0x21 => collectiveOp m.job m.plain s
  | 0x22 => abortOp m.job m.plain s
  | _ => s

/-- Applies the inbound messages that the Lead's INPUT messages name, in their order, as far as they have come (R638). -/
def applyInputs : Nat → State → State
  | 0, s => s
  | fuel + 1, s =>
    match s.pair.inputs with
    | [] => s
    | q :: rest =>
      match s.pair.held.find? fun m => m.job = q.job && m.kind = q.kind && m.seq = q.seq with
      | none => s
      | some m =>
        let s := { s with pair := { s.pair with inputs := rest, held := s.pair.held.erase m, inputBeat := some q.beat } }
        let s := messageOp m s
        applyInputs fuel { s with pair := { s.pair with inputBeat := none } }

/-- A message that has passed its checks: an Understudy holds it for its INPUT, a Lead sends the INPUT that names it (R638), and
any other module acts on it. -/
def acceptMsg (m : HeldMsg) (s : State) : State :=
  if follows s then
    let s := { s with pair := { s.pair with held := s.pair.held ++ [m] } }
    applyInputs s.pair.inputs.length s
  else messageOp m (if leads s then
    sendFields 3 0xFF [m.job.toNat, m.kind, m.stream, m.seq.toNat, (effectBeat s).toNat] s else s)

/-! ### The checks of R580 -/

/-- Whether a SEQ may be accepted (R580, R587): it is less than 64 below the highest, and new. -/
def seqFresh (w : Option SeqWin) (q : DWord) : Bool :=
  match w with
  | none => true
  | some w => w.high.toNat < q.toNat + 64 && !w.seen.contains q

/-- The window after a SEQ has been accepted. -/
def seqTake (w : Option SeqWin) (q : DWord) : SeqWin :=
  match w with
  | none => ⟨q, [q]⟩
  | some w =>
    let high := if w.high.toNat < q.toNat then q else w.high
    ⟨high, (q :: w.seen).filter fun x => high.toNat < x.toNat + 64⟩

/-- The SEQ values accepted for a job and KIND. -/
def winOf (s : State) (job : DWord) (kind : Nat) : Option SeqWin :=
  (s.net.wins.find? fun e => e.1 = job && e.2.1 = kind).map fun e => e.2.2

def setWin (job : DWord) (kind : Nat) (w : SeqWin) (s : State) : State :=
  { s with net := { s.net with wins := (s.net.wins.filter fun e => !(e.1 = job && e.2.1 = kind)) ++ [(job, kind, w)] } }

/-- Whether a key of the job serves the inbound checks (R580, R613, R615, R616). -/
def keyServes (s : State) (part : Nat) (m : Sealed) : Bool :=
  match jobKey s m.jobId with
  | some k => k.part = part && !k.dropping &&
      (m.keyEpoch = k.newest || (match k.prev with | some p => m.keyEpoch = p.1 | none => false))
  | none => false

/-- Whether the address range of a DATA message leaves the general range or meets a translation fault. -/
def dataBad (s : State) (part : Nat) (m : Sealed) : Bool :=
  let a := dataAddr m.plain
  let n := m.plain.length - 8
  m.plain.length < 8 || a + n > 2 ^ 47 || (rangeFault s (partMem part 4 false) true a n).isSome

/-- The first check of R580 that a message fails, numbered from 0, and the status of its ERROR entry. `ok` says whether the KIND is
one that the path takes, and `size` is the size of the message. -/
def sealCheck (s : State) (part : Nat) (ok : Bool) (size : Nat) (m : Sealed) : Option (Nat × Status) :=
  if m.version ≠ 1 || m.flags ≠ 0 || !m.resvOk || !ok then some (0, 0x81)
  else if 48 + m.length.toNat ≠ size then some (0, 0x0F)
  else if !keyServes s part m then some (1, 0x0B)
  else if !m.tagOk then some (2, 0x81)
  else if m.kind.toNat ≤ 4 && !seqFresh (winOf s m.jobId m.kind.toNat) m.seq then some (3, 0x81)
  else if m.kind = 3 && dataBad s part m then some (4, 0x81)
  else none

/-- A message that has passed the checks is accepted. -/
def takeMsg (route : Route) (part : Nat) (m : Sealed) (s : State) : State :=
  let k := m.kind.toNat
  let s := if k ≤ 4 then setWin m.jobId k (seqTake (winOf s m.jobId k) m.seq) s else s
  acceptMsg ⟨route, part, m.jobId, k, m.stream.toNat, m.seq, m.plain⟩ s

/-- A failed check is counted in NET_SEAL_FAIL_CNTc. -/
def countSeal (k : Nat) (s : State) : State := bump (0xB0040 + 4 * k) s

end Sys2Proof.Machine
end

