-- ==== Sys2Proof/Machine/Ports.lean ====
section
/-! DEFINITION. The Ethernet ports (R569 to R573, R581 to R583). -/

namespace Sys2Proof.Machine

open Sys2Proof

/-- A port. -/
def portOf (s : State) (n : Nat) : Port := tabGet Port.init s.net.ports n
def setPort (n : Nat) (p : Port) (s : State) : State :=
  { s with net := { s.net with ports := tabSet Port.init s.net.ports n p } }

/-- Whether a RoCE queue pair's role has a port that receives. -/
def roceReceives (s : State) (q : Rqp) : Bool :=
  (List.range 5).any fun n => let p := portOf s n; p.role = some q.role && !p.failed && p.link

/-- What a SEND does (R570, R571, R573, R580): RNR NAK while there is no buffer for what it may answer, which is while the wait queue
holds 128 events (R559). A message that fails a check is counted and dropped silently. -/
def roceSendOp (qpn : Nat) (q : Rqp) (m : Sealed) (s : State) : State :=
  if q.wait.length ≥ 128 then emit (.rnrNak qpn) s
  else
    let s := setRqp qpn (some { q with recvPsn := q.recvPsn + BitVec.ofNat 24 (packets m.size) }) s
    let k := m.kind.toNat
    let ok := (1 ≤ k && k ≤ 4) || k = 0x21 || k = 0x22
    match sealCheck s q.part (ok && m.size ≤ 2 ^ 24) m.size m with
    | some (i, _) => countSeal i s
    | none => drainAll (takeMsg (.roce qpn) q.part m s)

/-- ROCE_SEND (R571, R573, R580). -/
def execRoceSend (qpn : Nat) (m : Sealed) (s : State) : Res :=
  match rqpOf s qpn with
  | none => .next s
  | some q => .next (if s.beat.started && roceReceives s q then roceSendOp qpn q m s else s)

/-- ROCE_UNSUPPORTED_OP (R570): a remote access error NAK. -/
def execRoceUnsupportedOp (qpn : Nat) (s : State) : Res :=
  match rqpOf s qpn with
  | none => .next s
  | some q => .next (if roceReceives s q then emit (.accessNak qpn) s else s)

/-! ### Queue pairs (R572) -/

/-- The 32 bytes of NET_RQP_CTX0 to NET_RQP_CTX7. -/
def rqpCtx (s : State) : List Byte := (List.range 8).flatMap fun i => leBytes 4 (regW s (0xB0100 + 4 * i)).toNat

/-- Whether the reserved bits of a context are 0. -/
def rqpCtxOk (bs : List Byte) : Bool :=
  leAt bs 3 1 < 32 && leAt bs 7 1 < 64 && leAt bs 11 1 = 0 && leAt bs 12 2 / 4096 % 2 = 0 && leAt bs 14 2 = 0

/-- The queue pair of a context. DESIGN CHOICE: the remote QPN, PSN and VLAN fields, which standards define and R572 lays out, are read
little-endian as the fields of a structure of the manual (notes/assumptions/99.md). -/
def rqpFrom (ctx : List Word) (bs : List Byte) : Rqp :=
  { ctx := ctx, role := leAt bs 3 1 / 8 % 4, part := leAt bs 3 1 % 8, sendPsn := BitVec.ofNat 24 (leAt bs 4 3),
    recvPsn := BitVec.ofNat 24 (leAt bs 8 3), ackPsn := BitVec.ofNat 24 (leAt bs 4 3), sent := [], wait := [], drops := [0, 0, 0, 0],
    rateCuts := 0, stopped := false }

/-- A number that no queue pair has, from a free one on: the manual does not say which number a new queue pair takes. -/
def freshQpn (s : State) : Nat :=
  let v := (freeVal 16 s).toNat
  (((List.range 1025).map fun i => (v + i) % 2 ^ 24).find? fun n => (rqpOf s n).isNone).getD 0

/-- The status of a NET_RQP_CMD. -/
def rqpStatus (st : Status) (s : State) : State := { s with net := { s.net with rqpStat := st } }

/-- What a CREATE does. -/
def rqpCreateOp (s : State) : State :=
  let bs := rqpCtx s
  if s.net.rqps.length ≥ 1024 then rqpStatus 0x0E s
  else if !rqpCtxOk bs then rqpStatus 0x81 s
  else
    let n := freshQpn s
    let q := rqpFrom ((List.range 8).map fun i => regW s (0xB0100 + 4 * i)) bs
    let q := { q with stopped := s.net.busy && s.net.takeover = some q.role }
    rqpStatus 0 (setRegF 0xB0120 23 0 n (setRqp n (some q) (drawn s)))

/-- RQP_CREATE (R572): only the physical function sees the registers (R537). -/
def execRqpCreate (fn : Nat) (s : State) : Res := need (fn ≤ 8) (.next (if fn = 0 then rqpCreateOp s else s))

/-- What a DESTROY does: what waits on the queue pair is dropped. -/
def rqpDestroyOp (n : Nat) (s : State) : State :=
  match rqpOf s n with
  | none => rqpStatus 0x81 s
  | some q => rqpStatus 0 (q.wait.foldl (fun t ev => dropAtPort q.part ev t) (setRqp n none s))

/-- RQP_DESTROY (R572). -/
def execRqpDestroy (fn qpn : Nat) (s : State) : Res :=
  need (fn ≤ 8) (.next (if fn = 0 then rqpDestroyOp (qpn % 2 ^ 24) (setRegF 0xB0120 23 0 qpn s) else s))

/-! ### Acknowledgement and flow control (R569, R582) -/

/-- Whether a PSN lies from the first unacknowledged one up to the next to be sent. -/
def psnInFlight (q : Rqp) (psn : BitVec 24) : Bool := (psn - q.ackPsn).toNat < (q.sendPsn - q.ackPsn).toNat

/-- The messages of a queue pair that are not acknowledged whole when its acknowledged PSN becomes `psn`. -/
def unacked (q : Rqp) (psn : BitVec 24) : List (BitVec 24 × SealedOut) :=
  q.sent.filter fun m => (psn - q.ackPsn).toNat < (m.1 - q.ackPsn).toNat + packets m.2.size

/-- A queue pair sends again what is not acknowledged (R582). -/
def resend (qpn : Nat) (s : State) : State :=
  match rqpOf s qpn with
  | some q => if roceSends s q then q.sent.foldl (fun t m => emit (.sealed m.2) t) s else s
  | none => s

/-- ROCE_ACK (R582): an ACK acknowledges up to its PSN, and a NAK names the PSN from which the pair sends again. -/
def execRoceAck (qpn : Nat) (psn : BitVec 24) (nak : Bool) (s : State) : Res :=
  match rqpOf s qpn with
  | none => .next s
  | some q =>
    if !psnInFlight q psn then .next s
    else
      let ack := if nak then psn else psn + 1
      let s := setRqp qpn (some { q with ackPsn := ack, sent := unacked q ack }) s
      .next (if nak then resend qpn s else s)

/-- CNP_RECEIVED (R569): the sending rate is reduced. -/
def execCnpReceived (qpn : Nat) (s : State) : Res :=
  match rqpOf s qpn with
  | none => .next s
  | some q => .next (setRqp qpn (some { q with rateCuts := q.rateCuts + 1 }) s)

/-- PRIORITY_FLOW_CONTROL (R569). -/
def execPriorityFlowControl (port : Nat) (pause : Bool) (s : State) : Res :=
  need (port < 5) (.next (drainAll (setPort port { portOf s port with paused := pause } s)))

/-- PORT_LINK_CHANGE (R456, R583): a port that has failed stays so. -/
def execPortLinkChange (port : Nat) (up failed : Bool) (s : State) : Res :=
  need (port < 5) <|
    let p := portOf s port
    .next (drainAll (setPort port { p with link := up, failed := p.failed || failed } s))

/-! ### Takeover by the spare port (R581 to R583) -/

/-- Every queue pair of a role stops or starts sending. -/
def roleStopped (role : Nat) (stop : Bool) (s : State) : State :=
  { s with net := { s.net with rqps := tabMap none (fun _ q =>
      q.map fun (q : Rqp) => if q.role = role then { q with stopped := stop } else q) s.net.rqps } }

/-- The queue pairs of a role send again on the port that serves it now, from their last acknowledged PSN, and then what waits (R582). -/
def roleResumes (role : Nat) (s : State) : State :=
  let s := roleStopped role false s
  drainAll ((tabKeys (fun _ q => match q with | some q => q.role = role | none => false) s.net.rqps).foldl (fun t n => resend n t) s)

/-- What SPARE_PORT does at its first step: the takeover begins, or is released. -/
def spareStart (role : Nat) (s : State) : State :=
  roleStopped role true { s with net := { s.net with takeover := some role, busy := true } }

/-- A release: the port of the role at shipment serves it again, and has not failed (R583). -/
def spareRelease (s : State) : State :=
  match s.net.takeover with
  | none => s
  | some r =>
    let s := setPort r { portOf s r with role := some r, failed := false, ptp := r = 0 } s
    let s := setPort 4 { portOf s 4 with role := none, ptp := false } s
    roleResumes r { s with net := { s.net with takeover := none, busy := false } }

/-- SPARE_TAKEOVER_DONE (R30, R582): N4 has trained and takes the role's addresses and queue pairs. -/
def execSpareTakeoverDone (s : State) : Res :=
  match s.net.busy, s.net.takeover with
  | true, some r =>
    let s := (List.range 4).foldl (fun t n =>
      if (portOf t n).role = some r then setPort n { portOf t n with role := none, ptp := false } t else t) s
    let s := setPort 4 { portOf s 4 with role := some r, link := true, ptp := r = 0 } s
    .next (roleResumes r { s with net := { s.net with busy := false } })
  | _, _ => .next s

end Sys2Proof.Machine
end

