-- ==== Sys2Proof/Machine/Rot.lean ====
section
/-! DEFINITION. Tenant and operator commands of the RoT (R607 to R629), and its SPDM responder (R600 to R605). -/

namespace Sys2Proof.Machine

open Sys2Proof

/-! ### Keys (R608 to R617) -/

/-- Puts a key into a key slot: a new key of its own generation. -/
def putKey (slot : Nat) (key : BitVec 512) (s : State) : State :=
  { s with sec := { s.sec with
      keys := tabSet none s.sec.keys slot (some (s.sec.keyGen + 1)), keyVals := tabSet 0 s.sec.keyVals slot key
      keyGen := s.sec.keyGen + 1 } }

/-- What a KEY_PUT_PART does (R609, R780). -/
def keyPutPartOp (m : Mgmt) (key : BitVec 512) (s : State) : State :=
  let n := m.target.toNat
  if !mainUp s then mgmtSt m 0x0E s
  else if !partEnabled s n then mgmtSt m 0x83 s
  else if keyHeld s n then mgmtSt m 0x0E s
  else if key.truncate 256 = ((key >>> 256).truncate 256 : BitVec 256) then mgmtSt m 0x81 s
  else mgmtSt m 0 (putKey n key s)

/-- KEY_PUT_PART (R609). -/
def execKeyPutPart (m : Mgmt) (key : BitVec 512) (s : State) : Res := tenantCmd m s (keyPutPartOp m key s)

/-- A partition command that takes effect at the edge after the next The Half, and replies then. -/
def pendAct (m : Mgmt) (part : Nat) (a : PartAction) (s : State) : State :=
  { s with sec := { s.sec with acts := s.sec.acts ++ [⟨part, a, false, false, m.src, m.tag⟩] } }

/-- KEY_DROP_PART (R611). -/
def execKeyDropPart (m : Mgmt) (s : State) : Res := tenantCmd m s (pendAct m m.target.toNat .keyDrop s)

/-- Whether a JOB_ID is valid for a partition (R612). -/
def jobIdOk (part : Nat) (job : DWord) : Bool := fld job 63 51 = 0 && fld job 50 48 = part

/-- SEC_Pn_JOB_MAX.JOBS, which the settings set. -/
def jobMax (s : State) (n : Nat) : Nat :=
  match s.upd.settings.find? fun e => e.1 = 0x100104 + 0x20 * n with
  | some e => fld e.2 12 0
  | none => 0x200

/-- Jobs of a partition with an installed key. -/
def jobsOf (s : State) (n : Nat) : List (DWord × JobKey) := s.sec.jobs.filter fun j => j.2.part = n

def setJobKey (job : DWord) (f : JobKey → JobKey) (s : State) : State :=
  { s with sec := { s.sec with jobs := s.sec.jobs.map fun j => if j.1 = job then (j.1, f j.2) else j } }

/-- What a KEY_PUT_JOB does (R612 to R615): an install keeps the newest epoch before it, and no older one; a job beyond the 4,096 of the
RoT or the limit of its partition is refused with ST_BUSY (R614). -/
def keyPutJobOp (m : Mgmt) (job : DWord) (epoch : Word) (key : BitVec 256) (s : State) : State :=
  let n := m.target.toNat
  if !jobIdOk n job then mgmtSt m 0x81 s
  else match jobKey s job with
    | some k =>
      if epoch.toNat ≤ k.newest.toNat then mgmtSt m 0x81 s
      else if k.dropping then mgmtSt m 0x0E s
      else mgmtSt m 0 (setJobKey job (fun k =>
        { k with newest := epoch, newestBeat := s.beat.num, key := key, prev := some (k.newest, k.newestBeat), prevKey := k.key }) s)
    | none =>
      if s.sec.jobs.length ≥ 4096 || (jobsOf s n).length ≥ jobMax s n then mgmtSt m 0x0E s
      else mgmtSt m 0 { s with sec := { s.sec with jobs := s.sec.jobs ++ [(job, ⟨n, epoch, s.beat.num, none, key, 0, false, false⟩)] } }

/-- KEY_PUT_JOB (R612 to R615). -/
def execKeyPutJob (m : Mgmt) (job : DWord) (epoch : Word) (key : BitVec 256) (s : State) : Res :=
  tenantCmd m s (keyPutJobOp m job epoch key s)

/-- What a KEY_DROP_JOB does (R612, R616): inbound acceptance stops at once. -/
def keyDropJobOp (m : Mgmt) (job : DWord) (s : State) : State :=
  if !jobIdOk m.target.toNat job then mgmtSt m 0x81 s
  else if (jobKey s job).isNone then mgmtSt m 0x0B s
  else mgmtSt m 0 (setJobKey job (fun k => { k with dropping := true }) s)

/-- KEY_DROP_JOB (R612, R616). -/
def execKeyDropJob (m : Mgmt) (job : DWord) (s : State) : Res := tenantCmd m s (keyDropJobOp m job s)

/-- JOB_KEY_ERASE (R616): once the edge has passed and no result of the job is left. -/
def execJobKeyErase (job : DWord) (s : State) : Res :=
  match jobKey s job with
  | none => .next s
  | some k => .next (if k.dropping && k.cut && s.curtain.results.all (fun r => r.job ≠ job) then
      { s with sec := { s.sec with jobs := s.sec.jobs.filter fun j => j.1 ≠ job } } else s)

/-- KEY_LIST (R607): up to 64 jobs from a start index, each with its newest epoch. -/
def execKeyList (m : Mgmt) (start : Nat) (s : State) : Res :=
  tenantCmd m s (mgmtReply m 0 ((((jobsOf s m.target.toNat).drop start).take 64).flatMap fun j =>
    [j.1, j.2.newest.zeroExtend 64]) s)

/-- APERTURE (R543). -/
def execAperture (m : Mgmt) (en : Bool) (s : State) : Res :=
  tenantCmd m s (mgmtSt m 0 (setRegF (0xB1420 + 0x1000 * m.target.toNat) 0 0 (b2n en) s))

/-- PERF_CONSENT (R626). -/
def execPerfConsent (m : Mgmt) (consent : Bool) (s : State) : Res :=
  let n := m.target.toNat
  let rest := s.sec.consent.filter (· ≠ n)
  tenantCmd m s (mgmtSt m 0 { s with sec := { s.sec with consent := if consent then rest ++ [n] else rest } })

/-! ### Accounting (R620, R624) -/

/-- The closed billing record of a period. -/
def billOf (s : State) (period : Nat) : Option BillRecord := s.energy.records.find? fun r => r.period = period

/-- ACCT_GET (R622 to R624): the partition's line, its energy in whole mJ. -/
def execAcctGet (m : Mgmt) (period : Nat) (s : State) : Res :=
  let n := m.target.toNat
  tenantCmd m s (match billOf s period with
    | none => mgmtSt m 0x81 s
    | some r => mgmtReply m 0 [BitVec.ofNat 64 (r.energy.getD n 0 / 1000), BitVec.ofNat 64 (r.eus.getD n 0)] s)

/-- ACCT_RESEND (R607, R620, R699). -/
def execAcctResend (m : Mgmt) (period : Nat) (s : State) : Res :=
  mgmtCmd m true asOperator true s (match billOf s period with
    | none => mgmtSt m 0x81 s
    | some r => mgmtSt m 0 (sendHouse 7 (accountBytes s r) s))

/-! ### Claims, partitions and grants -/

/-- The hash of the active claim slot. -/
def activeClaim (s : State) : Option Digest := (s.sec.claims.find? Prod.snd).map Prod.fst

/-- The root hash of the requester of a command. -/
def requesterHash (s : State) (m : Mgmt) : Digest :=
  match m.src with
  | .session i => (match sessionOf s i with | some x => x.rootHash | none => 0)
  | .house => 0

/-- CLAIM (R603, R607). -/
def execClaim (m : Mgmt) (s : State) : Res :=
  mgmtCmd m false (fun r => r = .verifier && (activeClaim s).isNone) false s
    (if s.sec.claims.length ≥ 4 then mgmtSt m 0x0E s
      else mgmtSt m 0 (measureLife { s with sec := { s.sec with claims := s.sec.claims ++ [(requesterHash s m, true)] } }))

/-- RELEASE (R607): the active claim slot is revoked. -/
def execRelease (m : Mgmt) (s : State) : Res :=
  operatorCmd m s (mgmtSt m 0 (measureLife { s with sec := { s.sec with claims := s.sec.claims.map fun c => (c.1, false) } }))

/-- The Stage Manager grants a partition its Cue Light ranges (R116). -/
def grantCues (part : Nat) (s : State) : State :=
  let w (k : Nat) : Word := Config.cueGrant part k s.free ^^^ 0x0000FFFF#32
  drawn { s with cueGrant := tabSet 0#32 (tabSet 0#32 s.cueGrant (2 * part) (w 0)) (2 * part + 1) (w 1) }

/-- What a PART_ENABLE does (R245, R598, R607, R629). -/
def partEnableOp (m : Mgmt) (part : Nat) (rootHash : Digest) (s : State) : State :=
  if part > 7 then mgmtSt m 0x81 s
  else if s.sec.debugOpen then mgmtSt m 0x83 s
  else if partEnabled s part then mgmtSt m 0x0E s
  else if !guarFits s part (guarReg s part) then mgmtSt m 6 (setRegF (0x30208 + 0x20 * part) 0 0 1 s)
  else
    let s := { s with sec := { s.sec with
      enabled := s.sec.enabled ++ [part]
      bindings := tabSet none s.sec.bindings part (some rootHash)
      meas := tabSet 0 s.sec.meas (16 + part) 0
      measGen := s.sec.measGen + 1
      logGen := tabSet 0#32 s.sec.logGen part 0 } }
    mgmtSt m 0 (grantCues part { s with flies := { s.flies with guar := tabSet 4 s.flies.guar part (guarReg s part) } })

/-- PART_ENABLE (R245, R598, R607, R629). -/
def execPartEnable (m : Mgmt) (part : Nat) (rootHash : Digest) (s : State) : Res := operatorCmd m s (partEnableOp m part rootHash s)

/-- PART_DISABLE (R617). -/
def execPartDisable (m : Mgmt) (part : Nat) (s : State) : Res :=
  operatorCmd m s (if part > 7 then mgmtSt m 0x81 s else if !partEnabled s part then mgmtSt m 0x83 s else pendAct m part .disable s)

/-- GRANT (R607): MMU_Pn_SHARE and VIDEO_Pn_GRANT. -/
def execGrant (m : Mgmt) (part : Nat) (share : BitVec 4) (privVideo : Bool) (s : State) : Res :=
  operatorCmd m s (if part > 7 then mgmtSt m 0x81 s
    else mgmtSt m 0 (setRegF (0x70108 + 0x20 * part) 3 0 share.toNat (setRegF (0xA0400 + 0x20 * part) 0 0 (b2n privVideo) s)))

/-- KEY_PUT_SHARED (R607, R608, R780). -/
def execKeyPutShared (m : Mgmt) (slot : Nat) (key : BitVec 512) (s : State) : Res :=
  operatorCmd m s (if !mainUp s then mgmtSt m 0x0E s
    else if slot < 10 || slot > 13 then mgmtSt m 0x81 s
    else if keyHeld s slot then mgmtSt m 0x0E s else mgmtSt m 0 (putKey slot key s))

/-- KEY_PUT_HOUSE (R588, R607). -/
def execKeyPutHouse (m : Mgmt) (key : BitVec 384) (s : State) : Res :=
  operatorCmd m s (mgmtSt m 0 { s with sec := { s.sec with house := true, houseKey := key } })

/-! ### Debug (R627 to R629) -/

/-- The nonces of a command's session. -/
def noncesOf (s : State) (m : Mgmt) : List DWord :=
  match m.src with
  | .session i => (match sessionOf s i with | some x => x.nonces | none => [])
  | .house => []

def setNonces (m : Mgmt) (ns : List DWord) (s : State) : State :=
  match m.src with
  | .session i => (match sessionOf s i with | some x => setSession i (some { x with nonces := ns }) s | none => s)
  | .house => s

/-- What opening the debug port does: every key but that of slot 8 is erased, and the device is reset with no partition enabled. -/
def openDebug (s : State) : State :=
  let s := { s with sec := { s.sec with
    keys := s.sec.keys.filter (fun e => e.1 = 8), keyVals := [], jobs := [], house := false, houseKey := 0, enabled := [], bindings := [], acts := [],
    debugCnt := s.sec.debugCnt + 1, debugOpen := true } }
  measureLife (deviceReset false false false s)

/-- What a DEBUG_UNLOCK does (R628, R629): without a token it returns a nonce; each nonce serves once. -/
def debugUnlockOp (m : Mgmt) (token : Option (DWord × Bool)) (s : State) : State :=
  match token with
  | none =>
    let n := Config.nonce s.free
    mgmtReply m 0 [n] (setNonces m (noncesOf s m ++ [n]) (drawn s))
  | some (n, ok) =>
    if !ok then mgmtSt m 0x81 (authFail s)
    else if !(noncesOf s m).contains n then mgmtSt m 0x81 s
    else mgmtSt m 0 (openDebug (setNonces m ((noncesOf s m).filter (· ≠ n)) s))

/-- DEBUG_UNLOCK (R628, R629). -/
def execDebugUnlock (m : Mgmt) (token : Option (DWord × Bool)) (s : State) : Res := operatorCmd m s (debugUnlockOp m token s)

/-! ### The cabinet's commands -/

/-- CAP_SET (R86, R87). -/
def execCapSet (m : Mgmt) (watts : Nat) (s : State) : Res :=
  houseCmd m s (if 200 ≤ watts && watts ≤ 800 then
    mgmtSt m 0 { s with energy := { s.energy with capPend := some watts } } else mgmtSt m 0x81 s)

/-- CURTAIN (R472, R475, R885). -/
def execCurtain (m : Mgmt) (close : Bool) (s : State) : Res :=
  houseCmd m s (mgmtSt m 0 (gatesOpen { s with curtain := { s.curtain with mgmt := close } }))

/-- CURTAIN_POLICY (R478). -/
def execCurtainPolicy (m : Mgmt) (hold : Byte) (s : State) : Res :=
  houseCmd m s (mgmtSt m 0 { s with curtain := { s.curtain with policyPend := some hold } })

/-- SPARE_PORT (R581, R583): one role at a time, or 7 to release. -/
def execSparePort (m : Mgmt) (role : Nat) (s : State) : Res :=
  houseCmd m s (if role = 7 then mgmtSt m 0 (drainAll (spareRelease s))
    else if role > 3 then mgmtSt m 0x81 s
    else if s.net.takeover.isSome then mgmtSt m 0x0E s
    else mgmtSt m 0 (spareStart role s))

/-! ### SPDM (R600 to R605) -/

/-- An SPDM response outside a session, by its code in DSP0274. -/
def spdm (p : SpdmPort) (code : Nat) (payload : List Byte) (s : State) : State := sendSpdm p false code payload s

/-- The ERROR response, with its error code. R600 names Busy; the codes are those of DSP0274 (PRESUMED; notes/assumptions/105.md): 3 Busy,
4 UnexpectedRequest, 5 Unspecified. -/
def spdmError (p : SpdmPort) (code : Nat) (s : State) : State := spdm p 0x7F [BitVec.ofNat 8 code] s

/-- The RoT answers SPDM while 12 V standby is present. -/
def spdmCmd (s : State) (body : State) : Res := .next (if s.pins.standby then body else s)

/-- GET_VERSION (R600): version 1.2 only. -/
def execGetVersion (p : SpdmPort) (s : State) : Res :=
  spdmCmd s (spdm p 0x04 [0x12] { s with sec := { s.sec with spdmVersion := true, spdmCaps := false, spdmAlgs := false } })

/-- GET_CAPABILITIES (R600): DataTransferSize and MaxSPDMmsgSize are 1,280 bytes. -/
def execGetCapabilities (p : SpdmPort) (s : State) : Res :=
  spdmCmd s (if s.sec.spdmVersion then spdm p 0x61 (leBytes 4 1280 ++ leBytes 4 1280) { s with sec := { s.sec with spdmCaps := true } }
    else spdmError p 4 s)

/-- NEGOTIATE_ALGORITHMS (R600): `ok` says whether the request offers the algorithms that the RoT supports. -/
def execNegotiateAlgorithms (p : SpdmPort) (ok : Bool) (s : State) : Res :=
  spdmCmd s (if s.sec.spdmCaps && ok then spdm p 0x63 [] { s with sec := { s.sec with spdmAlgs := true } } else spdmError p 4 s)

/-- A request that needs the algorithms to be agreed. -/
def spdmAfter (p : SpdmPort) (s : State) (body : State) : Res := spdmCmd s (if s.sec.spdmAlgs then body else spdmError p 4 s)

/-- The certificate chain of slot 0 (R599). -/
def certChain (s : State) : List Byte := Config.aliasChain (aliasKey s)

/-- GET_DIGESTS (R599): the digest of the chain in slot 0. -/
def execGetDigests (p : SpdmPort) (s : State) : Res :=
  spdmAfter p s (spdm p 0x01 (leBytes 48 (Config.sha384 (certChain s)).toNat) s)

/-- GET_CERTIFICATE (R599). -/
def execGetCertificate (p : SpdmPort) (s : State) : Res := spdmAfter p s (spdm p 0x02 (certChain s) s)

/-- A response that the alias key signs. -/
def aliasSigned (s : State) (bs : List Byte) : List Byte := bs ++ Config.aliasSign (aliasKey s) bs

/-- CHALLENGE (R600): the requester's nonce and the digest of the chain, signed. -/
def execChallenge (p : SpdmPort) (nonce : BitVec 256) (s : State) : Res :=
  spdmAfter p s (spdm p 0x03 (aliasSigned s (leBytes 32 nonce.toNat ++ leBytes 48 (Config.sha384 (certChain s)).toNat)) s)

/-- Whether a measurement index is reported to a requester (R603, R604): the partition log only in a TENANT session. -/
def measAllowed (s : State) (session : Option Nat) (index : Nat) : Bool :=
  if 1 ≤ index && index ≤ 12 then true
  else match session.bind fun i => sessionOf s i with
    | some x => x.phase = .established && 16 ≤ index && index < 24 && x.role = .tenant (index - 16) && s.sec.enabled.contains (index - 16)
    | none => false

/-- The DMTF value type of a measurement (R597). -/
def measType (index : Nat) : Nat :=
  match index with
  | 1 => 0 | 7 => 3 | 8 => 2 | 9 => 4 | 10 => 5 | 11 => 6 | 12 => 7
  | i => if i ≥ 16 then 4 else 1

/-- A measurement as it is reported: its index, its value type and its value; nothing for an index that is absent. -/
def measReport (s : State) (session : Option Nat) (index : Nat) : List Byte :=
  if measAllowed s session index then
    [BitVec.ofNat 8 index, BitVec.ofNat 8 (measType index)] ++ leBytes 48 (tabGet 0 s.sec.meas index).toNat
  else []

/-- GET_MEASUREMENTS (R604), signed and fresh (R600); in a session it is secured. -/
def execGetMeasurements (p : SpdmPort) (session : Option Nat) (index : Nat) (s : State) : Res :=
  spdmAfter p s (sendSpdm p session.isSome 0x60 (aliasSigned s (measReport s session index)) s)

/-- The lowest session number that is free. -/
def freeSession (s : State) : Option Nat := (List.range 16).find? fun i => (sessionOf s i).isNone

/-- KEY_EXCHANGE (R600, R603): a 17th is answered with Busy, and each asks for mutual authentication. -/
def execKeyExchange (p : SpdmPort) (s : State) : Res :=
  spdmAfter p s (match freeSession s with
    | none => spdmError p 3 s
    | some i => spdm p 0x64 (aliasSigned s [BitVec.ofNat 8 i, 1]) (setSession i (some ⟨p, .keyExchange, .verifier, 0, 0, s.time, []⟩) s))

/-- A secured response in a session. -/
def inSession (x : Session) (code : Nat) (payload : List Byte) (s : State) : State := sendSpdm x.port true code payload s

/-- A request on a session that exists and has reached a phase. -/
def onSession (i : Nat) (ph : SessionPhase) (s : State) (k : Session → State) : Res :=
  spdmCmd s (match sessionOf s i with
    | some x => if x.phase = ph then k x else inSession x 0x7F [4] s
    | none => s)

/-- GET_ENCAPSULATED_REQUEST (R600, R603). -/
def execGetEncapsulatedRequest (i : Nat) (s : State) : Res :=
  onSession i .keyExchange s fun x => inSession x 0x6A [] (setSession i (some { x with phase := .encapsulated }) s)

/-- DELIVER_ENCAPSULATED_RESPONSE (R600, R605): a chain that fails ends the handshake. -/
def execDeliverEncapsulatedResponse (i : Nat) (chainOk : Bool) (s : State) : Res :=
  onSession i .encapsulated s fun x =>
    if chainOk then inSession x 0x6B [] (setSession i (some { x with phase := .chain }) s)
    else inSession x 0x7F [5] (authFail (setSession i none s))

/-- The role that a session takes (R603, R630). -/
def roleFor (s : State) (rootHash : Digest) : Role :=
  if s.sec.life = 2 then .verifier
  else if activeClaim s = some rootHash then .operator
  else match (List.range 8).find? fun n => tabGet none s.sec.bindings n = some rootHash with
    | some n => .tenant n
    | none => .verifier

/-- FINISH (R603, R605): a requester that fails verification gets no session. -/
def execFinish (i : Nat) (chainOk sigOk : Bool) (rootHash : Digest) (s : State) : Res :=
  onSession i .chain s fun x =>
    if chainOk && sigOk then
      inSession x 0x65 []
        (setSession i (some { x with phase := .established, role := roleFor s rootHash, rootHash := rootHash, beatUs := s.time }) s)
    else inSession x 0x7F [5] (authFail (setSession i none s))

/-- HEARTBEAT (R600). -/
def execSpdmHeartbeat (i : Nat) (s : State) : Res :=
  onSession i .established s fun x => inSession x 0x68 [] (setSession i (some { x with beatUs := s.time }) s)

/-- KEY_UPDATE (R600). -/
def execKeyUpdate (i : Nat) (s : State) : Res :=
  onSession i .established s fun x => inSession x 0x69 [] (setSession i (some { x with keyGen := x.keyGen + 1 }) s)

/-- END_SESSION (R600). -/
def execEndSession (i : Nat) (s : State) : Res :=
  onSession i .established s fun x => inSession x 0x6C [] (setSession i none s)

end Sys2Proof.Machine
end

