-- ==== Sys2Proof/Machine/UpdOps.lean ====
section
/-! DEFINITION. Operations of firmware update (R783 to R812): activation, confirmation, fallback, and the reset of the RoT domain. -/

namespace Sys2Proof.Machine

open Sys2Proof

/-- The bundle in a slot. -/
def slotBundle (s : State) (k : Nat) : Bundle := s.upd.slots.getD k .init
/-- Changes the bundle in a slot. -/
def modBundle (k : Nat) (f : Bundle → Bundle) (s : State) : State :=
  { s with upd := { s.upd with slots := s.upd.slots.modify k f } }

/-- The STAGED slot (R793): only the inactive slot can be. -/
def stagedSlot (s : State) : Option Nat :=
  if (slotBundle s (otherSlot s)).state = .staged then some (otherSlot s) else none

/-- The digest of a part in a bundle. -/
def partDigest (b : Bundle) (kind : Nat) : Digest :=
  match b.kinds.findIdx? (· = kind) with | some i => b.digests.getD i 0 | none => 0

/-- Whether a part kind of the staged bundle differs from the active one. -/
def partDiffers (s : State) (kind : Nat) : Bool :=
  partDigest (slotBundle s (otherSlot s)) kind ≠ partDigest (slotBundle s s.upd.running) kind

/-- Whether an activation of the staged bundle is live (R796, R801). -/
def liveBundle (s : State) : Bool :=
  let b := slotBundle s (otherSlot s)
  !b.settingsOnly && (b.kinds.zipIdx).all fun q => !partDiffers s q.1 || b.live.getD q.2 false

/-- The settings record after the activation of a bundle (R800, R801). -/
def activatedSettings (s : State) (b : Bundle) : List (Nat × Word) :=
  if b.settingsOnly then b.shared ++ b.locals
  else if b.schema = s.upd.schema then s.upd.settings
  else
    b.shared ++ b.locals.map fun e => match s.upd.settings.find? fun x => x.1 = e.1 with | some x => x | none => e

/-- The measurements that a change of the active bundle changes (R597): settings, version and security versions. -/
def measureBundle (s : State) : State :=
  let b := slotBundle s s.upd.running
  measure 7 (Config.sha384 (settingsRecord s)) (measure 11 (Config.sha384 (slice b.version 0 3))
    (measure 12 (Config.sha384 (b.svn.flatMap (leBytes 2))) s))

/-- The selector record makes the STAGED slot active, in TRIAL (R794, R800, R802). -/
def activate (live : Bool) (s : State) : State :=
  let o := otherSlot s
  let b := slotBundle s o
  let old := s.upd.settings
  let new := activatedSettings s b
  let s := modBundle s.upd.running (fun x => { x with
    shared := old.filter (fun e => !localEntry e.1), locals := old.filter fun e => localEntry e.1 }) s
  let s := modBundle o (fun x => { x with
    state := .trial, shared := new.filter (fun e => !localEntry e.1), locals := new.filter fun e => localEntry e.1 }) s
  bump 0x110044 { s with upd := { s.upd with
    running := o, selector := o, settings := new, schema := b.schema, trialBoots := 0, trialBlocked := false,
    trialPaired := s.pair.mode = .lead || s.pair.mode = .understudy, trialLive := live,
    trialEndUs := some (s.time + 1000000 * regF s 0x110004 15 0) } }

/-- Addresses of the registers that hold a LOCK bit. -/
def lockRegs : List Nat :=
  [0x10000, 0x2000C, 0x30000, 0x80000, 0x90000, 0xA0000, 0xB0000, 0xC0000, 0xD0000, 0xE0000, 0xF0000, 0x110000]

/-- A reset of the RoT domain (R9, R608, R628, R629): LOCK bits clear, partition and job keys are erased, sessions and the debug port
close. -/
def rotReset (s : State) : State :=
  let s := lockRegs.foldl (fun t a => setRegF a 31 31 0 t) s
  let d := s.sec.debugOpen
  let s := { s with
    sec := { s.sec with
      keys := s.sec.keys.filter (fun e => e.1 = 8 || 10 ≤ e.1), keyVals := s.sec.keyVals.filter (fun e => 10 ≤ e.1), jobs := [], sessions := [], debugOpen := false
      spdmVersion := false, spdmCaps := false, spdmAlgs := false }
    upd := if onTrial s then { s.upd with trialBoots := s.upd.trialBoots + 1 } else s.upd }
  if d then measureLife s else s

/-- The device reset of a restart activation (R796, R797, R811). With the main domain unpowered there is none, and the next start
begins. -/
def restart (rot : Bool) (s : State) : State :=
  let paired := s.pair.mode ≠ .solo && s.pair.mode ≠ .stoodDown
  let s := if paired && regF s 0xC0000 1 1 = 1 then
      standDown 6 0 s.beat.num { s with pair := { s.pair with rejoin := true } }
    else s
  let s := if s.pins.regulators then deviceReset false false true s
    else { s with boot := { s.boot with mode := .updating, failed := false } }
  if rot then rotReset s else s

/-- The first Beat after the next freeze (R808). -/
def firstAfterFreeze (s : State) : DWord := if s.beat.halfPassed then s.beat.num + 2 else s.beat.num + 1

/-- Activates the STAGED slot: live from a Beat, or by a restart (R796, R808). -/
def activateStaged (beat : DWord) (s : State) : State :=
  if liveBundle s && s.beat.started then
    { s with upd := { s.upd with live := some ⟨beat, 0, false⟩ } }
  else
    let rot := partDiffers s 2
    restart rot (activate false s)

/-- Falls back from a trial (R805): live, or by a restart of the other slot. -/
def fallBackOp (s : State) : State :=
  let live := s.upd.trialLive && s.beat.started
  let rot := partDiffers s 2
  let s := fallBack s
  if live then { s with upd := { s.upd with live := some ⟨firstAfterFreeze s, 0, true⟩ } }
  else restart rot s

/-- Confirms the trial slot (R804): the fused minimum versions rise. -/
def confirmTrial (s : State) : State :=
  let b := slotBundle s s.upd.running
  let rise := (b.kinds.zipIdx).filter fun q => b.commit.getD q.2 false
  let s := modBundle s.upd.running (fun x => { x with state := .confirmed }) s
  { s with
    upd := { s.upd with trialEndUs := none, trialLive := false }
    sec := { s.sec with svnMin := rise.foldl (fun t q => tabSet 0 t q.1 (max (tabGet 0 t q.1) (b.svn.getD q.2 0))) s.sec.svnMin } }

end Sys2Proof.Machine
end

