-- ==== Sys2Proof/Machine/Fault.lean ====
section
/-! DEFINITION. Faults and resets (R664 to R703): the log writer, watchdogs and takeovers, the ends of resets and their escalation, and
the management commands of R702. -/

namespace Sys2Proof.Machine

open Sys2Proof

/-! ### The event log -/

/-- The partition that a record's context names (R703): none for a firmware transaction (R665). -/
def eventPart (v : FaultEvent) : Option Nat :=
  if bitAt v.origin 4 || fld v.ctx 11 0 ≥ 8 then none else some (fld v.ctx 11 0)

/-- The counts that the next record carries in LOST (R671). -/
def lostCounts (s : State) : List Nat := (List.range 16).map fun c => min 0xFFFF (tabGet 0 s.fault.lost c)

/-- Completes one record (R666 to R671, R673). -/
def writeLog (v : FaultEvent) (s : State) : State :=
  let l := issueLabel s
  let s := l.2.2
  let lost := lostCounts s
  let x : LogRecord := ⟨s.fault.head, { v with flags := v.flags + b2n l.2.1 }, l.1, lost⟩
  let s := { s with fault := { s.fault with
    log := tabSet none s.fault.log (s.fault.head.toNat % 4096) (some x)
    head := s.fault.head + 1
    lost := (lost.zipIdx).foldl (fun t q => tabMod 0 t q.2 (· - q.1)) s.fault.lost } }
  match eventPart v with
  | some n => { s with fault := { s.fault with recCnt := tabMod 0#32 s.fault.recCnt n (· + 1) } }
  | none => s

/-- A record whose only content is LOST (R671). -/
def lostOnly : FaultEvent :=
  { beat := 0, phase := 0, cls := 15, cause := 0, action := 0, flags := 0, ctx := 0, origin := originOf 7 true, status := 0,
    unit := 0, pc := 0, addr := 0, sampleNo := 0xFFFFFFFF#32, detail := [] }

/-- LOG_RECORD_WRITE (R669 to R671). -/
def execLogRecordWrite (s : State) : Res :=
  .next (if !s.pins.standby then s
    else match s.fault.fifo with
    | v :: rest => writeLog v { s with fault := { s.fault with fifo := rest } }
    | [] => if s.fault.lost.isEmpty then s else writeLog lostOnly s)

/-- The 128 bytes of a record (R666). -/
def logBytes (r : LogRecord) : List Byte :=
  let v := r.ev
  let b := leBytes 8 r.recordNo.toNat ++ leBytes 8 v.beat.toNat ++ leBytes 4 v.phase ++ leBytes 1 v.cls ++ leBytes 1 v.cause ++
    leBytes 1 v.action ++ leBytes 1 v.flags ++ leBytes 8 v.ctx.toNat ++ [v.origin, v.status] ++ leBytes 2 v.unit ++
    leBytes 4 (v.pc % 2 ^ 20) ++ leBytes 8 v.addr.toNat ++ leBytes 8 r.wallNs.toNat ++ leBytes 4 v.sampleNo.toNat ++
    r.lost.flatMap (leBytes 2) ++ slice (v.detail.flatMap (leBytes 4)) 0 32
  b ++ leBytes 4 (crc32c b)

/-- The words of a record's bytes. -/
def wordsOf (bs : List Byte) (n : Nat) : List Word := (List.range n).map fun i => BitVec.ofNat 32 (leAt bs (4 * i) 4)

/-- A write of FAULT_LOG_IDX copies a slot into the data window (R669). -/
def logIdxOp (slot : Nat) (s : State) : State :=
  let ws := match tabGet none s.fault.log slot with | some r => wordsOf (logBytes r) 32 | none => List.replicate 32 0
  let s := setRegF 0xD0010 11 0 slot s
  { s with fault := { s.fault with window := tabWrite 0#32 [] 0 ws } }

/-- FAULT_LOG_IDX_WRITE (R669, R870): the physical function sees the block. -/
def execFaultLogIdxWrite (fn : Nat) (v : Word) (s : State) : Res :=
  need (fn ≤ 8) (.next (if linkUp s && fn = 0 then logIdxOp (fld v 11 0) s else s))

/-! ### Watchdogs, takeovers and the ends of resets -/

/-- Whether a unit can be probed: it is fitted, and not under reset (R678). -/
def unitProbed (s : State) (u : UnitRef) : Bool :=
  match u.kind with
  | .engine => unitFitted s u && !(engOf s (9 * u.cluster + u.slot)).serv.inReset
  | .stagehand => unitFitted s u && !(shOf s (18 * u.cluster + u.slot)).serv.inReset
  | .sampler => (List.range 4).any fun c =>
      (tabGet Sampler.init s.serve.samplers c).phys = some (samplerNo u) && !(tabGet Sampler.init s.serve.samplers c).inReset
  | _ => false

/-- Whether an operand names an engine, a Stagehand or a Sampler. -/
def probeName (u : UnitRef) : Bool :=
  match u.kind with
  | .engine => u.cluster < 4 && u.slot < 9
  | .stagehand => u.cluster < 4 && u.slot < 18
  | .sampler => u.cluster < 4 && (u.slot = 0 || (u.cluster = 0 && u.slot = 4))
  | _ => false

/-- WATCHDOG_RESET (R678). -/
def execWatchdogReset (unit : UnitRef) (s : State) : Res :=
  need (probeName unit)
    (.next (if unitProbed s unit then resolveSteps (bump 0xD0050 (unitReset unit (some 2) s)) else s))

/-- SM_TAKEOVER (R680, R681): the cold spare pair takes over; with none left, the device is reset. The cause code of its record is
not stated. -/
def execSmTakeover (s : State) : Res :=
  .next (if !s.beat.started then s
    else
      let s := logEvent { evBase s 14 ((freeVal 20 s).toNat % 256) 0 with origin := originOf 5 true } (drawn s)
      if s.boot.smPairs ≥ 2 then
        bump 0xD005C { s with
          boot := { s.boot with smPairs := s.boot.smPairs - 1 }
          upd := { s.upd with trialBlocked := true } }
      else deviceReset true false false s)

/-- A unit returns to service, with no previous partition (R26). -/
def unitBack (u : UnitRef) (s : State) : State :=
  let back (x : UnitServ) : UnitServ := { x with inReset := false, lastPart := none }
  match u.kind with
  | .engine => modEng (9 * u.cluster + u.slot) (fun x => { x with serv := back x.serv }) s
  | .stagehand => modSh (18 * u.cluster + u.slot) (fun x => { x with serv := back x.serv }) s
  | .sampler => { s with serve := { s.serve with samplers := tabMap Sampler.init (fun _ q =>
      if q.phys = some (samplerNo u) then { q with inReset := false } else q) s.serve.samplers } }
  | _ => s

/-- Whether a unit is under a reset of its own. -/
def unitInReset (s : State) (u : UnitRef) : Bool :=
  match u.kind with
  | .engine => (engOf s (9 * u.cluster + u.slot)).serv.inReset && !s.fault.clReset.contains u.cluster
  | .stagehand => (shOf s (18 * u.cluster + u.slot)).serv.inReset && !s.fault.clReset.contains u.cluster
  | .sampler => s.serve.samplers.any fun e => e.2.phys = some (samplerNo u) && e.2.inReset && !s.fault.clReset.contains e.1
  | _ => false

/-- A RESET record of an escalation; the manual states no cause code for it. -/
def logEscalation (action unit : Nat) (s : State) : State := logReset action unit s

/-- UNIT_RESET_DONE (R686, R689, R696): a unit that passes its check returns; one that fails it, or that has been reset for the third
time within 900 s, is retired. -/
def execUnitResetDone (unit : UnitRef) (pass : Bool) (s : State) : Res :=
  need (probeName unit)
    (.next (if !unitInReset s unit then s
      else if pass && unitResets s unit < 3 then unitBack unit s
      else resolveSteps (logEscalation 7 (unitCode unit) (retireUnit unit s))))

/-- CLUSTER_SWITCH_UE (R686, R688). -/
def execClusterSwitchUe (c : Nat) (s : State) : Res :=
  need (c < 4)
    (.next (if s.beat.started && !s.fault.clOut.contains c && !s.fault.clReset.contains c then resolveSteps (clusterReset c s) else s))

/-- Every unit of a cluster returns to service. -/
def clusterBack (c : Nat) (s : State) : State :=
  let s := (clusterUnits c).foldl (fun t u => unitBack u t) s
  let q := tabGet Sampler.init s.serve.samplers c
  { s with
    fault := { s.fault with clReset := s.fault.clReset.filter (· ≠ c) }
    serve := { s.serve with samplers := tabSet Sampler.init s.serve.samplers c { q with inReset := false } } }

/-- A cluster under reset is fenced (R696). -/
def fenceOp (c : Nat) (s : State) : State := resolveSteps (logEscalation 3 (0xF000 + 256 * c + 0xFF) (fenceCluster c s))

/-- CLUSTER_RESET_DONE (R686, R696). -/
def execClusterResetDone (c : Nat) (pass : Bool) (s : State) : Res :=
  need (c < 4)
    (.next (if !s.fault.clReset.contains c then s
      else if pass && clusterResets s c < 3 then clusterBack c s else fenceOp c s))

/-- CLUSTER_RESET_TIMEOUT (R696). -/
def execClusterResetTimeout (c : Nat) (s : State) : Res :=
  need (c < 4) (.next (if s.fault.clReset.contains c then fenceOp c s else s))

/-! ### Partition resets -/

/-- Abandons what a partition still runs, and voids its entries that have not started (R688, R693). -/
def dropPartition (part : Nat) (s : State) : State :=
  let s := (List.range 36).foldl (fun t e =>
    match (engOf t e).run with | some c => if c.part = part then dropEntry e t else t | none => t) s
  let s := (List.range 72).foldl (fun t k => match (shOf t k).job with
    | some j => if j.ctx.part = part then drainXfers (64 + k) t else t
    | none => t) s
  let s := { s with sh := tabMap Stagehand.init (fun _ h =>
    let h := { h with queue := h.queue.filter fun j => j.ctx.part ≠ part }
    match h.job with | some j => if j.ctx.part = part then h.ended else h | none => h) s.sh }
  let s := { s with serve := { s.serve with samplers := tabMap Sampler.init (fun _ q =>
    { q with queue := q.queue.filter fun j => j.job.part ≠ part }) s.serve.samplers } }
  let s := voidWhere (fun _ e => eKind e ≠ 4 && ePart e = part) s
  (s.serve.groups.filter fun g => g.plan.part = part).foldl (fun t g => failStep g t) s

/-- Clears the flats that a partition holds (R693). -/
def clearPartFlats (part : Nat) (s : State) : State :=
  let fs := (List.range 128).filter fun f => (flatOf s f).holder = part
  { s with flies := { s.flies with mem := fs.foldl (fun t f => tabClear t (65536 * f) 65536) s.flies.mem } }

/-- A partition reset, once the cuts of its edge have completed (R611, R617, R686, R693, R702): the requests end, what runs is
abandoned, flats are cleared, streams close, and the partition's pages leave every translation cache. -/
def partitionReset (a : PendAction) (s : State) : State :=
  let s := match a.act with
    | .keyDrop => failRequests (fun r => r.part = a.part) 0x0B 0 s
    | .disable => failRequests (fun r => r.part = a.part) 0x83 0 s
    | .reset => s
  let s := dropCached a.part 0 (2 ^ 48) (closeStreams a.part (clearPartFlats a.part (dropPartition a.part s)))
  let s := bump 0xD0048 { s with fault := { s.fault with
    partReset := if s.fault.partReset.contains a.part then s.fault.partReset else s.fault.partReset ++ [a.part] } }
  logReset 4 0xFFFF s

/-- Returns a partition's frames to the pool (R611): its pages are unmapped, those that await the end of an epoch command too, and its tree, its journals and its slots' reservations let
go of theirs. -/
def returnFrames (part : Nat) (s : State) : State :=
  let s := dropNodes part (fun _ _ => true) s
  let s := (s.mem.journals.filter fun j => j.part = part).foldl (fun t j => journalRollback part j.stepId t) s
  let slots := tabKeys (fun _ x => x.reg = some part) s.board.slots
  let s := slots.foldl (fun t i => { t with mem := { t.mem with slotResv := tabSet [] t.mem.slotResv i [] } }) s
  let pages := s.mem.pt.filter fun e => e.1 / 2 ^ 32 = part * 4 + 3 && e.1 % 2 ^ 32 * 65536 < 0xF00000000000
  let s := if pages = [] then s else
    pages.foldl (fun t e => setPt part 3 (e.1 % 2 ^ 32 * 65536) 0 t) (ownEpoch part 0 0xF00000000000 s)
  { s with mem := { s.mem with frames := tabMap Frame.init (fun _ f =>
      if f.owner = some part then { Frame.init with wkey := f.wkey } else f) s.mem.frames } }

/-- What PART_DISABLE erases besides (R617). -/
def eraseTenant (part : Nat) (s : State) : State :=
  let s := releaseFlats [part] (dropHeld (fun r => r.part = part) s)
  let s := setRegF (0xB1420 + 0x1000 * part) 0 0 0 (setRegF (0x70108 + 0x20 * part) 3 0 0 (setRegF (0xA0400 + 0x20 * part) 0 0 0 s))
  measure (16 + part) 0 { s with
    cueGrant := tabSet 0#32 (tabSet 0#32 s.cueGrant (2 * part) 0) (2 * part + 1) 0
    sec := { s.sec with
      enabled := s.sec.enabled.filter (· ≠ part)
      jobs := s.sec.jobs.filter fun j => j.2.part ≠ part
      bindings := tabSet none s.sec.bindings part none
      logGen := tabSet 0#32 s.sec.logGen part 0 } }

/-- The end of a partition action (R611, R617). -/
def actDone (a : PendAction) (s : State) : State :=
  let s := { s with
    fault := { s.fault with partReset := s.fault.partReset.filter (· ≠ a.part) }
    sec := { s.sec with acts := s.sec.acts.filter (· ≠ a) } }
  let m : Mgmt := ⟨a.src, BitVec.ofNat 8 a.part, a.tag⟩
  match a.act with
  | .reset => s
  | .keyDrop =>
    let s := returnFrames a.part s
    mgmtSt m 0 { s with sec := { s.sec with keys := tabSet none s.sec.keys a.part none, keyVals := tabSet 0 s.sec.keyVals a.part 0 } }
  | .disable =>
    let s := returnFrames a.part s
    mgmtSt m 0 (updateShort (eraseTenant a.part { s with sec := { s.sec with keys := tabSet none s.sec.keys a.part none, keyVals := tabSet 0 s.sec.keyVals a.part 0 } }))

/-- PARTITION_RESET_DONE (R611, R617, R686, R693). -/
def execPartitionResetDone (part : Nat) (s : State) : Res :=
  need (part < 8)
    (.next (if s.fault.partReset.contains part then
      (s.sec.acts.filter fun a => a.part = part && a.running).foldl (fun t a => actDone a t)
        { s with fault := { s.fault with partReset := s.fault.partReset.filter (· ≠ part) } }
    else s))

/-- PARTITION_DRAIN_TIMEOUT (R696): a drain that does not complete causes a device reset. -/
def execPartitionDrainTimeout (part : Nat) (s : State) : Res :=
  need (part < 8) (.next (if s.fault.partReset.contains part then deviceReset true false false s else s))

/-! ### Management commands (R702) -/

/-- PART_RESET: every live request of the partition ends at once, and the reset follows at the edge after the next The Half. -/
def execPartReset (m : Mgmt) (part : Nat) (s : State) : Res :=
  operatorCmd m s (if part > 7 then mgmtSt m 0x81 s
    else if !partEnabled s part then mgmtSt m 0x83 s
    else mgmtSt m 0 (pendAct m part .reset (failRequests (fun r => r.part = part) 3 0xF000 s)))

/-- DEVICE_RESET (R694, R697): at once, and not counted toward escalation. -/
def execDeviceReset (m : Mgmt) (s : State) : Res := operatorCmd m s (deviceReset false false false (mgmtSt m 0 s))

/-- DARK_CLEAR (R699, R701): the escalation windows are emptied, a staged slot is activated, and a cold start follows. -/
def darkClearOp (m : Mgmt) (s : State) : State :=
  let s := { s with
    fault := { s.fault with dark := false, unitWin := [], clusterWin := [], devWin := [] }
    boot := { s.boot with coldForced := true, mode := .resetting } }
  let rot := (stagedSlot s).isSome && partDiffers s 2
  let s := if (stagedSlot s).isSome then activate false s else s
  let s := if rot then rotReset s else s
  mgmtSt m 0 (logReset 0 0xFFFF s)

/-- DARK_CLEAR (R701, R702). -/
def execDarkClear (m : Mgmt) (s : State) : Res :=
  mgmtCmd m false asOperator true s (if s.fault.dark then darkClearOp m s else mgmtSt m 0x90 s)

/-- Bytes of a sealed sample: header, ciphertext and tag (R682, R683). -/
def sampleSize (u : UnitRef) : Nat := 64 + (if u.kind = .engine then 74240 else 69632) + 16

/-- Whether a range lies in the general range, writable and mapped (R314, R702). -/
def generalOk (s : State) (part va n : Nat) : Bool :=
  let c := partMem part 7 true
  va % 64 = 0 && va + n ≤ 0x800000000000 && (rangeFault s c true va n).isNone && (rangeCopies s c va n).isNone

/-- The plaintext of a sample (R682). -/
def samplePlain (x : Sample) : List Byte :=
  let size := if x.unit.kind = .engine then 0xC00000 else 0x80000
  tabRead 0#8 x.bytes 0 0x8000 ++ tabRead 0#8 x.bytes (size - 0x8000) 0x8000 ++ x.regs

/-- The sealed form of a sample, `n` bytes long: header, ciphertext and tag (R683). The places of its header's fields are not stated
(notes/assumptions/42.md). -/
def sampleStored (x : Sample) (n : Nat) : List Byte :=
  let h := slice (Config.sampleHeader [x.no, x.record.toNat, unitCode x.unit, x.ctx.toNat, n - 80]) 0 64
  h ++ slice (Config.gcmSeal x.key (leBytes 4 x.no ++ leBytes 8 0) h (samplePlain x)) 0 (n - 64)

/-- SAMPLE_COPY (R685, R702). -/
def sampleCopyOp (m : Mgmt) (sampleNo addr : Nat) (s : State) : State :=
  let part := m.target.toNat
  match s.fault.samples.find? fun x => x.no = sampleNo && x.part = part with
  | none => mgmtSt m 0x81 s
  | some x =>
    let n := sampleSize x.unit
    if !generalOk s part addr n then mgmtSt m 0x81 s
    else
      let s := dvStore (partMem part 7 true) addr (sampleStored x n) s
      let s := { s with fault := { s.fault with
        samples := s.fault.samples.map fun y => if y.no = sampleNo then { y with copied := true } else y } }
      settle (mgmtSt m 0 s)

/-- SAMPLE_COPY (R685, R702). -/
def execSampleCopy (m : Mgmt) (sampleNo : Nat) (addr : Nat) (s : State) : Res := tenantCmd m s (sampleCopyOp m sampleNo addr s)

end Sys2Proof.Machine
end

