-- ==== Sys2Proof/Machine/StartOps.lean ====
section
/-! DEFINITION. Operations of a start of the main domain (R735 to R782): the kind of start, the inventory record and the fitting of
spares, and how the settings take effect. -/

namespace Sys2Proof.Machine

open Sys2Proof

/-! ### Fitting (R743 to R756) -/

/-- The numbers below 64 that a list holds, in ascending order. -/
def ascending (xs : List Nat) : List Nat := (List.range 64).filter xs.contains

/-- Retires the failing items among `n` map bytes from `lo`, and gives the numbers lost to the lowest-numbered spares among them
(R751, R752). -/
def fitSeg (fails : List Nat) (lo n : Nat) (m : List Nat) : List Nat :=
  let idx := (List.range n).map (lo + ·)
  let out := idx.filter fun i => fails.contains i && m.getD i 0xFF ≠ 0xFF
  let lost := ascending ((out.map fun i => m.getD i 0xFF).filter (· < 0xFE))
  lost.foldl (fun m r => match idx.find? fun i => m.getD i 0xFF = 0xFE with | some i => m.set i r | none => m)
    (out.foldl (fun m i => m.set i 0xFF) m)

/-- The map bytes that the first fitting gives to `n` items from `lo`: numbers from `base` to the first `cap` good ones, and spares
(R748). -/
def firstSeg (bad : List Nat) (lo n base cap : Nat) : List Nat :=
  (List.range n).map fun i =>
    let r := ((List.range i).filter fun j => !bad.contains (lo + j)).length
    if bad.contains (lo + i) then 0xFF else if r < cap then base + r else 0xFE

/-- Map indices of the units of a kind in a list. -/
def unitIdx (kind : UnitKind) (us : List UnitRef) : List Nat :=
  (us.filter fun u => u.kind = kind).map fun u =>
    match kind with
    | .engine => 9 * u.cluster + u.slot
    | .stagehand => 18 * u.cluster + u.slot
    | .sampler => samplerNo u
    | _ => u.slot

/-- The first fitting (R747, R748). -/
def firstFit (s : State) : Inventory :=
  let bad := s.boot.fuseBad
  let smp := unitIdx .sampler bad
  { Inventory.init with
    valid := true
    eng := (List.range 4).flatMap fun c => firstSeg (unitIdx .engine bad) (9 * c) 9 (8 * c) 8
    sh := (List.range 4).flatMap fun c => firstSeg (unitIdx .stagehand bad) (18 * c) 18 (16 * c) 16
    sampler := (List.range 5).map fun p =>
      if smp.contains p then 0xFF
      else if p < 4 then p
      else match (List.range 4).find? smp.contains with | some c => c | none => 0xFE
    video := firstSeg (unitIdx .video bad) 0 5 0 4
    walker := firstSeg (unitIdx .walker bad) 0 3 0 2
    pc := (List.range 8).flatMap fun m => firstSeg s.boot.fuseBadPc (32 * m) 32 0 30
    trainTemp := List.replicate 8 0 }

/-- One round of fitting: the failing units are retired, and spares take their numbers (R751, R752, R756). -/
def fitUnits (us : List UnitRef) (x : Inventory) : Inventory :=
  let e := unitIdx .engine us
  let h := unitIdx .stagehand us
  { x with
    eng := (List.range 4).foldl (fun m c => fitSeg e (9 * c) 9 m) x.eng
    sh := (List.range 4).foldl (fun m c => fitSeg h (18 * c) 18 m) x.sh
    sampler := fitSeg (unitIdx .sampler us) 0 5 x.sampler
    video := fitSeg (unitIdx .video us) 0 5 x.video
    walker := fitSeg (unitIdx .walker us) 0 3 x.walker
    flatsRetired := x.flatsRetired ++ (unitIdx .flat us).filter fun f => !x.flatsRetired.contains f }

/-- The shared spare Sampler that stood in for a fenced cluster is a spare again, since its cluster returns (R755). -/
def spareBack (x : Inventory) : Inventory :=
  let b := x.sampler.getD 4 0xFF
  if b < 4 && x.sampler.getD b 0xFF = b then { x with sampler := x.sampler.set 4 0xFE } else x

/-- Whether a stack serves a logical channel. -/
def stackServes (x : Inventory) (m lc : Nat) : Bool := ((x.pc.drop (32 * m)).take 32).contains lc

/-- The fitting of pseudo-channels: a logical channel with no spare left in some stack is retired in every stack (R312, R766). -/
def fitChannels (fails : List Nat) (x : Inventory) : Inventory :=
  let x := { x with pc := (List.range 8).foldl (fun p m => fitSeg fails (32 * m) 32 p) x.pc }
  let gone := (List.range 30).filter fun lc => (List.range 8).any fun m => !stackServes x m lc
  { x with
    lcRetired := ascending (x.lcRetired ++ gone)
    pc := x.pc.map fun b => if gone.contains b then 0xFF else b }

/-- Items that a fitting has retired. -/
def newlyOut (a b : Inventory) : Nat :=
  let d (p q : List Nat) : Nat := ((p.zip q).filter fun e => e.1 ≠ 0xFF && e.2 = 0xFF).length
  d a.eng b.eng + d a.sh b.sh + d a.sampler b.sampler + d a.video b.video + d a.walker b.walker + d a.pc b.pc +
    (b.flatsRetired.length - a.flatsRetired.length)

/-- Whether a fitting has retired an item that served a logical number or role (R803). -/
def servedOut (a b : Inventory) : Bool :=
  let d (p q : List Nat) : Bool := (p.zip q).any fun e => e.1 < 0xFE && e.2 = 0xFF
  d a.eng b.eng || d a.sh b.sh || d a.sampler b.sampler || d a.video b.video || d a.walker b.walker || d a.pc b.pc

/-- Whether a logical number is a hole (R754). -/
def hasHole (x : Inventory) : Bool :=
  (List.range 32).any (fun l => !x.eng.contains l) || (List.range 64).any (fun l => !x.sh.contains l) ||
    (List.range 4).any (fun c => !x.sampler.contains c) || (List.range 4).any (fun r => !x.video.contains r) ||
    (List.range 2).any (fun r => !x.walker.contains r) || !x.lcRetired.isEmpty

/-! ### The kind of start (R735) -/

/-- Microseconds in an hour. -/
def hourUs : Nat := 3600000000

/-- Whether a start is cold. `train` is the digest of the training images that the start uses, `x` the inventory record. -/
def coldStart (s : State) (r : StartResults) (train : Digest) (delta : Nat) (x : Inventory) : Bool :=
  s.boot.coldForced || s.boot.coldNext || train ≠ s.boot.trainMeasFull || s.time > s.boot.lastFullUs + 720 * hourUs ||
    (List.range 8).any (fun m =>
      (r.stackTemps.getD m 0 - x.trainTemp.getD m 0).natAbs > delta || !r.storeValid.getD m false || !s.boot.storeValid.getD m false)

/-! ### Settings (R798, R873) -/

/-- A settings entry gives the RWL fields of a register their values; a value outside a field's range leaves it. -/
def applySetting (s : State) (e : Nat × Word) : State :=
  (fieldsAt e.1).foldl (fun t f =>
    let v := fld e.2 f.hi f.lo
    if f.acc = .rwl && f.vmin ≤ v && v ≤ f.vmax then setRegF e.1 f.hi f.lo v t else t) s

/-- Every setting, and what holds a setting beside its register: the Beat period, FREEZE_LEAD, the guarantees and BIND_LEAD_US. -/
def applySettings (s : State) : State :=
  let s := s.upd.settings.foldl applySetting s
  { s with
    beat := { s.beat with period := regF s 0x10004 15 0, lead := regF s 0x10008 15 0 }
    flies := { s.flies with guar := (List.range 8).foldl (fun t n => tabSet 4 t n (guarReg s n)) [] }
    video := { s.video with bindLead := regF s 0xA0000 15 0 } }

/-! ### Placing units -/

/-- How a map byte places an engine or a Stagehand. -/
def placed (b : Nat) : UnitServ := ⟨if b < 0xFE then some b else none, b = 0xFE, b = 0xFF, false, false, none⟩

/-- The engines, Stagehands, Samplers, video engines, Prefix Walkers, flats and pseudo-channels stand as the record places them. -/
def placeUnits (x : Inventory) (fuseFlats : List Nat) (temps : List Int) (full : List Nat) (s : State) : State :=
  let stack (m : Nat) : Stack :=
    let row := (x.pc.drop (32 * m)).take 32
    let t := temps.getD m 0
    { Stack.init with
      map := (List.range 32).foldl (fun t k => let b := row.getD k 0xFF; if b < 30 then tabSet none t b (some k) else t) []
      spares := (List.range 32).filter fun k => row.getD k 0xFF = 0xFE
      retired := (List.range 32).filter fun k => row.getD k 0xFF = 0xFF
      tempC := t
      tempTrain := (List.range 32).foldl (fun u k => tabSet 0 u k (if full.contains (32 * m + k) then t else x.trainTemp.getD m 0)) [] }
  { s with
    eng := (List.range 36).foldl (fun t e => tabSet Engine.init t e { Engine.init with serv := placed (x.eng.getD e 0xFF) }) []
    sh := (List.range 72).foldl (fun t k => tabSet Stagehand.init t k { Stagehand.init with serv := placed (x.sh.getD k 0xFF) }) []
    serve := { s.serve with
      samplers := (List.range 4).foldl (fun t c => tabSet Sampler.init t c ⟨x.sampler.findIdx? (· = c), [], false⟩) []
      samplersOut := (List.range 5).filter fun p => x.sampler.getD p 0xFF = 0xFF
      walkers := (x.walker.filter (· < 2)).length }
    video := { s.video with
      engines := (List.range 5).foldl (fun t k =>
        let b := x.video.getD k 0xFF
        tabSet VEngine.init t k { VEngine.init with inService := b < 4, spare := b = 0xFE, failed := b = 0xFF }) [] }
    flies := { s.flies with
      flats := (List.range 128).foldl (fun t f =>
        if x.flatsRetired.contains f || fuseFlats.contains f then tabSet Flat.init t f { Flat.init with retired := true } else t) [] }
    hbm := { s.hbm with
      hbmStacks := (List.range 8).foldl (fun t m => tabSet Stack.init t m (stack m)) [], lcRetired := x.lcRetired } }

/-- The lowest-numbered run of `n` unretired flats that no area of a list holds. -/
def flatRun (s : State) (taken : List (Nat × Nat)) (n : Nat) : Nat :=
  ((List.range (129 - n)).find? fun b => (List.range n).all fun i =>
    !(flatOf s (b + i)).retired && !taken.any fun a => a.1 ≤ b + i && b + i < a.1 + a.2).getD 0

/-- The firmware areas at a start: each at its place at shipment (R242), or, where a flat of that is retired, moved as R243 says. -/
def placeAreas (s : State) : State :=
  let home := areaHomes.zip areaSizes
  let ok (a : Nat × Nat) : Bool := (List.range a.2).all fun i => !(flatOf s (a.1 + i)).retired
  let kept := home.filter ok
  let all := home.foldl (fun (p : List Nat × List (Nat × Nat)) a =>
    if ok a then (p.1 ++ [a.1], p.2)
    else
      let b := flatRun s p.2 a.2
      (p.1 ++ [b], p.2 ++ [(b, a.2)])) ([], kept)
  { s with flies := { s.flies with areas := all.1 } }

/-- Port roles at a start: port Nn serves role n for n = 0 to 3 (R583), where its fuse bit is 1. -/
def placePorts (s : State) : State :=
  { s with net := { s.net with
      ports := (List.range 5).foldl (fun t n =>
        let bad := s.boot.fuseBad.contains ⟨.port, 0, n⟩
        tabSet Port.init t n { Port.init with role := if n < 4 && !bad then some n else none, failed := bad }) [] } }

/-! ### Verification (R593 to R597, R805) -/

/-- Whether a bundle slot may be started: it is not being staged, staged or failed (R790, R793, R805; notes/assumptions/43.md). -/
def startable (b : Bundle) : Bool := b.state = .empty || b.state = .trial || b.state = .confirmed

/-- The manifest index of the first part of a bundle whose security version is below the fused minimum (R594). -/
def svnLow (s : State) (b : Bundle) : Option Nat :=
  (b.kinds.zipIdx.find? fun q => b.svn.getD q.2 0 < tabGet 0 s.sec.svnMin q.1).map Prod.snd

/-- Why the RoT refuses a slot, by the manifest index of a part (R593, R594, R596): a part's signatures, whose check the operand gives, or
its security version. -/
def slotRefusal (s : State) (r : StartResults) (k : Nat) : Option Nat :=
  (r.slotCheck.getD k (some 0)).or (svnLow s (slotBundle s k))

/-- Counts the slots whose signatures fail (R605). -/
def countRefusals (r : StartResults) (s : State) : State :=
  (r.slotCheck.take 2).foldl (fun t c => if c.isSome then authFail t else t) s

/-- The slot that a start runs: the active one, or the other one when the active one is refused. -/
def bootChoice (s : State) (r : StartResults) : Option Nat :=
  let ok (k : Nat) : Bool := (slotRefusal s r k).isNone && startable (slotBundle s k)
  if ok s.upd.running then some s.upd.running else if ok (otherSlot s) then some (otherSlot s) else none

/-- SEC_BOOT, the bundle slot that runs, and the measurements of a start (R596, R597). -/
def verified (k : Nat) (s : State) : State :=
  let s := if k = s.upd.running then s else fallBack s
  let s := modBundle k (fun b => if b.state = .empty then { b with state := .confirmed } else b) s
  let b := slotBundle s k
  let s := { s with sec := { s.sec with
    bootVerified := true, bootSlot := k, bootStatus := 0
    rotSvn := match b.kinds.findIdx? (· = 2) with | some i => b.svn.getD i 0 | none => s.sec.rotSvn } }
  measureBundle ([2, 3, 4, 5, 6].foldl (fun t i => measure i (partDigest b i) t) s)

/-- No slot passes: the main domain stays unpowered (R596). -/
def unverified (r : StartResults) (s : State) : State :=
  { s with
    sec := { s.sec with bootVerified := false, bootStatus := (slotRefusal s r s.upd.running).getD 0 + 1 }
    pins := { s.pins with regulators := false, pwrGood := false }
    boot := { s.boot with mode := .standby, step := 3 } }

/-! ### The end of a start -/

/-- START_FAILED (R739, R740): the main domain stays unpowered, the failure counts as a device reset, and a trial falls back (R805). -/
def startFailed (step : Nat) (s : State) : State :=
  let s := { s with
    pins := { s.pins with regulators := false, pwrGood := false }
    boot := { s.boot with mode := .standby, updating := false, step := step, failed := true, failedAtUs := s.time }
    fault := { s.fault with devWin := devWindow s ++ [s.time], devTotal := s.fault.devTotal + 1 } }
  let s := logEvent { evBase s 9 step 5 with origin := originOf 7 true } s
  let s := if onTrial s then fallBack s else s
  if s.fault.devWin.length ≥ 3 then goDark s else s

end Sys2Proof.Machine
end

