-- ==== Sys2Proof/Machine/Bist.lean ====
section
/-! DEFINITION. In-service self-test (R704 to R734). -/

namespace Sys2Proof.Machine

open Sys2Proof

/-! ### Slices -/

/-- Whether an operand names a unit that a slice can test (R704, R706, R732). -/
def sliceName (u : UnitRef) : Bool :=
  match u.kind with
  | .engine => u.cluster < 4 && u.slot < 9
  | .stagehand => u.cluster < 4 && u.slot < 18
  | .sampler => u.cluster < 4 && (u.slot = 0 || (u.cluster = 0 && u.slot = 4))
  | .video => u.slot < 5
  | .walker => u.slot < 3
  | .flat => u.slot < 128
  | .phy => u.slot < 8
  | .port => u.slot < 5
  | .clock => true
  | _ => false

/-- The credit of a slice: its cluster's, or the hub's (R714). -/
def creditOf (u : UnitRef) : Nat :=
  match u.kind with | .engine => u.cluster | .stagehand => u.cluster | .sampler => if u.slot = 4 then 4 else u.cluster | _ => 4

/-- Slices that use credit (R715). -/
def usesCredit (test : Nat) : Bool := test = 1 || test = 2

/-- The die sensor over a unit, if it has one. -/
def sensorOf (u : UnitRef) : Option Nat :=
  match u.kind with
  | .engine => some (9 * u.cluster + u.slot)
  | .stagehand => some (40 + 3 * u.cluster + u.slot / 6)
  | .video => some (60 + u.slot)
  | .phy => some (70 + u.slot)
  | _ => none

/-- The rail that feeds a unit (R813). -/
def railOf (u : UnitRef) : Option Nat :=
  match u.kind with
  | .engine => some (1 + u.cluster)
  | .stagehand => some (5 + u.cluster)
  | .phy => some 10
  | .port => some 11
  | .video => some 12
  | .clock => none
  | _ => some 9

/-- The window of R712: the junction below 95 °C, the nominal clock, and the unit's rail within ±3 % of its set point at the last
sample. -/
def inWindow (s : State) (u : UnitRef) : Bool :=
  (match railOf u with | some r => !s.therm.railsOff.contains r | none => true) &&
  match sensorOf u with
  | none => true
  | some k => unitTemp s k < 95 && stepOf s k = 0

/-- A Sampler's queue, by the cluster that it serves. -/
def samplerOf (s : State) (u : UnitRef) : Option (Nat × Sampler) :=
  s.serve.samplers.find? fun e => e.2.phys = some (samplerNo u)

/-- Whether a flat may be tested (R723, R725): unheld, or in a firmware area that is not in use; the restore flat alone. -/
def flatTestable (s : State) (f : Nat) : Bool :=
  let x := flatOf s f
  !x.retired && !x.pending && s.flies.testCopy.isNone && !(flatOf s (restoreBase s)).test && match areaOf s f with
  | none => x.holder = 0xD
  | some a =>
    if a ≤ 1 then a ≠ s.ro.area && !s.beat.halfPassed
    else if a = 2 then s.flies.sets.all fun e => !(e.1 = (f - areaBase s 2) / 3 && (e.2.user.isSome || e.2.clearing))
    else a = 5

/-- Whether a unit holds no live state (R717), has a role if the slice is planned and none if it is not (R704), and has no slice
yet. -/
def unitQuiet (s : State) (x : Slice) : Bool :=
  let u := x.unit
  match u.kind with
  | .engine =>
    let g := engOf s (9 * u.cluster + u.slot)
    unitFitted s u && g.run.isNone && !g.serv.inReset && !g.serv.selftest && x.planned = g.serv.role.isSome
  | .stagehand =>
    let h := shOf s (18 * u.cluster + u.slot)
    unitFitted s u && h.job.isNone && h.queue.isEmpty && !h.serv.inReset && !h.serv.selftest && x.planned = h.serv.role.isSome
  | .sampler => match samplerOf s u with
    | some q => x.planned && !q.2.inReset && !q.2.queue.any fun j => j.phase = .running
    | none => !x.planned && !s.serve.samplersOut.contains (samplerNo u)
  | .video =>
    let v := tabGet VEngine.init s.video.engines u.slot
    !v.failed && !v.selftest && v.frame.isNone && (if x.planned then v.inService else !v.inService)
  | .flat => !x.planned && flatTestable s u.slot
  | .walker => x.planned = decide ((inventory s).walker.getD u.slot 0xFF < 2)
  | .phy => !x.planned
  | .port => !x.planned && (tabGet Port.init s.net.ports u.slot).role.isNone
  | .clock => !x.planned
  | _ => false

/-- The entry of a planned slice, which it names (R706): handed over by its engine, or ready in the controller's own queue (R707). -/
def plannedEntry (s : State) (x : Slice) : Option Entry :=
  match s.ro.running with
  | none => none
  | some o =>
    match o.entries[x.entryIndex]? with
    | none => none
    | some e =>
      if eKind e ≠ 4 || !(match sliceOf s o x.entryIndex e with | some y => sameSlice x y | none => false) then none
      else if s.bist.queue.contains x.entryIndex then
        match statusAt s x.entryIndex with
        | .running k => if k = 0xFF || x.unit = engRef k then some e else none
        | _ => some e
      else if isQueued s x.entryIndex && eTarget e = 0xFF && entryReady s o e then some e
      else none

/-- Slices that run under a credit. -/
def runningUnder (s : State) (c : Nat) : Nat := (s.bist.running.filter fun r => r.credit = c).length

/-- Whether the controller starts a slice (R712, R715 to R717, R734). -/
def sliceReady (s : State) (x : Slice) : Bool :=
  let c := creditOf x.unit
  x.slice < sliceCount x.unit.kind x.test && unitQuiet s x && inWindow s x.unit && !s.bist.running.any (fun r => r.x.unit = x.unit) && runningUnder s c < 2 &&
    (!usesCredit x.test || x.predUs * 1000000 ≤ tabGet 0 s.bist.credits c) &&
    (x.planned || regF s 0xE0000 1 1 = 1) &&
    s.bist.requeue.all fun q => !(q.1.test = x.test && q.1.slice = x.slice && q.1.unit = x.unit) || q.2 ≤ s.beat.num

/-- Copies a flat to the self-test restore flat, and sets its TEST bit (R724). -/
def beginFlatTest (f : Nat) (s : State) : State :=
  let dst := restoreBase s
  let bytes := tabRead 0#8 s.flies.mem (65536 * f) 65536
  let s := setFlat f { flatOf s f with test := true } s
  { s with flies := { s.flies with mem := tabWrite 0#8 s.flies.mem (65536 * dst) bytes, testCopy := some f } }

/-- Whether the shared spare Sampler can stand in (R727). -/
def spareSamplerFree (s : State) : Bool :=
  (inventory s).sampler.getD 4 0xFF = 0xFE && !s.serve.samplersOut.contains 4 && s.serve.samplers.all (fun e => e.2.phys ≠ some 4) &&
    !s.bist.running.any fun r => r.x.unit = samplerRef 4

/-- The spare video engine that can stand in (R728). -/
def videoStandIn (s : State) : Option Nat :=
  (List.range 5).find? fun k =>
    let v := tabGet VEngine.init s.video.engines k
    v.spare && !v.inService && !v.failed && !v.selftest

/-- Clears the registers, the local memory and the keys of a unit before and after a scan and a known-answer run: the unit then has
no previous partition (R718, R719). A memory test is transparent: slice n covers the n-th 512 KiB of an engine's memory or 128 KiB of a
Stagehand's, and every word has its content again when it ends or is aborted (R721, R722). -/
def wipeUnit (test : Nat) (held : Bool) (u : UnitRef) (s : State) : State :=
  match u.kind with
  | .engine => modEng (9 * u.cluster + u.slot) (fun x =>
      if test = 2 then { x with serv := { x.serv with selftest := held } }
      else { Engine.init with
        serv := { x.serv with selftest := held, lastPart := none }, excLast := x.excLast, freeCnt := x.freeCnt }) s
  | .stagehand => modSh (18 * u.cluster + u.slot) (fun x =>
      if test = 2 then { x with serv := { x.serv with selftest := held } }
      else { Stagehand.init with serv := { x.serv with selftest := held, lastPart := none } }) s
  | _ => s

/-- Clears a unit for its slice, and takes it out of service (R718, R727, R728). -/
def holdUnit (test : Nat) (u : UnitRef) (s : State) : State :=
  match u.kind with
  | .sampler => match samplerOf s u with
    | some q => if spareSamplerFree s then
        { s with serve := { s.serve with samplers := tabSet Sampler.init s.serve.samplers q.1 { q.2 with phys := some 4 } } }
      else s
    | none => s
  | .video =>
    let v := tabGet VEngine.init s.video.engines u.slot
    let t := { s with video := { s.video with
      engines := tabSet VEngine.init s.video.engines u.slot { v with selftest := true, inService := false, ctx := none } } }
    if v.inService then
      match videoStandIn s with
      | some k => { t with video := { t.video with engines := tabMod VEngine.init t.video.engines k fun w => { w with inService := true } } }
      | none => t
    else t
  | .flat => if restoreBase s = u.slot then setFlat u.slot { flatOf s u.slot with test := true } s else beginFlatTest u.slot s
  | _ => wipeUnit test true u s

/-- BIST_SLICE_START (R705 to R707, R712 to R718, R723 to R728). -/
def sliceStart (x : Slice) (s : State) : State :=
  if x.planned then
    match plannedEntry s x with
    | none => s
    | some e =>
      if !sliceReady s x then s
      else
        let s := if isQueued s x.entryIndex then setEntry x.entryIndex (.running 0xFF) s else s
        let s := { s with energy := { s.energy with ran := s.energy.ran ++ [(⟨0, 4, creditOf x.unit, ePredUj e, 0⟩ : Ran)] } }
        holdUnit x.test x.unit { s with bist := { s.bist with
          queue := s.bist.queue.filter (· ≠ x.entryIndex)
          running := s.bist.running ++ [⟨x, s.beat.num, s.beat.phaseUs, creditOf x.unit⟩] } }
  else if sliceReady s x then
    holdUnit x.test x.unit { s with bist := { s.bist with
      running := s.bist.running ++ [⟨x, s.beat.num, s.beat.phaseUs, creditOf x.unit⟩] } }
  else s

/-- BIST_SLICE_START (R715). -/
def execBistSliceStart (x : Slice) (s : State) : Res :=
  need (sliceName x.unit) (.next (if s.beat.started then sliceStart x s else s))

/-! ### Results -/

/-- Slices of a unit's full test (R734). -/
def fullTest (u : UnitRef) : Nat :=
  match u.kind with | .engine => 36 | .stagehand => 8 | .sampler => 3 | .walker => 2 | .video => 7 | _ => 1

/-- Units that a complete pass covers (BIST_LAST_CYCLE_MS). -/
def passUnits (s : State) : List UnitRef :=
  ((List.range 4).flatMap fun c => (clusterUnits c).filter (unitFitted s)) ++
    ((List.range 5).filter fun p => !s.serve.samplersOut.contains p).map samplerRef ++
    ((List.range 5).filter fun k => !(tabGet VEngine.init s.video.engines k).failed).map (fun k => (⟨.video, 0, k⟩ : UnitRef)) ++
    (List.range 3).map (fun k => (⟨.walker, 0, k⟩ : UnitRef)) ++
    ((List.range 128).filter fun f => !(flatOf s f).retired).map (fun f => (⟨.flat, 0, f⟩ : UnitRef)) ++
    (List.range 8).map fun m => (⟨.phy, 0, m⟩ : UnitRef)

/-- The slices of a unit that have passed since its last complete pass. -/
def passedOf (s : State) (u : UnitRef) : List (Nat × Nat) :=
  match s.bist.passed.find? fun q => q.1 = u with | some q => q.2 | none => []

/-- Notes a passed slice: the share covered, in ‰, with this slice (R731). A full test begins anew once it is complete. -/
def notePass (x : Slice) (s : State) : State × Nat :=
  let old := passedOf s x.unit
  let xs := if old.contains (x.test, x.slice) then old else (x.test, x.slice) :: old
  let full := xs.length ≥ fullTest x.unit
  let rest := s.bist.passed.filter fun q => q.1 ≠ x.unit
  let done := if full && !s.bist.done.contains x.unit then x.unit :: s.bist.done else s.bist.done
  let s := { s with bist := { s.bist with passed := if full then rest else (x.unit, xs) :: rest, done := done } }
  let s := if (passUnits s).all s.bist.done.contains then
      { s with bist := { s.bist with
        lastCycleMs := (s.time - s.bist.cycleStartUs) / 1000, cycleStartUs := s.time, done := [] } }
    else s
  (s, min 1000 (1000 * xs.length / fullTest x.unit))

/-- The share covered, without a further pass. -/
def coverOf (s : State) (u : UnitRef) : Nat := min 1000 (1000 * (passedOf s u).length / fullTest u)

/-- Consecutive aborts of a slice. -/
def abortsOf (s : State) (x : Slice) : Nat :=
  match s.bist.aborts.find? fun q => sameSlice q.1 x with | some q => q.2 | none => 0

def setAborts (x : Slice) (n : Nat) (s : State) : State :=
  let rest := s.bist.aborts.filter fun q => !sameSlice q.1 x
  { s with bist := { s.bist with aborts := if n = 0 then rest else (x, n) :: rest } }

/-- Writes a result record (R731). -/
def writeResult (r : Running) (outcome cover durNs : Nat) (detail : Word) (s : State) : State :=
  let rec_ : BistRecord := ⟨r.beat, r.phase, unitCode r.x.unit, r.x.test, r.x.slice, outcome, abortsOf s r.x, cover, durNs, detail⟩
  { s with bist := { s.bist with
      ring := tabSet none s.bist.ring (s.bist.head.toNat % 256) (some rec_), head := s.bist.head + 1 } }

/-- Restores a flat under test from its copy (R721, R724). -/
def restoreFlat (f : Nat) (s : State) : State :=
  if s.flies.testCopy = some f then
    let src := restoreBase s
    let bytes := tabRead 0#8 s.flies.mem (65536 * src) 65536
    setFlat f { flatOf s f with test := false } { s with flies := { s.flies with
      mem := tabWrite 0#8 s.flies.mem (65536 * f) bytes, testCopy := none } }
  else setFlat f { flatOf s f with test := false } s

/-- A unit is cleared again and returned (R719); a stand-in ends (R727, R728). -/
def freeUnit (test : Nat) (u : UnitRef) (s : State) : State :=
  match u.kind with
  | .sampler =>
    if u.slot = 4 then s
    else
      let q := tabGet Sampler.init s.serve.samplers u.cluster
      if q.phys = some 4 && (inventory s).sampler.getD 4 0xFF = 0xFE then
        { s with serve := { s.serve with samplers := tabSet Sampler.init s.serve.samplers u.cluster { q with phys := some u.cluster } } }
      else s
  | .video =>
    let v := tabGet VEngine.init s.video.engines u.slot
    let back := !v.spare
    let t := { s with video := { s.video with
      engines := tabSet VEngine.init s.video.engines u.slot { v with selftest := false, inService := back && !v.failed } } }
    if back then
      { t with video := { t.video with
          engines := tabMap VEngine.init (fun _ w => if w.spare then { w with inService := false } else w) t.video.engines } }
    else t
  | .flat => restoreFlat u.slot s
  | _ => wipeUnit test false u s

/-- A credit pays for a slice's measured duration (R715). -/
def payCredit (r : Running) (durNs : Nat) (s : State) : State :=
  if usesCredit r.x.test then
    { s with bist := { s.bist with credits := tabMod 0 s.bist.credits r.credit fun c => c - 1000 * durNs } }
  else s

/-- Takes a slice off those that run; its entry has ended. -/
def endSlice (r : Running) (durNs : Nat) (retired : Bool) (s : State) : State :=
  let s := { s with bist := { s.bist with running := s.bist.running.filter fun y => y.x ≠ r.x } }
  let s := if r.x.planned && r.beat = s.beat.num then setEntry r.x.entryIndex (if retired then .retired else .cut) s else s
  freeUnit r.x.test r.x.unit (payCredit r durNs s)

/-- A SELFTEST record (R733). -/
def logSelftest (x : Slice) (action : Nat) (s : State) : State :=
  logEvent { evBase s 11 x.test action with unit := unitCode x.unit } s

/-- A second failure retires the unit (R240, R733, R819). -/
def failUnit (x : Slice) (s : State) : State :=
  let s := logSelftest x 7 s
  let s := { s with bist := { s.bist with recheck := s.bist.recheck.filter fun q => q.1.unit ≠ x.unit } }
  match x.unit.kind with
  | .engine => retireUnit x.unit s
  | .stagehand => retireUnit x.unit s
  | .sampler => retireUnit x.unit s
  | .video => videoOut x.unit.slot s
  | .walker =>
    let s := persist (fun v => { v with walker := fitSeg [x.unit.slot] 0 3 v.walker }) s
    { s with serve := { s.serve with walkers := ((inventory s).walker.filter (· < 2)).length } }
  | _ => s

/-- What a failed slice does (R733). A flat is retired at the next edge (R240); a sensor is excluded (R819). -/
def sliceFailed (x : Slice) (s : State) : State :=
  let s := bump 0xE0044 s
  let s := if x.test = 0x10 then { s with
      pair := { s.pair with selfOwn := if s.pair.selfOwn = .planned then .failed else s.pair.selfOwn }
      upd := { s.upd with trialBlocked := true } } else s
  match x.unit.kind with
  | .flat => logSelftest x 7 (setFlat x.unit.slot { flatOf s x.unit.slot with pending := true } s)
  | .clock =>
    if x.test = 6 && !s.therm.excluded.contains x.unit.slot then
      logTherm 6 0 (unitCode x.unit) { s with
        therm := { s.therm with excluded := x.unit.slot :: s.therm.excluded }
        bist := { s.bist with sensorsOut := x.unit.slot :: s.bist.sensorsOut } }
    else if s.bist.sensorsOut.contains x.unit.slot then s
    else { s with bist := { s.bist with sensorsOut := x.unit.slot :: s.bist.sensorsOut } }
  | _ =>
    if unitDoubted s x.unit then failUnit x s
    else { s with bist := { s.bist with recheck := (x, s.beat.num) :: s.bist.recheck } }

/-- What a passed slice does: a unit that was left out returns (R733), and a sensor is believed again (R819). -/
def slicePassed (x : Slice) (s : State) : State :=
  let s := bump 0xE0040 s
  let s := if x.unit.kind = .clock && x.test ≥ 6 then { s with
      therm := if x.test = 6 then { s.therm with excluded := s.therm.excluded.filter (· ≠ x.unit.slot) } else s.therm
      bist := { s.bist with sensorsOut := s.bist.sensorsOut.filter (· ≠ x.unit.slot) } } else s
  let s := if x.test = 0x10 && x.unit.kind = .engine && s.pair.selfOwn = .planned then
      { s with pair := { s.pair with selfParts := (9 * x.unit.cluster + x.unit.slot, x.slice) :: s.pair.selfParts } }
    else s
  if s.bist.recheck.any fun q => sameSlice q.1 x then
    logSelftest x 0 { s with bist := { s.bist with recheck := s.bist.recheck.filter fun q => !sameSlice q.1 x } }
  else s

/-- The end of a slice (R715, R719, R731, R733). -/
def sliceEnd (r : Running) (pass : Bool) (durNs : Nat) (detail : Word) (s : State) : State :=
  let c := if pass then notePass r.x s else (s, coverOf s r.x.unit)
  let s := writeResult r (if pass then 0 else 1) c.2 durNs (if pass then 0 else detail) c.1
  let s := setAborts r.x 0 (endSlice r durNs true s)
  let s := { s with bist := { s.bist with requeue := s.bist.requeue.filter fun q => !sameSlice q.1 r.x } }
  if pass then slicePassed r.x s else sliceFailed r.x s

/-- The slice that runs on a unit. -/
def runningOn (s : State) (u : UnitRef) : Option Running := s.bist.running.find? fun r => r.x.unit = u

/-- Whether a slice can have taken that long (R709). -/
def durationOk (test durNs : Nat) : Bool := !usesCredit test || durNs ≤ 200000

/-- BIST_SLICE_END (R709, R731, R733). -/
def execBistSliceEnd (unit : UnitRef) (pass : Bool) (durNs : Nat) (detail : Word) (s : State) : Res :=
  need (sliceName unit) (.next (match runningOn s unit with
    | some r => if durationOk r.x.test durNs then sliceEnd r pass durNs detail s else s
    | none => s))

/-- OUTCOME of an abort (R726, R731). -/
def abortCode : AbortTrigger → Nat
  | .service => 2 | .limit => 3 | .edge => 4 | .reset => 5

/-- An aborted slice (R709, R726, R730): its unit returns, and the slice is requeued; one aborted 16 times in a row is planned with its
unit left out, if the unit holds a role. -/
def sliceAbort (r : Running) (t : AbortTrigger) (s : State) : State :=
  let ran := if r.beat = s.beat.num then 1000 * (s.beat.phaseUs - r.phase) else 1000 * (s.beat.period - r.phase)
  let durNs := if usesCredit r.x.test then min 200000 ran else ran
  let s := writeResult r (abortCode t) (coverOf s r.x.unit) durNs 0 s
  let n := abortsOf s r.x + 1
  let s := bump 0xE0048 (setAborts r.x n (endSlice r durNs false s))
  let s := if n = 16 && r.x.planned then
      bump 0xE004C { s with bist := { s.bist with starved := r.x :: s.bist.starved } }
    else s
  { s with bist := { s.bist with
      requeue := (r.x, s.beat.num + 1) :: s.bist.requeue.filter fun q => !sameSlice q.1 r.x } }

/-- Whether a trigger of R713 and R726 holds. The queue of a Sampler whose slice is planned after 16 aborts is paused (R730). -/
def abortDue (s : State) (r : Running) (t : AbortTrigger) : Bool :=
  let u := r.x.unit
  match t with
  | .service => match u.kind with
    | .sampler => abortsOf s r.x < 16 && (tabGet Sampler.init s.serve.samplers u.cluster).queue.any fun j => j.phase = .waiting || j.phase = .granted
    | .flat => (match areaOf s u.slot with
      | some a => a = 2 && s.flies.sets.any fun e => e.1 = (u.slot - areaBase s 2) / 3 && e.2.user.isSome
      | none => false)
    | .video => s.video.streams.any (fun e => !e.2.frames.isEmpty) &&
        (List.range 5).all fun k => let v := tabGet VEngine.init s.video.engines k; !v.inService || v.frame.isSome
    | _ => false
  | .limit => !inWindow s u
  | .edge => r.beat ≠ s.beat.num
  | .reset => !unitQuietReset s u
where
  /-- Whether a unit is not under a reset. -/
  unitQuietReset (s : State) (u : UnitRef) : Bool :=
    match u.kind with
    | .engine => !(engOf s (9 * u.cluster + u.slot)).serv.inReset
    | .stagehand => !(shOf s (18 * u.cluster + u.slot)).serv.inReset
    | .sampler => !(s.serve.samplers.any fun e => e.2.phys = some (samplerNo u) && e.2.inReset)
    | _ => true

/-- BIST_SLICE_ABORT (R713, R726, R730). -/
def execBistSliceAbort (unit : UnitRef) (t : AbortTrigger) (s : State) : Res :=
  need (sliceName unit) (.next (match runningOn s unit with
    | some r => if abortDue s r t then sliceAbort r t s else s
    | none => s))

/-- The 32 bytes of a result record (R731). -/
def resultBytes (r : BistRecord) : List Byte :=
  leBytes 8 r.beat.toNat ++ leBytes 4 r.phase ++ leBytes 2 r.unit ++ leBytes 1 r.test ++ leBytes 1 r.slice ++ leBytes 1 r.outcome ++
    leBytes 1 r.aborts ++ leBytes 2 r.cover ++ leBytes 4 r.durNs ++ leBytes 4 r.detail.toNat ++ leBytes 4 0

/-- A write of BIST_RES_IDX copies a ring slot into the data window (R731). -/
def resIdxOp (slot : Nat) (s : State) : State :=
  let ws := match tabGet none s.bist.ring slot with | some r => wordsOf (resultBytes r) 8 | none => List.replicate 8 0
  let s := setRegF 0xE0034 7 0 slot s
  { s with bist := { s.bist with window := tabWrite 0#32 [] 0 ws } }

/-- BIST_RES_IDX_WRITE (R731, R870). -/
def execBistResIdxWrite (fn : Nat) (v : Word) (s : State) : Res :=
  need (fn ≤ 8) (.next (if linkUp s && fn = 0 then resIdxOp (fld v 7 0) s else s))

/-- Credits rise at a Beat edge, up to 400 µs (R714). -/
def creditEdge (s : State) : State :=
  let up := regF s 0xE0004 15 0 * s.beat.period
  { s with bist := { s.bist with
      credits := (List.range 5).foldl (fun t c => tabSet 0 t c (min 400000000 (tabGet 0 t c + up))) s.bist.credits } }

end Sys2Proof.Machine
end

