-- ==== Sys2Proof/Machine/Board.lean ====
section
/-! DEFINITION. The words of the Call Board (R450 to R459), the commands of the Call Board port, and the Curtain (R453, R457,
R471 to R487). -/

namespace Sys2Proof.Machine

open Sys2Proof

/-! ### The word map -/

/-- The reset value of an edge word (R455). -/
def edgeReset (w : Nat) : Word :=
  if w = 1 then 0xB1000000#32 else if w = 6 then 0x27100000#32 else if w = 0xA then 0xC8000000#32 else 0

/-- An edge word as last latched. The table holds each word exclusive-or its reset value. -/
def edgeWord (s : State) (w : Nat) : Word := tabGet 0#32 s.board.edge w ^^^ edgeReset w
def setEdge (w : Nat) (v : Word) (s : State) : State :=
  { s with board := { s.board with edge := tabSet 0#32 s.board.edge w (v ^^^ edgeReset w) } }

/-- HEALTH (R455). -/
def healthWord (s : State) : Word :=
  let role := match s.pair.mode with | .lead => 1 | .understudy => 2 | _ => 0
  let throttled := s.therm.guardOn || s.therm.steps.any (fun e => e.2 ≠ 0 && e.2 < 15) || s.hbm.hbmStacks.any fun e => e.2.level ≠ 0
  let le := ((List.range 32).filter fun l => (engSlot s l).isSome).length
  let ls := ((List.range 64).filter fun l => (shSlot s l).isSome).length
  BitVec.ofNat 32 (modeCode (modeNow s) * 2 ^ 28 + role * 2 ^ 26 + b2n s.pair.alarm * 2 ^ 25 + b2n s.beat.holdover * 2 ^ 24 +
    b2n throttled * 2 ^ 23 + b2n (!s.bist.running.isEmpty) * 2 ^ 22 + b2n s.ro.onFallback * 2 ^ 21 +
    b2n (!s.flies.short.isEmpty) * 2 ^ 20 + le * 2 ^ 8 + ls)

/-- CURTAIN and CURTAIN_CNT (R455). -/
def curtainWord (s : State) : Word :=
  let held := s.curtain.results.filter fun r => r.state = .held
  let holding := sumNat ((List.range 8).map fun n => if held.any fun r => r.part = n then 2 ^ n else 0)
  let oldest := held.foldl (fun m r => max m (r.heldEdges.getD 0)) 0
  BitVec.ofNat 32 (b2n s.curtain.pinLow * 2 ^ 31 + b2n s.curtain.mgmt * 2 ^ 30 + b2n s.curtain.rehearsal * 2 ^ 29 +
    b2n (gatesClosed s) * 2 ^ 28 + s.curtain.policy.toNat * 2 ^ 16 + holding * 2 ^ 8 + min oldest 64)

def curtainCntWord (s : State) : Word :=
  BitVec.ofNat 32 (min 0xFFFF (s.curtain.results.filter fun r => r.state = .held).length * 2 ^ 16 + s.board.dropped.toNat)

/-- FAULT and WALKON (R455). -/
def faultWord (s : State) : Word :=
  BitVec.ofNat 32 (s.fault.head.toNat % 65536 * 2 ^ 16 + min 3 (devWindow s).length * 2 ^ 8 + s.board.badWr.toNat)

def walkonWord (s : State) : Word :=
  let pend := (s.board.slots.filter fun e => e.2.state = .pending).length
  BitVec.ofNat 32 (min 255 s.ro.opened.length * 2 ^ 24 + pend % 256 * 2 ^ 16 + s.board.dispatched.toNat)

/-- Admission word A (R458). -/
def admitWordA (s : State) (n : Nat) : Word :=
  let en := partEnabled s n
  let short := partShort s n
  let walk := s.board.slots.any fun e => e.2.reg = some n
  BitVec.ofNat 32 (b2n en * 2 ^ 31 + b2n (en && !short) * 2 ^ 30 + b2n walk * 2 ^ 29 + b2n (partDeferred s n) * 2 ^ 28 +
    b2n short * 2 ^ 27 + (regF s (0x90200 + 0x40 * n) 13 0 - liveCount s n))

/-- A watermark (R454). -/
def watermarkWord (s : State) (i : Nat) : Word :=
  let x := tabGet Stream.init s.video.streams i
  if x.state = .closed then 0
  else
    let newest := match x.ready.getLast? with
      | some f => f.frameNo
      | none => (match x.good with | some f => f.frameNo | none => 0)
    BitVec.ofNat 32 (2 ^ 31 + b2n x.stale * 2 ^ 30 + x.part * 2 ^ 27 + min 255 x.staleBeats * 2 ^ 16 + newest % 65536)

/-- Slot words 0 and 1 (R460). -/
def slotWord (s : State) (i k : Nat) : Word :=
  let x := slotOf s i
  if k = 0 then BitVec.ofNat 32 (b2n (x.state = .pending) * 2 ^ 31 + x.wordReq % 2 ^ 14 * 2 ^ 16 + x.wordArg.toNat)
  else BitVec.ofNat 32 (slotCode x.state * 2 ^ 29 + b2n x.reg.isSome * 2 ^ 28 + x.reg.getD 0 * 2 ^ 25 +
    x.outSeq.toNat * 2 ^ 8 + x.status.toNat)

/-- A word of the Call Board (R450). -/
def boardWord (s : State) (w : Nat) : Word :=
  if w = 0 then 0x1ED70D09#32
  else if w = 3 then s.boot.serial
  else if w = 6 then BitVec.ofNat 32 ((edgeWord s 6).toNat / 65536 * 65536 + min 0xFFFF s.beat.phaseUs)
  else if w = 7 then healthWord s
  else if w = 8 then curtainWord s
  else if w = 9 then curtainCntWord s
  else if w = 0xC then s.board.ringHead
  else if w = 0xD then faultWord s
  else if w = 0xE then walkonWord s
  else if w = 0xF then s.board.seq
  else if w < 0x10 then edgeWord s w
  else if w < 0x20 then (if w % 2 = 0 then admitWordA s ((w - 0x10) / 2) else edgeWord s w)
  else if w < 0x2C then edgeWord s w
  else if 0x40 ≤ w && w < 0x70 then watermarkWord s (w - 0x40)
  else if 0x100 ≤ w && w < 0x200 then slotWord s ((w - 0x100) / 2) (w % 2)
  else if 0x200 ≤ w && w < 0x400 then tabGet 0#32 s.board.ring (w - 0x200)
  else 0

/-! ### The Call Board port -/

/-- Whether a word is word 0 of a Walk-on slot. -/
def isSlotWord (w : Nat) : Bool := 0x100 ≤ w && w < 0x200 && w % 2 = 0

/-- CALL_BOARD_BAD_WRITE (R453). -/
def execCallBoardBadWrite (addr : Nat) (_w : Word) (s : State) : Res :=
  if addr ≥ 1024 then .fault .noSuchAddress
  else .next (if s.pins.standby && !isSlotWord addr then
    { s with board := { s.board with badWr := s.board.badWr + 1 } } else s)

/-- BEAT_LO_READ (R457): word 0x005 is latched for the reader, the bus (false) or the PCIe mirror (true). -/
def execBeatLoRead (mirror : Bool) (s : State) : Res :=
  .next (if s.pins.standby then
    emit (.read ((boardWord s 4).zeroExtend 64)) { s with board := { s.board with
      hiLatch := tabSet none s.board.hiLatch (b2n mirror) (some (boardWord s 5)) } }
  else s)

/-- What a reader of word 0x005 gets (R457). -/
def beatHiFor (s : State) (mirror : Bool) : Word := (tabGet none s.board.hiLatch (b2n mirror)).getD (boardWord s 5)

/-! ### The Curtain -/

/-- Whether a low pulse on CURTAIN_N closes the gates (R473, R850): one of 50 ns to 100 ns may or may not. -/
def pulseCloses (s : State) (lowNs : Nat) : Bool := 100 ≤ lowNs || (50 ≤ lowNs && (freeVal 13 s).getLsbD 0)

/-- CURTAIN_N_FALL (R472 to R474). -/
def execCurtainNFall (lowNs : Nat) (s : State) : Res :=
  .next (if pulseCloses s lowNs then drawn { s with curtain := { s.curtain with pinLow := true } } else drawn s)

/-- CURTAIN_N_RISE (R472, R475, R481, R482). -/
def execCurtainNRise (s : State) : Res :=
  .next (if s.curtain.pinLow then gatesOpen { s with curtain := { s.curtain with pinLow := false } } else s)

/-- RESULT_AT_GATE (R471 to R487, R886). -/
def execResultAtGate (id : Nat) (s : State) : Res :=
  match resultOf s id with
  | none => .next s
  | some r => .next (if r.state = .queued && atGate s r then reachGate r s else s)

/-- The message of a result that has passed its gate: its buffers, its CQ entry, and its PSN (R549, R551, R579). -/
def deliverResult (r : Result) (s : State) : State :=
  match r.route with
  | .pcie fn k _ =>
    let q := qpOf s fn k
    let n := (rxSpan r.size q.rx).getD 0
    let s := setQp fn k { q with rx := q.rx.drop n, wait := q.wait.drop 1 } s
    let s := match sealEpoch s r.job r.beat with
      | some e => emit (.sealed (sealOut s r.route r.part r.job e r.kind r.stream (BitVec.ofNat 64 r.outSeq) r.bytes r.size)) s
      | none => s
    writeCq fn k 2 0 0 r.size n r.job (BitVec.ofNat 64 r.outSeq) s
  | .roce qpn => match rqpOf s qpn with
    | some q =>
      let q := { q with wait := q.wait.drop 1 }
      drainRoce qpn 257 (roceOut qpn q r.kind r.stream r.job (BitVec.ofNat 64 r.outSeq) r.beat r.bytes r.size (setRqp qpn (some q) s))
    | none => s
  | .internal => s

/-- RESULT_PASSED (R466, R886): the last bit of a result that its gate let through leaves. -/
def execResultPassed (id : Nat) (s : State) : Res :=
  match resultOf s id with
  | none => .next s
  | some r =>
    if r.state = .sending then
      .next (forgetResult id (ringWrite 0 0 r.part r.slot.isSome r.ntok r.outSeq r.req (deliverResult r s)))
    else .next s

/-- HELD_RESULT_EXPIRE (R480, R486): at the 64th Beat edge after it reached its gate. -/
def execHeldResultExpire (id : Nat) (s : State) : Res :=
  match resultOf s id with
  | none => .next s
  | some r => .next (if r.state = .held && 64 ≤ r.heldEdges.getD 0 then dropResult id s else s)

end Sys2Proof.Machine
end

