-- ==== Sys2Proof/Machine/Half.lean ====
section
/-! DEFINITION. PUBLISH_RUNNING_ORDER (R47) and THE_HALF (R45 to R54). -/

namespace Sys2Proof.Machine

open Sys2Proof

/-- PUBLISH_RUNNING_ORDER (R27, R47, R49, R60, R62 to R64, R77, R79, R81 to R84, R90 to R92, R95, R127, R334, R390, R444, R827, R887): the
Stage Manager publishes only what its rules let it plan, and only on a module that plans for itself (R631). -/
def execPublishRunningOrder (o : Order) (s : State) : Res :=
  .next (if s.beat.started && freezesOwn s && orderPlanned s o && orderBuilt s o && sameOutput s o
    then settlePauses { s with ro := { s.ro with published := some o, planned := some (planInput s, o) } } else s)

/-- ORDER (R635): a Lead sends the Running Order that it has frozen, header and entries. -/
def sendOrder (s : State) : State :=
  match s.ro.frozen with
  | some o => if leads s then sendPair 2 0xFF (orderBytes o) s else s
  | none => s

/-- What The Half does on a started module before it freezes an order, at its phase in the Beat (R45, R46, R71, R246, R419). -/
def halfReady (s : State) : State :=
  let s := passPhase (s.beat.period - freezeLead s) s
  let s := planWalkons (armPending (thermHalf s))
  let s := updateShort ((List.range 8).foldl applyGuar s)
  applyPublishes (nextNum s) s

/-- The Half: the module freezes the published order if it may still publish it, and the fallback otherwise. The order of a follower comes
from the Lead (R637). -/
def halfOp (s : State) : State :=
  let s := halfReady s
  if freezesOwn s then
    let s := freezeOrder (s.ro.published.filter (orderPlanned s)) s
    settle (settlePauses (sendOrder s))
  else
    let s := { s with ro := { s.ro with frozen := none, frozenVoid := [], nextFallback := false, published := none } }
    settle (settlePauses (match s.pair.order with
      | some o => takeOrder o { s with pair := { s.pair with order := none } }
      | none => s))

/-- THE_HALF (R45, R48, R52 to R54, R71, R86, R128, R246, R328, R329, R377, R419, R825). -/
def execTheHalf (s : State) : Res := .next (if s.beat.started && !s.beat.halfPassed then halfOp s else s)

end Sys2Proof.Machine
end

