-- ==== Sys2Proof/Machine/Ledger.lean ====
section
/-! DEFINITION. LEDGER_CLOSE (R83, R88, R94 to R102, R620, R815): the ledger of the Beat that ended last closes. -/

namespace Sys2Proof.Machine

open Sys2Proof

/-! ### What was measured (R815) -/

/-- The energy of a rail over the ending Beat, in whole µJ. -/
def railUj (s : State) (r : Nat) : Nat := tabGet 0 s.therm.endSum r / 10

/-- e_used: the IN54 energy of the Beat. -/
def beatUj (s : State) : Nat := railUj s 0

/-- The entry energy of a cluster: ENG_Cc, and SH_Cc above the Stagehand idle power, which is in µW. -/
def clusterUj (s : State) (c : Nat) : Nat :=
  railUj s (1 + c) + (railUj s (5 + c) - tabGet 0 s.energy.shIdle c * s.energy.endPeriod / 1000000)

/-- The entry energy of all four clusters: e_used less e_base_meas. -/
def entriesUj (s : State) : Nat := sumNat ((List.range 4).map (clusterUj s))

/-- e_base_meas. -/
def baseUj (s : State) : Int := (beatUj s : Int) - entriesUj s

/-! ### The reserve (R88) -/

/-- The reserve after a Beat. -/
def nextReserve (r : Int) (eBeat used : Nat) : Int :=
  let r := r + eBeat - used
  if r > 4 * (eBeat : Int) then 4 * (eBeat : Int) else r

/-- The update of R88: the reserve, the overdraw flag, and the energy of the last closed Beat. -/
def closeReserve (s : State) : State :=
  let r := nextReserve s.energy.reserve s.energy.endBudget (beatUj s)
  let s := { s with energy := { s.energy with
    reserve := r, lastMj := beatUj s / 1000, lastBase := baseUj s, lastBaseUs := s.energy.endPeriod } }
  if r < -(s.energy.endBudget : Int) then setRegF 0x20018 1 1 1 s else s

/-! ### The coefficients (R94, R95) -/

/-- The predicted energy of the Beat's entries on a cluster. -/
def predCluster (s : State) (c : Nat) : Nat := sumNat ((s.energy.ending.filter fun x => x.cluster = c).map Ran.predUj)

/-- A coefficient times 1 + (m/p − 1)/64, with the factor limited to 1 ± 1/1,024, rounded down. -/
def refine (m p x : Nat) : Nat :=
  let n := 63 * p + m
  let d := 64 * p
  if 1024 * n > 1025 * d then x * 1025 / 1024
  else if 1024 * n < 1023 * d then x * 1023 / 1024
  else x * n / d

/-- The refined coefficients: those of a cluster on which nothing was predicted stay. -/
def refined (s : State) : Tab Nat :=
  tabMap 0 (fun k x => let p := predCluster s (k / 17); if p = 0 then x else refine (clusterUj s (k / 17)) p x) s.energy.coef

/-- A changed set is a new generation, and goes to the partner (R95, R642). -/
def closeCoefs (s : State) : State :=
  let t := refined s
  if t = s.energy.coef then s else sendConfig true { s with energy := { s.energy with coef := t, gen := s.energy.gen + 1 } }

/-! ### Charges (R96 to R98) -/

/-- Entries whose energy goes to the operator account (R97): FIRMWARE and SELFTEST. -/
def Ran.firmware (x : Ran) : Bool := x.kind = 3 || x.kind = 4

/-- The share of the entry energy that falls to a predicted energy, in whole µJ. -/
def chargeOf (s : State) (pred : Nat) : Nat := pred * entriesUj s / sumNat (s.energy.ending.map Ran.predUj)

/-- The charge of a partition for the ending Beat. -/
def partCharge (s : State) (n : Nat) : Nat :=
  chargeOf s (sumNat ((s.energy.ending.filter fun x => !x.firmware && x.part = n).map Ran.predUj))

/-- The operator's charge: the base energy, and that of FIRMWARE and SELFTEST entries. -/
def operatorCharge (s : State) : Int := baseUj s + chargeOf s (sumNat ((s.energy.ending.filter Ran.firmware).map Ran.predUj))

/-- The engine time of a partition in the ending Beat (R98). -/
def partEus (s : State) (n : Nat) : Nat :=
  sumNat ((s.energy.ending.filter fun x => x.kind ≠ 4 && x.part = n).map Ran.us)

/-- A table over the partitions. -/
def byPart (f : Nat → Nat) : Tab Nat := (List.range 8).foldl (fun t n => tabSet 0 t n (f n)) []

/-- The Beat's charges, alone and added to the open period. -/
def addCharges (s : State) : State :=
  let e := s.energy
  { s with energy := { e with
    lastUj := byPart (partCharge s)
    lastEus := byPart (partEus s)
    billUj := byPart fun n => tabGet 0 e.billUj n + partCharge s n
    billEus := byPart fun n => tabGet 0 e.billEus n + partEus s n
    billOp := e.billOp + operatorCharge s } }

/-! ### Billing periods (R99 to R102, R620, R881) -/

/-- ENERGY_BILL_BEATS as a period takes it; 0 is taken as 1 (notes/assumptions/49.md). -/
def billLen (s : State) : Nat := max 1 (regW s 0x20010).toNat

/-- The label that a Beat took at its edge, and whether it had stepped back (R103, R104); 0 where none was kept. -/
def labelOf (s : State) (beat : DWord) : DWord × Bool :=
  match s.energy.labels.find? fun x => x.1 = beat with | some x => x.2 | none => (0, false)

/-- The record of the open period, with its last Beat (R102): CLOCK_STEPPED where the label of its first or of its last Beat has it. -/
def billRecord (s : State) (last : DWord) : BillRecord :=
  let e := s.energy
  { period := e.billNum, first := e.billFirst, last := last
    energy := (List.range 8).map (tabGet 0 e.billUj), eus := (List.range 8).map (tabGet 0 e.billEus), operator := e.billOp
    labelFirst := e.billLabel.1, labelLast := (labelOf s last).1, partialRec := e.billPartial
    stepped := e.billLabel.2 || (labelOf s last).2 }

/-- Closes the open period, and opens the one that holds the Beat `beat`: periods none of whose Beats ran have no record. -/
def closeBill (last beat first : DWord) (s : State) : State :=
  let start := s.energy.billLast.toNat + 1
  let len := s.energy.billNext.getD (billLen s)
  let skip := (beat.toNat - start) / len
  let e := s.energy
  let s := { s with energy := { e with
    records := billRecord s last :: e.records
    billNum := e.billNum + 1 + skip
    billFirst := first
    billLast := BitVec.ofNat 64 (start + skip * len + len - 1), billNext := none
    billUj := [], billEus := [], billOp := 0, billPartial := false, billLabel := labelOf s first } }
  match s.energy.records with
  | r :: _ => sendHouse 7 (accountBytes s r) s
  | [] => s

/-- A period whose last Beat ended without a ledger, at a device reset, closes with the next ledger. -/
def closeLate (s : State) : State :=
  let e := s.energy
  if e.billLast < e.endingBeat then closeBill e.billLast e.endingBeat (e.billLast + 1) s else s

/-- The period closes with the ledger of its last Beat, or of the last Beat that ran before the number rose past it. -/
def closePeriod (s : State) : State :=
  let e := s.energy
  if e.billLast < s.beat.num then closeBill e.endingBeat s.beat.num s.beat.num s else s

/-! ### Allowances (R83) -/

/-- Whether a partition's allowance for the open period is exhausted; an allowance of 0 is unlimited. -/
def exhausted (s : State) (n : Nat) : Bool :=
  let a := (regW s (0x20104 + 0x40 * n)).toNat
  a ≠ 0 && a * 1000000 ≤ tabGet 0 s.energy.billUj n

/-- DEFERRED of every partition. -/
def setDeferred (s : State) : State := { s with energy := { s.energy with defer := (List.range 8).filter (exhausted s) } }

/-! ### LEDGER_CLOSE -/

/-- What the close of a ledger does. The charges are taken before the coefficients change. -/
def ledgerOp (s : State) : State :=
  let s := closePeriod (addCharges (closeLate s))
  let s := setDeferred (closeCoefs (closeReserve s))
  { s with energy := { s.energy with closed := true } }

/-- LEDGER_CLOSE (R88): once for each Beat that has ended. -/
def execLedgerClose (s : State) : Res := .next (if s.energy.closed then s else ledgerOp s)

end Sys2Proof.Machine
end

