-- ==== Sys2Proof/Machine/Resync.lean ====
section
/-! DEFINITION. What a resynchronisation moves (R653): the pages and the firmware tables as the partner sends them, and as the joining
module takes them. -/

namespace Sys2Proof.Machine

open Sys2Proof

/-! ### What the partner sends -/

/-- The pages that a partition maps: address and frame. -/
def partPages (s : State) (part : Nat) : List (Nat × Nat) :=
  s.mem.pt.filterMap fun e =>
    if e.1 / 2 ^ 32 = part * 4 + 3 && bitAt e.2 63 then some (e.1 % 2 ^ 32 * 65536, leafFrame e.2) else none

/-- The nodes of a partition's tree. -/
def partNodes (s : State) (part : Nat) : List (Nat × Node) :=
  s.serve.nodes.filterMap fun e => match e.2 with
    | some n => if e.1 / 2 ^ 22 = part then some (e.1, n) else none
    | none => none

/-- What stands for the address of a frame that only the tree holds. -/
def treeOnly : Nat := 2 ^ 48

/-- The pages of a partition, and the frames that only its tree holds. -/
def partFrames (s : State) (part : Nat) : List (Nat × Nat) :=
  let ps := partPages s part
  ps ++ ((partNodes s part).flatMap (fun e => e.2.pages)).eraseDups.filterMap fun f =>
    if ps.any fun p => p.2 = f then none else some (treeOnly, f)

/-- STATE: the pages whose frames are asked for, each with its partition set (R635, R653). -/
def sendPages (want : Nat → Bool) (s : State) : State :=
  (List.range 8).foldl (fun t part =>
    ((partFrames s part).filter fun p => want p.2).foldl (fun t p =>
      sendFields 9 part (p.1 :: p.2 :: (List.range 65536).map fun i => (tabGet 0#8 s.mem.bytes (65536 * p.2 + i)).toNat) t) t) s

/-- The request table entries of a partition, with their token logs, extended logs among them, and their count tables (R653). -/
def requestFields (s : State) (part : Nat) : List Nat :=
  s.serve.reqs.flatMap fun e => match e.2 with
    | some r => if r.part = part then
        e.1 :: (requestBytes e.1 r).map BitVec.toNat ++ r.log.flatMap (fun x => [x.1, x.2.toNat]) ++
          r.counts.flatMap fun x => [x.1, x.2.toNat]
      else []
    | none => []

/-- The tree of a partition with its page lists and its bucket table. -/
def treeFields (s : State) (part : Nat) : List Nat :=
  (partNodes s part).flatMap (fun e => e.1 :: (nodeBytes part e.2).map BitVec.toNat ++ e.2.pages) ++
    s.serve.buckets.flatMap fun e => match e.2 with
      | some n => if e.1 / 2 ^ 23 = part then [e.1, n] else []
      | none => []

/-- STATE: the firmware tables, by partition. -/
def sendTables (s : State) : State :=
  (List.range 8).foldl (fun t part =>
    let fs := requestFields s part ++ treeFields s part
    if fs.isEmpty then t else sendFields 9 part fs t) s

/-! ### What the joining module takes -/

/-- This module's frame for a frame of the partner: the one that already stands for it, so that shared pages stay shared, or a free one. -/
def frameFor (part frame : Nat) (s : State) : Option (Nat × State) :=
  match tabGet none s.pair.frameMap frame with
  | some f => some (f, s)
  | none => (freeFrames s 1).head?.map fun f =>
      (f, { takeFrame f part 0 false s with pair := { s.pair with frameMap := tabSet none s.pair.frameMap frame (some f) } })

/-- The bytes of a frame as the partner sends them. -/
def storeFrame (f : Nat) (bytes : List (Nat × Byte)) (s : State) : State :=
  bytes.foldl (fun t e => { t with mem := { t.mem with bytes := tabSet 0#8 t.mem.bytes (65536 * f + e.1 % 65536) e.2 } }) s

/-- A page of the partner: its bytes are written, and a page that is not mapped yet takes the leaf that `leaf` gives for its frame. -/
def stateLeaf (part va frame : Nat) (leaf : Nat → DWord) (bytes : List (Nat × Byte)) (s : State) : State :=
  match frameFor part frame s with
  | none => s
  | some (f, t) =>
    storeFrame f bytes (if va ≥ treeOnly || (leafAt t part va).isSome then t else mapLeaf part va (leaf f) (raiseFrame f t))

/-- A page of the partner that is its own, with no word of its tables yet. -/
def statePage (part va frame : Nat) (bytes : List (Nat × Byte)) (s : State) : State :=
  stateLeaf part va frame (fun f => ptLeaf true true false (kvOwner va).isSome part f 0xFFFF) bytes s

/-- A page table entry of the partner: a leaf keeps its permissions, its flags and its STEP, on the frame that stands for the partner's. A
page that is mapped already changes its permissions by an epoch command (R337). The pointers to tables are this module's own. -/
def stateEntry (k : Nat) (w : DWord) (s : State) : State :=
  let space := k / 2 ^ 34
  let va := k % 2 ^ 32 * 65536
  if k / 2 ^ 32 % 4 ≠ 3 || !bitAt w 63 then s
  else match leafAt s space va with
    | some x => setPt space 3 va (setFld w 38 16 (leafFrame x)) (ownEpoch space va (va + 65536) s)
    | none => stateLeaf space va (leafFrame w) (fun f => setFld w 38 16 f) [] s

/-- A word of the firmware tables: page table entries by their key, token logs by 2 to the 40 + 2 to the 20 times the request plus the
position, count tables by 2 to the 41 + 2 to the 13 times the request plus the slot, and the heads of buckets by 2 to the 42 plus the
bucket's key. -/
def stateWord (k : Nat) (w : DWord) (s : State) : State :=
  if k ≥ 2 ^ 42 then
    let head := if w = 0xFFFFFFFF#64 then none else some w.toNat
    { s with serve := { s.serve with buckets := tabSet none s.serve.buckets (k - 2 ^ 42) head } }
  else if k ≥ 2 ^ 41 then
    modReq ((k - 2 ^ 41) / 2 ^ 13) (fun r => { r with counts := tabSet countEmpty r.counts ((k - 2 ^ 41) % 2 ^ 13) w }) s
  else if k ≥ 2 ^ 40 then
    modReq ((k - 2 ^ 40) / 2 ^ 20) (fun r => { r with log := tabSet 0#32 r.log ((k - 2 ^ 40) % 2 ^ 20) (w.truncate 32) }) s
  else stateEntry k w s

/-- STATE of R394, by its code. -/
def reqStateOf (k : Nat) : ReqState :=
  match k with
  | 0 => .admitted | 1 => .prefill | 2 => .decode | 3 => .paused | 4 => .done | _ => .failed

/-- A request as its table entry gives it (R394); its token log and its count table come as words. The entry does not say how the job
arrived, so its results have no route here (notes/assumptions/106.md). -/
def requestFrom (bs : List Byte) : Request :=
  let w (off : Nat) : Word := BitVec.ofNat 32 (leAt bs off 4)
  { jobId := BitVec.ofNat 64 (leAt bs 0 8), state := reqStateOf (leAt bs 10 1 % 8), status := BitVec.ofNat 8 (leAt bs 11 1)
    part := leAt bs 12 1 % 8, prio := leAt bs 12 1 / 16, age := leAt bs 13 1, cuts := leAt bs 14 1 % 16, carry := none
    retry := leAt bs 14 1 / 16 % 2 = 1, promoted := leAt bs 14 1 / 32 % 2 = 1
    insert := leAt bs 15 1 % 2 = 1, countFull := leAt bs 15 1 / 2 % 2 = 1, spread := none, pausePending := leAt bs 15 1 / 8 % 2 = 1
    variant := leAt bs 16 1, ncand := leAt bs 17 1, topK := leAt bs 18 2, temp := w 20, topP := w 24, pres := w 28, freq := w 32
    rep := w 36, window := leAt bs 40 2, failUnit := BitVec.ofNat 16 (leAt bs 42 2), len := leAt bs 44 4, logLen := leAt bs 48 4
    maxNew := leAt bs 52 4, emitted := leAt bs 56 4, pending := w 60, seed := BitVec.ofNat 64 (leAt bs 64 8), outSeq := leAt bs 72 4
    prefixTokens := leAt bs 76 4, admitBeat := BitVec.ofNat 64 (leAt bs 80 8), lastBeat := BitVec.ofNat 64 (leAt bs 88 8)
    stop := (List.range 4).map fun i => w (96 + 4 * i), distinct := leAt bs 112 4
    lastNode := if leAt bs 116 4 = 0xFFFFFFFF then none else some (leAt bs 116 4), route := .internal, log := [], counts := [], ext := []
    cancelled := false, failAtEnd := none, revoked := [], stepNo := 0, spreadEdges := none, contribIn := [], contribOut := []
    gathered := [], avoid := [], walked := true, treeQ := [], treeDue := [] }

/-- A prefix tree node as its bytes give it (R401), with its page list on this module's frames, each counted (R324). -/
def stateNode (part i : Nat) (bs : List Byte) (pages : List Nat) (s : State) : State :=
  let link (off : Nat) : Option Nat := if leAt bs off 4 = 0xFFFFFFFF then none else some (leAt bs off 4)
  let r := pages.foldl (fun (acc : List Nat × State) p => match frameFor part p acc.2 with
    | some (f, t) => (acc.1 ++ [f], raiseFrame f t)
    | none => acc) ([], s)
  let n : Node :=
    { hash := BitVec.ofNat 64 (leAt bs 0 8), check := BitVec.ofNat 64 (leAt bs 8 8), parent := link 16, children := leAt bs 20 4
      next := link 24, variant := leAt bs 29 1, depth := leAt bs 30 2, pages := r.1, lastUse := BitVec.ofNat 64 (leAt bs 40 8) }
  { r.2 with serve := { r.2.serve with nodes := tabSet none r.2.serve.nodes i (some n) } }

end Sys2Proof.Machine
end

