-- ==== Sys2Proof/Machine/EntryRun.lean ====
section
/-! DEFINITION. The run of an entry on an engine: dispatch (R55 to R61), the clear of R26 and R27, retirement (R139,
R59), hangs (R674 to R677), drains and stops (R157, R679), and hardware exceptions (R159). -/

namespace Sys2Proof.Machine

open Sys2Proof

/-- The first instruction of an entry can issue: the argument block of an ordinary entry is copied to LM 0–255, and
its prefix gives the Cue Light window (R117 to R121). A translation fault raises XFER_FAULT at pc 0 (R118). -/
def startEntry (e : Nat) (s : State) : State :=
  let x := engOf s e
  match x.run with
  | none => s
  | some c =>
    let begin_ (c : EntryCtx) (bs : List Byte) (s : State) : State :=
      let n := leAt bs 14 2
      let base := leAt bs 12 2
      let need := match imageAt s c.prog with | some (_, i) => i.clMax | none => 0
      let c := { c with clBase := base, clCount := n, seed := BitVec.ofNat 64 (leAt bs 16 8),
                        clOk := clFits base n need }
      modEng e (fun x => { x with run := some c, phase := .running, lm := tabWrite 0#8 x.lm 0 bs }) s
    if c.slot.isSome then begin_ c (tabRead 0#8 x.lm 0 256) s
    else
      let d := dvRead (entryMem c (unitCode (engRef e)) 0) c.argPtr 256
        ((pagePieces c.argPtr 256).foldl (fun q p => tcLookup (e / 9) c.part p.1 q) s)
      match d.fault with
      | some (va, sub) =>
        let s := match faultFatal sub with
          | some st => stepBroken c.part c.stepId 0xFFFF (some st) d.st
          | none => noteRevoked c.part c.stepId va d.st
        raiseExc e 9 0 va 0 [sub] s
      | none => begin_ c d.bytes d.st

/-- Gives an entry to an engine (R108): registers at their values at dispatch; on a change of partition the clear of
R26 comes first. -/
def giveEntry (e : Nat) (c : EntryCtx) (s : State) : State :=
  let x := engOf s e
  let same := x.serv.lastPart = some c.part
  let y : Engine := { Engine.init with
    serv := x.serv, lm := x.lm, excLast := x.excLast, freeCnt := x.freeCnt, run := some c,
    phase := if same then .running else .clearing, s := tabSet 0#64 [] 1 (BitVec.ofNat 64 c.argPtr) }
  let s := setEng e y s
  if same then startEntry e s else s

/-- The context in which an engine runs an entry. -/
def entryCtx (s : State) (o : Order) (x : Entry) (le : Nat) : EntryCtx :=
  { kind := eKind x, part := ePart x, index := eIndex x, stepId := eStep x, req := eReq x, slot := none, prog := eProg x,
    progId := (match imageAt s (eProg x) with | some (_, i) => i.progId | none => 0), argPtr := eArg x, seed := 0,
    flat0 := eFlat0 x, cnt0 := eCnt0 x, flat1 := eFlat1 x, cnt1 := eCnt1 x, clBase := 0, clCount := 0, clOk := false,
    sigs := eSigs o x, beat := s.beat.num, startUs := s.time, deadlineUs := eDeadline x, predUs := ePredUs x,
    predUj := ePredUj x, le := le }

/-- An entry that waits in a queue: WINDOW entries are spans, not work. -/
def waits (s : State) (t : Nat) (q : Nat × Entry) : Bool := isQueued s q.1 && eKind q.2 ≠ 1 && eTarget q.2 = t

/-- The head of an engine's own queue (R55). -/
def ownHead (s : State) (le : Nat) : Option (Nat × Entry) := (runEntries s).find? (waits s le)

/-- The lowest-INDEX "any" entry that is ready (R58). -/
def anyReady (s : State) (o : Order) : Option (Nat × Entry) :=
  (runEntries s).find? fun q => waits s 0xFF q && eKind q.2 ≠ 4 && entryReady s o q.2

/-- Whether an engine has passed to the BIST controller for a slice that has not started yet (R707). -/
def handedOver (s : State) (k : Nat) : Bool := s.bist.queue.any fun i => statusAt s i = .running k

/-- Whether an engine can take an entry; a module that does not run dispatches none (R631). -/
def engineIdle (s : State) (k : Nat) : Bool :=
  let x := engOf s k
  runs s && x.phase = .idle && x.serv.role.isSome && !x.serv.inReset && !x.serv.selftest && !s.fault.clReset.contains (k / 9) &&
    !handedOver s k

/-- The entry that an engine takes now (R57, R58). -/
def nextEntry (s : State) (o : Order) (e le : Nat) : Option (Nat × Entry) :=
  match ownHead s le with
  | some q => if entryReady s o q.2 then some q else none
  | none =>
    if (List.range le).any fun l => match engSlot s l with
      | some k => k ≠ e && engineIdle s k && (ownHead s l).isNone
      | none => false
    then none else anyReady s o

/-- The requests of a step leave ADMITTED when its first entry is dispatched (R395), and its time is measured from there (R77). -/
def beginStep (part stepId : Nat) (s : State) : State :=
  match groupOf s part stepId with
  | none => s
  | some g =>
    let s := modGroup part stepId (fun g => { g with startUs := g.startUs.or (some s.time) }) s
    g.plan.reqs.foldl (fun t i =>
      modReq i (fun r => if r.state = .admitted then { r with state := .prefill } else r) t) s

/-- ENTRY_DISPATCH (R57, R58). A SELFTEST entry that names an engine is handed to the BIST controller, which starts its
slice on that engine (R707). -/
def execEntryDispatch (e : Nat) (s : State) : Res :=
  need (e < 36) <|
    match (engOf s e).serv.role, s.ro.running with
    | some le, some o =>
      if !engineIdle s e then .next s
      else match nextEntry s o e le with
        | none => .next s
        | some (i, x) =>
          let s := setEntry i (.running e) s
          if eKind x = 4 then .next { s with bist := { s.bist with queue := s.bist.queue ++ [i] } }
          else .next (settle (giveEntry e (entryCtx s o x le) (beginStep (ePart x) (eStep x) s)))
    | _, _ => .next s

/-- PARTITION_CLEAR_DONE (R26, R27, R168): a unit's registers and local memory are clear, and its work starts. -/
def execPartitionClearDone (unit : UnitRef) (s : State) : Res :=
  match unit.kind with
  | .engine =>
    let e := 9 * unit.cluster + unit.slot
    need (unit.cluster < 4 && unit.slot < 9) <|
      let x := engOf s e
      if x.phase ≠ .clearing then .next s
      else match x.run with
        | none => .next (setEng e { Engine.init with serv := x.serv, excLast := x.excLast, freeCnt := x.freeCnt } s)
        | some c =>
          let keep := if c.slot.isSome then tabRead 0#8 x.lm 0 256 else []
          .next (settle (startEntry e (setEng e { x with lm := tabWrite 0#8 [] 0 keep } s)))
  | .stagehand =>
    let k := 18 * unit.cluster + unit.slot
    need (unit.cluster < 4 && unit.slot < 18) <|
      let h := shOf s k
      if h.phase ≠ .clearing then .next s
      else .next (setSh k { h with x := [], f := [], v := [], csr := helperCsr [], resv := none, zshtmo := 0, lm := [], phase := .running } s)
  | _ => need false (.next s)

/-- Ends a Walk-on or an entry at CTRL.END: its signals are added (R59). -/
def retire (e : Nat) (c : EntryCtx) (s : State) : State :=
  let s := if c.kind = 0 && c.slot.isNone then
    { s with pair := { s.pair with slackRun := min s.pair.slackRun (c.deadlineUs - s.beat.phaseUs) } } else s
  let s := c.sigs.foldl (fun t q => if q.2 = 0 then t else cueSigHw q.1 q.2 (ctxOf c) (originOf 0 false) t) s
  let s := if c.slot.isNone then setEntry c.index .retired s else s
  let s := if c.slot.isNone then entryContribs (stepReqs s c.part c.stepId) s else s
  endRun e (bump (0x5000C + 0x400 * e) s)

/-- ENTRY_RETIRE (R139, R59): once no transfer and no helper job of the entry is left. A deferred exception that has not
been reported keeps the entry until it is. -/
def execEntryRetire (e : Nat) (s : State) : Res :=
  need (e < 36) <|
    let x := engOf s e
    match x.run with
    | none => .next s
    | some c =>
      if x.phase = .ending && x.xq.isEmpty && x.helpers = 0 && x.deferred.isEmpty then
        .next (resolveStep c.part c.stepId (retire e c s))
      else .next s

/-- The hang deadline of the work that an engine runs (R674, R675), as a phase in µs. -/
def hangDeadline (s : State) (c : EntryCtx) : Nat :=
  if c.slot.isSome then c.deadlineUs else c.deadlineUs + regF s 0xD0000 15 0

/-- A HANG record with CAUSE 1, counted in FAULT_HANG_CNT (R674, R676). -/
def logHang (ctx : DWord) (kind : Nat) (unit : Nat) (pc : Nat) (s : State) : State :=
  bump 0xD004C (logEvent { evBase s 2 1 0 with ctx := ctx, origin := originOf kind false, unit := unit, pc := pc } s)

/-- The latest hang deadline of the entries of a step (R676). -/
def stepDeadline (s : State) (part stepId : Nat) : Nat :=
  (runEntries s).foldl (fun m q => if ePart q.2 = part && eStep q.2 = stepId then max m (eDeadline q.2) else m) 0 +
    regF s 0xD0000 15 0

/-- The hang of a Sampler job: its step fails (R676). -/
def hangSampler (c : Nat) (j : QJob) (s : State) : State :=
  let q := tabGet Sampler.init s.serve.samplers c
  let s := { s with serve := { s.serve with samplers := tabSet Sampler.init s.serve.samplers c { q with
    queue := q.queue.map fun y => if y = j then { y with phase := .failed } else y } } }
  let s := stepBroken j.job.part j.job.stepId.toNat (0x2000 + 256 * c) none s
  resolveStep j.job.part j.job.stepId.toNat
    (logHang (packCtx j.job.stepId.toNat 0xFFFF 0xFFF 0xFF j.job.part) 2 (0x2000 + 256 * c) 0 s)

/-- HANG (R674 to R677): work still running at its hang deadline is abandoned, and its step fails. The cut of the edge comes
first when the deadline reaches the period. -/
def execHang (kind : HangKind) (unit : Nat) (s : State) : Res :=
  match kind with
  | .entry =>
    need (unit < 36) <|
      let x := engOf s unit
      match x.run with
      | none => .next s
      | some c =>
        if (x.phase = .running || x.phase = .ending || x.phase = .clearing) && hangDeadline s c < s.beat.period then
          let s := passPhase (hangDeadline s c) s
          .next (bump 0xD004C (abandonEntry unit { evBase s 2 1 0 with origin := originOf 0 false, pc := x.pc.toNat } s))
        else .next s
  | .helper =>
    need (unit < 72) <|
      match (shOf s unit).job with
      | none => .next s
      | some j =>
        if hangDeadline s j.ctx < s.beat.period then
          let s := passPhase (hangDeadline s j.ctx) s
          .next (raiseHelperFault unit 0 0 []
            (logHang (ctxOf j.ctx) 1 (unitCode (shRef unit)) ((shOf s unit).pc.toNat % 2 ^ 20) s))
        else .next s
  | .sampler =>
    need (unit < 4) <|
      match (tabGet Sampler.init s.serve.samplers unit).queue.find? fun q => q.phase = .running with
      | none => .next s
      | some j =>
        let d := stepDeadline s j.job.part j.job.stepId.toNat
        if d < s.beat.period then .next (hangSampler unit j (passPhase d s)) else .next s

/-- ENTRY_DRAIN_DONE (R157, R443): the transfers of an abandoned entry have drained. The engine can take its next entry
(R158), and its step fails. A cut engine is drained by CUT_COMPLETE. -/
def execEntryDrainDone (e : Nat) (s : State) : Res :=
  need (e < 36) <|
    let x := engOf s e
    match x.run with
    | none => .next s
    | some c =>
      if x.phase ≠ .draining || x.cut then .next s
      else
        let s := modGroup c.part c.stepId (fun g => { g with draining := g.draining - 1 }) (endRun e (drainXfers e s))
        .next (settle (resolveStep c.part c.stepId s))

/-- UNIT_STOP_TIMEOUT (R679): a unit that does not stop is reset with CAUSE 3. -/
def execUnitStopTimeout (unit : UnitRef) (s : State) : Res :=
  match unit.kind with
  | .engine => need (unit.cluster < 4 && unit.slot < 9) <|
      if (engOf s (9 * unit.cluster + unit.slot)).phase = .draining then .next (resolveSteps (unitReset unit (some 3) s)) else .next s
  | .stagehand => need (unit.cluster < 4 && unit.slot < 18) <|
      if (shOf s (18 * unit.cluster + unit.slot)).phase = .draining then .next (resolveSteps (unitReset unit (some 3) s)) else .next s
  | _ => need false (.next s)

/-- HARDWARE_EXCEPTION (R159): LM_ECC or ARRAY_CHECK abandons the entry, and the unit is reset. -/
def execHardwareException (e : Nat) (arrayCheck : Bool) (addr : Nat) (s : State) : Res :=
  need (e < 36) <|
    let x := engOf s e
    match x.run with
    | none => .next s
    | some _ =>
      let s := raiseExc e (if arrayCheck then 0x0C else 0x0B) x.pc.toNat addr 0 [] s
      .next (resolveSteps (unitReset (engRef e) none s))

end Sys2Proof.Machine
end

