-- ==== Sys2Proof/Machine/Walkon.lean ====
section
/-! DEFINITION. Walk-ons: requests on the Call Board and by doorbell (R461, R462, R560 to R563), windows (R67), dispatch
(R68 to R70, R463), Walk-on sets (R256 to R260), and the refill of a slot's reservation (R880). -/

namespace Sys2Proof.Machine

open Sys2Proof

/-- A write that the Call Board counts (R453, R461, R562). -/
def badWrite (s : State) : State := { s with board := { s.board with badWr := s.board.badWr + 1 } }

/-- R66: the slot program is too long for the period in force. -/
def suspended (s : State) (x : Slot) : Bool := s.beat.period < 4 * (x.predUs + 2)

/-- The frames that a slot's reservation holds (R328). -/
def slotFrames (s : State) (slot : Nat) : List Nat := tabGet [] s.mem.slotResv slot

/-- Whether an index names a live request of a partition in PREFILL or DECODE. -/
def requestRuns (s : State) (p req : Nat) : Bool :=
  match reqOf s req with
  | some r => r.part = p && (r.state = .prefill || r.state = .decode)
  | none => false

/-- The first check of R462 that a request fails, as the status with which the slot refuses. -/
def walkonCheck (s : State) (slot req : Nat) : Option Status :=
  let x := slotOf s slot
  match x.reg with
  | none => some 0x81
  | some p =>
    if req > 8191 then some 0x81
    else if modeNow s = .dark then some 0x0D
    else if !serving s then some 0x0E
    else if !partEnabled s p then some 0x83
    else if partShort s p then some 0x06
    else if partDeferred s p then some 0x07
    else if !requestRuns s p req then some 0x8B
    else if stepBusy s req then some 0x0E
    else if suspended s x then some 0x88
    else if (slotFrames s slot).length < x.pages then some 0x8D
    else none

/-! ### Windows (R67, R68) -/

/-- Whether a Walk-on of a slot takes a Walk-on set (R257). -/
def needsSet (s : State) (x : Slot) : Bool :=
  x.samplerTpl.isSome || (match tabGet none s.serve.images x.image with | some i => i.flMin > 0 | none => false)

/-- The free Walk-on set with the lowest number (R257). -/
def freeSet (s : State) : Option Nat :=
  (List.range 4).find? fun k => let w := tabGet WalkonSet.init s.flies.sets k; w.user.isNone && !w.clearing

/-- The predicted time of a slot program on an engine slot at its present step (R64, R827; DEDUCED, notes/assumptions/73.md). -/
def walkonUs (s : State) (x : Slot) (e : Nat) : Nat := clockTime (stepOf s e) x.predUs

/-- Whether a window is open, unoccupied and long enough for a slot program (R68, R690). -/
def windowFits (s : State) (x : Slot) (q : Nat × Entry) : Bool :=
  s.ro.opened.contains q.1 && (tabGet none s.ro.occupied q.1).isNone && !engineDown s (eTarget q.2) &&
    match engSlot s (eTarget q.2) with
    | some e => decide (s.beat.phaseUs + walkonUs s x e ≤ eDeadline q.2)
    | none => false

/-- The window of R68 for a slot, on the lowest logical engine; none while a set that it needs is not free (R258). -/
def pickWindow (s : State) (x : Slot) : Option (Nat × Entry) :=
  if needsSet s x && (freeSet s).isNone then none
  else ((List.range 32).findSome? fun l => (runEntries s).find? fun q => eTarget q.2 = l && windowFits s x q)

/-- A Walk-on that finds no window waits (R70): it is counted once, and once more when it waits for a set (R258). -/
def noteWait (slot : Nat) (s : State) : State :=
  let x := slotOf s slot
  if x.state ≠ .pending || (pickWindow s x).isSome then s
  else
    let set := needsSet s x && (freeSet s).isNone
    let s := if x.waited then s else bump 0x1004C s
    let s := if set && !x.waitedSet then bump 0x30010 s else s
    setSlot slot { x with waited := true, waitedSet := x.waitedSet || set } s

/-- A request taken by a slot (R462): REQ and ARG are those of the write, and the slot enters PENDING or REFUSED. An
Understudy forwards it to the Lead (R639). -/
def takeRequest (slot req : Nat) (arg : BitVec 16) (bell : Option (Nat × Nat)) (s : State) : State :=
  let s := setSlot slot { slotOf s slot with
    wordReq := req, wordArg := arg, req := req, arg := arg, bell := bell, waited := false, waitedSet := false, beat := 0 } s
  match walkonCheck s slot req with
  | some st => slotTo slot .refused st s
  | none =>
    let s := slotTo slot .pending 0 s
    if follows s then sendFields 6 0xFF [slot, req, arg.toNat, 0] s else noteWait slot s

/-- A write to slot word 0 (R460 to R462). A write with GO = 0 writes REQ and ARG only. -/
def slotWrite (slot : Nat) (w : Word) (bell : Option (Nat × Nat)) (s : State) : State :=
  let x := slotOf s slot
  if !bitAt w 31 then setSlot slot { x with wordReq := fld w 29 16, wordArg := BitVec.ofNat 16 (fld w 15 0) } s
  else if x.state = .pending || x.state = .running || x.state = .planned then badWrite s
  else takeRequest slot (fld w 29 16) (BitVec.ofNat 16 (fld w 15 0)) bell s

/-- WALKON_GO (R461, R462, R639): the Call Board takes the write while 12 V standby is present (R21). -/
def execWalkonGo (slot : Nat) (w : Word) (s : State) : Res :=
  need (slot < 128) <| .next (if s.pins.standby then slotWrite slot w none s else s)

/-- What a doorbell does: the ownership check, then as a write to the slot's word 0. A doorbell whose bits [63:44] are not 0 has no
effect. -/
def doorbellOp (fn : Nat) (db : DWord) (s : State) : State :=
  let slot := fld db 38 32
  let k := fld db 43 40
  let other := fn ≠ 0 && (match (slotOf s slot).reg with | some p => p + 1 ≠ fn | none => false)
  if fld db 63 44 ≠ 0 then s
  else if other then queueEvent fn k (.walkon slot 0x82 4) s
  else slotWrite slot (db.truncate 32) (some (fn, k)) s

/-- WALKON_DOORBELL (R560, R561). -/
def execWalkonDoorbell (fn : Nat) (db : DWord) (s : State) : Res :=
  need (fn ≤ 8) (.next (if linkUp s then doorbellOp fn db s else s))

/-- WALKON_DB_HALF_WRITE (R562). -/
def execWalkonDbHalfWrite (fn : Nat) (_high : Bool) (_val : Word) (s : State) : Res :=
  need (fn ≤ 8) (.next (if linkUp s then badWrite s else s))

/-- Whether nothing of an engine needs a clear: registers and local memory are all 0. -/
def engineClean (x : Engine) : Bool :=
  x.s.isEmpty && x.v.isEmpty && x.acc.isEmpty && x.p.isEmpty && x.lm.isEmpty

/-- Whether a window's engine is cleared before the window opens (R67): its previous partition is unknown, or differs from that of a
Walk-on that may come. -/
def windowClears (s : State) (x : Engine) : Bool :=
  match x.serv.lastPart with
  | none => true
  | some p => s.board.slots.any fun q => match q.2.reg with | some r => r ≠ p | none => false

/-- WINDOW_OPEN (R67): the window's engine, idle and in its span, is cleared in 2 µs when it has to be, and only then the window counts
as open. -/
def execWindowOpen (index : Nat) (s : State) : Res :=
  need (index < 4096) <|
    match (runEntries s).find? fun q => q.1 = index with
    | none => .next s
    | some q =>
      match engSlot s (eTarget q.2) with
      | none => .next s
      | some e =>
        if eKind q.2 = 1 && isQueued s index && s.beat.cutsDone && eEarliest q.2 ≤ s.beat.phaseUs &&
            s.beat.phaseUs < eDeadline q.2 && engineIdle s e && !s.ro.opened.contains index then
          let x := engOf s e
          let s := if windowClears s x then
              passUs 2 (setEng e { Engine.init with
                serv := { x.serv with lastPart := none }, excLast := x.excLast, freeCnt := x.freeCnt } s)
            else s
          .next { s with ro := { s.ro with opened := s.ro.opened ++ [index] } }
        else .next s

/-- The 256 bytes of a Walk-on's argument block (R117, R463): the template, with the Beat, the request, the step, the
seed and the slot filled in. -/
def walkonArgs (x : Slot) (slot stepId : Nat) (beat seed : DWord) : List Byte :=
  blockPrefix beat x.req stepId (slice x.argTpl 12 4) seed slot ++ leBytes 2 x.arg.toNat ++ slice x.argTpl 66 190

/-- The STEP_ID of a slot's Walk-ons: the manual does not state it, so it is a free value (notes/assumptions/24.md), but never 0xFFFF (R334). -/
def walkonStep (slot : Nat) : Nat := (Config.freeValue 8 slot).toNat % 65535

/-- The plan of a Walk-on's step: the slot's request, covering the tokens of its log beyond LEN. -/
def walkonPlan (s : State) (x : Slot) (slot p : Nat) : StepPlan :=
  { stepId := BitVec.ofNat 16 (walkonStep slot), part := p, reqs := [x.req],
    ntok := [match reqOf s x.req with | some r => r.logLen - r.len | none => 0],
    fresh := [], copies := (slotFrames s slot).length, train := false, retry := false, slot := some slot }

/-- The Sampler job of a Walk-on (R260, R426): its template on the set's flats, in the queue of the engine's cluster. -/
def addWalkonJob (x : Slot) (cluster stepId base : Nat) (beat : DWord) (s : State) : State :=
  match x.samplerTpl with
  | none => s
  | some j =>
    let q := tabGet Sampler.init s.serve.samplers cluster
    let job : SamplerJob := { j with
      cluster := cluster, stepId := BitVec.ofNat 16 stepId, flat0 := base, flat1 := base + 1, flat2 := base + 2,
      walkon := true, beatKey := beat }
    { s with serve := { s.serve with
        samplers := tabSet Sampler.init s.serve.samplers cluster { q with queue := q.queue ++ [⟨job, .waiting, 0⟩] } } }

/-- A Walk-on starts in a window: the set, the argument block, the step's journal from the slot's reservation, its
Sampler job, and the slot RUNNING (R69, R463, R464). -/
def startWalkon (slot e p : Nat) (q : Nat × Entry) (beat : DWord) (s : State) : State :=
  let x := slotOf s slot
  let step := walkonStep slot
  let set := if needsSet s x then freeSet s else none
  let img := tabGet none s.serve.images x.image
  let fl := match img with | some i => i.flMin > 0 | none => false
  let base := match set with | some k => setBase s k | none => 0
  let seed := match reqOf s x.req with | some r => r.seed | none => 0
  let c : EntryCtx :=
    { kind := 1, part := p, index := q.1, stepId := step, req := x.req, slot := some slot, prog := imageAddr x.image,
      progId := (match img with | some i => i.progId | none => 0), argPtr := eArg q.2, seed := seed,
      flat0 := base, cnt0 := if fl && set.isSome then 3 else 0, flat1 := 0, cnt1 := 0, clBase := 0, clCount := 0,
      clOk := false, sigs := [], beat := beat, startUs := s.time, deadlineUs := s.beat.phaseUs + 2 * walkonUs s x e,
      predUs := walkonUs s x e, predUj := ePredUj q.2, le := eTarget q.2 }
  let s := { s with
    flies := { s.flies with sets := match set with
      | some k => tabSet WalkonSet.init s.flies.sets k ⟨some slot, false⟩
      | none => s.flies.sets }
    ro := { s.ro with occupied := tabSet none s.ro.occupied q.1 (some slot) }
    board := { s.board with dispatched := s.board.dispatched + 1 }
    serve := { s.serve with groups := s.serve.groups ++
      [{ Group.init (walkonPlan s x slot p) s.beat.num s.ro.led with startUs := some s.time }] }
    mem := { s.mem with
      journals := s.mem.journals ++ [⟨p, step, [], slotFrames s slot⟩]
      slotResv := tabSet [] s.mem.slotResv slot [] } }
  let s := setSlot slot { x with beat := beat, stepId := step } s
  let s := bump 0x10048 (slotTo slot .running 0 s)
  let s := addWalkonJob x (e / 9) step base beat s
  let y := engOf s e
  let y := { y with
    serv := { y.serv with lastPart := if engineClean y then some p else y.serv.lastPart }
    lm := tabWrite 0#8 y.lm 0 (walkonArgs x slot step beat seed) }
  settle (giveEntry e c (setEng e y s))

/-- The dispatch of a PENDING slot's Walk-on into the window of R68, when there is one whose engine is free; and not before the request's
last step has committed or been rolled back (R333). -/
def dispatchWalkon (slot : Nat) (beat : DWord) (s : State) : State :=
  let x := slotOf s slot
  match x.reg, pickWindow s x with
  | some p, some q =>
    match engSlot s (eTarget q.2) with
    | some e =>
      if engineIdle s e && !(s.serve.groups.any fun g => g.plan.reqs.contains x.req) then startWalkon slot e p q beat s else s
    | none => s
  | _, _ => noteWait slot s

/-- WALKON_DISPATCH (R68 to R70). A module that follows the Lead runs only what the Lead forwards (R639). -/
def execWalkonDispatch (slot : Nat) (s : State) : Res :=
  need (slot < 128) <|
    let x := slotOf s slot
    if x.state ≠ .pending then .next s
    else if follows s then (if x.beat = 0 then .next s else .next (dispatchWalkon slot x.beat s))
    else
      let started := (slotOf (dispatchWalkon slot s.beat.num s) slot).state = .running
      let s := dispatchWalkon slot s.beat.num s
      let x := slotOf s slot
      .next (if started && leads s then sendFields 6 0xFF [slot, x.req, x.arg.toNat, s.beat.num.toNat] s else s)

/-- WALKON_SET_FREE (R259): a set whose Walk-on has ended is cleared, and is free. -/
def execWalkonSetFree (set : Nat) (s : State) : Res :=
  need (set < 4) <|
    let w := tabGet WalkonSet.init s.flies.sets set
    if !w.clearing then .next s
    else
      let base := setBase s set
      .next { s with flies := { s.flies with
        mem := tabClear s.flies.mem (65536 * base) 196608
        sets := tabSet WalkonSet.init s.flies.sets set WalkonSet.init } }

/-- WALKON_RESERVATION_REFILL (R880): a registered slot that no Walk-on uses takes free frames up to its size. -/
def execWalkonReservationRefill (slot : Nat) (s : State) : Res :=
  need (slot < 128) <|
    let x := slotOf s slot
    match x.reg with
    | none => .next s
    | some p =>
      if x.state = .running || (journalOf s p (walkonStep slot)).isSome then .next s
      else
        let held := slotFrames s slot
        let fs := freeFrames s (x.pages - held.length)
        let s := fs.foldl (fun t f => takeFrame f p 0 true t) s
        .next { s with mem := { s.mem with slotResv := tabSet [] s.mem.slotResv slot (held ++ fs) } }

end Sys2Proof.Machine
end

