-- ==== Sys2Proof/Machine/Pair.lean ====
section
/-! DEFINITION. The commands and events of a pair (R631 to R663), and House frames (R587, R588). -/

namespace Sys2Proof.Machine

open Sys2Proof

/-! ### What a module sends -/

/-- CLK: the throttle step of each logical engine (R642). -/
def clkMap (s : State) : BitVec 128 :=
  BitVec.ofNat 128 (sumNat ((List.range 32).map fun l => match engSlot s l with
    | some e => tabGet 0 s.therm.steps e % 16 * 2 ^ (4 * l)
    | none => 0))

/-- The heartbeat body (R642). -/
def ownHeartbeat (s : State) : HbBody :=
  { state := pairCode s.pair.mode, mode := modeCode (modeNow s), tookOver := s.pair.tookOver,
    orderLate := regF s 0xC0010 23 23 = 1, selfcheckFail := s.pair.selfOwn = .failed,
    phaseUs := BitVec.ofNat 32 s.beat.phaseUs, leMap := leMap s, lsMap := lsMap s, clk := clkMap s,
    reserveMj := s.energy.reserve / 1000, coefGen := s.energy.gen, configDigest := tabGet 0 s.sec.meas 9 }

/-- The 96 bytes of a heartbeat body (R642). -/
def heartbeatBytes (b : HbBody) : List Byte :=
  [BitVec.ofNat 8 b.state, BitVec.ofNat 8 b.mode,
    BitVec.ofNat 8 (b2n b.tookOver + 2 * b2n b.orderLate + 4 * b2n b.selfcheckFail), 0] ++
  leBytes 4 b.phaseUs.toNat ++ leBytes 4 b.leMap.toNat ++ leBytes 8 b.lsMap.toNat ++ leBytes 16 b.clk.toNat ++
  leBytes 4 (BitVec.ofInt 32 b.reserveMj).toNat ++ leBytes 4 b.coefGen.toNat ++ leBytes 48 b.configDigest.toNat ++ leBytes 4 0

/-- HEARTBEAT_SEND (R642): on the pairing link, and as a House frame on both management ports. -/
def execHeartbeatSend (s : State) : Res :=
  let b := heartbeatBytes (ownHeartbeat s)
  .next (if s.beat.started then sendHouse 0 b (sendPair 1 0xFF b s) else s)

/-- The digest body for the Beat that ended last (R648). -/
def digestBody (s : State) (d : BeatDigests) : DigestBody :=
  { beat := d.beat, output := d.output, state := d.state, config := tabGet 0 s.sec.meas 9,
    count := BitVec.ofNat 32 s.pair.endCount, slackUs := BitVec.ofNat 32 s.pair.slackEnd, late := BitVec.ofNat 32 s.pair.lateEnd }

/-- The bytes of a DIGEST body (R648). -/
def digestBytes (b : DigestBody) : List Byte :=
  leBytes 8 b.beat.toNat ++ leBytes 48 b.output.toNat ++ leBytes 48 b.state.toNat ++ leBytes 48 b.config.toNat ++
    leBytes 4 b.count.toNat ++ leBytes 4 b.slackUs.toNat ++ leBytes 4 b.late.toNat ++ leBytes 4 0

/-- DIGEST_SEND (R648): PAIR_SLACK and PAIR_LATE_CNT show what it reports. -/
def execDigestSend (s : State) : Res :=
  match s.pair.own with
  | [] => .next s
  | d :: _ =>
    let s := bumpBy 0xC0064 s.pair.lateEnd { s with pair := { s.pair with slackOwn := min 0xFFFF s.pair.slackEnd } }
    let b := digestBytes (digestBody s d)
    .next (sendHouse 2 b (sendPair 7 0xFF b s))

/-! ### Messages on the pairing link -/

/-- The last LSEQ accepted from a sender (R635). -/
def lseqFrom (s : State) (sender : Byte) : DWord := tabGet 0 s.pair.lseqRx sender.toNat

/-- Whether a message is accepted (R635). -/
def pairOk (s : State) (h : PairHdr) : Bool := h.ok && (lseqFrom s h.sender).toNat < h.lseq.toNat

/-- A message has been accepted. -/
def pairTake (h : PairHdr) (s : State) : State :=
  { s with pair := { s.pair with lseqRx := tabSet 0 s.pair.lseqRx h.sender.toNat h.lseq, partnerBeat := h.beat } }

/-- Acts on a message that is accepted. -/
def onLink (h : PairHdr) (s : State) (k : State → State) : Res := .next (if pairOk s h then k (pairTake h s) else s)

/-! ### Joining, swapping and leaving (R633, R651, R659, R663) -/

/-- What a PAIR_JOIN does. -/
def pairJoinOp (m : Mgmt) (s : State) : State :=
  if s.pair.mode ≠ .solo && s.pair.mode ≠ .stoodDown then mgmtSt m 0x90 s
  else match joinCheck s with
    | some st => mgmtSt m st { s with pair := { s.pair with status := st } }
    | none =>
      sendConfig true (mgmtSt m 0 { s with pair := { s.pair with
        mode := .resync, resync := .pairing false (pairingNum s), drCount := 0, tookOver := false } })

/-- PAIR_JOIN (R632, R633, R653, R663). -/
def execPairJoin (m : Mgmt) (s : State) : Res := houseCmd m s (pairJoinOp m s)

/-- PAIR_SWAP (R659, R663). -/
def execPairSwap (m : Mgmt) (beat : DWord) (s : State) : Res :=
  houseCmd m s (if s.pair.mode ≠ .lead then mgmtSt m 0x90 s
    else if beat.toNat ≤ (effectBeat s).toNat then mgmtSt m 0x8F s
    else sendFields 0xB 0xFF [beat.toNat] (mgmtSt m 0 { s with pair := { s.pair with swapBeat := some beat } }))

/-- SWAP (R659). -/
def execSwap (h : PairHdr) (beat : DWord) (s : State) : Res :=
  onLink h s fun s => if s.pair.mode = .understudy then { s with pair := { s.pair with swapBeat := some beat } } else s

/-- PAIR_LEAVE (R652, R663). -/
def execPairLeave (m : Mgmt) (s : State) : Res :=
  houseCmd m s (if s.pair.mode = .lead || follows s then mgmtSt m 0 (standDown 6 0 s.beat.num s) else mgmtSt m 0x90 s)

/-- PAIR_ROLL (R662, R663). -/
def execPairRoll (m : Mgmt) (roll : Bool) (s : State) : Res := operatorCmd m s (mgmtSt m 0 (setRegF 0xC0000 1 1 (b2n roll) s))

/-! ### Heartbeats and failover (R642 to R645) -/

/-- Commits every completed step that awaits a verdict (R644). -/
def commitAwaiting (s : State) : State :=
  (s.serve.groups.filter fun g => g.awaiting).foldl (fun t g => commitGroup g t.beat.num t) s

/-- An Understudy becomes SOLO with TOOK_OVER set (R644, R649). -/
def takeOver (s : State) : State :=
  commitAwaiting { s with pair := { s.pair with mode := .solo, tookOver := true, verdicts := [], inputs := [], swapBeat := none } }

/-- The partner is declared failed (R644). -/
def partnerFailed (s : State) : State :=
  let s := bump 0xC0050 { s with pair := { s.pair with
    split := s.pair.mode = .lead || s.pair.mode = .understudy, serving := false, swapBeat := none } }
  match s.pair.mode with
  | .understudy => takeOver s
  | .lead => commitAwaiting { s with pair := { s.pair with mode := .solo } }
  | _ => s

/-- PATH_SILENT (R643, R644): nothing more happens on a path that is silent already. -/
def execPathSilent (link : Bool) (s : State) : Res :=
  let was := if link then s.pair.linkSilent else s.pair.mgmtSilent
  if was then .next s
  else
    let s := bump (if link then 0xC0040 else 0xC0044) { s with pair := { s.pair with
      linkSilent := s.pair.linkSilent || link, mgmtSilent := s.pair.mgmtSilent || !link, alarm := true } }
    .next (settle (if s.pair.linkSilent && s.pair.mgmtSilent then partnerFailed s else s))

/-- Whether this module stands down when heartbeats return between two modules that are both SOLO or LEAD (R645). -/
def splitLoses (s : State) (h : PairHdr) (b : HbBody) : Bool :=
  if s.pair.tookOver || b.tookOver then s.pair.tookOver else s.pins.slotId.toNat > h.sender.toNat

/-- A SOLO module whose partner joins becomes its principal (R631, R653). -/
def serveJoin (s : State) : State :=
  sendConfig true { s with pair := { s.pair with
    serving := true, dirty := [], resync := .pairing s.beat.halfPassed (pairingNum s) } }

/-- What the partner's reported state does to this module's (R631, R632, R653). -/
def partnerState (b : HbBody) (s : State) : State :=
  match s.pair.mode with
  | .lead => if b.state = 5 then commitAwaiting { s with pair := { s.pair with mode := .solo, swapBeat := none } } else s
  | .solo =>
    if b.state = 3 && !s.pair.serving then serveJoin s
    else if b.state = 3 && s.pair.resync = .off then { s with pair := { s.pair with resync := .rounds 0, dirty := [] } }
    else if b.state = 2 && s.pair.serving then
      { s with pair := { s.pair with mode := .lead, serving := false, resync := .off, partnerSerial := s.pair.partnerNow } }
    else if (b.state = 0 || b.state = 5) && s.pair.serving then
      { s with pair := { s.pair with serving := false, resync := .off } }
    else s
  | _ => s

/-- What a heartbeat does (R643, R645, R650). -/
def heartbeatOp (link : Bool) (h : PairHdr) (b : HbBody) (s : State) : State :=
  let p := s.pair
  let linkSilent := p.linkSilent && !link
  let mgmtSilent := p.mgmtSilent && link
  let back := p.split && p.mode = .solo && (b.state = 0 || b.state = 1)
  let s := { s with pair := { p with
    partner := some b, linkSilent := linkSilent, mgmtSilent := mgmtSilent, alarm := linkSilent || mgmtSilent,
    split := p.split && !back,
    selfPartner := if p.selfOwn = .passed || p.selfOwn = .failed then some (!b.selfcheckFail) else p.selfPartner } }
  if back && splitLoses s h b then standDown 7 0 s.beat.num s else partnerState b s

/-- HEARTBEAT (R635, R643, R645). The management path's own check is that of its House frame. -/
def execHeartbeat (link : Bool) (h : PairHdr) (b : HbBody) (s : State) : Res :=
  if link then onLink h s (heartbeatOp true h b)
  else .next (if h.ok then heartbeatOp false h b { s with pair := { s.pair with partnerBeat := h.beat } } else s)

/-! ### Orders, inputs and verdicts (R637 to R641) -/

/-- Whether the module publishes its partner's next order: a follower, and the Lead that gives the lead up (R637, R659). -/
def takesOrder (s : State) : Bool := (follows s || s.pair.mode = .lead) && !freezesOwn s

/-- ORDER (R637): the operand is the Lead's order with this module's own flats. -/
def execOrder (h : PairHdr) (o : Order) (s : State) : Res :=
  onLink h s fun s =>
    if !takesOrder s then s
    else if !s.beat.halfPassed then { s with pair := { s.pair with order := some o } }
    else if s.ro.frozen.isSome then s
    else settle (takeOrder o s)

/-- ORDER_DEADLINE (R637, R651, R652): the shadow order, which the module has planned itself, or RESYNC when no order has come for two Beats in succession. -/
def execOrderDeadline (shadow : Order) (s : State) : Res :=
  if !takesOrder s || !s.beat.halfPassed || s.ro.frozen.isSome then .next s
  else
    let n := s.pair.ordersLate + 1
    let s := setRegF 0xC0010 23 23 1 { s with pair := { s.pair with ordersLate := n } }
    .next (if n ≥ 2 then autoResync (s.pair.mode = .rehearsal) (standDown 4 0 s.beat.num { s with pair := { s.pair with ordersLate := 0 } })
      else settle (freezeOrder ((some shadow).filter (orderPlanned s)) s))

/-- INPUT (R638). -/
def execInput (h : PairHdr) (job : DWord) (kind stream : Byte) (seq beat : DWord) (s : State) : Res :=
  onLink h s fun s =>
    if !follows s then s
    else
      let s := { s with pair := { s.pair with
        inputs := s.pair.inputs ++ [⟨job, kind.toNat, stream.toNat, seq, beat, s.beat.num, false⟩] } }
      applyInputs s.pair.inputs.length s

/-- FETCH (R638): the Lead answers for the message that is asked for; the manual gives the answer no type and no contents
(notes/assumptions/106.md). -/
def execFetch (h : PairHdr) (job : DWord) (kind : Byte) (seq : DWord) (s : State) : Res :=
  onLink h s fun s => if leads s then sendFields 3 0xFF [job.toNat, kind.toNat, 0xFF, seq.toNat, (effectBeat s).toNat] s else s

/-- The group under way that a verdict names. -/
def verdictGroup (s : State) (stepId req : BitVec 16) : Option Group :=
  s.serve.groups.find? fun g => needsVerdict s g && g.plan.stepId = stepId && g.status = .active &&
    (req = 0xFFFF || g.plan.reqs.contains req.toNat)

/-- VERDICT (R640, R641): a completed step commits or is discarded; a verdict for a step still under way is kept; a commit of a step
that is no longer under way on a module that follows is a lag. -/
def execVerdict (h : PairHdr) (stepId req : BitVec 16) (commit : Bool) (beat : DWord) (s : State) : Res :=
  onLink h s fun s =>
    match verdictGroup s stepId req with
    | some g =>
      if g.awaiting then settle (if commit then commitLate g beat s else cutStep g s)
      else { s with pair := { s.pair with verdicts := s.pair.verdicts ++ [(stepId.toNat, commit, beat)] } }
    | none => if commit && follows s then pairLag s else s

/-- The frame that a follower holds of those that the Lead has bound. -/
def heldFrame (x : Stream) (no : Nat) : Option ReadyFrame := (x.ready ++ x.good.toList ++ x.bound.toList).find? fun f => f.frameNo = no

/-- Binds a group as the Lead did (R517): the ready Cue Light is to be set only when every bound frame is held. -/
def followGroup (n : Nat) (frames : List (Nat × Nat)) (g : Nat) (s : State) : State :=
  let ms := groupMembers s g
  if ms.isEmpty then s
  else
    let step (t : State × List (Nat × Bool) × Bool) (e : Nat × Stream) : State × List (Nat × Bool) × Bool :=
      let x := streamOf t.1 e.1
      match frames.find? fun q => q.1 = e.1 with
      | none => (bindMember true e.1 t.1, t.2.1 ++ [(e.1, false)], t.2.2)
      | some q =>
        let late := (match x.bound with | some b => decide (b.frameNo = q.2) | none => false)
        match heldFrame x q.2 with
        | some f => (bindMember late e.1 (setStream e.1 { x with good := some f } t.1), t.2.1 ++ [(e.1, late)], t.2.2)
        | none => (bindMember late e.1 t.1, t.2.1 ++ [(e.1, late)], false)
    let r := ms.foldl step (s, [], true)
    let s := writeRecord g n r.2.1 r.1
    if r.2.2 then s else setGroupRec g { groupRec s g with unready := none } s

/-- BIND (R517, R520). -/
def execBind (h : PairHdr) (beat : DWord) (frames : List (Nat × Nat)) (s : State) : Res :=
  onLink h s fun s =>
    if !follows s then s
    else
      let s := (List.range 48).foldl (fun t g => applyGroupSet g t) s
      settle ((List.range 48).foldl (fun t g => followGroup beat.toNat frames g t) s)

/-- PAIR_WALKON (R639): a follower runs what the Lead dispatched, with the Lead's Beat; the Lead takes a request that its Understudy
forwards. -/
def execPairWalkon (h : PairHdr) (slot : Nat) (req : BitVec 14) (arg : BitVec 16) (beat : DWord) (s : State) : Res :=
  need (slot < 128) <| onLink h s fun s =>
    let x := slotOf s slot
    let free := x.state ≠ .pending && x.state ≠ .running && x.state ≠ .planned
    if follows s then
      if x.reg.isNone || x.state = .running || x.state = .planned then s
      else dispatchWalkon slot beat (setSlot slot { x with req := req.toNat, arg := arg, state := .pending, beat := beat } s)
    else if leads s && free then takeRequest slot req.toNat arg none s
    else s

/-! ### Digests and configuration (R649, R657, R658, R662) -/

/-- A divergence (R649): the self-check is planned, and every module but the Lead closes its gates. -/
def diverge (beat : DWord) (s : State) : State :=
  let s := bump 0xC0048 { s with pair := { s.pair with
    diverge := beat, selfOwn := .planned, selfPartner := none, selfBeat := effectBeat s,
    selfParts := [] } }
  if s.pair.mode = .lead then s else { s with curtain := { s.curtain with mgmt := true } }

/-- Compares a partner's digests with this module's of the same Beat. -/
def compareDigests (b d : BeatDigests) (s : State) : State :=
  let same := b.output = d.output && b.state = d.state
  match s.pair.mode with
  | .rehearsal =>
    if same then { s with pair := { s.pair with drCount := s.pair.drCount + 1 } }
    else standDown 2 9 b.beat (bump 0xC0048 s)
  | .lead => if same || s.pair.selfOwn ≠ .none then s else diverge b.beat s
  | .understudy => if same || s.pair.selfOwn ≠ .none then s else diverge b.beat s
  | _ => s

/-- What a DIGEST does; the two paths bring each one twice, and it acts once. -/
def digestOp (b : DigestBody) (s : State) : State :=
  if s.pair.partnerDigests.any fun d => d.beat = b.beat then s
  else
    let x : BeatDigests := ⟨b.beat, b.output, b.state⟩
    let s := { s with pair := { s.pair with
      partnerDigests := x :: s.pair.partnerDigests.take 7, slackPartner := min 0xFFFF b.slackUs.toNat, late := b.late.toNat } }
    match s.pair.own.find? fun d => d.beat = b.beat with
    | some d => compareDigests x d s
    | none => s

/-- DIGEST (R649, R657, R658). -/
def execDigest (h : PairHdr) (b : DigestBody) (s : State) : Res := onLink h s (digestOp b)

/-- Compares the configuration records, at a Beat edge (R662). -/
def checkConfig (s : State) : State :=
  match s.pair.partnerCfg with
  | none => s
  | some c =>
    let own := ownConfig s
    let s := { s with pair := { s.pair with mapDiff := mapDiffers c own } }
    if follows s && !configAgrees (rollSet s) c own then standDown 5 0 s.beat.num s else s

/-- CONFIG (R633, R642, R662): the record, the coefficients when the message carries them, and what the partner tells of itself for R633,
to which the manual gives no message (DESIGN CHOICE, notes/assumptions/61.md). -/
def execConfig (h : PairHdr) (r : ConfigMsg) (s : State) : Res :=
  onLink h s fun s => { s with pair := { s.pair with
    partnerCfg := some r.record, partnerCoef := r.coefs.getD s.pair.partnerCoef, partnerFacts := r.facts.or s.pair.partnerFacts } }

/-! ### Resynchronisation (R653 to R656) -/

/-- Whether the joining module must rehearse (R656). -/
def rehearsalNeeded (s : State) : Bool :=
  s.pair.partnerNow ≠ s.pair.partnerSerial ||
    (rollSet s && (match s.pair.partnerCfg with | some c => c.parts ≠ (ownConfig s).parts | none => false)) ||
    s.pair.darkSince || s.pair.mapChanged

/-- The joining module runs the partner's orders from now on: UNDERSTUDY, or, where the conditions of R633 still hold, REHEARSAL with its
gates discarding. -/
def joinRuns (s : State) : State :=
  if rehearsalNeeded s then
    if (joinCheck s).isSome then s
    else { s with
      pair := { s.pair with mode := .rehearsal, resync := .off, drCount := 0 }, curtain := { s.curtain with rehearsal := true } }
  else
    { s with pair := { s.pair with
        mode := .understudy, resync := .off, partnerSerial := s.pair.partnerNow, darkSince := false, mapChanged := false } }

/-- STATE (R653). -/
def execState (h : PairHdr) (x : StateChunk) (s : State) : Res :=
  onLink h s fun s =>
    if s.pair.mode ≠ .resync then s
    else match x with
      | .page va frame bytes => statePage h.part.toNat va frame bytes s
      | .request i e => setReq i (some (requestFrom e)) s
      | .node i bs pages => stateNode h.part.toNat i bs pages s
      | .table es => es.foldl (fun t e => stateWord e.1 e.2 t) s
      | .cutover beat => { s with pair := { s.pair with resync := .cutover beat } }
      | .finalDelta => joinRuns s

/-- RESYNC_ROUND (R653, R655): the partner sends the dirtied pages, or names the cutover Beat once they are few enough. The rates of R654
are timing. -/
def execResyncRound (s : State) : Res :=
  match s.pair.resync with
  | .rounds n =>
    if s.pair.serving then
      let k := s.pair.dirty.length
      if k ≤ regF s 0xC0008 7 0 then
        let c := effectBeat s
        .next (sendFields 9 0xFF [c.toNat] { s with pair := { s.pair with resync := .cutover c, pagesLeft := 0 } })
      else .next (sendPages s.pair.dirty.contains { s with pair := { s.pair with resync := .rounds (n + 1), pagesLeft := k, dirty := [] } })
    else .next (if s.pair.mode = .resync then { s with pair := { s.pair with resync := .rounds (n + 1), pagesLeft := 0 } } else s)
  | _ => .next s

/-! ### House frames (R585, R587, R588) -/

/-- The HSEQ values accepted from a serial. -/
def houseWin (s : State) (serial : Word) : Option SeqWin := (s.net.houseRx.find? fun e => e.1 = serial).map Prod.snd

/-- Whether a frame is discarded. Until a House key is installed only SPDM passes. -/
def houseBad (s : State) (f : HouseFrame) : Bool :=
  if s.sec.house then !f.icvOk || !seqFresh (houseWin s f.serial) f.hseq else f.cls ≠ 6

/-- What an accepted frame does, by its class. DESIGN CHOICE: a wall-clock time from management comes in a House frame
(notes/assumptions/107.md). Management commands and SPDM messages have commands of their own. -/
def houseOp (f : HouseFrame) (s : State) : State :=
  let h : PairHdr := { sender := 0xFF, part := 0xFF, lseq := 0, beat := f.beat, ok := true }
  match f.body with
  | .heartbeat b => heartbeatOp false h b { s with pair := { s.pair with partnerNow := f.serial, partnerBeat := f.beat } }
  | .digest b => digestOp b s
  | .config r => { s with pair := { s.pair with partnerCfg := some r } }
  | .wallTime ns => { s with beat := { s.beat with wall := some (ns, s.time) } }
  | _ => s

/-- HOUSE_FRAME (R585, R587, R588). -/
def execHouseFrame (port : Nat) (f : HouseFrame) (s : State) : Res :=
  need (port < 2) (.next (
    if !s.pins.standby then s
    else if houseBad s f then bump 0xB0054 s
    else
      let s := if s.sec.house then
        { s with net := { s.net with houseRx := (s.net.houseRx.filter fun e => e.1 ≠ f.serial) ++
            [(f.serial, seqTake (houseWin s f.serial) f.hseq)] } }
        else s
      if f.version ≠ 1 || f.cls.toNat > 7 then s else houseOp f s))

end Sys2Proof.Machine
end

