-- ==== Sys2Proof/Machine/BeatOps.lean ====
section
/-! DEFINITION. What happens at a Beat edge: the cuts (R73 to R76), the switch to the next Running Order (R42, R55, R426), and what
changes only at Beat edges; and what follows once the cuts have completed (R151, R240, R243, R252, R263). -/

namespace Sys2Proof.Machine

open Sys2Proof

/-! ### Once the cuts have completed -/

/-- Every cut engine has stopped: its entry has ended. -/
def endCuts (s : State) : State := (List.range 36).foldl (fun t e => if (engOf t e).cut then endRun e t else t) s

/-- R151: every Cue Light that an entry of the new Running Order names is SET to 0, where validation did not void the entry. -/
def clearCues (s : State) : State :=
  match s.ro.running with
  | none => s
  | some o => ((runEntries s).filter fun q => !s.ro.runningVoid.contains q.1).foldl (fun t q =>
      (eWaits o q.2 ++ eSigs o q.2).foldl (fun u w => cueSet w.1 0 u) t) s

/-- The holder of a flat in the running Beat (R242, R247): its area's, or what the Running Order's flat map gives. -/
def newHolder (s : State) (f : Nat) : FlatUse :=
  if (flatOf s f).retired then ⟨0xE, false⟩
  else match areaOf s f with
    | some a => ⟨areaCodes.getD a 8, false⟩
    | none => match s.ro.running with
      | some o => let x := o.flats.getD f ⟨0xD, false⟩; if x.holder < 8 then x else ⟨0xD, false⟩
      | none => ⟨0xD, false⟩

/-- R252: the switch to the new flat map; a flat whose holder changes is being cleared. -/
def switchFlats (s : State) : State :=
  (List.range 128).foldl (fun t f =>
    let x := flatOf t f
    let n := newHolder t f
    setFlat f { x with holder := n.holder, lent := n.lent, clearing := x.clearing || n.holder ≠ x.holder } t) s

/-- Voids the entries of the new Beat that name any of the flats, and its Sampler jobs, with a VOID record each (R240, R243). -/
def voidFlats (fs : List Nat) (s : State) : State :=
  let s := voidWhere (fun _ e => (eFlats e).any fs.contains) s
  let named (j : QJob) : Bool := (j.phase = .waiting || j.phase = .granted) && [j.job.flat0, j.job.flat1, j.job.flat2].any fs.contains
  let js := s.serve.samplers.flatMap fun q => q.2.queue.filter named
  js.foldl (fun t j =>
    stepBroken j.job.part j.job.stepId.toNat 0xFFFF none (logVoid j.job.part j.job.stepId.toNat 0xFFFF 0xFFF 0xFF 0xFFFF t)) s

/-- R240: the flats with an uncorrectable error or a failed test are retired, and the inventory record keeps it (R745). -/
def retireFlats (s : State) : State :=
  let fs := (List.range 128).filter fun f => (flatOf s f).pending && !(flatOf s f).retired
  if fs.isEmpty then s
  else
    let s := fs.foldl (fun t f => setFlat f { flatOf t f with
      holder := 0xE, lent := false, pending := false, retired := true, clearing := false, test := false } t) s
    let s := persist (fun x => { x with flatsRetired := x.flatsRetired ++ fs.filter fun f => !x.flatsRetired.contains f }) s
    voidFlats fs { s with upd := { s.upd with trialBlocked := true } }

/-- The run of pool flats that a firmware area moves to (R243): unheld flats before lent ones, and those before any others. -/
def areaRun (s : State) (n : Nat) : Option Nat :=
  let fits (p : Flat → Bool) (b : Nat) : Bool := (List.range n).all fun i =>
    let x := flatOf s (b + i)
    (areaOf s (b + i)).isNone && !x.retired && p x
  let starts := List.range (129 - n)
  ((starts.find? (fits fun x => x.holder = 0xD)).or (starts.find? (fits fun x => x.holder = 0xD || x.lent))).or
    (starts.find? (fits fun _ => true))

/-- Moves the contents of a run of flats to another run; the reads meet what the SEC-DED finds (R239, R240). -/
def moveFlats (src dst n : Nat) (s : State) : State :=
  let s := eccWords (noCtx 0) (originOf 5 true) none (badWords s (65536 * src) (65536 * n)) s
  let moved := (List.range n).flatMap fun i => movedBlock s.flies.mem 65536 (src + i) (dst + i)
  { s with flies := { s.flies with
      mem := moved.foldl (fun t e => tabSet 0#8 t e.1 e.2) (tabClear s.flies.mem (65536 * dst) (65536 * n))
      latent := freshWords s.flies.latent fun w => 8192 * dst ≤ w && w < 8192 * (dst + n) } }

/-- R243: a firmware area that holds a retired flat is moved with its contents; its other flats join the pool. -/
def moveArea (s : State) (a : Nat) : State :=
  let base := areaBase s a
  let n := areaSizes.getD a 0
  let flats := (List.range n).map (base + ·)
  if flats.all fun f => !(flatOf s f).retired then s
  else match areaRun s n with
    | none => s
    | some b =>
      let taken := (List.range n).map (b + ·)
      let s := moveFlats base b n s
      let s := { s with flies := { s.flies with areas := ((List.range 6).map (areaBase s)).set a b } }
      let s := taken.foldl (fun t f => setFlat f { flatOf t f with
        holder := areaCodes.getD a 8, lent := false, clearing := false } t) s
      let s := (flats.filter fun f => !(flatOf s f).retired).foldl (fun t f => setFlat f { flatOf t f with
        holder := 0xD, lent := false, clearing := true } t) s
      voidFlats taken s

/-- R263 at an edge: what the new Beat holds for a partition that becomes short is voided. -/
def enforceShort (s : State) : State :=
  let fs := (List.range 128).filter fun f => (shortParts s).contains (flatOf s f).holder
  updateShort (if fs = [] then s else voidFlats fs s)

/-- The partitions whose reset begins once the cuts of the edge have completed (R611, R617, R693). -/
def startResets (s : State) : State :=
  (s.sec.acts.filter fun a => a.running && !s.fault.partReset.contains a.part).foldl (fun t a => partitionReset a t) s

/-- What follows once every cut of the edge has completed. -/
def cutCompleteOp (s : State) : State :=
  let s := switchFlats (clearCues (endCuts s))
  let s := (List.range 6).foldl moveArea (retireFlats s)
  let s := startResets (enforceShort s)
  let clearing := (List.range 128).any fun f => (flatOf s f).clearing
  resolveSteps { s with beat := { s.beat with cutsDone := true, clearsDone := !clearing } }

/-- The clear of the flats whose holder changed has completed (R252). -/
def flatClearOp (s : State) : State :=
  let fs := (List.range 128).filter fun f => (flatOf s f).clearing
  let s := fs.foldl (fun t f => setFlat f { flatOf t f with clearing := false } t) s
  { s with
    flies := { s.flies with
      mem := fs.foldl (fun t f => tabClear t (65536 * f) 65536) s.flies.mem
      latent := freshWords s.flies.latent fun w => fs.contains (w / 8192) }
    beat := { s.beat with clearsDone := true } }

/-! ### The cuts (R73 to R76) -/

/-- The entries of the ending Beat that have not completed, those held back by R61 among them, and the Walk-ons. -/
def cutCount (s : State) : Nat :=
  let left (i : Nat) : Bool := match statusAt s i with | .queued => true | .running _ => true | _ => false
  let walkon (e : Nat) : Bool := match (engOf s e).run with
    | some c => c.slot.isSome && (engOf s e).phase ≠ .idle && (engOf s e).phase ≠ .draining
    | none => false
  ((runEntries s).filter fun q => eKind q.2 ≠ 1 && left q.1).length + ((List.range 36).filter walkon).length

/-- Cuts an engine; its entry is charged up to the cut (R98). An engine that is still being cleared has started nothing. -/
def cutEngine (s : State) (e : Nat) : State :=
  let x := engOf s e
  match x.run with
  | none => s
  | some c =>
    if x.phase = .idle then s
    else if x.phase = .clearing then endRun e s
    else chargeRun e c (setEng e { x with phase := .draining, cut := true, xq := [], wait := none, deferred := [] } s)

/-- The end of a commit group at the edge (R73 to R75, R640, R641): one that is complete stays and may still commit; one that failed
fails; any other is cut, and a module that cuts a step that the Lead has committed lags. On a module that does not run any more every
group is cut (R631, notes/assumptions/113.md). -/
def endGroup (s : State) (g : Group) : State :=
  if runs s && (g.beat ≠ s.beat.num || groupComplete s g) then s
  else if g.status = .failed then failStep g s
  else
    let mine (v : Nat × Bool × DWord) : Bool := v.1 = g.plan.stepId.toNat
    let committed := s.pair.verdicts.any fun v => mine v && v.2.1
    let s := cutStep g { s with pair := { s.pair with verdicts := s.pair.verdicts.filter fun v => !mine v } }
    if follows s && committed then pairLag s else s

/-! ### Where the edge lies (R34, R38, R39) -/

/-- A correction of an edge: at most 1 µs in one Beat (R38, R39). -/
def slewed (x : Int) : Int := max (-1000) (min 1000 x)

/-- How far the expected edge lies after the PTP time at which R34 places an edge, in ns: the nearest multiple of the period after
BEAT_PTP_OFFSET. -/
def ptpLate (s : State) : Int :=
  match s.beat.ptpRef with
  | none => 0
  | some (w, t) =>
    let p : Int := 1000 * s.beat.period
    let at_ : Int := w + 1000 * ((s.time : Int) - t + ((s.beat.period : Int) - s.beat.phaseUs)) + s.beat.fracNs
    let e := (at_ - 1000 * (regW s 0x10020).toNat).emod p
    if 2 * e > p then e - p else e

/-- By how much the edge that ends the Beat lies after the internal timer's expected time, in ns: a locked source places it, and any
other Beat lasts its period. -/
def edgeShift (s : State) : Int :=
  if !s.beat.locked || s.beat.holdover then 0
  else match regF s 0x10000 1 0 with
    | 1 => if s.beat.edgeSeen then slewed s.beat.pinNs else 0
    | 2 => slewed (-(ptpLate s))
    | _ => 0

/-- The offset of that edge against the whole µs of the model's time. -/
def edgeNs (s : State) : Int := s.beat.fracNs + edgeShift s

/-- The phase at which the running Beat ends: its period, or 1 µs beside it when the offsets have made up a µs. -/
def endPhase (s : State) : Nat := ((s.beat.period : Int) + (edgeNs s).tdiv 1000).toNat

/-- The cuts of the edge: BEAT_CUT_CNT, the engines, and the commit groups. -/
def cutBeat (s : State) : State :=
  let n := cutCount s
  let s := bumpBy 0x10040 n { s with pair := { s.pair with lateEnd := n }, bist := { s.bist with queue := [] } }
  let s := (List.range 36).foldl cutEngine s
  s.serve.groups.foldl endGroup s

/-- Slices of earlier Beats that have not been aborted yet (R726). -/
def abortStale (s : State) : State :=
  (s.bist.running.filter fun r => r.beat ≠ s.beat.num).foldl (fun t r => sliceAbort r .edge t) s

/-! ### The energy ledger at the edge (R85, R89, R91, R103, R814, R881) -/

/-- The measurements and the entries of the ending Beat are set aside for its ledger. The first Beat after a start follows no Beat. -/
def ledgerEdge (s : State) : State :=
  let l := issueAt (wallLabel s) s
  let s := l.2.2
  let e := s.energy
  let first := s.ro.running.isNone
  let n := nextNum s
  { s with
    energy := { e with
      ending := if first then [] else e.ran
      ran := [], endingBeat := s.beat.num, endBudget := e.cap * s.beat.period, endPeriod := s.beat.period, closed := first,
      labels := ((n, l.1, l.2.1) :: e.labels).take 4
      billNext := if e.billLast < n && e.billNext.isNone then some (billLen s) else e.billNext }
    therm := { s.therm with endSum := s.therm.beatSum, beatSum := [] } }

/-- The cap and the period of the new Beat, and the reserve that they allow (R86, R89). -/
def budgetEdge (s : State) : State :=
  let cap := s.energy.capNext.getD s.energy.cap
  let period := nextPeriod s
  let lim : Int := 4 * ((cap * period : Nat) : Int)
  let changed := cap ≠ s.energy.cap || period ≠ s.beat.period
  { s with energy := { s.energy with
      cap := cap, capNext := none
      reserve := if changed && s.energy.reserve > lim then lim else s.energy.reserve } }

/-! ### The switch to the next Running Order -/

/-- The Sampler jobs that stay: completed jobs of groups that may still commit. -/
def jobStays (s : State) (j : QJob) : Bool :=
  j.phase = .complete && s.serve.groups.any fun g => g.plan.part = j.job.part && g.plan.stepId = j.job.stepId

/-- The jobs of one cluster in a Running Order's list. -/
def clusterJobs (o : Order) (c : Nat) : List SamplerJob := o.jobs.filter fun j => j.cluster = c

/-- SAMPLER_QUEUE_LOAD (R426): at most 56 jobs of the list for each cluster. -/
def loadSamplers (o : Order) (s : State) : State :=
  { s with serve := { s.serve with
      samplers := (List.range 4).foldl (fun t c => tabMod Sampler.init t c (fun q =>
        { q with queue := q.queue.filter (jobStays s) ++ ((clusterJobs o c).take 56).map fun j => (⟨j, .waiting, 0⟩ : QJob) }))
        s.serve.samplers } }

/-- The steps of the jobs that are not loaded fail (R426). -/
def dropExtra (o : Order) (s : State) : State :=
  ((List.range 4).flatMap fun c => (clusterJobs o c).drop 56).foldl
    (fun t j => stepBroken j.part j.stepId.toNat 0xFFFF none t) s

/-- The commit groups of the new Beat; the steps of voided entries fail (R53), and a head-spread step's timeout starts (R378). -/
def loadGroups (o : Order) (void : List Nat) (s : State) : State :=
  let s := { s with serve := { s.serve with
    groups := s.serve.groups ++ o.steps.map fun p => Group.init p s.beat.num s.ro.led } }
  let s := (o.entries.zipIdx.filter fun q => void.contains q.2 && eKind q.1 ≠ 1 && eKind q.1 ≠ 4).foldl
    (fun t q => stepBroken (ePart q.1) (eStep q.1) 0xFFFF none t) s
  o.steps.foldl (fun t p => p.reqs.foldl (fun u i =>
    modReq i (fun r => if r.spread.isSome && r.spreadEdges.isNone then { r with spreadEdges := some 0 } else r) u) t) s

/-- The Beat's source at its edge (R34, R37): an expected BEAT_IN edge that did not come counts as missed. The edge lies where the
source places it, a fraction of a µs beside the whole µs at which the phase begins again. -/
def sourceEdge (b : Beat) (src : Nat) (frac : Int) : Beat :=
  let missed := if src ≠ 1 then b.missed else if b.edgeSeen then 0 else b.missed + 1
  { b with
    missed := missed, edgeSeen := false, pinNs := 0, fracNs := frac, good := if src = 1 && !b.edgeSeen then 0 else b.good
    locked := b.locked || src = 0 }

/-- The new Beat: its number, its period and FREEZE_LEAD (R34, R42, R46), and BEAT_OUT (R40). -/
def nextBeat (s : State) : Beat :=
  let n := nextNum s
  { sourceEdge s.beat (regF s 0x10000 1 0) ((edgeNs s).tmod 1000) with
    num := n, rotNum := n, phaseUs := 0, period := nextPeriod s, lead := s.beat.leadNext.getD s.beat.lead
    periodNext := none, leadNext := none, halfPassed := false, cutsDone := false, clearsDone := false
    beatOut := regF s 0x10000 4 4 = 1 }

/-- The Running Order of the new Beat takes over: the frozen one, or the fallback with HALF_MISSED set (R48). -/
def switchOrder (s : State) : State :=
  let fallback := s.ro.frozen.isNone || s.ro.nextFallback
  let s := if s.ro.frozen.isNone then setRegF 0x1001C 3 3 1 s else s
  let o := s.ro.frozen.getD (fallbackOrder s)
  let void := if s.ro.frozen.isNone then [] else s.ro.frozenVoid
  let b := nextBeat s
  let s := budgetEdge s
  let s := { s with
    beat := b
    energy := { s.energy with drawRunning := o.hdr.eDrawUj.toNat }
    ro := { s.ro with
      running := some o, runningVoid := void, status := void.foldl (fun t i => tabSet .queued t i .voided) [], onFallback := fallback, led := !freezesOwn s
      frozen := none, frozenVoid := [], nextFallback := false, area := 1 - s.ro.area, opened := [], occupied := [] } }
  resolveSteps (dropExtra o (loadGroups o void (loadSamplers o s)))

/-! ### Requests, results and tables -/

/-- AGE_RISE (R396), the edges of a head-spread step's timeout (R378), and the tree updates queued during the ended Beat (R404). -/
def ageEdge (s : State) : State :=
  mapReqs (fun _ r =>
    let old := r.state = .admitted || r.state = .prefill || r.state = .decode
    { r with age := if old then satAdd 255 r.age 1 else r.age, spreadEdges := r.spreadEdges.map (· + 1),
             treeDue := r.treeDue ++ r.treeQ, treeQ := [] }) s

/-- Whether an entry of the request table becomes free (R397): its last result has passed or been dropped, and no step of it is under
way. -/
def entryEnds (s : State) (i : Nat) (r : Request) : Bool :=
  !r.state.live && s.curtain.results.all (fun x => x.kind ≠ 0x12 || x.req ≠ i || x.job ≠ r.jobId) &&
    s.serve.groups.all fun g => !g.plan.reqs.contains i

/-- REQUEST_ENTRY_FREE (R397): the entry's KV pages and extended log go with it. -/
def freeEntry (s : State) (i : Nat) : State :=
  match reqOf s i with
  | none => s
  | some r => if entryEnds s i r then setReq i none (unmapRequest r.part i (r.ext.foldl (fun t f => freeFrame f t) s)) else s

def freeEntries (s : State) : State := (reqsWhere s fun r => !r.state.live).foldl freeEntry s

/-- CURTAIN_POLICY_CHANGE (R478, R484), and the edges that held results have seen (R480). -/
def curtainEdge (s : State) : State :=
  let new := s.curtain.policyPend.getD s.curtain.policy
  let old := s.curtain.policy
  let s := dropHeld (fun r => bitAt old r.part && !bitAt new r.part) s
  { s with curtain := { s.curtain with
      policy := new, policyPend := none
      results := s.curtain.results.map fun r => if r.state = .held then { r with heldEdges := r.heldEdges.map (· + 1) } else r } }

/-- Slots and nodes that leave at the edge (R390), and the commands that waited. -/
def tableEdge (s : State) : State :=
  let s := (tabKeys (fun _ x => x.leaving) s.board.slots).foldl (fun t i => unregSlot i t) s
  let s := s.serve.flush.foldl (fun t p => dropNodes p (fun _ _ => true) t) s
  settleSets (settleOwed { s with serve := { s.serve with flush := [] } })

/-- Partition commands and key drops that take effect at the edge (R611, R616, R617, R702). -/
def keyEdge (s : State) : State :=
  let gone := (s.sec.jobs.filter fun j => j.2.dropping && !j.2.cut).map Prod.fst
  let s := failRequests (fun r => gone.contains r.jobId) 0x0B 0 s
  { s with sec := { s.sec with
      jobs := s.sec.jobs.map fun j => if j.2.dropping then (j.1, { j.2 with cut := true }) else j
      acts := s.sec.acts.map fun a => if a.armed then { a with armed := false, running := true } else a } }

/-- The frames bound for the new Beat, the groups' omissions, and BIND_LEAD_US (R513, R527). -/
def videoEdge (s : State) : State :=
  { s with video := { s.video with
      streams := tabMap Stream.init (fun _ x => { x with bound := x.boundNext, boundNext := none }) s.video.streams
      groups := tabMap VGroup.init (fun _ g => { g with omitNow := g.omitNext, omitNext := false }) s.video.groups
      bindLead := regF s 0xA0000 15 0, bindDone := false } }

/-! ### Units and firmware -/

/-- A spare that passed its known-answer run serves from this edge (R753). -/
def fitOne (s : State) (f : Fitting) : State :=
  match f.unit.kind with
  | .engine => modEng (9 * f.unit.cluster + f.unit.slot) (fun x => { x with serv := { x.serv with role := some f.role } }) s
  | .stagehand => modSh (18 * f.unit.cluster + f.unit.slot) (fun x => { x with serv := { x.serv with role := some f.role } }) s
  | .sampler => { s with serve := { s.serve with
      samplers := tabMod Sampler.init s.serve.samplers f.role fun q => { q with phys := some (samplerNo f.unit) } } }
  | _ => s

def fitEdge (s : State) : State :=
  let s := (s.boot.fitting.filter Fitting.passed).foldl fitOne s
  { s with boot := { s.boot with fitting := s.boot.fitting.filter fun f => !f.passed } }

/-- Whether the cluster whose Stagehands and Sampler ran their fixed jobs on the new parts in the ending Beat has failed them: a free
value (R808, R809; notes/assumptions/81.md). -/
def rollFails (s : State) (l : LiveRoll) : Bool := !l.back && 2 ≤ l.step && l.step ≤ 5 && bitAt (freeVal 46 s) 0

/-- LIVE_ROLL_STEP (R808, R809): at the edge of b the new parts are loaded, at b + 5 the control cores switch, and at b + 6 the roll is
over. A cluster that fails its step ends the roll, and the RoT falls back. -/
def liveEdge (s : State) : State :=
  match s.upd.live with
  | none => s
  | some l =>
    let fails := rollFails s l
    let s := drawn s
    if fails then fallBackOp s
    else if l.step = 0 then
      if s.beat.num < l.beat then s
      else
        let s := if l.back then s else activate true s
        { s with upd := { s.upd with live := some { l with step := 1 } } }
    else if l.step = 5 then
      let s := { s with upd := { s.upd with live := some { l with step := 6 } } }
      let b := slotBundle s s.upd.running
      measureBundle ([3, 4, 5].foldl (fun t i => measure i (partDigest b i) t) s)
    else if l.step ≥ 6 then { s with upd := { s.upd with live := none } }
    else { s with upd := { s.upd with live := some { l with step := l.step + 1 } } }

/-- TRIAL_CONFIRM (R803). -/
def trialEdge (s : State) : State :=
  let inWindow := match s.upd.trialEndUs with | some t => decide (s.time < t) | none => false
  let paired := regF s 0xC0000 1 1 = 0 || !s.upd.trialPaired || s.pair.mode = .lead || s.pair.mode = .understudy
  if onTrial s && inWindow && s.boot.ready && s.boot.readyUs + 60000000 ≤ s.time && !s.upd.trialBlocked && paired
  then confirmTrial s else s

/-- The module is ready (R777): it serves, SOLO, after which R651 applies (`rejoinEdge`). -/
def declareReady (s : State) : State :=
  { s with
    boot := { s.boot with mode := .serving, updating := false, ready := true, readyUs := s.time, step := 0xFF }
    pair := { s.pair with mode := .solo }
    therm := { s.therm with shutLast := false } }

/-- READINESS (R777): at the first edge with the source locked at which a published Running Order begins. -/
def readyEdge (s : State) : State :=
  if s.boot.mode = .starting && !s.boot.ready && s.beat.locked && !s.ro.onFallback then declareReady s else s

/-! ### The pair -/

/-- Whether the log holds an uncorrectable error or a hardware exception of a Beat (R649). -/
def badBeat (s : State) (beat : DWord) : Bool :=
  let bad (v : FaultEvent) : Bool := v.beat = beat &&
    (v.cls = 4 || (v.cls = 3 && v.origin ≠ originOf 6 true) || (v.cls = 0 && (v.cause = 0x0B || v.cause = 0x0C)))
  s.fault.fifo.any bad || s.fault.log.any fun e => match e.2 with | some x => bad x.ev | none => false

/-- The self-check has run to its end by the ending Beat (R649, R650): every engine has passed every part of it. -/
def selfRun (s : State) : State :=
  if s.pair.selfOwn = .planned && !decide (s.beat.num < s.pair.selfBeat) && (selfLeft s).isEmpty then
    { s with pair := { s.pair with selfOwn := if badBeat s s.pair.diverge then .failed else .passed } }
  else s

/-- SELFCHECK_OUTCOME (R649, R651): once both runs have ended. -/
def selfEdge (s : State) : State :=
  match s.pair.selfPartner with
  | none => s
  | some partner =>
    let own := s.pair.selfOwn = .passed
    let d := s.pair.diverge
    let s := { s with pair := { s.pair with selfOwn := .none, selfPartner := none } }
    let leave (s : State) : State :=
      standDown 1 0 d { s with pair := { s.pair with rejoin := s.pair.rejoin || regF s 0xC0000 0 0 = 1 } }
    match s.pair.mode with
    | .lead => if !own && partner then leave s else s
    | .understudy =>
      if !own then leave s
      else if partner then standDown 2 9 d s
      else takeOver (gatesOpen { s with curtain := { s.curtain with mgmt := false } })
    | _ => s

/-- After PAIR_DR_BEATS matching Beats the rehearsal ends in UNDERSTUDY (R657). -/
def rehearsalEdge (s : State) : State :=
  if s.pair.mode = .rehearsal && regF s 0xC0004 15 0 ≤ s.pair.drCount then
    { s with
      pair := { s.pair with
        mode := .understudy, partnerSerial := s.pair.partnerNow, darkSince := false, mapChanged := false }
      curtain := { s.curtain with rehearsal := false } }
  else s

/-- The role swap at the edge of B + 1 (R659). -/
def swapEdge (s : State) : State :=
  match s.pair.swapBeat with
  | none => s
  | some b =>
    if s.beat.num ≠ b + 1 then s
    else match s.pair.mode with
      | .lead => { s with pair := { s.pair with mode := .understudy, swapBeat := none } }
      | .understudy => { s with pair := { s.pair with mode := .lead, swapBeat := none } }
      | _ => s

/-- The pairing edge, the final delta, and the end of the hold-off (R653). -/
def resyncEdge (s : State) : State :=
  match s.pair.resync with
  | .pairing true _ =>
    let s := { s with pair := { s.pair with resync := .rounds 0, dirty := [] } }
    if s.pair.serving then sendTables (sendPages (fun _ => true) s) else s
  | .cutover c =>
    if !s.pair.serving then s
    else
      let s := if s.beat.num = c then
          sendFields 9 0xFF [] (sendTables (sendPages s.pair.dirty.contains { s with pair := { s.pair with dirty := [] } }))
        else s
      if decide (s.beat.num < c) || (s.beat.num.toNat - c.toNat) * s.beat.period < holdOffUs s then s
      else { s with pair := { s.pair with resync := .off } }
  | _ => s

/-- Messages that the Understudy has not received within one Beat of their INPUT are asked for (R638). -/
def fetchEdge (s : State) : State :=
  let late (i : PairInput) : Bool := !i.fetched && decide (i.at_ + 1 < s.beat.num)
  (s.pair.inputs.filter late).foldl (fun t i => sendFields 8 0xFF [i.job.toNat, i.kind, i.seq.toNat] t)
    { s with pair := { s.pair with inputs := s.pair.inputs.map fun i => if late i then { i with fetched := true } else i } }

/-! ### What readers see -/

/-- Figures that change only at Beat edges (R449, R533, R621 to R623, R703, R881). -/
def shownEdge (s : State) : State :=
  let open_ (n : Nat) : Nat :=
    let xs := (openStreams s).filter fun e => e.2.part = n
    xs.length + 64 * (xs.filter fun e => e.2.gdr).length
  { s with
    energy := { s.energy with
      shownUj := s.energy.lastUj, shownEus := s.energy.lastEus, deferShown := s.energy.defer
      resumed := s.boot.ready, shownPeriod := if s.boot.ready then s.energy.billUj else s.energy.shownPeriod }
    serve := { s.serve with shown := s.serve.cnt, liveShown := byPart (liveCount s), nodesShown := byPart fun n => (treeNodes s n).length }
    flies := { s.flies with shortShown := s.flies.short }
    sec := { s.sec with jobsShown := byPart fun n => (jobsOf s n).length, logShown := s.sec.logGen }
    video := { s.video with omitShown := s.video.omitCnt, openShown := byPart open_ }
    fault := { s.fault with recShown := s.fault.recCnt, sampleShown := s.fault.sampleLast } }

/-- Admission word B (R459). -/
def admitWordB (s : State) (n : Nat) : Word :=
  let allow := (regW s (0x20104 + 0x40 * n)).toNat
  let left := if allow = 0 then 0xFFFF else min 0xFFFE ((allow * 1000000 - tabGet 0 s.energy.billUj n) / 1000000)
  let age := s.serve.reqs.foldl (fun m e => match e.2 with | some r => if r.state.live && r.part = n then max m r.age else m | none => m) 0
  let held := (s.curtain.results.filter fun r => r.state = .held && r.part = n).length
  BitVec.ofNat 32 (left * 65536 + min 255 age * 256 + min 255 held)

/-- The bytes of THERMAL (R455): inlet, outlet, the hottest junction and the hottest stack. -/
def thermalWord (s : State) : Word :=
  let hottest (xs : List Int) : Int := match xs with | [] => 0 | x :: xs => xs.foldl max x
  let j := hottest ((dieSensors.filter s.therm.valid.contains).map (unitTemp s))
  let k := hottest (s.hbm.hbmStacks.map fun e => e.2.tempC)
  let b (x : Int) : Nat := (BitVec.ofInt 8 x).toNat
  BitVec.ofNat 32 (b s.therm.inlet * 2 ^ 24 + b s.therm.outlet * 2 ^ 16 + b j * 256 + b k)

/-- A 32-bit word of a digest. -/
def digestWord (d : Digest) (i : Nat) : Word := (d >>> (32 * i)).truncate 32

/-- CALL_BOARD_LATCH (R451, R455, R459): every edge word takes its contents for the new Beat, and SEQ counts it. -/
def boardEdge (s : State) : State :=
  let bundle := bundleWord s
  let d := tabGet 0 s.sec.meas 9
  let ws : List (Nat × Word) :=
    [(1, BitVec.ofNat 32 (0xB1 * 2 ^ 24 + bundle.toNat / 256)),
     (2, BitVec.ofNat 32 (bundle.toNat % 256 * 2 ^ 24 + s.pins.slotId.toNat)),
     (4, s.beat.num.truncate 32), (5, (s.beat.num >>> 32).truncate 32), (6, BitVec.ofNat 32 (s.beat.period * 65536)),
     (0xA, BitVec.ofNat 32 (s.energy.cap * 2 ^ 22 + s.energy.lastMj % 2 ^ 22)), (0xB, thermalWord s)] ++
    (List.range 8).map (fun n => (0x11 + 2 * n, admitWordB s n)) ++ (List.range 12).map fun i => (0x20 + i, digestWord d i)
  let s := ws.foldl (fun t e => setEdge e.1 e.2 t) s
  { s with board := { s.board with seq := s.board.seq + 1 } }

end Sys2Proof.Machine
end

