-- ==== Sys2Proof/Machine/Beat.lean ====
section
/-! DEFINITION. The Beat edge (R42) and what follows it (R73, R252), the Beat sources (R34 to R38, R778, R847), and BEAT_OUT (R40). -/

namespace Sys2Proof.Machine

open Sys2Proof

/-! ### BEAT_EDGE -/

/-- What the manual has happen before the edge that ends a Beat: the cuts and the clears of the edge before, the ledger of the Beat
before, The Half, and the binding point. A command that has not come by then has happened all the same (notes/assumptions/50.md). -/
def beforeEdge (s : State) : State :=
  let s := if s.beat.cutsDone then s else cutCompleteOp s
  let s := if s.beat.clearsDone then s else flatClearOp s
  let s := if s.energy.closed then s else ledgerOp s
  let s := if s.beat.halfPassed then s else halfOp s
  if s.video.bindDone then s else bindPointOp s

/-- The end of a Beat: its entries are cut, its digests fixed, its ledger set aside. -/
def endBeat (s : State) : State :=
  let s := abortStale (passPhase (endPhase s) s)
  keyEdge (creditEdge (selfRun (ledgerEdge (closeDigest (cutBeat s)))))

/-- Measurement 9 takes the configuration digest, and a record that has changed goes out (R597, R635, R662). -/
def configEdge (s : State) : State :=
  let d := configDigest s
  if tabGet 0 s.sec.meas 9 = d then s else sendConfig false (measure 9 d s)

/-- What changes at the edge beside the Running Order. -/
def atEdge (s : State) : State :=
  let s := tableEdge (curtainEdge (freeEntries (ageEdge s)))
  let s := videoEdge (liveEdge (fitEdge (thermEdge s)))
  let s := rejoinEdge (readyEdge (resyncEdge (swapEdge (rehearsalEdge (selfEdge s)))))
  let s := fetchEdge (trialEdge s)
  checkConfig (configEdge s)

/-- A Beat edge. -/
def edgeOp (s : State) : State :=
  let s := atEdge (shownEdge (switchOrder (endBeat (beforeEdge s))))
  boardEdge (settle s)

/-- What an idle step does: a microsecond passes, and at the end of a Beat its edge comes (R39, R42). -/
def idleOp (s : State) : State :=
  if s.beat.started && endPhase s ≤ s.beat.phaseUs then edgeOp s
  else if mainUp s then strike (tick s) else tick s

/-- BEAT_EDGE (R42). -/
def execBeatEdge (s : State) : Res := .next (if s.beat.started then edgeOp s else s)

/-- BEAT_OUT_PULSE_END (R40, R849): BEAT_OUT falls 1 µs after the edge. -/
def execBeatOutPulseEnd (s : State) : Res :=
  .next (if s.beat.beatOut then let s := passPhase 1 s; { s with beat := { s.beat with beatOut := false } } else s)

/-- CUT_COMPLETE (R73, R151, R240, R243, R252, R263). -/
def execCutComplete (s : State) : Res := .next (if s.beat.started && !s.beat.cutsDone then cutCompleteOp s else s)

/-- FLAT_CLEAR_DONE (R252, R253). -/
def execFlatClearDone (s : State) : Res :=
  .next (if s.beat.started && s.beat.cutsDone && !s.beat.clearsDone then flatClearOp s else s)

/-! ### The sources -/

/-- The source meets its lock criterion (R34): a holdover ends, and the edges come back to the source by steps (R38). -/
def relock (s : State) : State :=
  { s with
    beat := { s.beat with locked := true, holdover := false }
    boot := { s.boot with lockLate := false } }

/-- What a BEAT_IN edge does: inside ±0.9 µs of the expected time it places the edge, and the third in succession locks. -/
def beatInOp (offsetNs : Int) (s : State) : State :=
  if offsetNs.natAbs ≤ 900 then
    let n := s.beat.good + 1
    let s := { s with beat := { s.beat with edgeSeen := true, pinNs := offsetNs, good := n } }
    if n ≥ 3 && !s.beat.locked then relock s else s
  else { s with beat := { s.beat with good := 0 } }

/-- BEAT_IN_EDGE (R34, R38, R41, R847, R848): a high pulse shorter than 50 ns is no edge. -/
def execBeatInEdge (offsetNs : Int) (highNs : Nat) (s : State) : Res :=
  .next (if s.beat.started && regF s 0x10000 1 0 = 1 && 50 ≤ highNs then beatInOp offsetNs s else s)

/-- Whether the device handles a PTP message (R35, R36): on the port that serves as N0, in its domain, over Layer 2, with the
end-to-end mechanism. -/
def ptpTaken (s : State) (m : PtpMsg) : Bool :=
  (tabGet Port.init s.net.ports m.port).role = some 0 && m.domain.toNat = regF s 0x10024 7 0 && m.layer2 && !m.peerDelay

/-- The servo takes an offset: it lies within ±1 µs since it last came there, and the source locks once it has lain there for 1 s
(R34). The wall-clock time is the PTP time (R103, R105). -/
def ptpServo (offset : Int) (ref : Nat × Nat) (s : State) : State :=
  let inside := decide (offset.natAbs ≤ 1000)
  let since := if inside then s.beat.ptpIn.or (some s.time) else none
  let s := { s with beat := { s.beat with ptpOffsetNs := offset, ptpIn := since, ptpRef := some ref, wall := some ref } }
  let stable := match since with | some t => decide (t + 1000000 ≤ s.time) | none => false
  if regF s 0x10000 1 0 = 2 && !s.beat.locked && stable then relock s else s

/-- What a PTP message does (R35): a Sync is noted and the device sends its Delay_Req; the answer closes the exchange. The offset is
half of what the device's clock gains on the way in and loses on the way out. -/
def ptpOp (m : PtpMsg) (s : State) : State :=
  match m.kind with
  | .sync => emit .ptpDelayReq { s with beat := { s.beat with ptpSync := some (m.masterNs, m.localNs, s.time) } }
  | .delayResp =>
    match s.beat.ptpSync with
    | none => s
    | some (t1, t2, at_) =>
      let offset : Int := (((t2 : Int) - t1) - ((m.masterNs : Int) - m.localNs)).tdiv 2
      ptpServo offset (((t2 : Int) - offset).toNat, at_) { s with beat := { s.beat with ptpSync := none } }
  | .other => s

/-- PTP_MESSAGE (R34 to R36, R38, R105). -/
def execPtpMessage (m : PtpMsg) (s : State) : Res := .next (if s.beat.started && ptpTaken s m then ptpOp m s else s)

/-- Whether the locked source is lost (R37): three expected edges missed, or the servo outside ±1 µs. -/
def sourceLost (s : State) : Bool :=
  s.beat.locked && ((regF s 0x10000 1 0 = 1 && 3 ≤ s.beat.missed) || (regF s 0x10000 1 0 = 2 && 1000 < s.beat.ptpOffsetNs.natAbs))

/-- HOLDOVER (R37). With HOLDOVER_EN 0 the source is merely not locked any more. -/
def execHoldover (s : State) : Res :=
  .next (if s.beat.started && sourceLost s then
    let t := { s with beat := { s.beat with locked := false, good := 0 } }
    if regF s 0x10000 5 5 = 1 then setRegF 0x1001C 2 2 1 { t with beat := { t.beat with holdover := true } } else t
  else s)

/-- LOCK_TIMEOUT_READY (R778): 10 s after step 16 the module is ready on the internal timer, DEGRADED. -/
def execLockTimeoutReady (s : State) : Res :=
  .next (if s.beat.started && s.boot.mode = .starting && !s.boot.ready && !s.beat.locked then
    atTime (s.boot.step16Us + 10000000) (fun s =>
      let s := declareReady s
      setRegF 0x1001C 2 2 1 { s with beat := { s.beat with holdover := true }, boot := { s.boot with lockLate := true } }) s
  else s)

end Sys2Proof.Machine
end

