-- ==== Sys2Proof/Machine/Pins.lean ====
section
/-! DEFINITION. Supplies and pins of the module connector (R736, R737, R833 to R864): 12 V standby, PWR_EN, the 54 V input, the main
rails, SLOT_ID, ALERT_N and the LEDs. -/

namespace Sys2Proof.Machine

open Sys2Proof

/-- Whether a start is under way: from its first step until readiness (R738). -/
def inStart (s : State) : Bool := s.boot.mode = .starting && !s.boot.ready

/-! ### Outputs that follow from the state -/

/-- Whether ALERT_N is low (R855). -/
def alertLow (s : State) : Bool :=
  s.pins.standby && (modeNow s = .dark || s.therm.shutLast || regF s 0xF0004 29 29 = 1 || (s.pins.pwrEn && !s.pins.inputOk))

/-- The byte that the FRU EEPROM gives at an address to a read from a 7-bit device address; none while it does not answer (R20, R840). It is
write-protected, so that no access changes the state. -/
def fruAnswer (s : State) (device a : Nat) : Option Byte :=
  if s.pins.standby && device = 0x50 && a < 8192 then some (Config.fruByte s.boot.serial a) else none

/-- How an LED shows (R864). -/
inductive Led where
  | off | on | blink1 | blink4
deriving DecidableEq, Repr

/-- The green POWER LED. -/
def powerLed (s : State) : Led := if !s.pins.standby then .off else if s.pins.regulators then .on else .blink1

/-- The amber light of the STATUS LED. -/
def statusAmber (s : State) : Led :=
  if !s.pins.standby then .off
  else if s.therm.shutLast then .blink1
  else if modeNow s = .dark || s.boot.failed then .blink4
  else if modeNow s = .degraded then .on else .off

/-- The green light of the STATUS LED. -/
def statusGreen (s : State) : Led :=
  if !s.pins.standby || statusAmber s ≠ .off then .off
  else match modeNow s with
    | .serving => .on
    | .starting => .blink1
    | .resetting => .blink1
    | .updating => .blink1
    | .rehearsal => .blink1
    | _ => .off

/-- The blue SERVICE LED. -/
def serviceLed (s : State) : Led :=
  if !s.pins.standby then .off else if s.upd.copying then .blink4 else if !s.pins.regulators then .on else .off

/-! ### 12 V standby -/

/-- What 12 V standby starts: the RoT verifies and runs its firmware, with the slot's measurements (R595, R597, R736). The 54 V input has
mated before (R861; notes/assumptions/46.md). -/
def standbyOnOp (s : State) : State :=
  let s := { s with
    pins := { s.pins with standby := true, inputOk := true, bulkOk := true, slotSampled := false }
    boot := { s.boot with mode := .standby, step := 1, coldForced := true }
    board := { s.board with hiLatch := tabSet none s.board.hiLatch 0 none } }
  let s := { s with sec := { s.sec with meas := tabSet 0 s.sec.meas 1 Config.romDigest } }
  measureLife (measure 2 (partDigest (slotBundle s s.upd.running) 2) s)

/-- STANDBY_POWER_ON (R736). -/
def execStandbyPowerOn (s : State) : Res := .next (if s.pins.standby then s else standbyOnOp s)

/-- SLOT_ID_SAMPLE (R839): once after standby has become valid. -/
def execSlotIdSample (pins : BitVec 5) (s : State) : Res :=
  .next (if s.pins.standby && !s.pins.slotSampled then { s with pins := { s.pins with slotId := pins, slotSampled := true } } else s)

/-- What survives a loss of 12 V standby: the fuses, the sealed store, the bundle slots, the Dark state with its escalation windows, the
numbers of Beats, billing periods, samples and messages, and the closed billing records (R43, R99, R608, R684, R700, R794, R881;
notes/assumptions/47.md). -/
def standbyLossOp (s : State) : State :=
  let r := State.reset
  { r with
    pending := s.pending
    time := s.time
    free := s.free
    out := s.out
    pins := { r.pins with pwrEn := s.pins.pwrEn }
    boot := { r.boot with
      coldNext := s.boot.coldNext, copies := s.boot.copies, fuseBad := s.boot.fuseBad, fuseBadPc := s.boot.fuseBadPc
      fuseBadFlat := s.boot.fuseBadFlat, trainMeasFull := s.boot.trainMeasFull, lastFullUs := s.boot.lastFullUs
      storeValid := s.boot.storeValid, serial := s.boot.serial }
    beat := { r.beat with num := s.beat.rotNum, rotNum := s.beat.rotNum }
    energy := { r.energy with
      billNum := s.energy.billNum, billFirst := s.energy.billFirst, billLast := s.energy.billLast, billPartial := true
      records := s.energy.records, labelHigh := s.energy.labelHigh, stepped := s.energy.stepped }
    net := { r.net with perst := s.net.perst, houseTx := s.net.houseTx, houseRx := s.net.houseRx }
    curtain := { r.curtain with pinLow := s.curtain.pinLow }
    sec := { r.sec with
      life := s.sec.life, claims := s.sec.claims, svnMin := s.sec.svnMin, signers := s.sec.signers, debugCnt := s.sec.debugCnt
      keys := s.sec.keys.filter (fun e => 10 ≤ e.1), keyVals := s.sec.keyVals.filter fun e => 10 ≤ e.1
      keyGen := s.sec.keyGen, house := s.sec.house, houseKey := s.sec.houseKey
      bindings := s.sec.bindings, enabled := s.sec.enabled }
    pair := { r.pair with
      lseqTx := s.pair.lseqTx, lseqRx := s.pair.lseqRx, darkSince := s.pair.darkSince, mapChanged := s.pair.mapChanged
      rejoin := s.pair.rejoin }
    fault := { r.fault with
      unitWin := s.fault.unitWin, clusterWin := s.fault.clusterWin, devWin := s.fault.devWin
      dark := s.fault.dark, nextSample := s.fault.nextSample }
    upd := { s.upd with
      slots := s.upd.slots.map fun b => if b.state = .staging then .init else b
      container := none, copying := false, status := 0, live := none, stick := false, portPower := true } }

/-- STANDBY_LOSS (R608, R668, R881). -/
def execStandbyLoss (s : State) : Res := .next (if s.pins.standby then standbyLossOp s else s)

/-! ### PWR_EN and the 54 V input -/

/-- The main regulators are turned off: a device reset where the main domain was up (R851, R859). -/
def powerOff (counted : Bool) (s : State) : State :=
  if mainUp s then deviceReset counted true false s
  else { s with pins := { s.pins with regulators := false, pwrGood := false } }

/-- PWR_EN_LOW (R738, R851): a low that ends before 10 µs is ignored. The reset counts only when it abandons a start. -/
def execPwrEnLow (lowUs : Nat) (s : State) : Res :=
  .next (if lowUs < 10 then s
  else
    let s := { s with pins := { s.pins with pwrEn := false } }
    if s.pins.regulators then powerOff (inStart s) s else s)

/-- PWR_EN_HIGH (R737). -/
def execPwrEnHigh (s : State) : Res := .next { s with pins := { s.pins with pwrEn := true } }

/-- BULK_UNDERVOLTAGE (R738, R859; notes/assumptions/48.md). -/
def execBulkUndervoltage (s : State) : Res :=
  .next (
    let s := { s with pins := { s.pins with inputOk := false, bulkOk := false } }
    if s.pins.regulators then powerOff (inStart s) s else s)

/-- P54_OUT_OF_RANGE (R855, R856): above 60.0 V the main regulators are turned off (notes/assumptions/48.md). -/
def execP54OutOfRange (milliVolt : Nat) (s : State) : Res :=
  .next (if 46000 ≤ milliVolt && milliVolt ≤ 59500 then s
  else
    let s := { s with pins := { s.pins with inputOk := false } }
    if milliVolt > 60000 && s.pins.regulators then powerOff (inStart s) s else s)

/-- INPUT_RESTORED (R859, R861): the input has been within range for 100 ms, and the bulk is charged. START_SEQUENCE is the start that
follows. -/
def execInputRestored (s : State) : Res :=
  .next (if s.pins.inputOk && s.pins.bulkOk then s
  else passUs 100000 { s with pins := { s.pins with inputOk := true, bulkOk := true } })

/-- MAIN_RAIL_EXCURSION (R852): PWR_GOOD is pulled low. The main rails are rails 1 to 12 of R813: 0 is the 54 V input, 13 the standby
input. -/
def execMainRailExcursion (rail : Nat) (s : State) : Res :=
  need (1 ≤ rail && rail ≤ 12) (.next { s with pins := { s.pins with pwrGood := false } })

end Sys2Proof.Machine
end

