-- ==== Sys2Proof/Machine/Boot.lean ====
section
/-! DEFINITION. The start of the main domain (R735 to R782) and the fitting of a spare in service (R753, R756). -/

namespace Sys2Proof.Machine

open Sys2Proof

/-! ### START_SEQUENCE (R736) -/

/-- Whether a start may begin (R698, R737, R740, R831, R861). -/
def mayStart (s : State) : Bool :=
  s.pins.standby && s.pins.pwrEn && s.pins.inputOk && s.pins.bulkOk && !s.fault.dark && !s.therm.shutdown && !s.boot.failed &&
    s.boot.mode ≠ .starting && s.boot.mode ≠ .serving

/-- What a start has found and chosen. -/
structure StartPlan where
  cold : Bool
  before : Inventory
  /-- the record after steps 7, 10 and 13 -/
  fit7 : Inventory
  fit10 : Inventory
  fit13 : Inventory
  /-- pseudo-channels trained fully, and pseudo-channels with 1 to 4 failing rows in a hold -/
  full : List Nat
  held : List Nat

/-- What a start does with its results: the kind, the fittings, and the pseudo-channels that were trained. -/
def startPlan (s : State) (r : StartResults) : StartPlan :=
  let x := (if (inventory s).valid then inventory s else firstFit s)
  let delta := regF (applySettings s) 0x80000 15 8
  let cold := coldStart s r (tabGet 0 s.sec.meas 6) delta x
  let fit7 := fitUnits (r.failDie ++ s.boot.fuseBad) (spareBack x)
  let rows (p : Nat) : Nat := sumNat ((r.holdRows.filter fun h => h.1 = p).map Prod.snd)
  let failHold := if cold then (List.range 256).filter fun p => rows p > 4 else []
  let held := if cold then (List.range 256).filter fun p => 1 ≤ rows p && rows p ≤ 4 else []
  let fit10 := fitChannels (r.failTrain ++ r.failMarch ++ failHold ++ s.boot.fuseBadPc) fit7
  let fit13 := fitUnits (r.failBcast ++ r.failKat) fit10
  ⟨cold, x, fit7, fit10, fit13, if cold then List.range 256 else r.failCheck, held⟩

/-- The step at which a start fails (R739). -/
def startFails (s : State) (r : StartResults) (p : StartPlan) : Option Nat :=
  let flats := (List.range 128).filter fun f => !p.fit7.flatsRetired.contains f && !s.boot.fuseBadFlat.contains f
  if r.smPairsFail ≥ 2 || flats.length < 28 then some 6
  else if p.fit10.lcRetired.length > 28 then some 10
  else if r.bcastNone then some 11
  else none

/-- MEM_ECC records of the pseudo-channels that stay in service after a hold (R765). -/
def logHeld (held : List Nat) (s : State) : State :=
  held.foldl (fun t p =>
    let cause := (freeVal 2 t).toNat % 256
    logEvent { evBase t 3 cause 0 with unit := 0x4000 + p / 32, origin := originOf 6 true, detail := [p % 32] } (drawn t)) s

/-- The energy coefficients and the Stagehand idle power as calibrated (R93, R774, R775). -/
def calibrate (r : StartResults) (s : State) : State :=
  { s with energy := { s.energy with
      coef := (List.range 4).foldl (fun t c =>
        let xs := r.coefs.getD c []
        ((List.range 15).foldl (fun u k => tabSet 0 u (17 * c + k) (xs.getD (k + 1) 0)) (tabSet 0 t (17 * c + 16) (xs.getD 0 0)))) []
      shIdle := (List.range 4).foldl (fun t c => tabSet 0 t c (r.shIdleUw.getD c 0)) []
      gen := 1 } }

/-- Memory after the test of step 9: no frame holds what was written before, the firmware hold is zero under the new key of slot 8, and
the frames of retired logical channels are out of the pool (R312, R335, R736, R763). The Stage Manager places the count table and the
L0 table of each space (R316, R324). -/
def startMemory (s : State) : State :=
  let gen := s.sec.keyGen + 1
  let out := sumNat (s.hbm.lcRetired.map fun lc => (poolFrames - lc + 29) / 30)
  let s := { s with
    sec := { s.sec with keys := tabSet none s.sec.keys 8 (some gen), keyGen := gen }
    mem := { Mem.init with capFrames := poolFrames - out, rcBase := 65536 * poolFrames } }
  (List.range 9).foldl (fun t n => needTable n 0 0 t) s

/-- A start that has passed its verification and does not fail (R736, R743 to R776). -/
def startPasses (r : StartResults) (p : StartPlan) (s : State) : State :=
  let s := applySettings s
  let s := logHeld p.held s
  let s := placePorts (placeAreas (placeUnits p.fit13 s.boot.fuseBadFlat r.stackTemps p.full s))
  let s := calibrate r (startMemory s)
  let s := s.sec.enabled.foldl (fun t n => grantCues n t) s
  let train := (List.range 8).map fun m =>
    if p.full.any (fun k => k / 32 = m) then r.stackTemps.getD m 0 else p.before.trainTemp.getD m 0
  let s := persist (fun _ => { p.fit13 with
    lastFullH := if p.cold then s.time / hourUs else p.fit13.lastFullH, trainTemp := train }) s
  let n := newlyOut p.before p.fit13
  let s := { s with
    boot := { s.boot with
      mode := .starting, updating := decide (s.boot.mode = Mode.updating), kind := if p.cold then 1 else 2, step := 17
      retired := min 255 n, status := if hasHole p.fit13 then 0x0C else 0, durationMs := r.durationMs
      coldNext := false, coldForced := false, ready := false, step16Us := s.time
      trainMeasFull := if p.cold then tabGet 0 s.sec.meas 6 else s.boot.trainMeasFull
      lastFullUs := if p.cold then s.time else s.boot.lastFullUs
      storeValid := List.replicate 8 true, fitting := [], smPairs := 2 - r.smPairsFail }
    pins := { s.pins with regulators := true, pwrGood := true }
    bist := { s.bist with cycleStartUs := s.time }
    pair := { s.pair with mapChanged := s.pair.mapChanged || n ≠ 0 }
    upd := { s.upd with trialBlocked := s.upd.trialBlocked || !r.failKat.isEmpty || servedOut p.before p.fit13 }
    beat := { s.beat with started := true, phaseUs := 0, num := s.beat.rotNum, locked := regF s 0x10000 1 0 = 0 } }
  { s with ro := { s.ro with fallback := fallbackOrder s } }

/-- A start that has begun is abandoned, and counts for escalation unless DEVICE_RESET abandons it; the next START_SEQUENCE begins a new
one, of the kind that R735 gives (R738). -/
def startAbandoned (byCommand : Bool) (s : State) : State :=
  deviceReset (!byCommand) false false { s with boot := { s.boot with coldNext := false } }

/-- START_SEQUENCE: the slot is verified, the kind of start chosen, and the main domain runs steps 4 to 16, or stays unpowered. -/
def startOp (r : StartResults) (s : State) : State :=
  let s := countRefusals r (passUs (1000 * r.durationMs) s)
  match bootChoice s r with
  | none => unverified r s
  | some k =>
    let fresh := (inventory s).valid
    let s := verified k s
    let p := startPlan s r
    let s := { s with boot := { s.boot with rebuilt := !fresh } }
    match r.abandoned with
    | some byCommand => startAbandoned byCommand s
    | none => match startFails s r p with
    | some step => startFailed step { s with boot := { s.boot with coldNext := false, coldForced := false, kind := if p.cold then 1 else 2 } }
    | none => startPasses r p s

/-- START_SEQUENCE (R736, R738). -/
def execStartSequence (r : StartResults) (s : State) : Res := .next (if mayStart s then startOp r s else s)

/-- START_RETRY (R740): 10 s after a failed start, the next START_SEQUENCE may begin. -/
def execStartRetry (s : State) : Res :=
  .next (if s.pins.standby && s.boot.failed && !s.fault.dark then
    atTime (s.boot.failedAtUs + 10000000) (fun s => { s with boot := { s.boot with failed := false } }) s
  else s)

/-- COLD_NEXT (R781). -/
def execColdNext (m : Mgmt) (s : State) : Res := houseCmd m s (mgmtSt m 0 { s with boot := { s.boot with coldNext := true } })

/-! ### SPARE_FIT_DONE (R753, R756) -/

/-- The spare that runs the known-answer run. -/
def fittingOf (s : State) (u : UnitRef) : Option Fitting := s.boot.fitting.find? fun f => f.unit = u && !f.passed

/-- The run has passed: the record is persisted, and the spare serves from the next Beat edge. -/
def fitPassed (f : Fitting) (s : State) : State :=
  let s := { s with boot := { s.boot with fitting := s.boot.fitting.map fun x => if x = f then { x with passed := true } else x } }
  persist (mapByte f.unit f.role) s

/-- The run has failed: the spare is retired, and the next one is tried (R753, R754). -/
def fitFailed (f : Fitting) (s : State) : State :=
  let s := { s with
    upd := { s.upd with trialBlocked := true }
    boot := { s.boot with fitting := s.boot.fitting.filter fun x => x ≠ f } }
  fitSpare f.unit f.role (markRetired f.unit s)

/-- SPARE_FIT_DONE (R753, R756). -/
def execSpareFitDone (unit : UnitRef) (pass : Bool) (s : State) : Res :=
  .next (match fittingOf s unit with
    | none => s
    | some f => if pass then fitPassed f s else fitFailed f s)

end Sys2Proof.Machine
end

