-- ==== Sys2Proof/Machine/CueCmds.lean ====
section
/-! DEFINITION. CUE instructions (R223 to R228), and the waits of R142 and R148 to R150. -/

namespace Sys2Proof.Machine

open Sys2Proof

/-- The window index of a CUE instruction (R223). -/
def cueWin (x : Engine) (f : Fields) : Nat := ((rdS x f.b).toNat + imm f 9 0) % 2 ^ 64
/-- The operand of a CUE instruction (R224). -/
def cueVal (x : Engine) (f : Fields) : Nat := if imm f 15 15 = 1 then fld (rdS x f.c) 15 0 else imm f 31 16

/-- A CUE instruction on the Cue Light that its window index names; CL_PERM otherwise (R115, R116, R121). DESIGN CHOICE: the ADDR of a
CL_PERM record is the window index, those of CUE_TIMEOUT and CUE_OVF records are the absolute index (notes/assumptions/96.md); and CL_PERM comes before
the ILLEGAL of an operand of 0 (notes/assumptions/98.md). -/
def runCue (e func : Nat) (f : Fields) (s : State) (g : EntryCtx → Engine → Nat → IRes) : Res :=
  runEng e 0x1C func f s fun c x =>
    match cueIndex s c (cueWin x f) with
    | none => .exc 5 (cueWin x f)
    | some i => g c x i

/-- cue.sig (R141 to R146, R227): a saturation is a deferred exception, which the bank still has to report. -/
def execCueSig (e : Nat) (f : Fields) (s : State) : Res :=
  runCue e 0 f s fun _ x i =>
    let n := cueVal x f
    if n = 0 then .exc 1 0
    else
      let x := if cueSaturates s i n then { x with deferred := x.deferred ++ [⟨false, 7, x.pc.toNat, i, 0, []⟩] } else x
      .ok (setEng e (advance x) (cueAdd i n s))

/-- The job whose WAITD on a Cue Light a cluster's idle Sampler puts to the bank, when the count serves it (R429): a WALKON job first,
then the others in list order. -/
def samplerWait (s : State) (c i : Nat) : Option QJob :=
  let q := (tabGet Sampler.init s.serve.samplers c).queue
  let on (x : QJob) : Bool := x.phase = .waiting && x.job.waitCl = i && x.job.waitCnt ≤ (cueOf s i).count
  if q.any fun x => x.phase = .running || x.phase = .granted then none
  else (q.find? fun x => x.job.walkon && on x).or (q.find? on)

/-- Whether a unit but `skip` waits on a Cue Light with a WAITD that its count would serve: an engine slot, 64 plus a Stagehand slot, or
256 plus a Sampler. -/
def waitdPendingBut (s : State) (skip i : Nat) : Bool :=
  let hit (w : Option CueWait) : Bool :=
    match w with | some w => w.cl = i && w.take && w.target ≤ (cueOf s i).count | none => false
  (List.range 36).any (fun e => hit (engOf s e).wait) || (List.range 72).any (fun k => hit (shOf s k).wait) ||
    (List.range 4).any fun c => 256 + c ≠ skip && (samplerWait s c i).isSome

/-- Whether any unit waits on a Cue Light with a WAITD that its count would serve. -/
def waitdPending (s : State) (i : Nat) : Bool := waitdPendingBut s 0xFFFF i

/-- Whether a wait is met: the count is at least the target. -/
def waitMet (s : State) (w : CueWait) : Bool := w.target ≤ (cueOf s w.cl).count

/-- Whether the timeout of a wait has passed (R148). -/
def waitLate (s : State) (w : CueWait) : Bool := match w.deadline with | some t => t < s.time | none => false

/-- Whether a wait ends at once: it is met, and no WAITD is to be served first; one for a target of 0 always does (R142, R228). -/
def waitNow (s : State) (w : CueWait) : Bool := w.target = 0 || (waitMet s w && !waitdPending s w.cl)

/-- What the bank does for a wait that is met: a WAITD subtracts its target (R141). -/
def takeCount (w : CueWait) (s : State) : State :=
  if w.take then setCue w.cl { cueOf s w.cl with count := (cueOf s w.cl).count - w.target } s else s

/-- An engine's wait ends with its condition met: a .T form writes all ones to its predicate (R226). -/
def endWait (e : Nat) (w : CueWait) (s : State) : State :=
  modEng e (fun x =>
    let x := match w.pd with | some p => wrP x p (BitVec.allOnes 128) | none => x
    advance { x with wait := none }) (takeCount w s)

/-- A wait instruction: it ends at once when its condition is met and no WAITD is to be served first; otherwise it
waits in the bank. Its timeout is s[D][31:0] µs, none for D = 0 or for 0 (R148, R225). -/
def cueWaitInsn (e func : Nat) (take timed : Bool) (f : Fields) (s : State) : Res :=
  runCue e func f s fun _ x i =>
    let t := fld (rdS x f.d) 31 0
    let w : CueWait := { cl := i, target := cueVal x f, take := take, pd := if timed then some (imm f 14 12) else none,
                         deadline := if f.d = 0 || t = 0 then none else some (s.time + t) }
    if waitNow s w then .ok (endWait e w s)
    else .ok (setEng e { x with wait := some w } s)

/-- cue.wait. -/
def execCueWait (e : Nat) (f : Fields) (s : State) : Res := cueWaitInsn e 1 false false f s
/-- cue.waitd. -/
def execCueWaitd (e : Nat) (f : Fields) (s : State) : Res := cueWaitInsn e 2 true false f s
/-- cue.wait.t. -/
def execCueWaitT (e : Nat) (f : Fields) (s : State) : Res := cueWaitInsn e 9 false true f s
/-- cue.waitd.t. -/
def execCueWaitdT (e : Nat) (f : Fields) (s : State) : Res := cueWaitInsn e 0xA true true f s

/-- cue.set: writes the count and clears OVF. -/
def execCueSet (e : Nat) (f : Fields) (s : State) : Res :=
  runCue e 3 f s fun _ x i => .ok (setEng e (advance x) (cueSet i (cueVal x f) s))

/-- cue.read: s[A] = OVF << 16 | count. -/
def execCueRead (e : Nat) (f : Fields) (s : State) : Res :=
  runCue e 4 f s fun _ x i =>
    let q := cueOf s i
    .ok (setEng e (advance (wrS x f.a (BitVec.ofNat 64 (b2n q.ovf * 65536 + q.count)))) s)

/-- A Stagehand's wait ends: rd takes the result, and the instruction is done (R172). -/
def endShWait (k : Nat) (v : DWord) (s : State) : State :=
  modSh k (fun h =>
    { h with wait := none, pc := h.pc + 4,
             x := if h.waitRd = 0 then h.x else tabSet 0#64 h.x h.waitRd v }) s

/-- Units in the order of their network port numbers, lowest first (R142): an insertion sort. -/
def byPort : List Nat → List Nat
  | [] => []
  | u :: us =>
    let rec ins (u : Nat) : List Nat → List Nat
      | [] => [u]
      | v :: vs => if Config.netPort u ≤ Config.netPort v then u :: v :: vs else v :: ins u vs
    ins u (byPort us)

/-- The pending wait of a unit: an engine slot, or 64 plus a Stagehand slot. -/
def unitWait (s : State) (u : Nat) : Option CueWait := if u < 64 then (engOf s u).wait else (shOf s (u - 64)).wait

/-- Ends the wait of a unit when the count still meets it and its timeout has not passed (R148). -/
def serveWait (s : State) (u : Nat) : State :=
  match unitWait s u with
  | none => s
  | some w =>
    if waitMet s w && !waitLate s w then (if u < 64 then endWait u w s else endShWait (u - 64) 1 (takeCount w s)) else s

/-- Every unit that can wait. -/
def waitUnits : List Nat := List.range 36 ++ (List.range 72).map (· + 64)

/-- The wait of a Sampler's job is served: the count is taken, and the job may start (R142, R429). -/
def serveSampler (cl : Nat) (s : State) (c : Nat) : State :=
  match samplerWait s c cl with
  | none => s
  | some x =>
    let q := tabGet Sampler.init s.serve.samplers c
    let s := setCue cl { cueOf s cl with count := (cueOf s cl).count - x.job.waitCnt } s
    { s with serve := { s.serve with samplers := tabSet Sampler.init s.serve.samplers c { q with
      queue := q.queue.replace x { x with phase := .granted } } } }

/-- Serves a WAITD: of an engine or a Stagehand, or of a Sampler. -/
def serveWaitd (cl : Nat) (s : State) (u : Nat) : State := if u < 256 then serveWait s u else serveSampler cl s (u - 256)

/-- CUE_WAIT_MET (R142): the bank tests the WAITs against the count, and serves the WAITDs in port order. It stands for the test that
follows a SIG or a SET at once (notes/assumptions/69.md). -/
def execCueWaitMet (cl : Nat) (s : State) : Res :=
  need (cl < 65536) <|
    let on (take : Bool) := waitUnits.filter fun u =>
      match unitWait s u with | some w => w.cl = cl && w.take = take | none => false
    .next ((byPort (on true ++ (List.range 4).map (256 + ·))).foldl (serveWaitd cl) ((on false).foldl serveWait s))

/-- CUE_WAIT_TIMEOUT (R148, R149): a wait whose timeout has passed unmet raises CUE_TIMEOUT; a .T form clears its
predicate, sets CUE_TMO and goes on; a Stagehand's wait ends with rd = 0 (R172). -/
def execCueWaitTimeout (e : Nat) (s : State) : Res :=
  need (e < 36 || (64 ≤ e && e < 136)) <|
    match unitWait s e with
    | none => .next s
    | some w =>
      match w.deadline with
      | none => .next s
      | some t =>
        if waitMet s w && !waitLate s w then .next s
        else
          .next (atTime t (fun s =>
            let s := bump 0x40044 s
            if 64 ≤ e then endShWait (e - 64) 0 s
            else match w.pd with
              | some p => modEng e (fun x => advance (withTimeout (wrP { x with wait := none } p 0))) s
              | none => raiseExc e 6 (engOf s e).pc.toNat w.cl 0 [] s) s)

/-- CUE_OVF (R144, R156): the bank reports the saturation of a cue.sig. -/
def execCueOvf (e : Nat) (s : State) : Res := need (e < 36) (.next (reportDeferred e 7 s))

end Sys2Proof.Machine
end

