-- ==== Sys2Proof/Machine/Fly.lean ====
section
/-! DEFINITION. FLY instructions (R229 to R231). -/

namespace Sys2Proof.Machine

open Sys2Proof

/-- An access to the Flies window: the address, its checks, and what is done with the bytes that are read. A store
reads nothing (`rd` false). -/
def flyAccess (e func n : Nat) (f : Fields) (s : State) (rd : Bool)
    (g : EntryCtx → Engine → Nat → List Byte → Engine × Option (List Byte)) : Res :=
  runEng e 0x20 func f s fun c x =>
    let a := effAddr x f
    (chkFl s c a n (min n 64)).run <|
      let r := g c x a (if rd then flRead s c a n else [])
      let s := if rd then flEcc c a n s else s
      let s := match r.2 with | some bs => flWrite c a bs s | none => s
      .ok (setEng e (advance r.1) s)

/-- fly.ld.w: 4 bytes, zero-extended. -/
def execFlyLdW (e : Nat) (f : Fields) (s : State) : Res :=
  flyAccess e 0 4 f s true fun _ x _ bs => (wrS x f.a (BitVec.ofNat 64 (leNat bs)), none)
/-- fly.ld.d: 8 bytes. -/
def execFlyLdD (e : Nat) (f : Fields) (s : State) : Res :=
  flyAccess e 1 8 f s true fun _ x _ bs => (wrS x f.a (BitVec.ofNat 64 (leNat bs)), none)
/-- fly.st.w: the low 4 bytes of s[A]. -/
def execFlyStW (e : Nat) (f : Fields) (s : State) : Res :=
  flyAccess e 2 4 f s false fun _ x _ _ => (x, some (leBytes 4 (rdS x f.a).toNat))
/-- fly.st.d: s[A]. -/
def execFlyStD (e : Nat) (f : Fields) (s : State) : Res :=
  flyAccess e 3 8 f s false fun _ x _ _ => (x, some (leBytes 8 (rdS x f.a).toNat))
/-- fly.vld: 512 bytes into v[A]. -/
def execFlyVld (e : Nat) (f : Fields) (s : State) : Res :=
  flyAccess e 4 512 f s true fun _ x _ bs => (withMoved (wrV x f.a.toNat (lanesOf bs)) bs, none)
/-- fly.vst: v[A] to 512 bytes. -/
def execFlyVst (e : Nat) (f : Fields) (s : State) : Res :=
  flyAccess e 5 512 f s false fun _ x _ _ =>
    let bs := lanesBytes (rdV x f.a.toNat)
    (withMoved x bs, some bs)

/-- An atomic on one 64-bit location: s[A] takes the old value, memory the new one (R230). -/
def flyAtomic (e func : Nat) (f : Fields) (s : State) (g : Engine → DWord → DWord) : Res :=
  flyAccess e func 8 f s true fun _ x _ bs =>
    let old := BitVec.ofNat 64 (leNat bs)
    (wrS x f.a old, some (leBytes 8 (g x old).toNat))

/-- fly.add. -/
def execFlyAdd (e : Nat) (f : Fields) (s : State) : Res := flyAtomic e 8 f s fun x old => old + rdS x f.c
/-- fly.max: unsigned. -/
def execFlyMax (e : Nat) (f : Fields) (s : State) : Res :=
  flyAtomic e 9 f s fun x old => if old.ult (rdS x f.c) then rdS x f.c else old
/-- fly.min: unsigned. -/
def execFlyMin (e : Nat) (f : Fields) (s : State) : Res :=
  flyAtomic e 0xA f s fun x old => if old.ult (rdS x f.c) then old else rdS x f.c
/-- fly.and. -/
def execFlyAnd (e : Nat) (f : Fields) (s : State) : Res := flyAtomic e 0xB f s fun x old => old &&& rdS x f.c
/-- fly.or. -/
def execFlyOr (e : Nat) (f : Fields) (s : State) : Res := flyAtomic e 0xC f s fun x old => old ||| rdS x f.c
/-- fly.xchg. -/
def execFlyXchg (e : Nat) (f : Fields) (s : State) : Res := flyAtomic e 0xD f s fun x _ => rdS x f.c
/-- fly.cas: mem = s[C] when old = s[D]. -/
def execFlyCas (e : Nat) (f : Fields) (s : State) : Res :=
  flyAtomic e 0xE f s fun x old => if old = rdS x f.d then rdS x f.c else old

/-- FLAT_TEST_RESTORE (R724): an access to a flat under test restores the flat from the copy in the self-test
restore flat; the access then proceeds. -/
def execFlatTestRestore (flat : Nat) (s : State) : Res :=
  need (flat < 128) <|
    if (flatOf s flat).test && s.flies.testCopy = some flat then
      let src := restoreBase s
      let bytes := tabRead 0#8 s.flies.mem (65536 * src) 65536
      let s := setFlat flat { flatOf s flat with test := false } s
      .next { s with flies := { s.flies with mem := tabWrite 0#8 s.flies.mem (65536 * flat) bytes, testCopy := none } }
    else .next s

end Sys2Proof.Machine
end

