-- ==== Sys2Proof/Machine/Hbm.lean ====
section
/-! DEFINITION. The HBM3E stacks (R300, R301, R305 to R313, R347): scrubbing, temperatures, sparing and retirement. -/

namespace Sys2Proof.Machine

open Sys2Proof

/-- SCRUB_READ (R303 to R305): a read with the firmware context tag, which names no partition. -/
def execScrubRead (granule : Nat) (s : State) : Res :=
  need (granule < 1024 * frameCount)
    (.next (if mainUp s && frameIn s (granule / 1024) then
      settle (readGranule (partMem 0 6 true) granule { s with hbm := { s.hbm with scrubbed := s.hbm.scrubbed + 1 } }).1
    else s))

/-- REFRESH (R301). -/
def execRefresh (stack : Nat) (s : State) : Res :=
  need (stack < 8)
    (.next (if mainUp s then setStack stack { stackOf s stack with refreshes := (stackOf s stack).refreshes + 1 } s else s))

/-- Pseudo-channels in service whose last training lies too many degrees away (R306). -/
def tempTriggers (m : Nat) (t : Int) (s : State) : State :=
  let k := stackOf s m
  let d : Int := (regF s 0x80000 15 8 : Nat)
  (List.range 32).foldl (fun u pc =>
    let x := tabGet 0 k.tempTrain pc
    if t - x > d || x - t > d then trigger m pc u else u) s

/-- STACK_TEMP_READ (R300, R306, R822, R829). -/
def stackTempOp (m : Nat) (t : Int) (s : State) : State :=
  let s := setStack m { stackOf s m with tempC := t } s
  let s := { s with therm := { s.therm with
    valid := if s.therm.valid.contains (80 + m) then s.therm.valid else (80 + m) :: s.therm.valid } }
  if t ≥ 100 then thermalShutdown s else throttleStack m (tempTriggers m t s)

/-- STACK_TEMP_READ (R300). -/
def execStackTempRead (stack : Nat) (tempC : Int) (s : State) : Res :=
  need (stack < 8) (.next (if mainUp s then stackTempOp stack tempC s else s))

/-- HEAD_COUNT_REFRESH (R347): the counts of a source port toward each controller. -/
def execHeadCountRefresh (port : Nat) (counts : List Nat) (s : State) : Res :=
  need (port < 5)
    (.next (if mainUp s then
      (List.range 8).foldl (fun t m =>
        let k := stackOf t m
        setStack m { k with headCnt := tabSet 0 k.headCnt port (min 63 (counts.getD m 0)) } t) s
    else s))

/-- What a write of HBM_RETRAIN_REQ does (R306). -/
def retrainReqOp (v : Word) (s : State) : State := if bitAt v 31 then trigger (fld v 7 5) (fld v 4 0) s else s

/-- HBM_RETRAIN_REQ (R306, R870). -/
def execHbmRetrainReq (fn : Nat) (v : Word) (s : State) : Res :=
  need (fn ≤ 8) (.next (if linkUp s && fn = 0 then retrainReqOp v s else s))

/-- RETRAIN_DAYS_ELAPSED (R306). -/
def execRetrainDaysElapsed (stack pc : Nat) (s : State) : Res :=
  need (stack < 8 && pc < 32) (.next (if mainUp s then trigger stack pc s else s))

/-! ### The retirement of a logical channel (R312, R313) -/

/-- The live request of lowest effective priority (R79, R313). -/
def weakest (s : State) : Option Nat :=
  (liveWhere s fun _ => true).foldl (fun b i =>
    match b with
    | none => some i
    | some j => match reqOf s i, reqOf s j with
      | some x, some y => if rankKey y j < rankKey x i then some i else some j
      | _, _ => b) none

/-- Ends a request for want of frames, and gives back its KV pages: a step of it that is under way does not commit, and its journal is
rolled back first (R332). -/
def giveUp (i : Nat) (s : State) : State :=
  match reqOf s i with
  | none => s
  | some r =>
    let gs := s.serve.groups.filter fun g => g.plan.reqs.contains i
    let s := gs.foldl (fun t g =>
      stepBroken g.plan.part g.plan.stepId.toNat 0xFFFF none (journalRollback g.plan.part g.plan.stepId.toNat t)) s
    unmapRequest r.part i (failRequest i 3 0xFFFF s)

/-- Live frames of a logical channel in the software pool. -/
def liveFrames (s : State) (lc : Nat) : List Nat :=
  tabKeys (fun f x => f < poolFrames && frameLc f = lc && !x.free) s.mem.frames

/-- Live frames of a logical channel in the firmware hold: images, masks and page tables. -/
def liveHold (s : State) (lc : Nat) : List Nat :=
  tabKeys (fun f x => poolFrames ≤ f && frameLc f = lc && !x.free) s.mem.frames

/-- Ends requests until the live frames of a channel fit into the free frames of the others. -/
def makeFit (lc : Nat) : Nat → State → State
  | 0, s => s
  | fuel + 1, s =>
    if framesCover s (liveFrames s lc).length then s
    else match weakest s with
      | none => s
      | some i => makeFit lc fuel (giveUp i s)

/-- Replaces a frame number everywhere it is held: in leaves, and in the pointers to page tables that lie in the frame. -/
def renameFrame (a b : Nat) (s : State) : State :=
  let go (f : Nat) : Nat := if f = a then b else f
  let leaf (_ : Nat) (w : DWord) : DWord := if bitAt w 63 && leafFrame w = a then setFld w 38 16 b else w
  let old (w : DWord) : DWord := if bitAt w 63 && leafFrame w = a then setFld w 38 16 b else w
  { s with
    mem := { s.mem with
      pt := tabMap 0#64 leaf s.mem.pt
      tables := tabMap 0 (fun _ p => go (p / 65536) * 65536 + p % 65536) s.mem.tables
      tableFrame := s.mem.tableFrame.map fun x => (go x.1, x.2)
      journals := s.mem.journals.map fun j => { j with
        frames := j.frames.map go, entries := j.entries.map fun e => { e with old := old e.old } }
      slotResv := tabMap [] (fun _ fs => fs.map go) s.mem.slotResv }
    serve := { s.serve with
      nodes := tabMap none (fun _ n => n.map fun n => { n with pages := n.pages.map go }) s.serve.nodes
      reqs := tabMap none (fun _ r => r.map fun r => { r with ext := r.ext.map go }) s.serve.reqs }
    pair := { s.pair with
      dirty := s.pair.dirty.map go, frameMap := tabMap none (fun _ f => f.map go) s.pair.frameMap } }

/-- Moves a live frame's content and its owner to a free frame, and remaps it (R313). -/
def moveFrame (a b : Nat) (s : State) : State :=
  let m := s.mem
  let bs := tabRead 0#8 m.bytes (frameBytes * a) frameBytes
  let ps := tabRead false m.poison (1024 * a) 1024
  let cs := tabRead false m.corrupt (1024 * a) 1024
  let x := frameOf s a
  let s := { s with mem := { m with
    bytes := tabClear (tabWrite 0#8 m.bytes (frameBytes * b) bs) (frameBytes * a) frameBytes
    poison := tabClear (tabWrite false m.poison (1024 * b) ps) (1024 * a) 1024
    corrupt := tabClear (tabWrite false m.corrupt (1024 * b) cs) (1024 * a) 1024
    flips := tabClear (tabClear m.flips (1024 * b) 1024) (1024 * a) 1024 } }
  let s := setFrame a Frame.init (setFrame b x s)
  let pages := mappersOf s a
  pages.foldl (fun t p => ownEpoch p.1 p.2 (p.2 + 65536) t) (renameFrame a b s)

/-- Moves a live frame of the firmware hold: an L0 table to another of its places, any other frame to the lowest free one. -/
def moveHold (a : Nat) (s : State) : State :=
  let dst := if rootFrames.contains a then rootFrames.find? fun f => frameIn s f && (frameOf s f).free else freeHold s
  match dst with
  | some b => moveFrame a b s
  | none => s

/-- The software-pool frames of a logical channel. -/
def poolOf (lc : Nat) : Nat := (poolFrames - lc + 29) / 30

/-- Retires a logical channel in every stack (R312, R313). -/
def retireChannel (lc : Nat) (s : State) : State :=
  if s.hbm.lcRetired.contains lc then s
  else
    let s := { s with hbm := { s.hbm with lcRetired := s.hbm.lcRetired ++ [lc] } }
    let s := makeFit lc 8192 s
    let live := liveFrames s lc
    let s := (live.zip (freeFrames s live.length)).foldl (fun t q => moveFrame q.1 q.2 t) s
    let s := (liveHold s lc).foldl (fun t f => moveHold f t) s
    let s := { s with
      mem := { s.mem with capFrames := s.mem.capFrames - poolOf lc }
      hbm := { s.hbm with hbmStacks := tabMap Stack.init (fun _ k => { k with map := tabSet none k.map lc none }) s.hbm.hbmStacks }
      pair := { s.pair with mapChanged := true } }
    persist (fun x => { x with
      lcRetired := x.lcRetired ++ [lc], pc := x.pc.map fun b => if b = lc then 0xFF else b }) s

/-- Retires a pseudo-channel (R311, R312). -/
def retirePc (m pc : Nat) (s : State) : State :=
  let k := stackOf s m
  let s := setStack m { k with retired := k.retired ++ [pc], spares := k.spares.filter (· ≠ pc), training := k.training.filter (· ≠ pc) } s
  let s := match k.map.find? fun e => e.2 = some pc with | some e => retireChannel e.1 s | none => s
  persist (fun x => { x with pc := x.pc.set (32 * m + pc) 0xFF }) s

/-- A record of a retraining's end; the manual does not state its class and cause (notes/assumptions/45.md). -/
def logRetrain (action m : Nat) (s : State) : State :=
  let cause := (freeVal 2 s).toNat % 256
  logEvent { evBase s 3 cause action with unit := 0x4000 + m, origin := originOf 6 true } (drawn s)

/-! ### Migrations -/

/-- Stacks that migrate. -/
def migrating (s : State) : Nat := ((List.range 8).filter fun m => (stackOf s m).migration.isSome).length

/-- The trigger that starts next (R307). -/
def nextTrigger (s : State) : Option (Nat × Nat) :=
  if migrating s ≥ 2 then none else s.hbm.trigQ.find? fun q => (stackOf s q.1).migration.isNone

/-- MIGRATION_START (R307, R308, R311): with no spare to migrate to, the pseudo-channel is retired. -/
def migrationStartOp (m : Nat) (s : State) : State :=
  match nextTrigger s with
  | none => s
  | some (k, pc) =>
    if k ≠ m then s
    else
      let s := { s with hbm := { s.hbm with trigQ := s.hbm.trigQ.erase (k, pc) } }
      let x := stackOf s m
      match x.spares, x.map.find? fun e => e.2 = some pc with
      | _, none => s
      | [], some _ => logRetrain 7 m (retirePc m pc s)
      | d :: _, some e => setStack m { x with migration := some ⟨e.1, pc, d, s.time⟩ } s

/-- MIGRATION_START (R307). -/
def execMigrationStart (stack : Nat) (s : State) : Res :=
  need (stack < 8) (.next (if mainUp s then settle (migrationStartOp stack s) else s))

/-- MIGRATION_SWITCH (R310, R745, R756): once the last row is copied. -/
def execMigrationSwitch (stack : Nat) (s : State) : Res :=
  need (stack < 8)
    (.next (match (stackOf s stack).migration with
    | none => s
    | some g =>
      if copiedRows s g < channelRows then s
      else
      let x := stackOf s stack
      let s := setStack stack { x with
        map := tabSet none x.map g.lc (some g.dst), spares := x.spares.filter (· ≠ g.dst), training := x.training ++ [g.src],
        migration := none } s
      persist (fun y => { y with pc := (y.pc.set (32 * stack + g.dst) g.lc).set (32 * stack + g.src) 0xFE }) s))

/-- A pseudo-channel in the order of its number among the spares. -/
def addSpare (pc : Nat) (xs : List Nat) : List Nat := xs.filter (· < pc) ++ [pc] ++ xs.filter (pc < ·)

/-- RETRAIN_DONE (R311, R761). -/
def execRetrainDone (stack pc : Nat) (ok : Bool) (s : State) : Res :=
  need (stack < 8 && pc < 32)
    (.next (
      let x := stackOf s stack
      if !x.training.contains pc then s
      else if ok then
        bump (0x80110 + 0x80 * stack) (logRetrain 0 stack (setStack stack { x with
          training := x.training.filter (· ≠ pc), spares := addSpare pc x.spares, tempTrain := tabSet 0 x.tempTrain pc x.tempC } s))
      else logRetrain 7 stack (retirePc stack pc s)))

end Sys2Proof.Machine
end

