-- ==== Sys2Proof/Machine/Helper.lean ====
section
/-! DEFINITION. Helper jobs (R165 to R171) and the Xzsh instructions (R172, R173). -/

namespace Sys2Proof.Machine

open Sys2Proof

/-- Whether a Stagehand can take a job. -/
def helperIdle (h : Stagehand) : Bool :=
  h.phase = .idle && h.job.isNone && h.serv.role.isSome && !h.serv.inReset && !h.serv.selftest

/-- HELPER_JOB_START (R167, R168): the oldest queued job starts, in user mode; on a change of partition the clear comes
first. The address at which an image begins is a free value (notes/assumptions/13.md). -/
def execHelperJobStart (sh : Nat) (s : State) : Res :=
  need (sh < 72) <|
    let h := shOf s sh
    match h.queue with
    | [] => .next s
    | j :: rest =>
      if !helperIdle h || s.fault.clReset.contains (sh / 18) then .next s
      else
        let same := h.serv.lastPart = some j.ctx.part
        .next (drawn (setSh sh { h with
          queue := rest, job := some j, phase := if same then .running else .clearing, machine := false,
          csr := if same then helperCsr h.csr else h.csr, pc := freeVal 10 s, serv := { h.serv with lastPart := some j.ctx.part } } s))

/-- HELPER_JOB_COMPLETE (R165): a running job that waits for nothing ends, and its Cue Light is signalled. -/
def execHelperJobComplete (sh : Nat) (s : State) : Res :=
  need (sh < 72) <|
    let h := shOf s sh
    match h.job with
    | none => .next s
    | some j =>
      if h.phase ≠ .running || h.wait.isSome || !h.xq.isEmpty then .next s
      else
        let s := setSh sh h.ended s
        let s := match j.cl with
          | some i => if j.inc = 0 then s else cueSigHw i j.inc (ctxOf j.ctx) (originOf 1 false) s
          | none => s
        .next (helperLess j (bump (0x60004 + 0x200 * sh) s))

/-- HELPER_FAULT (R171): a trap in the helper program, or a job that cannot run. -/
def execHelperFault (sh : Nat) (s : State) : Res :=
  need (sh < 72) (.next (raiseHelperFault sh 0 0 [] s))

/-! ### Xzsh (R172, R173) -/

/-- An x register: x0 reads 0. -/
def rdX (h : Stagehand) (r : BitVec 5) : DWord := if r = 0 then 0#64 else tabGet 0#64 h.x r.toNat
def wrX (h : Stagehand) (r : BitVec 5) (v : DWord) : Stagehand :=
  if r = 0 then h else { h with x := tabSet 0#64 h.x r.toNat v }

/-- The bytes of a v register of a Stagehand, and its 32-bit elements. -/
def rdVb (h : Stagehand) (r : Nat) : List Byte := tabRead 0#8 h.v (64 * r) 64
def wrVb (h : Stagehand) (r : Nat) (bs : List Byte) : Stagehand := { h with v := tabWrite 0#8 h.v (64 * r) (bs.take 64) }
def rdVw (h : Stagehand) (r : Nat) : List Word := (List.range 16).map fun i => BitVec.ofNat 32 (leAt (rdVb h r) (4 * i) 4)
def wrVw (h : Stagehand) (r : Nat) (ws : List Word) : Stagehand := wrVb h r (ws.flatMap fun w => leBytes 4 w.toNat)

/-- An Xzsh instruction of the helper program that a Stagehand runs. -/
def runZsh (sh : Nat) (s : State) (g : HelperJob → Stagehand → State) : Res :=
  need (sh < 72) <|
    let h := shOf s sh
    match h.job with
    | none => .next s
    | some j =>
      if h.phase = .running && h.wait.isNone then .next (g j h) else .next s

/-- The instruction is done. -/
def shNext (h : Stagehand) : Stagehand := { h with pc := h.pc + 4 }

/-- An Xzsh instruction on the Cue Light of a window index; HELPER_FAULT outside the window or the grants. -/
def runZshCue (sh : Nat) (rs1 : BitVec 5) (s : State) (g : HelperJob → Stagehand → Nat → State) : Res :=
  runZsh sh s fun j h =>
    let w := (rdX h rs1).toNat
    match cueIndex s j.ctx w with
    | none => raiseHelperFault sh w 0 [] s
    | some i => g j h i

/-- zsh.csig: a saturation writes a record (R145). DESIGN CHOICE: it raises nothing, as CUE_OVF is an engine's exception (R144, R154), and an
increment of 0 leaves the count as it is (notes/assumptions/97.md). -/
def execZshCsig (sh : Nat) (rs1 rs2 : BitVec 5) (s : State) : Res :=
  runZshCue sh rs1 s fun j h i =>
    setSh sh (shNext h) (cueSigHw i (fld (rdX h rs2) 15 0) (ctxOf j.ctx) (originOf 1 false) s)

/-- A wait of a Stagehand: the timeout is zshtmo µs (R148). -/
def zshWait (sh : Nat) (take : Bool) (rd rs1 rs2 : BitVec 5) (s : State) : Res :=
  runZshCue sh rs1 s fun _ h i =>
    let w : CueWait := { cl := i, target := (rdX h rs2).toNat, take := take, pd := none,
                         deadline := if h.zshtmo = 0 then none else some (s.time + h.zshtmo.toNat) }
    let s := setSh sh { h with wait := some w, waitRd := rd.toNat } s
    if waitNow (setSh sh { h with wait := none } s) w then endShWait sh 1 (takeCount w s) else s

/-- zsh.cwait. -/
def execZshCwait (sh : Nat) (rd rs1 rs2 : BitVec 5) (s : State) : Res := zshWait sh false rd rs1 rs2 s
/-- zsh.cwaitd. -/
def execZshCwaitd (sh : Nat) (rd rs1 rs2 : BitVec 5) (s : State) : Res := zshWait sh true rd rs1 rs2 s

/-- zsh.cset. -/
def execZshCset (sh : Nat) (rs1 rs2 : BitVec 5) (s : State) : Res :=
  runZshCue sh rs1 s fun _ h i => setSh sh (shNext h) (cueSet i (fld (rdX h rs2) 15 0) s)

/-- A 64-bit Flies atomic of a Stagehand (R173: alignment and bounds of R111, R113, R114). -/
def zshAtomic (sh : Nat) (rd rs1 : BitVec 5) (s : State) (g : Stagehand → DWord → DWord) : Res :=
  runZsh sh s fun j h =>
    let a := (rdX h rs1).toNat
    if a % 8 ≠ 0 || a + 8 > flSize j.ctx then raiseHelperFault sh a 0 [] s
    else if flUnderTest s j.ctx a 8 then s
    else
      let old := BitVec.ofNat 64 (leNat (flRead s j.ctx a 8))
      let s := flEcc j.ctx a 8 s
      setSh sh (shNext (wrX h rd old)) (flWrite j.ctx a (leBytes 8 (g h old).toNat) s)

/-- zsh.fladd. -/
def execZshFladd (sh : Nat) (rd rs1 rs2 : BitVec 5) (s : State) : Res :=
  zshAtomic sh rd rs1 s fun h old => old + rdX h rs2
/-- zsh.flcas: expected rd, new rs2. -/
def execZshFlcas (sh : Nat) (rd rs1 rs2 : BitVec 5) (s : State) : Res :=
  zshAtomic sh rd rs1 s fun h old => if old = rdX h rd then rdX h rs2 else old

/-- The increment and the window index in the second operand of zsh.xfer: a byte and a halfword at places that the manual does not
state (notes/assumptions/22.md). -/
def zshInc (v : DWord) : Nat := leAt (leBytes 8 v.toNat) (Config.zshPlace 5 % 8) 1
def zshIndex (v : DWord) : Nat := leAt (leBytes 8 v.toNat) (2 * (Config.zshPlace 4 % 4)) 2

/-- The transfer that a descriptor of zsh.xfer asks for. DESIGN CHOICE: its addresses and its length are little-endian fields of natural
alignment, its direction is one bit, and their places are free values (notes/assumptions/22.md). -/
def zshXferOf (s : State) (j : HelperJob) (h : Stagehand) (d : List Byte) (v : DWord) : Xfer :=
  { st := bitAt (BitVec.ofNat 256 (leNat d)) (Config.zshPlace 0 % 256), lm := leAt d (4 * (Config.zshPlace 1 % 8)) 4,
    dv := leAt d (8 * (Config.zshPlace 2 % 4)) 8, rows := 1, len := leAt d (4 * (Config.zshPlace 3 % 8)) 4, lmStride := 0, dvStride := 0,
    cue := if zshInc v = 0 then none else (cueIndex s j.ctx (zshIndex v)).map fun k => (k, zshInc v), pc := h.pc.toNat % 2 ^ 20,
    epoch := tabGet 0#32 s.mem.epochs j.ctx.part, held := [] }

/-- Whether a transfer of a Stagehand is legal: aligned and whole as R196 has it, inside local memory, and its Cue Light in the window and
the grants (R173). -/
def zshXferOk (s : State) (j : HelperJob) (t : Xfer) (v : DWord) : Bool :=
  t.len ≠ 0 && t.len % 64 = 0 && t.dv % 64 = 0 && t.lm % 64 = 0 && t.lm + t.len ≤ 0x80000 &&
    (zshInc v = 0 || (cueIndex s j.ctx (zshIndex v)).isSome)

/-- zsh.xfer: DMA between DV and local memory, queued behind the Stagehand's earlier transfers (R172, R173). -/
def execZshXfer (sh : Nat) (rs1 rs2 : BitVec 5) (s : State) : Res :=
  runZsh sh s fun j h =>
    let a := (rdX h rs1).toNat
    let t := zshXferOf s j h (tabRead 0#8 h.lm a 32) (rdX h rs2)
    if a + 32 > 0x80000 || !zshXferOk s j t (rdX h rs2) then raiseHelperFault sh a 0 [] s
    else if h.xq.length ≥ 16 then s
    else setSh sh (shNext { h with xq := h.xq ++ [t] }) s

/-- The 64 bytes of a packed MX block: the elements as a bit stream from byte 0 (R267), and the scale at a byte that
the manual does not state (notes/assumptions/25.md). -/
def mxBlockBytes (f : Nat) (scale : Nat) (els : List Nat) : List Byte :=
  (slice (leBytes 32 (packStream (fmtWidth f) els)) 0 64).set (Config.zshPlace (16 + f) % 64) (BitVec.ofNat 8 scale)

/-- A NaN that a helper program writes sets st.flags.NAN of the engine whose entry posted the job: a Stagehand has no st.flags
(notes/assumptions/67.md). -/
def helperNan (h : Stagehand) (nan : Bool) (s : State) : State :=
  match h.job with
  | some j => if (engOf s j.eng).run = some j.ctx then modEng j.eng (fun x => withFlags x false nan) s else s
  | none => s

/-- zsh.mxpack (R271): 32 FP32 elements of vs2 and the register after it, rounded to nearest even. A format code that
is not an MX format traps. -/
def execZshMxpack (sh : Nat) (vd vs2 vs1 : BitVec 5) (s : State) : Res :=
  runZsh sh s fun _ h =>
    let f := leAt (rdVb h vs1.toNat) 0 1 % 16
    if !fmtMx f then raiseHelperFault sh 0 0 [] s
    else
      let xs := rdVw h vs2.toNat ++ rdVw h ((vs2.toNat + 1) % 32)
      let r := mxPack f (fun _ => .nearest) (xs.map dec32)
      helperNan h r.2.2 (setSh sh (shNext (wrVb h vd.toNat (mxBlockBytes f r.1 r.2.1))) s)

/-- zsh.mxunpack (R277): one block of vs2 to 32 FP32 elements of vd and the register after it. -/
def execZshMxunpack (sh : Nat) (vd vs2 vs1 : BitVec 5) (s : State) : Res :=
  runZsh sh s fun _ h =>
    let f := leAt (rdVb h vs1.toNat) 0 1 % 16
    if !fmtMx f then raiseHelperFault sh 0 0 [] s
    else
      let b := rdVb h vs2.toNat
      let scale := (b.getD (Config.zshPlace (16 + f) % 64) 0).toNat
      let xs := (List.range 32).map fun i => BitVec.ofNat 32 (convertUp f (streamElem b (fmtWidth f) i) scale)
      helperNan h (anyNan xs) (setSh sh (shNext (wrVw (wrVw h vd.toNat (xs.take 16)) ((vd.toNat + 1) % 32) (xs.drop 16))) s)

/-- zsh.philox (R283): counter in vs2, key in vs1, one group for each 128 bits. -/
def execZshPhilox (sh : Nat) (vd vs2 vs1 : BitVec 5) (s : State) : Res :=
  runZsh sh s fun _ h =>
    let r := (List.range 4).flatMap fun g => philoxGroup (rdVw h vs2.toNat) (rdVw h vs1.toNat) g
    setSh sh (shNext (wrVw h vd.toNat r)) s

/-- zsh.ctx: the context tag of the job. -/
def execZshCtx (sh : Nat) (rd : BitVec 5) (s : State) : Res :=
  runZsh sh s fun j h => setSh sh (shNext (wrX h rd (ctxOf j.ctx))) s

end Sys2Proof.Machine
end

