-- ==== Sys2Proof/Machine/Host.lean ====
section
/-! DEFINITION. The host's commands over PCIe: submission and completion queues (R545 to R559), interrupts and function reset
(R564 to R568), Cue Lights (R539 to R541) and the aperture (R542 to R544). -/

namespace Sys2Proof.Machine

open Sys2Proof

/-! ### Queue pairs -/

/-- Whether an operand names a queue pair. -/
def qpValid (fn k : Nat) : Bool := fn ≤ 8 && k < 16

/-- A queue error: NET_Qk_CFG.ERR, the queue pair stops, and vector 0 is signalled (R553, R565). -/
def queueError (fn k : Nat) (s : State) : State := signalVec fn 0 (modQp fn k (fun q => { q with err := true }) s)

/-- What a write of TAIL does. -/
def sqTailOp (fn k : Nat) (tail : Nat) (s : State) : State :=
  let s := setRegF (qpAddr fn k 0x18) 11 0 tail s
  let q := qpOf s fn k
  if !q.en || q.err then s
  else if tail ≥ sqDepth s fn k then queueError fn k s
  else setQp fn k { q with sqTail := tail } s

/-- SQ_TAIL_WRITE (R553). -/
def execSqTailWrite (fn k : Nat) (tail : Word) (s : State) : Res :=
  need (qpValid fn k) (.next (if linkUp s then sqTailOp fn k (fld tail 11 0) s else s))

/-- What a write of HEAD does. -/
def cqHeadOp (fn k : Nat) (head : Nat) (s : State) : State :=
  let s := setRegF (qpAddr fn k 0x1C) 11 0 head s
  let q := qpOf s fn k
  if !q.en || q.err then s
  else if head ≥ cqDepth s fn k then queueError fn k s
  else setQp fn k { q with cqHead := head } s

/-- CQ_HEAD_WRITE (R554). -/
def execCqHeadWrite (fn k : Nat) (head : Word) (s : State) : Res :=
  need (qpValid fn k) (.next (if linkUp s then cqHeadOp fn k (fld head 11 0) s else s))

/-- A clear of EN. -/
def qpStop (fn k : Nat) (s : State) : State := modQp fn k (fun q => { q with en := false }) s

/-- QUEUE_PAIR_DISABLE (R556). -/
def execQueuePairDisable (fn k : Nat) (s : State) : Res := need (qpValid fn k) (.next (if linkUp s then qpStop fn k s else s))

/-- A set of EN: both heads and tails go to 0, PHASE to 1, and ERR is cleared. -/
def qpStart (fn k : Nat) (s : State) : State :=
  let q := qpOf s fn k
  if q.en then s
  else setRegF (qpAddr fn k 0x18) 11 0 0 (setRegF (qpAddr fn k 0x1C) 11 0 0
    (setQp fn k { QPair.init with en := true, wait := q.wait, drops := q.drops } s))

/-- QUEUE_PAIR_ENABLE (R556). -/
def execQueuePairEnable (fn k : Nat) (s : State) : Res := need (qpValid fn k) (.next (if linkUp s then qpStart fn k s else s))

/-- Whether the device fetches the next SQ entry (R553, R556, R559). -/
def sqReady (s : State) (fn k : Nat) : Bool :=
  let q := qpOf s fn k
  q.en && !q.err && q.sqHead ≠ q.sqTail && q.wait.length < 128

/-- The SQ head goes past the fetched entry. -/
def sqAdvance (fn k : Nat) (s : State) : State :=
  modQp fn k (fun q => { q with sqHead := (q.sqHead + 1) % sqDepth s fn k }) s

/-- Whether an SQ entry has the layout of R546. -/
def sqEntryOk (x : SqEntry) : Bool :=
  x.resvOk && 1 ≤ x.kind.toNat && x.kind.toNat ≤ 5 && 64 ≤ x.length.toNat && x.length.toNat ≤ 2 ^ 24 && x.addr.toNat % 64 = 0

/-- Posts a receive buffer (R549). -/
def rxPost (fn k : Nat) (x : SqEntry) (s : State) : State :=
  modQp fn k (fun q => { q with rx := q.rx ++ [(x.cid, x.length.toNat)] }) s

/-- What a fetched entry does (R546, R547, R580). -/
def sqEntryOp (fn k : Nat) (x : SqEntry) (m : Sealed) (s : State) : State :=
  if sqEntryOk x && x.kind = 5 then rxPost fn k x s
  else
    let part := qpPart s fn k
    match sealCheck s part (sqEntryOk x && x.kind = m.kind) x.length.toNat m with
    | some (i, st) => queueEvent fn k (.error st x.cid m.jobId m.seq) (countSeal i s)
    | none => takeMsg (.pcie fn k x.cid) part m s

/-- SQ_FETCH (R546, R547, R559, R580). -/
def execSqFetch (fn k : Nat) (x : SqEntry) (m : Sealed) (s : State) : Res :=
  need (qpValid fn k) (.next (if s.beat.started && sqReady s fn k then sqEntryOp fn k x m (sqAdvance fn k s) else s))

/-- DATA (R575): the payload of an accepted DATA message. -/
def execData (part : Nat) (plain : List Byte) (s : State) : Res :=
  need (part < 8) (.next (if s.beat.started then dataOp part plain s else s))

/-- RXBUF (R546, R549): the device takes an SQ entry that posts a receive buffer. -/
def execRxbuf (fn k : Nat) (x : SqEntry) (s : State) : Res :=
  need (qpValid fn k) (.next (if sqReady s fn k then
    (if sqEntryOk x && x.kind = 5 then rxPost fn k x (sqAdvance fn k s) else s) else s))

/-! ### Outbound events -/

/-- Bytes of a sealed reply (R385, R574). -/
def replySize : Nat := sealedSize 32

/-- The event at the head of a wait queue leaves (R549, R551, R557). A reply needs its buffers and its CQ entry; one whose job key
is gone cannot be sealed, and is dropped. A result leaves through its gate. -/
def outHead (fn k : Nat) (s : State) : State :=
  let q := qpOf s fn k
  match q.wait with
  | [] => s
  | ev :: rest =>
    if !q.en then dropAtPort (fnSlice fn) ev (setQp fn k { q with wait := rest, drops := countDrop q.drops ev.dropIdx } s)
    else match ev with
      | .result _ => s
      | .member _ _ _ _ => popWait fn k s
      | .error st cid job seq => if cqRoom s fn k then writeCq fn k 3 st cid 0 0 job seq (popWait fn k s) else s
      | .walkon slot st code =>
        if cqRoom s fn k then writeCq fn k 4 st (BitVec.ofNat 16 slot) 0 code 0 0 (popWait fn k s) else s
      | .reply r cid =>
        match sealEpoch s r.job r.made with
        | none => popWait fn k s
        | some e =>
          match rxSpan replySize q.rx with
          | none => s
          | some n =>
            if cqRoom s fn k then
              writeCq fn k 1 0 cid replySize n r.job r.seq
                (emit (.sealed (sealOut s r.route r.part r.job e 0x11 0xFF r.seq (replyBytes r) replySize)) (setQp fn k { q with rx := q.rx.drop n, wait := rest } s))
            else s

/-- OUTBOUND_EVENT (R549 to R558): an OVERFLOW entry that is due goes first. -/
def execOutboundEvent (fn k : Nat) (s : State) : Res :=
  need (qpValid fn k) <|
    let q := qpOf s fn k
    if q.en && q.err then .next s
    else
      let s := if q.en then writeOverflow fn k s else s
      .next (if q.en && !(qpOf s fn k).drops.all (· = 0) then s else outHead fn k s)

/-- MSIX_COALESCE (R565, R566): the coalescing time of the oldest unsignalled entry passes. -/
def execMsixCoalesce (fn k : Nat) (s : State) : Res :=
  need (qpValid fn k) <|
    let q := qpOf s fn k
    .next (if q.unsignalled > 0 then
      atTime (q.oldestUs + regF s (qpAddr fn k 0x14) 31 16) (fun s =>
        signalVec fn (regF s (qpAddr fn k 0x10) 18 14) (setQp fn k { q with unsignalled := 0 } s)) s
    else s)

/-! ### Function reset -/

/-- The queue registers of a function, and its interrupt vectors, at their reset values. -/
def resetFnRegs (fn : Nat) (s : State) : State :=
  let a := 0xB1000 + 0x1000 * fnSlice fn
  let v := 2 ^ 32 * (fn + 1) + 0xBE000
  let keep := tabFilter (fun k _ => !(a ≤ k && k < a + 0x400) && k ≠ a + 0x420 && !(v ≤ k && k < v + 0x2000)) s.regs
  let fresh := tabFilter (fun k _ => a ≤ k && k < a + 0x400) regsReset
  { s with regs := fresh.foldl (fun t e => tabSet 0#32 t e.1 e.2) keep }

/-- One queue pair under R567: its wait queue is dropped, each result in it counted. -/
def resetQp (fn k : Nat) (s : State) : State :=
  let q := qpOf s fn k
  q.wait.foldl (fun t ev => dropAtPort (fnSlice fn) ev t) (setQp fn k QPair.init s)

/-- A reset of one function (R567, R568); the mirror's latch of R457 is the physical function's (R872). -/
def resetFunction (fn : Nat) (s : State) : State :=
  let s := (List.range 16).foldl (fun t k => resetQp fn k t) s
  let s := resetFnRegs fn { s with
    latch := tabFilter (fun k _ => k / 2 ^ 32 ≠ fn) s.latch
    net := { s.net with msix := tabFilter (fun k _ => k / 32 ≠ fn) s.net.msix } }
  if fn = 0 then { s with board := { s.board with hiLatch := tabSet none s.board.hiLatch 1 none } } else s

/-- FUNCTION_LEVEL_RESET (R567, R568). -/
def execFunctionLevelReset (fn : Nat) (s : State) : Res := need (fn ≤ 8) (.next (resetFunction fn s))

/-- Every function is reset, as at a link down (R567). -/
def endpointDown (s : State) : State := (List.range 9).foldl (fun t fn => resetFunction fn t) s

/-- PERST_N_ASSERT (R567, R695). -/
def execPerstNAssert (s : State) : Res :=
  .next (endpointDown { s with net := { s.net with perst := false } })

/-- PERST_N_RELEASE (R854): the endpoint trains its link. -/
def execPerstNRelease (s : State) : Res := .next { s with net := { s.net with perst := true } }

/-! ### Cue Lights (R539 to R541) -/

/-- Whether a function may reach a Cue Light (R540): the physical function reaches every one. -/
def bar2Ok (s : State) (fn cl : Nat) : Bool := fn = 0 || cueGranted s (fn - 1) cl

/-- NET_Pn_CL_DENY_CNT. -/
def clDeny (fn : Nat) (s : State) : State := bump (0xB1414 + 0x1000 * fnSlice fn) s

/-- BAR2_SIG (R143, R145, R539, R540): an increment of 0 has no effect. -/
def execBar2Sig (fn cl : Nat) (v : Word) (s : State) : Res :=
  need (fn ≤ 8 && cl < 65536) (.next (
    if !linkUp s then s
    else if !bar2Ok s fn cl then clDeny fn s
    else if fld v 15 0 = 0 then s
    else cueSigHw cl (fld v 15 0) (noCtx (fn - 1)) (originOf 4 false) s))

/-- BAR2_SET (R539, R540). -/
def execBar2Set (fn cl : Nat) (v : Word) (s : State) : Res :=
  need (fn ≤ 8 && cl < 65536) (.next (if !linkUp s then s else if !bar2Ok s fn cl then clDeny fn s else cueSet cl (fld v 15 0) s))

/-! ### The aperture (R542 to R544) -/

/-- Whether BAR4 reaches memory (R543). -/
def apertureOn (s : State) (part : Nat) : Bool := regF s (0xB1420 + 0x1000 * part) 0 0 = 1

/-- NET_Pn_AP_FAULT_CNT. -/
def apFault (part : Nat) (s : State) : State := bump (0xB1418 + 0x1000 * part) s

/-- All ones. -/
def ones (n : Nat) : List Byte := List.replicate n 0xFF#8

/-- BAR4_READ (R542 to R544). -/
def execBar4Read (part off len : Nat) (s : State) : Res :=
  need (part < 8) <|
    if !linkUp s then .next s
    else if !apertureOn s part then .next (emit (.bytes (ones len)) s)
    else
      let r := dvRead (partMem part 4 false) off len s
      .next (if r.fault.isSome || r.poisoned then settle (emit (.bytes (ones len)) (apFault part r.st))
        else settle (emit (.bytes r.bytes) r.st))

/-- BAR4_WRITE (R542 to R544, R879). -/
def execBar4Write (part off : Nat) (bytes : List Byte) (s : State) : Res :=
  need (part < 8) <|
    if !linkUp s || !apertureOn s part then .next s
    else
      let c := partMem part 4 false
      if (rangeFault s c true off bytes.length).isSome then .next (apFault part (bump 0x70040 s))
      else if (rangeCopies s c off bytes.length).isSome then .next (apFault part s)
      else
        let r := dvStoreP c off bytes s
        .next (settle (if r.2 then apFault part r.1 else r.1))

end Sys2Proof.Machine
end

