-- ==== Sys2Proof/Machine/RegRead.lean ====
section
/-! DEFINITION. What BAR0 reads (R6, R7, R537, R868 to R874): the fields that mirror the state, block by block, the view of each
function, and the LO and HI latches. -/

namespace Sys2Proof.Machine

open Sys2Proof

/-- A register word from its fields: high bit, low bit and value of each. Every other bit reads 0 (R7). -/
def word (fs : List (Nat × Nat × Nat)) : Word := fs.foldl (fun w f => setFld w f.1 f.2.1 f.2.2) 0#32

/-- Two's complement of a temperature or an energy in a number of bits. -/
def twos (n : Nat) (x : Int) : Nat := (BitVec.ofInt n x).toNat

/-- The index of an array register, when the address lies in the array. -/
def idxAt (a base count stride : Nat) : Option Nat :=
  if base ≤ a && (a - base) % stride = 0 && (a - base) / stride < count then some ((a - base) / stride) else none

/-- The slice and the offset in it. -/
def sliceAt (a base count stride : Nat) : Option (Nat × Nat) :=
  if base ≤ a && (a - base) / stride < count then some ((a - base) / stride, (a - base) % stride) else none

/-! ### DEV (R782, R874) -/

/-- Byte i of the inventory copy in use. -/
def invWord (s : State) (i : Nat) : Word :=
  if (inventory s).valid then BitVec.ofNat 32 (leAt (inventoryBytes s.boot.serial (inventory s)) (4 * i) 4) else 0

/-- DEV registers. -/
def devReg (s : State) (fn a : Nat) : Word :=
  let b := slotBundle s s.upd.running
  let v (i : Nat) : Nat := (b.version.getD i 0).toNat
  if a = 0 then word [(31, 16, 0x0D09), (15, 8, 0xB1)]
  else if a = 4 then (if s.sec.bootVerified then word [(31, 24, v 0), (23, 16, v 1), (15, 8, v 2), (7, 0, s.upd.schema.toNat)] else 0)
  else if a = 8 then s.boot.serial
  else if a = 0xC then word [(31, 31, b2n (fn ≠ 0)), (26, 24, fn - 1), (4, 0, s.pins.slotId.toNat)]
  else if a = 0x10 then word [(31, 24, 0x48), (23, 16, 0x24), (15, 12, 3), (11, 8, 8), (7, 4, 5), (3, 0, 5)]
  else if a = 0x14 then word [(31, 24, 0x80), (23, 16, 0x30), (15, 8, 8), (7, 4, 5), (3, 0, 3)]
  else if a = 0x18 then word [(31, 16, 0x2000), (15, 0, 0x1000)]
  else if a = 0x40 then word [(31, 30, s.boot.kind), (29, 29, b2n s.boot.rebuilt), (28, 28, b2n s.boot.coldNext), (23, 16, s.boot.step),
    (15, 8, s.boot.retired), (7, 0, s.boot.status.toNat)]
  else if a = 0x44 then BitVec.ofNat 32 s.boot.durationMs
  else match idxAt a 0x200 128 4 with
    | some i => invWord s i
    | none => 0

/-! ### BEAT and ENERGY -/

/-- Words of a partition's ENERGY slice; a virtual function reads DEFERRED as at the last edge (R621). -/
def energySlice (s : State) (fn n off : Nat) : Word :=
  if off = 8 then BitVec.ofNat 32 (tabGet 0 s.energy.shownUj n / 1000)
  else if off = 0xC then BitVec.ofNat 32 (tabGet 0 s.energy.shownEus n)
  else if off = 0x10 then BitVec.ofNat 32 (tabGet 0 s.energy.shownPeriod n / 1000)
  else if off = 0x14 then word [(0, 0, b2n ((if fn = 0 then s.energy.defer else s.energy.deferShown).contains n))]
  else 0

/-- BEAT and ENERGY registers that mirror the state. -/
def beatReg (s : State) (fn a : Nat) : Word :=
  if a = 0x10010 then s.beat.num.truncate 32
  else if a = 0x10014 then (s.beat.num >>> 32).truncate 32
  else if a = 0x10018 then word [(15, 0, min 0xFFFF s.beat.phaseUs)]
  else if a = 0x1001C then word [(5, 5, b2n (decide (s.beat.period < 2 * s.beat.lead))), (4, 4, b2n (s.beat.periodPend.isSome || s.beat.periodNext.isSome)),
    (1, 1, b2n s.beat.holdover), (0, 0, b2n s.beat.locked)]
  else if a = 0x20000 then word [(9, 0, s.energy.cap)]
  else if a = 0x20004 then BitVec.ofNat 32 (s.energy.cap * s.beat.period)
  else if a = 0x20014 then (if s.energy.resumed then BitVec.ofNat 32 s.energy.billNum else 0)
  else if a = 0x20018 then word [(2, 2, b2n (s.energy.capPend.isSome || s.energy.capNext.isSome)), (0, 0, b2n s.energy.stepped)]
  else if a = 0x2001C then BitVec.ofNat 32 s.energy.lastMj
  else if a = 0x20020 then BitVec.ofInt 32 (s.energy.reserve / 1000)
  else if a = 0x20040 then s.energy.gen
  else match sliceAt a 0x20100 8 0x40 with
    | some (n, off) => energySlice s fn n off
    | none => 0

/-! ### FLIES, CUE, ENGINE and STAGEHAND -/

/-- A byte of FLIES_FLAT_MAP (R247). -/
def flatByte (s : State) (f : Nat) : Nat :=
  let x := flatOf s f
  b2n x.test * 32 + b2n x.lent * 16 + if x.retired then 0xE else x.holder

/-- The flats that a partition holds, all of them or the lent ones. -/
def flatsHeld (s : State) (n : Nat) (lent : Bool) : Nat :=
  (s.flies.flats.filter fun e => e.2.holder = n && !e.2.retired && (!lent || e.2.lent)).length

/-- FLIES registers that mirror the state; a virtual function reads SHORT as at the last edge (R621). -/
def fliesReg (s : State) (fn a : Nat) : Word :=
  let pool := (poolFlats s).length
  if a = 0x30004 then word [(31, 31, b2n !s.flies.short.isEmpty), (23, 16, (s.flies.flats.filter fun e => e.2.retired).length),
    (15, 8, if s.flies.areas = [] then 0 else pool - sumNat (s.sec.enabled.map fun n => tabGet 4 s.flies.guar n)),
    (7, 0, (s.flies.flats.filter fun e => e.2.lent).length)]
  else match idxAt a 0x30100 32 4 with
    | some i => word [(31, 24, flatByte s (4 * i + 3)), (23, 16, flatByte s (4 * i + 2)), (15, 8, flatByte s (4 * i + 1)), (7, 0, flatByte s (4 * i))]
    | none => match sliceAt a 0x30200 8 0x20 with
      | some (n, off) =>
        if off = 4 then word [(15, 8, flatsHeld s n true), (7, 0, flatsHeld s n false)]
        else if off = 8 then word [(1, 1, b2n ((if fn = 0 then s.flies.short else s.flies.shortShown).contains n))] else 0
      | none => 0

/-- ENG_STAT and SH_STAT. -/
def statWord (x : UnitServ) : Word :=
  word [(31, 31, b2n x.role.isSome), (30, 30, b2n x.spare), (29, 29, b2n x.inReset), (28, 28, b2n x.selftest),
    (10, 8, x.lastPart.getD 0), (7, 0, x.role.getD 0xFF)]

/-- CUE, ENGINE and STAGEHAND registers that mirror the state. -/
def unitReg (s : State) (a : Nat) : Word :=
  if a = 0x40014 then
    let c := cueOf s (regF s 0x40010 15 0)
    word [(16, 16, b2n c.ovf), (15, 0, c.count)]
  else match sliceAt a 0x40100 8 0x10 with
    | some (n, off) => if off = 0 then grantWord s n 0 else if off = 4 then grantWord s n 1 else 0
    | none => match sliceAt a 0x50000 36 0x400 with
      | some (e, off) => if off = 0 then statWord (engOf s e).serv else if off = 4 then word [(7, 0, (engOf s e).excLast.toNat)] else 0
      | none => match sliceAt a 0x60000 72 0x200 with
        | some (k, off) => if off = 0 then statWord (shOf s k).serv else 0
        | none => 0

/-! ### MMU and HBM -/

/-- Words of an MMU slice. -/
def mmuSlice (s : State) (n off : Nat) : Word :=
  if off = 0 then word [(31, 12, tabGet 0 s.mem.tables (tableKey n 0 0) / 2 ^ 19)]
  else if off = 4 then tabGet 0#32 s.mem.epochs n
  else if off = 8 then regW s (0x70108 + 0x20 * n) &&& 0xF#32
  else if off = 0xC then BitVec.ofNat 32 (s.mem.frames.filter fun e => e.2.owner = some n).length
  else 0

/-- MMU registers that mirror the state. -/
def mmuReg (s : State) (a : Nat) : Word :=
  let used := (s.mem.frames.filter fun e => e.1 < poolFrames && !e.2.free && !s.hbm.lcRetired.contains (frameLc e.1)).length
  if a = 0x70000 then word [(31, 31, b2n !s.mem.epochQ.isEmpty), (11, 8, s.mem.epochQ.length - 1), (7, 0, s.mem.epochStatus.toNat)]
  else if a = 0x70004 then (if s.beat.started then BitVec.ofNat 32 (s.mem.capFrames - used) else 0)
  else if a = 0x70008 then BitVec.ofNat 32 s.mem.capFrames
  else if a = 0x7000C then BitVec.ofNat 32 s.mem.rcBase
  else if a = 0x70010 then BitVec.ofNat 32 (s.mem.rcBase / 2 ^ 32)
  else match sliceAt a 0x70100 9 0x20 with
    | some (n, off) => mmuSlice s n off
    | none => 0

/-- A byte of HBM_Mk_PCMAP. -/
def pcByte (x : Stack) (lc : Nat) : Nat := match tabGet none x.map lc with | some pc => 128 + pc | none => 0

/-- Words of an HBM slice. -/
def hbmSlice (s : State) (m off : Nat) : Word :=
  let x := stackOf s m
  let head (p : Nat) : Nat := tabGet 0 x.headCnt p
  if off = 0 then word [(31, 31, b2n !x.training.isEmpty), (30, 30, b2n x.migration.isSome), (29, 29, b2n (x.level ≠ 0)),
    (25, 24, x.spares.length), (23, 16, twos 8 x.tempC), (12, 8, (x.migration.map Migration.src).getD 0),
    (4, 0, (x.migration.map Migration.dst).getD 0)]
  else if off = 4 then x.retired.foldl (fun w i => setFld w i i 1) 0#32
  else if off = 0x14 then word [(17, 0, (x.migration.map (copyPointer s)).getD 0)]
  else if off = 0x18 then word [(29, 24, head 3), (21, 16, head 2), (13, 8, head 1), (5, 0, head 0)]
  else if off = 0x1C then word [(5, 0, head 4)]
  else match idxAt off 0x40 8 4 with
    | some i => word [(31, 24, pcByte x (4 * i + 3)), (23, 16, pcByte x (4 * i + 2)), (15, 8, pcByte x (4 * i + 1)), (7, 0, pcByte x (4 * i))]
    | none => 0

/-- HBM registers that mirror the state. -/
def hbmReg (s : State) (a : Nat) : Word :=
  if a = 0x80008 then s.hbm.lcRetired.foldl (fun w i => setFld w i i 1) 0#32
  else match sliceAt a 0x80100 8 0x80 with
    | some (m, off) => hbmSlice s m off
    | none => 0

/-! ### SERVE and VIDEO -/

/-- Words of a SERVE slice: the counts show since the last edge (R449). -/
def serveSlice (s : State) (n off : Nat) : Word :=
  if off = 0xC then word [(13, 0, tabGet 0 s.serve.liveShown n)]
  else if off = 0x10 then word [(22, 0, tabGet 0 s.serve.nodesShown n)]
  else match idxAt off 0x14 4 4 with
    | some i => tabGet 0#32 s.serve.shown (4 * n + i)
    | none => 0

/-- SERVE registers that mirror the state. -/
def serveReg (s : State) (a : Nat) : Word :=
  if a = 0x90004 then word [(17, 16, s.serve.walkers), (13, 0, (liveWhere s fun _ => true).length)]
  else if a = 0x90008 then BitVec.ofNat 32 (countBase s)
  else if a = 0x9000C then BitVec.ofNat 32 (countBase s / 2 ^ 32)
  else if a = 0x90010 then word [(31, 16, cdiv (poolBytes s) 1048576)]
  else match idxAt a 0x90100 4 4 with
    | some c =>
      let q := tabGet Sampler.init s.serve.samplers c
      word [(31, 31, b2n q.phys.isSome), (30, 30, b2n (q.phys = some 4)), (2, 0, q.phys.getD 0)]
    | none => match sliceAt a 0x90200 8 0x40 with
      | some (n, off) => serveSlice s n off
      | none => 0

/-- Words of a stream. -/
def streamReg (s : State) (m off : Nat) : Word :=
  let x := streamOf s m
  if off = 0 then
    if x.state = .closed then 0
    else word [(31, 29, streamCode x.state), (28, 26, x.part), (25, 25, b2n x.needKey), (24, 24, b2n (x.flag 0)), (23, 23, b2n x.gdr),
      (22, 22, b2n (x.flag 1)), (21, 20, x.kind), (19, 14, x.group)]
  else
    match x.ready.getLast? with
    | some f => BitVec.ofNat 32 f.frameNo
    | none => match x.good with | some f => BitVec.ofNat 32 f.frameNo | none => 0

/-- VIDEO registers that mirror the state; the counts of a partition's slice show since the last edge (R533). -/
def videoReg (s : State) (a : Nat) : Word :=
  let os := openStreams s
  let first := (firstFit s).video
  let spare := (List.range 5).any fun k => first.getD k 0 = 0xFE && (vengOf s k).inService
  if a = 0xA0004 then word [(21, 16, (os.filter fun q => q.2.gdr).length), (13, 8, os.length),
    (3, 3, b2n spare), (2, 0, videoEngines s)]
  else match idxAt a 0xA0010 5 4 with
    | some k =>
      let v := vengOf s k
      word [(31, 31, b2n (v.inService && !v.failed)), (30, 30, b2n v.selftest), (29, 29, b2n (stepOf s (60 + k) ≠ 0)),
        (5, 0, if v.frame.isSome then v.stream.getD 0x3F else 0x3F)]
    | none => match sliceAt a 0xA0100 48 8 with
      | some (m, off) => streamReg s m off
      | none => match sliceAt a 0xA0400 8 0x20 with
        | some (n, off) =>
          if off = 0 then regW s (0xA0400 + 0x20 * n) &&& 1#32
          else if off = 4 then
            let v := tabGet 0 s.video.openShown n
            word [(11, 8, v / 64), (5, 0, v % 64)]
          else if off = 8 then tabGet 0#32 s.video.omitShown n else 0
        | none => 0

/-! ### NET -/

/-- The setting of a register that the RoT sets from the settings record. -/
def settingOf (s : State) (a : Nat) : Word := match s.upd.settings.find? fun e => e.1 = a with | some e => e.2 | none => 0

/-- Words of a queue pair that mirror the state. A virtual function reads its own partition in PART (R589). -/
def qpRegWord (s : State) (fn n k off : Nat) : Word :=
  let q := qpOf s (if n = 8 then 0 else n + 1) k
  if off = 0x10 then word [(31, 31, b2n q.en), (30, 30, b2n q.err)] ||| (if fn = 0 then 0#32 else word [(29, 27, fn - 1)])
  else if off = 0x20 then word [(11, 0, q.sqHead)] else 0

/-- NET registers that mirror the state. -/
def netReg (s : State) (fn a : Nat) : Word :=
  match idxAt a 0xB0010 5 4 with
  | some i =>
    let p := tabGet Port.init s.net.ports i
    word [(31, 31, b2n p.role.isSome), (30, 30, b2n p.link), (29, 29, b2n p.ptp), (2, 0, p.role.getD 7)]
  | none =>
    if a = 0xB0030 then word [(31, 31, b2n s.net.busy), (2, 0, s.net.takeover.getD 7)]
    else if a = 0xB0034 then word [(8, 8, fld (settingOf s 0xB0034) 8 8), (1, 0, s.net.mgmtLink.toNat)]
    else if a = 0xB0124 then word [(7, 0, s.net.rqpStat.toNat)]
    else match sliceAt a 0xB1000 9 0x1000 with
      | some (n, off) =>
        if off < 0x400 then qpRegWord s fn n (off / 0x40) (off % 0x40)
        else if off = 0x420 then regW s (0xB1420 + 0x1000 * n) &&& 1#32 else 0
      | none => 0

/-- The MSI-X table and pending bits of a function (PRESUMED, PCI Express; notes/assumptions/34.md). -/
def msixReg (s : State) (fn a : Nat) : Word :=
  if a < 0xBF000 then
    if (a - 0xBE000) / 16 > lastVec fn then 0
    else if a % 16 = 12 then word [(0, 0, 1 - regF s (2 ^ 32 * (fn + 1) + a) 0 0)] else regW s (2 ^ 32 * (fn + 1) + a)
  else if a = 0xBF000 then (List.range 32).foldl (fun w v => setFld w v v (b2n (tabGet false s.net.msix (32 * fn + v)))) 0#32
  else 0

/-! ### PAIR, FAULT, BIST and THERM -/

/-- PAIR registers that mirror the state. -/
def pairReg (s : State) (a : Nat) : Word :=
  let p := s.pair
  if a = 0xC0000 then regW s 0xC0000 &&& 2#32
  else if a = 0xC0010 then word [(31, 29, pairCode p.mode), (28, 28, b2n !p.linkSilent), (27, 27, b2n !p.mgmtSilent), (26, 26, b2n p.alarm),
    (25, 25, b2n p.mapDiff), (24, 24, b2n p.tookOver), (15, 8, p.reason), (7, 0, p.status.toNat)]
  else if a = 0xC0014 then p.partnerSerial
  else if a = 0xC0018 then word [(15, 0, p.drCount)]
  else if a = 0xC001C then BitVec.ofNat 32 p.pagesLeft
  else if a = 0xC0020 then p.diverge.truncate 32
  else if a = 0xC0024 then (p.diverge >>> 32).truncate 32
  else if a = 0xC0060 then word [(31, 16, min 0xFFFF p.slackOwn), (15, 0, min 0xFFFF p.slackPartner)]
  else 0

/-- FAULT registers that mirror the state. -/
def faultReg (s : State) (a : Nat) : Word :=
  let f := s.fault
  let mask (xs : List Nat) : Nat := sumNat ((List.range 8).map fun i => if xs.contains i then 2 ^ i else 0)
  if a = 0xD0004 then word [(31, 28, mask f.clReset), (27, 24, mask f.clOut), (23, 16, mask f.partReset), (8, 0, f.fifo.length)]
  else if a = 0xD0008 then f.head.truncate 32
  else if a = 0xD000C then (f.head >>> 32).truncate 32
  else if a = 0xD0014 then word [(31, 16, f.devTotal), (7, 0, min 3 (devWindow s).length)]
  else match idxAt a 0xD0100 32 4 with
    | some i => tabGet 0#32 f.window i
    | none => match sliceAt a 0xD0200 8 0x20 with
      | some (n, off) =>
        if off = 0 then tabGet 0#32 f.recShown n
        else if off = 4 then tabGet 0#32 f.sampleShown n ^^^ 0xFFFFFFFF#32 else 0
      | none => 0

/-- BIST registers that mirror the state. -/
def bistReg (s : State) (a : Nat) : Word :=
  if a = 0xE0008 then word ((List.range 5).map fun c => (2 * c + 1, 2 * c, runningUnder s c))
  else if a = 0xE0030 then s.bist.head
  else if a = 0xE0038 then BitVec.ofNat 32 s.bist.lastCycleMs
  else match idxAt a 0xE0010 5 4 with
    | some c => word [(8, 0, tabGet 0 s.bist.credits c / 1000000)]
    | none => match idxAt a 0xE0100 8 4 with
      | some i => tabGet 0#32 s.bist.window i
      | none => 0

/-- The unit layout of chapter 19. -/
def thermUnit (s : State) (k : Nat) : Word :=
  word [(31, 31, b2n (!s.therm.excluded.contains k && s.therm.valid.contains k)), (30, 30, b2n (s.therm.leftOut.contains k)),
    (15, 8, twos 8 (unitTemp s k)), (3, 0, stepOf s k)]

/-- THERM registers that mirror the state. -/
def thermReg (s : State) (a : Nat) : Word :=
  let t := s.therm
  if a = 0xF0004 then word [(31, 31, b2n t.shutLast), (30, 30, b2n t.guardOn), (28, 28, b2n !t.excluded.isEmpty),
    (13, 8, ((List.range 36).filter fun k => stepOf s k ≠ 0 && stepOf s k ≠ 15).length),
    (3, 0, ((List.range 8).filter fun m => (stackOf s m).level ≠ 0).length)]
  else if a = 0xF0008 then word [(15, 8, twos 8 t.outlet), (7, 0, twos 8 t.inlet)]
  else match idxAt a 0xF0100 36 4 with
    | some k => thermUnit s k
    | none => match idxAt a 0xF0200 12 4 with
      | some g => thermUnit s (40 + g)
      | none => match idxAt a 0xF0240 5 4 with
        | some k => thermUnit s (60 + k)
        | none => match idxAt a 0xF0260 8 4 with
          | some m => word [(31, 31, b2n (t.valid.contains (80 + m))), (23, 16, twos 8 (unitTemp s (70 + m))),
              (15, 8, twos 8 (stackOf s m).tempC), (1, 0, (stackOf s m).level)]
          | none => match idxAt a 0xF0300 14 4 with
            | some r => word [(15, 0, min 0xFFFF (tabGet 0 t.railLast r))]
            | none => 0

/-! ### SEC and UPDATE -/

/-- Words of a SEC slice; a virtual function reads the counts as at the last edge (R621). -/
def secSlice (s : State) (fn n off : Nat) : Word :=
  if off = 0 then word [(31, 31, b2n (partEnabled s n)), (30, 30, b2n (keyHeld s n)),
    (29, 29, b2n ((List.range 16).any fun i => match sessionOf s i with | some x => x.role = .tenant n && x.phase = .established | none => false)),
    (28, 28, b2n (s.sec.consent.contains n)), (12, 0, if fn = 0 then (jobsOf s n).length else tabGet 0 s.sec.jobsShown n)]
  else if off = 4 then word [(12, 0, jobMax s n)]
  else if off = 8 then tabGet 0#32 (if fn = 0 then s.sec.logGen else s.sec.logShown) n
  else 0

/-- SEC registers. -/
def secReg (s : State) (fn a : Nat) : Word :=
  let k := s.sec
  if a = 0x100000 then lifeWord s
  else if a = 0x100004 then word [(31, 31, b2n k.bootVerified), (30, 30, k.bootSlot), (23, 16, k.bootStatus), (15, 0, k.rotSvn)]
  else if a = 0x100008 then (List.range 16).foldl (fun w i => setFld w i i (b2n (keyHeld s i))) 0#32
  else if a = 0x10000C then word [(12, 0, k.jobs.length)]
  else if a = 0x100010 then word [(20, 20, b2n k.house), (4, 0, ((List.range 16).filter fun i => (sessionOf s i).isSome).length)]
  else if a = 0x100014 then k.measGen
  else if a = 0x100044 then k.debugCnt
  else match sliceAt a 0x100100 8 0x20 with
    | some (n, off) => secSlice s fn n off
    | none => 0

/-- STATE of UPDATE_SLOT. -/
def bundleCode : BundleState → Nat
  | .empty => 0 | .staging => 0 | .staged => 1 | .trial => 2 | .confirmed => 3 | .failed => 4

/-- STATE of UPDATE_STAT. -/
def updateCode (s : State) : Nat :=
  if s.upd.live.isSome then 4 else if onTrial s then 3 else if (stagedSlot s).isSome then 2 else if s.upd.copying then 1 else 0

/-- UPDATE registers. How much of a container has been read is a free value. -/
def updateReg (s : State) (a : Nat) : Word :=
  let u := s.upd
  if a = 0x110008 then word [(31, 28, updateCode s), (27, 27, u.running), (23, 16, u.status.toNat),
    (7, 0, if u.copying then (freeVal 23 s).toNat % 101 else 0)]
  else if a = 0x110020 then
    word [(15, 0, match u.trialEndUs with | some t => min 0xFFFF (cdiv (t - s.time) 1000000) | none => 0)]
  else if a = 0x110024 then
    match u.live with
    | some l => word [(31, 31, 1), (2, 0, min 4 (l.step - 2))]
    | none => 0
  else match sliceAt a 0x110010 2 8 with
    | some (k, off) =>
      let b := slotBundle s k
      let v (i : Nat) : Nat := (b.version.getD i 0).toNat
      if off = 0 then word [(31, 29, bundleCode b.state), (23, 16, v 0), (15, 8, v 1), (7, 0, v 2)]
      else if off = 4 then word [(7, 0, b.schema.toNat)] else 0
    | none => 0

/-! ### A read of a register -/

/-- The fields of a register that its stored word gives: a WO field reads 0 (R6). -/
def storedBits (s : State) (a : Nat) : Word :=
  (fieldsAt a).foldl (fun w f => if f.acc = .wo then w else setFld w f.hi f.lo (regF s a f.hi f.lo)) 0#32

/-- The fields that mirror the state, by block (R868). -/
def mirrorBits (s : State) (fn a : Nat) : Word :=
  match a / 65536 with
  | 0 => devReg s fn a
  | 1 => beatReg s fn a
  | 2 => beatReg s fn a
  | 3 => fliesReg s fn a
  | 4 => unitReg s a
  | 5 => unitReg s a
  | 6 => unitReg s a
  | 7 => mmuReg s a
  | 8 => hbmReg s a
  | 9 => serveReg s a
  | 10 => videoReg s a
  | 11 => if 0xBE000 ≤ a then msixReg s fn a else netReg s fn a
  | 12 => pairReg s a
  | 13 => faultReg s a
  | 14 => bistReg s a
  | 15 => thermReg s a
  | 16 => secReg s fn a
  | 17 => updateReg s a
  | _ => 0

/-- Whether a function sees an offset (R537, R868, R869): the physical function sees all of it. -/
def sees (fn a : Nat) : Bool :=
  let n := fn - 1
  let inside (base size : Nat) : Bool := base ≤ a && a < base + size
  fn = 0 || a < 0x10000 || inside (0x20100 + 0x40 * n) 0x40 || inside (0x30200 + 0x20 * n) 0x20 || inside (0x40100 + 0x10 * n) 8 ||
    inside (0x90200 + 0x40 * n) 0x40 || inside (0xA0400 + 0x20 * n) 0x20 || inside (0xB1000 + 0x1000 * n) 0x1000 ||
    inside 0xBE000 0x2000 || inside (0xD0200 + 0x20 * n) 0x20 || inside (0x100100 + 0x20 * n) 0x20

/-- The LO registers (R872): BEAT_NUM, MMU_RC_BASE, SERVE_COUNT_BASE, PAIR_DIVERGE_BEAT, FAULT_LOG_HEAD, and the base addresses of the
queue pairs. -/
def isLo (a : Nat) : Bool :=
  [0x10010, 0x7000C, 0x90008, 0xC0020, 0xD0008].contains a ||
    match sliceAt a 0xB1000 9 0x1000 with
    | some (_, off) => off < 0x400 && (off % 0x40 = 0 || off % 0x40 = 8)
    | none => false

/-- The key of a function's latch for the HI register at an offset. -/
def latchKey (fn hi : Nat) : Nat := 2 ^ 32 * fn + hi

/-- What an offset reads as through a function, latches apart. -/
def liveWord (s : State) (fn a : Nat) : Word :=
  if 0x200000 ≤ a && a < 0x201000 then (if fn = 0 then boardWord s ((a - 0x200000) / 4) else 0)
  else if fn ≠ 0 && 0xB1000 ≤ a && a < 0xBA000 && a % 0x1000 < 0x400 && a % 0x40 = 0x10 then
    (storedBits s a &&& 0xC7FFFFFF#32) ||| mirrorBits s fn a
  else storedBits s a ||| mirrorBits s fn a

/-- What a 4-byte read of an offset returns (R537, R538, R868, R872). -/
def readWord (s : State) (fn a : Nat) : Word :=
  if !sees fn a || a % 4 ≠ 0 then 0
  else if fn = 0 && a = 0x200014 then beatHiFor s true
  else if 4 ≤ a && isLo (a - 4) then (tabGet none s.latch (latchKey fn a)).getD (liveWord s fn a)
  else liveWord s fn a

/-- A read clears the RC fields of the register (R6, R11). -/
def clearRc (a : Nat) (s : State) : State :=
  setReg a ((fieldsAt a).foldl (fun w f => if f.acc = .rc then setFld w f.hi f.lo 0 else w) (regW s a)) s

/-- A read of a LO word latches the HI word for the function (R872). -/
def latchHi (fn a : Nat) (s : State) : State :=
  { s with latch := tabSet none s.latch (latchKey fn (a + 4)) (some (liveWord s fn (a + 4))) }

/-- A 4-byte read through a function. -/
def readOp (fn a : Nat) (s : State) : State :=
  let t := emit (.read ((readWord s fn a).zeroExtend 64)) s
  if !sees fn a || a % 4 ≠ 0 then t
  else
    let t := if (fieldsAt a).any fun f => f.acc = .rc then clearRc a t else t
    if isLo a then latchHi fn a t else t

end Sys2Proof.Machine
end

