-- ==== Sys2Proof/Machine/RegCmds.lean ====
section
/-! DEFINITION. Accesses to BAR0 (R6 to R11, R34, R46, R99, R106, R245, R265, R447, R448, R538, R562, R868 to R875). -/

namespace Sys2Proof.Machine

open Sys2Proof

/-! ### Locks and ranges -/

/-- The register with the LOCK bit of an offset's block (R9). -/
def lockReg (a : Nat) : Nat := if a / 65536 = 2 then 0x2000C else a / 65536 * 65536

/-- Whether the RWL fields of an offset's block are locked. -/
def locked (s : State) (a : Nat) : Bool := regF s (lockReg a) 31 31 = 1

/-- Whether a field is read-only through a virtual function: R106, R265, R447 and R589 name every RWL field of a slice, and
NET_Qk_CFG.PART. -/
def vfReadOnly (fn a : Nat) (f : RegField) : Bool :=
  fn ≠ 0 && (f.acc = .rwl || (0xB1000 ≤ a && a % 0x40 = 0x10 && f.hi = 29))

/-- What a write does to one field of a register, under its access code and its range (R6, R875). -/
def writeField (fn a : Nat) (v : Word) (lock : Bool) (w : Word) (f : RegField) : Word :=
  let x := fld v f.hi f.lo
  if vfReadOnly fn a f then w
  else match f.acc with
    | .rw => if f.vmin ≤ x && x ≤ f.vmax then setFld w f.hi f.lo x else w
    | .rwl => if !lock && f.vmin ≤ x && x ≤ f.vmax then setFld w f.hi f.lo x else w
    | .w1c => setFld w f.hi f.lo (fld w f.hi f.lo &&& (2 ^ (f.hi + 1 - f.lo) - 1 - x))
    | .w1s => setFld w f.hi f.lo (fld w f.hi f.lo ||| x)
    | .rc => w
    | .wo => w

/-- A write of every field of a register that has no operation of its own. DESIGN CHOICE: a write that sets LOCK stores the RWL fields
it writes in the same register, LOCK being tested as it stood before the write (notes/assumptions/100.md). -/
def plainWrite (fn a : Nat) (v : Word) (s : State) : State :=
  setReg a ((fieldsAt a).foldl (writeField fn a v (locked s a)) (regW s a)) s

/-! ### Registers with an operation of their own -/

/-- BEAT_PERIOD (R33, R34): the field takes the value, which is in force from the edge after the next The Half. -/
def periodOp (fn : Nat) (v : Word) (s : State) : State :=
  let p := fld v 15 0
  if fn ≠ 0 || locked s 0x10004 || p < 1000 || p > 64000 then s
  else setRegF 0x10004 15 0 p { s with beat := { s.beat with periodPend := some p } }

/-- BEAT_FREEZE (R44, R46). -/
def freezeLeadOp (fn : Nat) (v : Word) (s : State) : State :=
  let p := fld v 15 0
  if fn ≠ 0 || locked s 0x10008 || p < 100 || p > 32000 then s
  else setRegF 0x10008 15 0 p { s with beat := { s.beat with leadPend := some p } }

/-- ENERGY_BILL_BEATS (R99): the value that the register holds when a period begins is that period's. -/
def billBeatsOp (fn : Nat) (v : Word) (s : State) : State := if fn ≠ 0 || locked s 0x20010 then s else setReg 0x20010 v s

/-- FLIES_Pn_GUAR (R244, R245): a value that would carry the sum of the guarantees of the enabled partitions above the pool is refused
when it raises the guarantee. -/
def guaranteeOp (fn n : Nat) (v : Word) (s : State) : State :=
  let a := 0x30200 + 0x20 * n
  let g := fld v 7 0
  if fn ≠ 0 || locked s a || g < 4 || g > 100 then s
  else if g > guarReg s n && partEnabled s n && !guarFits s n g then setRegF (a + 8) 0 0 1 s
  else setRegF a 7 0 g s

/-- The sum of a limit over the enabled partitions, partition `n` taken at `v`. -/
def limitSum (s : State) (off hi n v : Nat) : Nat :=
  sumNat (s.sec.enabled.map fun k => if k = n then v else regF s (0x90200 + 0x40 * k + off) hi 0)

/-- SERVE_Pn_REQ_MAX and SERVE_Pn_TREE_MAX (R448); a new TREE_MAX also sets the number of buckets (R401). -/
def limitOp (fn n off : Nat) (v : Word) (s : State) : State :=
  let a := 0x90200 + 0x40 * n + off
  let hi := if off = 0 then 13 else 22
  let top := if off = 0 then 8192 else 4194304
  let x := fld v hi 0
  if fn ≠ 0 || locked s a || x > top then s
  else if partEnabled s n && limitSum s off hi n x > top && x > regF s a hi 0 then setRegF 0x90004 31 31 1 s
  else
    let s := setRegF a hi 0 x s
    if off = 8 then relinkTree n s else s

/-- NET_Qk_CFG: the plain fields, then EN (R556). -/
def cfgOp (fn n k : Nat) (v : Word) (s : State) : State :=
  let f := if n = 8 then 0 else n + 1
  let s := setRegF (0xB1000 + 0x1000 * n + 0x40 * k + 0x10) 31 31 0 (plainWrite fn (0xB1000 + 0x1000 * n + 0x40 * k + 0x10) v s)
  if bitAt v 31 then qpStart f k s else qpStop f k s

/-- NET_RQP_CMD (R572): QPN, then the operation. -/
def rqpCmdOp (v : Word) (s : State) : State :=
  let s := setRegF 0xB0120 23 0 (fld v 23 0) s
  if fld v 31 28 = 1 then rqpCreateOp s else if fld v 31 28 = 2 then rqpDestroyOp (fld v 23 0) s else s

/-- An entry of the MSI-X table: a pending vector that is unmasked is sent (PRESUMED, PCI Express; notes/assumptions/34.md). -/
def msixWrite (fn a : Nat) (v : Word) (s : State) : State :=
  let vec := (a - 0xBE000) / 16
  if vec > lastVec fn then s
  else if a % 16 ≠ 12 then setReg (2 ^ 32 * (fn + 1) + a) v s
  else
    let s := setReg (msixKey fn vec) (word [(0, 0, 1 - fld v 0 0)]) s
    if fld v 0 0 = 0 && tabGet false s.net.msix (32 * fn + vec) then
      emit (.msi fn vec) { s with net := { s.net with msix := tabSet false s.net.msix (32 * fn + vec) false } }
    else s

/-- Registers of a NET slice. -/
def netWrite (fn a : Nat) (v : Word) (s : State) : State :=
  match sliceAt a 0xB1000 9 0x1000 with
  | some (n, off) =>
    let f := if n = 8 then 0 else n + 1
    if off < 0x400 then
      let k := off / 0x40
      if off % 0x40 = 0x10 then cfgOp fn n k v s
      else if off % 0x40 = 0x18 then sqTailOp f k (fld v 11 0) s
      else if off % 0x40 = 0x1C then cqHeadOp f k (fld v 11 0) s
      else plainWrite fn a v s
    else if off = 0x400 || off = 0x404 then badWrite s
    else plainWrite fn a v s
  | none => if a = 0xB0120 then rqpCmdOp v s else plainWrite fn a v s

/-- BEAT_CTRL (R34): another source is not locked until it meets its criterion; the internal timer always is. -/
def beatCtrlOp (fn : Nat) (v : Word) (s : State) : State :=
  let old := regF s 0x10000 1 0
  let s := plainWrite fn 0x10000 v s
  let src := regF s 0x10000 1 0
  if src = old then s
  else { s with beat := { s.beat with
      locked := src = 0, good := 0, missed := 0, edgeSeen := false, pinNs := 0, holdover := s.beat.holdover && src ≠ 0 } }

/-- A 4-byte write through a function (R6, R537, R868, R870). -/
def writeOp (fn a : Nat) (v : Word) (s : State) : State :=
  if !sees fn a || a % 4 ≠ 0 then s
  else if a = 0x10000 then beatCtrlOp fn v s
  else if a = 0x10004 then periodOp fn v s
  else if a = 0x10008 then freezeLeadOp fn v s
  else if a = 0x20010 then billBeatsOp fn v s
  else if a = 0x80004 then (if fn = 0 then retrainReqOp v s else s)
  else if a = 0xD0010 then logIdxOp (fld v 11 0) s
  else if a = 0xE0034 then resIdxOp (fld v 7 0) s
  else if 0xBE000 ≤ a && a < 0xBF000 then msixWrite fn a v s
  else if 0xB0000 ≤ a && a < 0xC0000 then netWrite fn a v s
  else match sliceAt a 0x30200 8 0x20 with
    | some (n, 0) => guaranteeOp fn n v s
    | _ => match sliceAt a 0x90200 8 0x40 with
      | some (n, 0) => limitOp fn n 0 v s
      | some (n, 8) => limitOp fn n 8 v s
      | _ => plainWrite fn a v s

/-- Whether an offset is NET_Pn_WALKON_DB (R538, R560). -/
def isDoorbell (a : Nat) : Bool := match sliceAt a 0xB1000 9 0x1000 with | some (_, off) => off = 0x400 | none => false

/-- A write of 8 bytes acts as two of 4 bytes, the lower address first, but at the Walk-on doorbell (R538). -/
def wideWrite (fn a : Nat) (v : DWord) (s : State) : State :=
  if a % 8 ≠ 0 then s
  else if sees fn a && isDoorbell a then doorbellOp fn v s
  else writeOp fn (a + 4) ((v >>> 32).truncate 32) (writeOp fn a (v.truncate 32) s)

/-! ### The commands -/

/-- An access to BAR0 of a function: the endpoint answers while its link is up. -/
def bar0 (fn a : Nat) (s : State) (body : State) : Res :=
  if a ≥ 0x4000000 then .fault .noSuchAddress else need (fn ≤ 8) (.next (if linkUp s then body else s))

/-- REGISTER_WRITE (R6, R538, R875). -/
def execRegisterWrite (fn addr : Nat) (wide : Bool) (v : DWord) (s : State) : Res :=
  bar0 fn addr s (if wide then wideWrite fn addr v s else writeOp fn addr (v.truncate 32) s)

/-- BLOCK_LOCK (R6, R9): a write of 1 to the LOCK bit of a block. -/
def execBlockLock (fn addr : Nat) (s : State) : Res :=
  bar0 fn addr s (if fn = 0 && lockRegs.contains addr then setRegF addr 31 31 1 s else s)

/-- RC_READ (R6, R11). -/
def execRcRead (fn addr : Nat) (s : State) : Res := bar0 fn addr s (readOp fn addr s)

/-- LO_WORD_READ (R872). -/
def execLoWordRead (fn addr : Nat) (s : State) : Res := bar0 fn addr s (readOp fn addr s)

/-- BEAT_PERIOD_WRITE (R34). -/
def execBeatPeriodWrite (fn : Nat) (v : Word) (s : State) : Res := bar0 fn 0x10004 s (periodOp fn v s)

/-- BEAT_FREEZE_WRITE (R44, R46). -/
def execBeatFreezeWrite (fn : Nat) (v : Word) (s : State) : Res := bar0 fn 0x10008 s (freezeLeadOp fn v s)

/-- ENERGY_BILL_BEATS_WRITE (R99). -/
def execEnergyBillBeatsWrite (fn : Nat) (v : Word) (s : State) : Res := bar0 fn 0x20010 s (billBeatsOp fn v s)

/-- GUARANTEE_WRITE (R244 to R246, R265). -/
def execGuaranteeWrite (fn part : Nat) (v : Word) (s : State) : Res :=
  need (part < 8) (bar0 fn (0x30200 + 0x20 * part) s (guaranteeOp fn part v s))

/-- SERVE_LIMIT_WRITE (R447, R448): the offset names a REQ_MAX or a TREE_MAX. -/
def execServeLimitWrite (fn addr : Nat) (v : Word) (s : State) : Res :=
  bar0 fn addr s (match sliceAt addr 0x90200 8 0x40 with
    | some (n, 0) => limitOp fn n 0 v s
    | some (n, 8) => limitOp fn n 8 v s
    | _ => s)

end Sys2Proof.Machine
end

