-- ==== Sys2Proof/Machine/SamplerCmds.lean ====
section
/-! DEFINITION. The Samplers: when a job starts (R429, R430), and what it computes (R431 to R437). -/

namespace Sys2Proof.Machine

open Sys2Proof

/-! ### One row (R431 to R435) -/

/-- The leaving token ℓ_k of R431, given the draws so far. -/
def leavingToken (r : Request) (ys : List Word) (k : Nat) : Word :=
  if r.window = 0 || r.logLen + k < r.window then 0xFFFFFFFF#32
  else
    let p := r.logLen + k - r.window
    if p < r.logLen then tabGet 0#32 r.log p else ys.getD (k - r.window) 0xFFFFFFFF#32

/-- Occurrences of a token in a list. -/
def occurs (t : Word) (xs : List Word) : Nat := (xs.filter (· = t)).length

/-- A number as FP32, exactly. -/
def natToF32 (n : Nat) (e : Int) : Word := BitVec.ofNat 32 (round32 .nearest false n e)

/-- An integer as FP32. -/
def intToF32 (c : Int) : Word := if c = 0 then 0 else BitVec.ofNat 32 (round32 .nearest (c < 0) c.natAbs 0)

/-- A NaN counts as −∞. -/
def noNan (x : Word) : Word := if isNan32 x then f32NegInf else x

/-- z3 of R432: the penalties of a token that counts `c`. The count is a difference and may lie below 0, for a token that
a full count table left out and that now leaves the window. -/
def penalised (r : Request) (c : Int) (z : Word) : Word :=
  if c = 0 then z
  else
    let z1 := if cmp32 z f32Zero = some 1 then div32 .nearest z r.rep else mul32 .nearest z r.rep
    sub32 .nearest (sub32 .nearest z1 (mul32 .nearest r.freq (intToF32 c))) r.pres

/-- z4 of R432. -/
def tempered (r : Request) (z3 : Word) : Word := if cmp32 r.temp f32Zero = some 0 then z3 else div32 .nearest z3 r.temp

/-- The penalised logits of a row by token id: z3 of every token, NaN as −∞. -/
def rowZ3 (r : Request) (ys : List Word) (logits : List Word) : List Word :=
  let i := ys.length
  let leave := (List.range (min i 7)).map (leavingToken r ys)
  logits.zipIdx.map fun p =>
    let t : Word := BitVec.ofNat 32 p.2
    noNan (penalised r ((countGet r.counts t + occurs t ys : Nat) - (occurs t leave : Nat) : Int) (noNan p.1))

/-- Greater in the order of numbers. -/
def fpGt (a b : Word) : Bool := cmp32 a b = some 1

/-- R433: the token of largest z3, the lowest id among ties. -/
def greedy (zs : List Word) : Word :=
  BitVec.ofNat 32 (zs.zipIdx.foldl (fun (b : Option (Word × Nat)) p =>
    match b with
    | none => some p
    | some q => if fpGt p.1 q.1 then some p else b) none |>.elim 0 Prod.snd)

/-- Inserts a token into the kept tokens: descending z4, ascending id among ties. -/
def insertKept (p : Word × Nat) : List (Word × Nat) → List (Word × Nat)
  | [] => [p]
  | q :: qs => if fpGt p.1 q.1 then p :: q :: qs else q :: insertKept p qs

/-- The TOP_K tokens of largest z4 above −∞ (R434). -/
def keptTokens (k : Nat) (zs : List Word) : List (Word × Nat) :=
  zs.zipIdx.foldl (fun acc p => if fpGt p.1 f32NegInf then (insertKept p acc).take k else acc) []

/-- Running sums, in order. -/
def cumSums : Word → List Word → List Word
  | _, [] => []
  | a, x :: xs => let b := add32 .nearest a x; b :: cumSums b xs

/-- The draw of R434 and R435 from the kept tokens: none when there is none. -/
def drawToken (r : Request) (beatKey : DWord) (i : Nat) (kept : List (Word × Nat)) : Option Word :=
  match kept with
  | [] => none
  | k0 :: _ =>
    if k0.1 = f32Inf then some (BitVec.ofNat 32 k0.2)
    else
      let e := kept.map fun q => expRef (sub32 .nearest q.1 k0.1)
      let sum := treeSum .nearest e
      let cum := match e with | [] => [] | x :: xs => x :: cumSums x xs
      let lim := mul32 .nearest r.topP sum
      let n := if cmp32 r.topP f32One = some (-1) then
          match cum.findIdx? fun c => !fpGt lim c && !isNan32 c && !isNan32 lim with | some a => a + 1 | none => kept.length
        else kept.length
      let u := (philox (fld beatKey 31 0, fld beatKey 63 32, r.logLen + i, 0x20000000) (fld r.seed 31 0) (fld r.seed 63 32)).1
      let x := mul32 .nearest (cum.getD (n - 1) 0) (natToF32 (u / 256) (-24))
      let a := ((cum.take n).findIdx? fun c => fpGt c x).getD (n - 1)
      (kept[a]?).map fun q => BitVec.ofNat 32 q.2

/-- What a row of the Sampler answers. -/
inductive RowResult where
  | skipped
  | failed
  | drawn (t : Word)
deriving DecidableEq, Repr

/-- One drawn row (R432 to R435). -/
def sampleRow (r : Request) (beatKey : DWord) (ys : List Word) (logits : List Word) : RowResult :=
  let z3 := rowZ3 r ys logits
  if r.temp = f32Zero then .drawn (greedy z3)
  else match drawToken r beatKey ys.length (keptTokens r.topK (z3.map fun z => noNan (tempered r z))) with
    | none => .failed
    | some t => .drawn t

/-- The penalty staging of R431 as it lies in the candidate flat from byte 16,384. -/
def stagingBytes (i : Nat) (r : Request) (ys : List Word) : List Byte :=
  let entries := (r.counts.map Prod.snd).foldl (fun acc (w : DWord) =>
    let rec ins (w : DWord) : List DWord → List DWord
      | [] => [w]
      | x :: xs => if (fld w 31 0) < (fld x 31 0) then w :: x :: xs else x :: ins w xs
    ins w acc) []
  let table := (entries ++ List.replicate (4096 - entries.length) countEmpty).take 4096
  table.flatMap (fun w => leBytes 8 w.toNat) ++ slice (requestBytes i r) 0 128 ++
    ((List.range 8).flatMap fun k => leBytes 4 (ys.getD k 0xFFFFFFFF#32).toNat) ++
    (List.range 7).flatMap fun k => leBytes 4 (leavingToken r ys k).toNat

/-- The candidates of tokens from `base` on as entries of the candidate flat (R262), the largest first (notes/assumptions/102.md). -/
def candBytes (k base : Nat) (zs : List Word) : List Byte :=
  (keptTokens (min k 1024) zs).flatMap fun p => leBytes 4 p.1.toNat ++ leBytes 4 (base + p.2)

/-- The row's work in its three flats (R262, R431): the last window in each window flat; the candidates of the row, those of its last
window, and the staging in the candidate flat. Its reads meet what the SEC-DED finds (R239, R240): an error that stands in the flats
when the row is worked is met by it (notes/assumptions/102.md). -/
def rowFlats (j : SamplerJob) (i : Nat) (r : Request) (ys z3 : List Word) (bytes : List Byte) (s : State) : State :=
  let put (flat off : Nat) (bs : List Byte) (s : State) : State :=
    { s with flies := { s.flies with
        mem := tabWrite 0#8 s.flies.mem (65536 * flat + off) bs
        latent := freshWords s.flies.latent fun w => 65536 * flat + off ≤ 8 * w && 8 * w + 8 ≤ 65536 * flat + off + bs.length } }
  let used := [(j.flat0, min bytes.length 65536), (j.flat1, min (bytes.length - 65536) 65536), (j.flat2, 65536)]
  let s := eccWords (packCtx j.stepId.toNat 0xFFFF 0xFFF 0xFF j.part) (originOf 2 false) (some (j.part, j.stepId.toNat))
    (used.flatMap fun u => badWords s (65536 * u.1) u.2) s
  let s := (List.range (cdiv bytes.length 65536)).foldl (fun t w =>
    put (if w % 2 = 0 then j.flat0 else j.flat1) 0 ((bytes.drop (65536 * w)).take 65536) t) s
  let k := if r.temp = f32Zero then 1 else r.topK
  let last := 16384 * (cdiv z3.length 16384 - 1)
  put j.flat2 16384 (stagingBytes i r ys) (put j.flat2 8192 (candBytes k last (z3.drop last)) (put j.flat2 0 (candBytes k 0 z3) s))

/-! ### A job (R427, R428, R436) -/

/-- How far the rows of one request have come: the request, its draws, and whether the next row is to be drawn. -/
structure RowState where
  st : State
  req : Option Nat
  ys : List Word
  go : Bool
  out : List DWord
  fault : Option (Nat × Nat)

/-- The result word of a row. -/
def resultWord (res : RowResult) (draft : Word) : DWord :=
  match res with
  | .skipped => 0
  | .failed => BitVec.ofNat 64 (2 ^ 34)
  | .drawn t => BitVec.ofNat 64 (t.toNat + 2 ^ 32 + if t = draft then 2 ^ 33 else 0)

/-- The access context of a Sampler job, for a request. -/
def samplerMem (j : SamplerJob) (req : Nat) : MemCtx :=
  ⟨j.part, j.stepId.toNat, 0x2000 + 256 * j.cluster, packCtx j.stepId.toNat req 0xFFF 0xFF j.part, originOf 2 false, []⟩

/-- One row of a job: row `n`, whose row entry is `e`. -/
def doRow (j : SamplerJob) (x : RowState) (n : Nat) (e : DWord) : RowState :=
  let req := fld e 15 0
  let i := fld e 19 16
  let draft : Word := (e >>> 32).truncate 32
  let x := if i = 0 then { x with req := some req, ys := [], go := true } else x
  if x.fault.isSome then x
  else match (reqOf x.st req).filter (fun r => r.part = j.part) with
  | none => { x with go := false, out := x.out ++ [0] }
  | some r =>
    if !x.go || x.req ≠ some req || i ≠ x.ys.length then { x with go := false, out := x.out ++ [0] }
    else
      let d := dvRead (samplerMem j req) (j.logits + n * j.rowStride) (4 * j.vocab) x.st
      match d.fault with
      | some f => { x with st := d.st, fault := some f }
      | none =>
        let logits := (List.range j.vocab).map fun k => (BitVec.ofNat 32 (leAt d.bytes (4 * k) 4) : Word)
        let st := rowFlats j req r x.ys (rowZ3 r x.ys logits) d.bytes d.st
        let res := sampleRow r j.beatKey x.ys logits
        let w := resultWord res draft
        match res with
        | .drawn t => { x with st := st, ys := x.ys ++ [t], go := t = draft, out := x.out ++ [w] }
        | _ => { x with st := st, go := false, out := x.out ++ [w] }

/-- A Sampler job that meets a fault: its step does not commit (R445), and a SAMPLER record is written. -/
def samplerFault (c : Nat) (j : SamplerJob) (va sub : Nat) (s : State) : State :=
  let m := samplerMem j 0xFFFF
  let cause := (freeVal 11 s).toNat % 256
  let s := logEvent { evBase s 5 cause 1 with
    ctx := m.ctx, origin := m.origin, unit := m.unit, addr := BitVec.ofNat 64 va, detail := [sub] } (drawn s)
  stepBroken j.part j.stepId.toNat (0x2000 + 256 * c) (faultFatal sub) (noteRevoked j.part j.stepId.toNat va s)

/-- Sets how the jobs of a Sampler stand. -/
def modQueue (c : Nat) (f : List QJob → List QJob) (s : State) : State :=
  { s with serve := { s.serve with samplers := tabMod Sampler.init s.serve.samplers c fun q => { q with queue := f q.queue } } }

/-- What running a job to its end does: the rows, the result words in memory, and the completion signal. -/
def runJob (c : Nat) (j : SamplerJob) (s : State) : State × Bool :=
  let m := samplerMem j 0xFFFF
  let d := dvRead m j.rowmap (8 * j.nrows) s
  match d.fault with
  | some (va, sub) => (samplerFault c j va sub d.st, false)
  | none =>
    let rows := (List.range j.nrows).map fun k => (BitVec.ofNat 64 (leAt d.bytes (8 * k) 8) : DWord)
    let x := rows.zipIdx.foldl (fun x p => doRow j x p.2 p.1) ⟨d.st, none, [], false, [], none⟩
    match x.fault with
    | some (va, sub) => (samplerFault c j va sub x.st, false)
    | none =>
      let w := dvWrite m j.outAddr (x.out.flatMap fun v => leBytes 8 v.toNat) x.st
      match w.2 with
      | some (va, sub) => (samplerFault c j va sub w.1, false)
      | none => (if j.doneInc = 0 then w.1 else cueSigHw j.doneCl j.doneInc m.ctx m.origin w.1, true)

/-! ### Commands -/

/-- Whether a job may start now (R429, R251, R253, R631). -/
def jobReady (s : State) (q : QJob) : Bool :=
  runs s && (q.phase = .granted || (q.phase = .waiting && q.job.waitCnt ≤ (cueOf s q.job.waitCl).count &&
    !waitdPendingBut s (256 + q.job.cluster) q.job.waitCl)) &&
    [q.job.flat0, q.job.flat1, q.job.flat2].all (fun f => !(flatOf s f).clearing && !(flatOf s f).test) &&
    !flatsBusy s q.job.part q.job.stepId.toNat [q.job.flat0, q.job.flat1, q.job.flat2]

/-- Whether a slice runs on the Sampler that serves a cluster (R726, R730). -/
def samplerTested (s : State) (q : Sampler) : Bool := s.bist.running.any fun r => some r.x.unit = q.phys.map samplerRef

/-- SAMPLER_JOB_START (R429): a ready WALKON job first, then the others in list order; the job takes WAIT_CNT. -/
def execSamplerJobStart (cluster : Nat) (s : State) : Res :=
  need (cluster < 4) <|
    let q := tabGet Sampler.init s.serve.samplers cluster
    if q.phys.isNone || q.inReset || s.fault.clReset.contains cluster || q.queue.any (fun x => x.phase = .running) ||
        !s.beat.cutsDone || samplerTested s q then .next s
    else match (q.queue.find? (·.phase = .granted)).or
        ((q.queue.find? fun x => x.job.walkon && jobReady s x).or (q.queue.find? (jobReady s))) with
      | none => .next s
      | some x =>
        if !jobReady s x then .next s
        else
        let taken := if x.phase = .granted then 0 else x.job.waitCnt
        let s := setCue x.job.waitCl { cueOf s x.job.waitCl with count := (cueOf s x.job.waitCl).count - taken } s
        .next (modQueue cluster (fun l => l.replace x { x with phase := .running, startUs := s.time }) s)

/-- SAMPLER_JOB_COMPLETE (R436): the running job writes its results and signals DONE_CL. A job whose descriptor fails its
CRC or holds a reserved value is a Sampler fault (notes/assumptions/26.md). -/
def execSamplerJobComplete (cluster : Nat) (s : State) : Res :=
  need (cluster < 4) <|
    match (tabGet Sampler.init s.serve.samplers cluster).queue.find? fun x => x.phase = .running with
    | none => .next s
    | some x =>
      let r := if x.job.crcOk && x.job.resvOk then runJob cluster x.job s else (samplerFault cluster x.job 0 0 s, false)
      let s := modQueue cluster (fun l => l.replace x { x with phase := if r.2 then .complete else .failed }) r.1
      let s := if r.2 then bump (0x90110 + 4 * cluster) s else s
      .next (settle (resolveStep x.job.part x.job.stepId.toNat s))

end Sys2Proof.Machine
end

