-- ==== Sys2Proof/Machine/Scalar.lean ====
section
/-! DEFINITION. CTRL (0x00) and SCALAR (0x01 to 0x03) instructions (R184 to R188). -/

namespace Sys2Proof.Machine

open Sys2Proof

/-- ctrl.nop: no effect but the pc. -/
def execCtrlNop (e : Nat) (f : Fields) (s : State) : Res := runReg e 0 0 f s fun x => x

/-- ctrl.end: the program has ended; ENTRY_RETIRE follows (R139). A pending deferred exception is taken. -/
def execCtrlEnd (e : Nat) (f : Fields) (s : State) : Res :=
  runEng e 0 1 f s fun _ x =>
    if x.deferred ≠ [] then .ok (takeDeferred e s) else .ok (setEng e { x with phase := .ending } s)

/-- ctrl.fence (R184): FL writes are visible at once in this model, so MASK[2] never stalls. -/
def execCtrlFence (e : Nat) (f : Fields) (s : State) : Res :=
  runEng e 0 2 f s fun _ x =>
    if x.deferred ≠ [] then .ok (takeDeferred e s)
    else if (imm f 0 0 = 1 && x.xq ≠ []) || (imm f 1 1 = 1 && x.helpers ≠ 0) then .stall
    else .ok (setEng e (advance x) s)

/-- A two-operand scalar instruction: rd = g rs1 rs2. -/
def aluReg (e func : Nat) (f : Fields) (s : State) (g : DWord → DWord → DWord) : Res :=
  runReg e 1 func f s fun x => wrS x f.a (g (rdS x f.b) (rdS x f.c))

/-- A scalar instruction with an immediate: rd = g rs1 sext(IMM) (R186). -/
def aluImm (e func : Nat) (f : Fields) (s : State) (g : DWord → DWord → DWord) : Res :=
  runReg e 2 func f s fun x => wrS x f.a (g (rdS x f.b) (sext f.imm))

/-- 1 or 0. -/
def flag64 (b : Bool) : DWord := if b then 1#64 else 0#64

/-- High 64 bits of the signed product. -/
def mulHigh (a b : DWord) : DWord := BitVec.ofInt 64 (a.toInt * b.toInt / 2 ^ 64)

/-- divu (R185). -/
def divU (a b : DWord) : DWord := if b = 0 then BitVec.allOnes 64 else BitVec.ofNat 64 (a.toNat / b.toNat)

/-- remu (R185). -/
def remU (a b : DWord) : DWord := if b = 0 then a else BitVec.ofNat 64 (a.toNat % b.toNat)

/-- add (0x01, FUNC 0x00). -/
def execAdd (e : Nat) (f : Fields) (s : State) : Res := aluReg e 0x00 f s (fun a b => a + b)

/-- sub (0x01, FUNC 0x01). -/
def execSub (e : Nat) (f : Fields) (s : State) : Res := aluReg e 0x01 f s (fun a b => a - b)

/-- and (0x01, FUNC 0x02). -/
def execAnd (e : Nat) (f : Fields) (s : State) : Res := aluReg e 0x02 f s (fun a b => a &&& b)

/-- or (0x01, FUNC 0x03). -/
def execOr (e : Nat) (f : Fields) (s : State) : Res := aluReg e 0x03 f s (fun a b => a ||| b)

/-- xor (0x01, FUNC 0x04). -/
def execXor (e : Nat) (f : Fields) (s : State) : Res := aluReg e 0x04 f s (fun a b => a ^^^ b)

/-- sll: left shift by rs2[5:0] (0x01, FUNC 0x05). -/
def execSll (e : Nat) (f : Fields) (s : State) : Res := aluReg e 0x05 f s (fun a b => a <<< (b.toNat % 64))

/-- srl: logical right shift by rs2[5:0] (0x01, FUNC 0x06). -/
def execSrl (e : Nat) (f : Fields) (s : State) : Res := aluReg e 0x06 f s (fun a b => a >>> (b.toNat % 64))

/-- sra: arithmetic right shift by rs2[5:0] (0x01, FUNC 0x07). -/
def execSra (e : Nat) (f : Fields) (s : State) : Res := aluReg e 0x07 f s (fun a b => a.sshiftRight (b.toNat % 64))

/-- mul: low 64 bits (0x01, FUNC 0x08). -/
def execMul (e : Nat) (f : Fields) (s : State) : Res := aluReg e 0x08 f s (fun a b => a * b)

/-- mulhu: high 64 bits, unsigned (0x01, FUNC 0x09). -/
def execMulhu (e : Nat) (f : Fields) (s : State) : Res := aluReg e 0x09 f s (fun a b => BitVec.ofNat 64 (a.toNat * b.toNat / 2 ^ 64))

/-- mulh: high 64 bits, signed (0x01, FUNC 0x0A). -/
def execMulh (e : Nat) (f : Fields) (s : State) : Res := aluReg e 0x0A f s mulHigh

/-- divu (R185) (0x01, FUNC 0x0B). -/
def execDivu (e : Nat) (f : Fields) (s : State) : Res := aluReg e 0x0B f s divU

/-- remu (R185) (0x01, FUNC 0x0C). -/
def execRemu (e : Nat) (f : Fields) (s : State) : Res := aluReg e 0x0C f s remU

/-- slt: signed comparison (0x01, FUNC 0x0D). -/
def execSlt (e : Nat) (f : Fields) (s : State) : Res := aluReg e 0x0D f s (fun a b => flag64 (a.slt b))

/-- sltu: unsigned comparison (0x01, FUNC 0x0E). -/
def execSltu (e : Nat) (f : Fields) (s : State) : Res := aluReg e 0x0E f s (fun a b => flag64 (a.ult b))

/-- min: signed (0x01, FUNC 0x0F). -/
def execMin (e : Nat) (f : Fields) (s : State) : Res := aluReg e 0x0F f s (fun a b => if a.slt b then a else b)

/-- max: signed (0x01, FUNC 0x10). -/
def execMax (e : Nat) (f : Fields) (s : State) : Res := aluReg e 0x10 f s (fun a b => if a.slt b then b else a)

/-- minu: unsigned (0x01, FUNC 0x11). -/
def execMinu (e : Nat) (f : Fields) (s : State) : Res := aluReg e 0x11 f s (fun a b => if a.ult b then a else b)

/-- maxu: unsigned (0x01, FUNC 0x12). -/
def execMaxu (e : Nat) (f : Fields) (s : State) : Res := aluReg e 0x12 f s (fun a b => if a.ult b then b else a)

/-- sel: rd = rs3 ≠ 0 ? rs1 : rs2. -/
def execSel (e : Nat) (f : Fields) (s : State) : Res :=
  runReg e 1 0x13 f s fun x => wrS x f.a (if rdS x f.d ≠ 0 then rdS x f.b else rdS x f.c)

/-- addi (0x02). -/
def execAddi (e : Nat) (f : Fields) (s : State) : Res := aluImm e 0x00 f s (fun a b => a + b)

/-- andi (0x02). -/
def execAndi (e : Nat) (f : Fields) (s : State) : Res := aluImm e 0x02 f s (fun a b => a &&& b)

/-- ori (0x02). -/
def execOri (e : Nat) (f : Fields) (s : State) : Res := aluImm e 0x03 f s (fun a b => a ||| b)

/-- xori (0x02). -/
def execXori (e : Nat) (f : Fields) (s : State) : Res := aluImm e 0x04 f s (fun a b => a ^^^ b)

/-- slli: left shift by IMM[5:0] (0x02). -/
def execSlli (e : Nat) (f : Fields) (s : State) : Res := aluImm e 0x05 f s (fun a b => a <<< (b.toNat % 64))

/-- srli: logical right shift by IMM[5:0] (0x02). -/
def execSrli (e : Nat) (f : Fields) (s : State) : Res := aluImm e 0x06 f s (fun a b => a >>> (b.toNat % 64))

/-- srai: arithmetic right shift by IMM[5:0] (0x02). -/
def execSrai (e : Nat) (f : Fields) (s : State) : Res := aluImm e 0x07 f s (fun a b => a.sshiftRight (b.toNat % 64))

/-- slti: signed comparison (0x02). -/
def execSlti (e : Nat) (f : Fields) (s : State) : Res := aluImm e 0x0D f s (fun a b => flag64 (a.slt b))

/-- sltiu: unsigned comparison with sext(IMM) (0x02). -/
def execSltiu (e : Nat) (f : Fields) (s : State) : Res := aluImm e 0x0E f s (fun a b => flag64 (a.ult b))

/-- movhi: rd = (rs1 & 0xFFFF_FFFF) | (IMM << 32). -/
def execMovhi (e : Nat) (f : Fields) (s : State) : Res :=
  runReg e 2 0x14 f s fun x =>
    wrS x f.a ((rdS x f.b &&& 0xFFFFFFFF#64) ||| BitVec.ofNat 64 (f.imm.toNat * 2 ^ 32))

/-- The target of a taken branch (R187). -/
def branchTo (x : Engine) (f : Fields) : Engine := { x with pc := x.pc + (sext f.imm).truncate 20 }

/-- A branch: pc + sext(IMM) when the condition on rs1 and rs2 holds, else the next instruction. -/
def branchIf (e func : Nat) (f : Fields) (s : State) (g : DWord → DWord → Bool) : Res :=
  runEng e 3 func f s fun _ x =>
    .ok (setEng e (if g (rdS x f.a) (rdS x f.b) then branchTo x f else advance x) s)

/-- beq. -/
def execBeq (e : Nat) (f : Fields) (s : State) : Res := branchIf e 0 f s (fun a b => a = b)

/-- bne. -/
def execBne (e : Nat) (f : Fields) (s : State) : Res := branchIf e 1 f s (fun a b => a ≠ b)

/-- blt: signed. -/
def execBlt (e : Nat) (f : Fields) (s : State) : Res := branchIf e 2 f s (fun a b => a.slt b)

/-- bge: signed. -/
def execBge (e : Nat) (f : Fields) (s : State) : Res := branchIf e 3 f s (fun a b => !a.slt b)

/-- bltu: unsigned. -/
def execBltu (e : Nat) (f : Fields) (s : State) : Res := branchIf e 4 f s (fun a b => a.ult b)

/-- bgeu: unsigned. -/
def execBgeu (e : Nat) (f : Fields) (s : State) : Res := branchIf e 5 f s (fun a b => !a.ult b)

/-- jmp: always taken. -/
def execJmp (e : Nat) (f : Fields) (s : State) : Res := branchIf e 8 f s (fun _ _ => true)

/-- dbnz: s[A] falls by 1, and the branch is taken when the result is not 0 (R188). -/
def execDbnz (e : Nat) (f : Fields) (s : State) : Res :=
  runEng e 3 9 f s fun _ x =>
    let v := rdS x f.a - 1
    let x' := wrS x f.a v
    .ok (setEng e (if v ≠ 0 then branchTo x' f else advance x') s)

end Sys2Proof.Machine
end

