-- ==== Sys2Proof/Machine/RvFloat.lean ====
section
/-! DEFINITION. Binary32 and binary64 arithmetic of the F and D extensions (R160). PRESUMED from IEEE 754-2019 and the published RISC-V
manual (notes/assumptions/13.md): exact values, one rounding, canonical NaNs, tininess after rounding. A result is its bits and the
exceptions that it raises: 16 invalid, 8 division by zero, 4 overflow, 2 underflow, 1 inexact. -/

namespace Sys2Proof.Machine

/-- Fraction and exponent bits of a width of 32 or 64. -/
def fpMan (w : Nat) : Nat := if w = 64 then 52 else 23
def fpExp (w : Nat) : Nat := if w = 64 then 11 else 8

/-- The exponent of the smallest subnormal. -/
def fpUnit (w : Nat) : Int := 2 - (2 ^ (fpExp w - 1) : Nat) - (fpMan w : Int)

/-- The bits of a positive infinity, of the canonical NaN, and of a sign. -/
def fpInf (w : Nat) : Nat := (2 ^ fpExp w - 1) * 2 ^ fpMan w
def fpNan (w : Nat) : Nat := fpInf w + 2 ^ (fpMan w - 1)
def fpSign (w : Nat) (neg : Bool) : Nat := if neg then 2 ^ (w - 1) else 0

/-- Sign bit, and the rest. -/
def fpNeg (w x : Nat) : Bool := nfld x (w - 1) (w - 1) = 1
def fpMag (w x : Nat) : Nat := x % 2 ^ (w - 1)

def fpIsNan (w x : Nat) : Bool := fpInf w < fpMag w x
def fpIsSnan (w x : Nat) : Bool := fpIsNan w x && nfld x (fpMan w - 1) (fpMan w - 1) = 0

/-- The exact value of some bits. -/
def fpVal (w x : Nat) : Fp :=
  let m := fpMag w x % 2 ^ fpMan w
  let e := fpMag w x / 2 ^ fpMan w
  if fpIsNan w x then .nan
  else if e = 2 ^ fpExp w - 1 then .inf (fpNeg w x)
  else if e = 0 then .fin (fpNeg w x) m (fpUnit w)
  else .fin (fpNeg w x) (2 ^ fpMan w + m) (fpUnit w + (e - 1 : Nat))

/-! ### Rounding. Modes: 0 nearest even, 1 toward zero, 2 down, 3 up, 4 nearest away; 5 to odd -/

/-- Whether a magnitude is rounded up: `c` places what is cut off (0 nothing, 1 below half, 2 half, 3 above). -/
def fpUp (rm : Nat) (neg odd : Bool) (c : Nat) : Bool :=
  match rm with
  | 0 => c = 3 || (c = 2 && odd)
  | 2 => neg && c ≠ 0
  | 3 => !neg && c ≠ 0
  | 4 => c ≥ 2
  | 5 => !odd && c ≠ 0
  | _ => false

/-- Rounds m × 2^e to a multiple of 2^q, and whether it is inexact. With `more`, the magnitude lies a little above m × 2^e. -/
def fpRoundAt (rm : Nat) (neg : Bool) (m : Nat) (e : Int) (more : Bool) (q : Int) : Nat × Bool :=
  if q ≤ e then (m * 2 ^ (e - q).toNat, more)
  else
    let sh := (q - e).toNat
    let t := m / 2 ^ sh
    let r := 2 * (m % 2 ^ sh) + b2n more
    let c := if r = 0 then 0 else if r < 2 ^ sh then 1 else if r = 2 ^ sh then 2 else 3
    (if fpUp rm neg (t % 2 = 1) c then t + 1 else t, c ≠ 0)

/-- The bits of t × 2^q. -/
def fpPack (w t : Nat) (q : Int) : Nat :=
  if t < 2 ^ fpMan w then t else ((q - fpUnit w).toNat + 1) * 2 ^ fpMan w + (t - 2 ^ fpMan w)

/-- The one rounding of a result. -/
def fpRound (w rm : Nat) (neg : Bool) (m : Nat) (e : Int) (more : Bool) : Nat × Nat :=
  if m = 0 && !more then (fpSign w neg, 0)
  else
    let top := e + (bitLen m : Int) - 1
    let q := max (top - fpMan w) (fpUnit w)
    let r := fpRoundAt rm neg m e more q
    let x := fpPack w r.1 q
    if x ≥ fpInf w then
      let toInf := rm = 0 || rm = 4 || (rm = 2 && neg) || (rm = 3 && !neg)
      (fpSign w neg + if toInf then fpInf w else fpInf w - 1, 5)
    else
      let min := fpUnit w + fpMan w
      let tiny := top < min && !(top = min - 1 && (fpRoundAt rm neg m e more (top - fpMan w)).1 = 2 ^ (fpMan w + 1))
      (fpSign w neg + x, if r.2 then 1 + 2 * b2n tiny else 0)

/-- An invalid operation. -/
def fpInvalid (w : Nat) : Nat × Nat := (fpNan w, 16)

/-- A NaN operand. -/
def fpNanOut (w : Nat) (snan : Bool) : Nat × Nat := (fpNan w, if snan then 16 else 0)

/-! ### Arithmetic on exact values -/

def Fp.negate : Fp → Fp
  | .nan => .nan
  | .inf s => .inf (!s)
  | .fin s m e => .fin (!s) m e

/-- The sum; an exact zero of unlike signs is negative only when rounding down. -/
def fpAdd (w rm : Nat) (snan : Bool) (a b : Fp) : Nat × Nat :=
  match a, b with
  | .nan, _ => fpNanOut w snan
  | _, .nan => fpNanOut w snan
  | .inf s, .inf t => if s = t then (fpSign w s + fpInf w, 0) else fpInvalid w
  | .inf s, _ => (fpSign w s + fpInf w, 0)
  | _, .inf t => (fpSign w t + fpInf w, 0)
  | .fin s m e, .fin t n f =>
    let q := min e f
    let x : Int := (if s then -1 else 1) * (m * 2 ^ (e - q).toNat : Nat)
    let y : Int := (if t then -1 else 1) * (n * 2 ^ (f - q).toNat : Nat)
    let z := x + y
    if z = 0 then (fpSign w (if m = 0 && n = 0 && s = t then s else rm = 2), 0)
    else fpRound w rm (z < 0) z.natAbs q false

/-- The exact product; none for infinity times zero. -/
def fpProd (a b : Fp) : Option Fp :=
  match a, b with
  | .nan, _ => some .nan
  | _, .nan => some .nan
  | .inf s, .inf t => some (.inf (s ≠ t))
  | .inf s, .fin t n _ => if n = 0 then none else some (.inf (s ≠ t))
  | .fin s m _, .inf t => if m = 0 then none else some (.inf (s ≠ t))
  | .fin s m e, .fin t n f => some (.fin (s ≠ t) (m * n) (e + f))

/-- The bits of an exact value. -/
def fpOf (w rm : Nat) (snan : Bool) : Fp → Nat × Nat
  | .nan => fpNanOut w snan
  | .inf s => (fpSign w s + fpInf w, 0)
  | .fin s m e => fpRound w rm s m e false

def fpMul (w rm : Nat) (snan : Bool) (a b : Fp) : Nat × Nat :=
  match fpProd a b with | none => fpInvalid w | some p => fpOf w rm snan p

/-- a × b + c with one rounding; infinity times zero is invalid whatever c is. -/
def fpFma (w rm : Nat) (snan : Bool) (a b c : Fp) : Nat × Nat :=
  match fpProd a b with | none => fpInvalid w | some p => fpAdd w rm snan p c

def fpDiv (w rm : Nat) (snan : Bool) (a b : Fp) : Nat × Nat :=
  match a, b with
  | .nan, _ => fpNanOut w snan
  | _, .nan => fpNanOut w snan
  | .inf _, .inf _ => fpInvalid w
  | .inf s, .fin t _ _ => (fpSign w (s ≠ t) + fpInf w, 0)
  | .fin s _ _, .inf t => (fpSign w (s ≠ t), 0)
  | .fin s m e, .fin t n f =>
    if n = 0 then (if m = 0 then fpInvalid w else (fpSign w (s ≠ t) + fpInf w, 8))
    else if m = 0 then (fpSign w (s ≠ t), 0)
    else
      let k := fpMan w + 3 + bitLen n
      fpRound w rm (s ≠ t) (m * 2 ^ k / n) (e - f - k) (m * 2 ^ k % n ≠ 0)

def fpSqrt (w rm : Nat) (snan : Bool) (a : Fp) : Nat × Nat :=
  match a with
  | .nan => fpNanOut w snan
  | .inf s => if s then fpInvalid w else (fpInf w, 0)
  | .fin s m e =>
    if m = 0 then (fpSign w s, 0)
    else if s then fpInvalid w
    else
      let k := 2 * (fpMan w + 3) + (e % 2).toNat
      let x := m * 2 ^ k
      let r := isqrt x
      fpRound w rm false r ((e - k) / 2) (r * r ≠ x)

/-! ### Comparisons, minimum, maximum, classes -/

/-- a < b and a = b of two values that are not NaN. -/
def fpLess (a b : Fp) : Bool :=
  match a, b with
  | .inf s, .inf t => s && !t
  | .inf s, _ => s
  | _, .inf t => !t
  | .fin s m e, .fin t n f =>
    let q := min e f
    decide ((if s then -1 else 1) * ((m * 2 ^ (e - q).toNat : Nat) : Int) < (if t then -1 else 1) * ((n * 2 ^ (f - q).toNat : Nat) : Int))
  | _, _ => false
def fpSame (a b : Fp) : Bool := a ≠ .nan && b ≠ .nan && !fpLess a b && !fpLess b a

/-- feq (quiet), flt and fle (signalling): the truth and the exceptions. `k` is 2, 1 or 0. -/
def fpCmp (w k x y : Nat) : Bool × Nat :=
  let a := fpVal w x
  let b := fpVal w y
  let nan := fpIsNan w x || fpIsNan w y
  let bad := if k = 2 then fpIsSnan w x || fpIsSnan w y else nan
  (!nan && (if k = 2 then fpSame a b else if k = 1 then fpLess a b else fpLess a b || fpSame a b), if bad then 16 else 0)

/-- fmin and fmax: a NaN gives the other operand, and −0 lies below +0. -/
def fpMinMax (w : Nat) (big : Bool) (x y : Nat) : Nat × Nat :=
  let fl := if fpIsSnan w x || fpIsSnan w y then 16 else 0
  if fpIsNan w x && fpIsNan w y then (fpNan w, fl)
  else if fpIsNan w x then (y, fl)
  else if fpIsNan w y then (x, fl)
  else
    let less := fpLess (fpVal w x) (fpVal w y) || (fpSame (fpVal w x) (fpVal w y) && fpNeg w x && !fpNeg w y)
    (if less ≠ big then x else y, fl)

/-- fclass. -/
def fpClass (w x : Nat) : Nat :=
  let m := fpMag w x
  let neg := fpNeg w x
  if fpIsNan w x then (if fpIsSnan w x then 256 else 512)
  else if m = fpInf w then (if neg then 1 else 128)
  else if m = 0 then (if neg then 8 else 16)
  else if m < 2 ^ fpMan w then (if neg then 4 else 32)
  else if neg then 2 else 64

/-- fsgnj, fsgnjn, fsgnjx. -/
def fpSgnj (w k x y : Nat) : Nat :=
  fpMag w x + fpSign w (match k with | 0 => fpNeg w y | 1 => !fpNeg w y | _ => fpNeg w x ≠ fpNeg w y)

/-! ### Conversions -/

/-- To an integer of `n` bits, as its two's complement: out of range and NaN saturate and are invalid. -/
def fpToInt (w rm n : Nat) (signed : Bool) (x : Nat) : Nat × Nat :=
  let lo : Int := if signed then -(2 ^ (n - 1) : Nat) else 0
  let hi : Int := if signed then (2 ^ (n - 1) : Nat) - 1 else (2 ^ n : Nat) - 1
  let out (v : Int) : Nat := (v % (2 ^ n : Nat)).toNat
  match fpVal w x with
  | .nan => (out hi, 16)
  | .inf s => (out (if s then lo else hi), 16)
  | .fin s m e =>
    let r := fpRoundAt rm s m e false 0
    let v : Int := if s then -(r.1 : Int) else r.1
    if v < lo then (out lo, 16) else if v > hi then (out hi, 16) else (out v, b2n r.2)

/-- From an integer. -/
def fpOfInt (w rm : Nat) (v : Int) : Nat × Nat := fpRound w rm (v < 0) v.natAbs 0 false

/-- Between widths. -/
def fpCvt (w' w rm x : Nat) : Nat × Nat := fpOf w' rm (fpIsSnan w x) (fpVal w x)

/-! ### The seven-bit estimates of the Vector extension -/

/-- vfrec7 of a positive normalised significand 1.f, by the seven bits of f that lead: the fraction of twice its reciprocal. -/
def rec7Table (i : Nat) : Nat := (256 * (255 - 2 * i) + 257 + 2 * i) / (2 * (257 + 2 * i))

/-- vfrsqrt7: by the low bit of the biased exponent and six bits of f. -/
def rsqrt7Table (i : Nat) : Nat :=
  let j := i % 64
  let n := if i < 64 then 2 * (129 + 2 * j) else 129 + 2 * j
  (isqrt (262144 * 128 / n) + 1) / 2 - 128

/-- vfrsqrt7.v. -/
def fpRsqrt7 (w x : Nat) : Nat × Nat :=
  match fpVal w x with
  | .nan => fpNanOut w (fpIsSnan w x)
  | .inf s => if s then fpInvalid w else (0, 0)
  | .fin s m e =>
    if m = 0 then (fpSign w s + fpInf w, 8)
    else if s then fpInvalid w
    else
      let bias : Int := (2 ^ (fpExp w - 1) : Nat) - 1
      let ex := e + (bitLen m : Int) - 1 + bias
      let frac := m * 2 ^ (fpMan w + 1 - bitLen m) % 2 ^ fpMan w
      let i := (ex % 2).toNat * 64 + frac / 2 ^ (fpMan w - 6)
      let oe := (3 * bias - 1 - ex) / 2
      (oe.toNat * 2 ^ fpMan w + rsqrt7Table i * 2 ^ (fpMan w - 7), 0)

/-- vfrec7.v. -/
def fpRec7 (w rm x : Nat) : Nat × Nat :=
  match fpVal w x with
  | .nan => fpNanOut w (fpIsSnan w x)
  | .inf s => (fpSign w s, 0)
  | .fin s m e =>
    if m = 0 then (fpSign w s + fpInf w, 8)
    else
      let bias : Int := (2 ^ (fpExp w - 1) : Nat) - 1
      let ex := e + (bitLen m : Int) - 1 + bias
      let frac := m * 2 ^ (fpMan w + 1 - bitLen m) % 2 ^ fpMan w
      let oe := 2 * bias - 1 - ex
      let t := rec7Table (frac / 2 ^ (fpMan w - 7)) * 2 ^ (fpMan w - 7)
      if ex < -1 then
        let toInf := rm = 0 || rm = 4 || (rm = 2 && s) || (rm = 3 && !s)
        (fpSign w s + if toInf then fpInf w else fpInf w - 1, 5)
      else if oe = 0 then (fpSign w s + (2 ^ fpMan w + t) / 2, 0)
      else if oe < 0 then (fpSign w s + (2 ^ fpMan w + t) / 4, 0)
      else (fpSign w s + oe.toNat * 2 ^ fpMan w + t, 0)

end Sys2Proof.Machine
end

