-- ==== Sys2Proof/Machine/RvCore.lean ====
section
/-! DEFINITION. A Stagehand's RISC-V state (R160, R161): registers, control and status registers, physical memory protection and
local memory. PRESUMED from the published RISC-V manuals (notes/assumptions/13.md). -/

namespace Sys2Proof.Machine

open Sys2Proof

/-- What an instruction does to its Stagehand: it runs, or it traps with a cause and a value. -/
inductive RvRes where
  | ok (h : Stagehand)
  | trap (h : Stagehand) (cause : Nat) (tval : DWord)

/-- x and f registers by number. -/
def rvX (h : Stagehand) (r : Nat) : DWord := rdX h (BitVec.ofNat 5 r)
def rvSetX (h : Stagehand) (r : Nat) (v : DWord) : Stagehand := wrX h (BitVec.ofNat 5 r) v
def rvF (h : Stagehand) (r : Nat) : DWord := tabGet 0#64 h.f r

/-- The next free value of a Stagehand. -/
def rvFree (h : Stagehand) (w : Word) (a b : DWord) : DWord := Config.riscv w a b h.freeCnt
def rvDrawn (h : Stagehand) : Stagehand := { h with freeCnt := h.freeCnt + 1 }

/-- Sign extension of the low `n` bits of a number. -/
def sx (n x : Nat) : DWord := (BitVec.ofNat n x).signExtend 64

/-! ### Control and status registers -/

/-- The word that a register holds. -/
def rvRaw (h : Stagehand) (a : Nat) : DWord := tabGet 0#64 h.csr a
def rvPut (h : Stagehand) (a : Nat) (v : DWord) : Stagehand := { h with csr := tabSet 0#64 h.csr a v }

/-- mstatus. -/
def rvStatus (h : Stagehand) : DWord := rvRaw h 0x300

/-- Whether the floating-point and the vector unit are on: mstatus.FS and VS are not 0. -/
def rvFsOn (h : Stagehand) : Bool := fld (rvStatus h) 14 13 ≠ 0
def rvVsOn (h : Stagehand) : Bool := fld (rvStatus h) 10 9 ≠ 0

/-- The floating-point and the vector state have changed. -/
def rvFsDirty (h : Stagehand) : Stagehand := rvPut h 0x300 (setFld (rvStatus h) 14 13 3)
def rvVsDirty (h : Stagehand) : Stagehand := rvPut h 0x300 (setFld (rvStatus h) 10 9 3)

/-- Writes an f register. -/
def rvSetF (h : Stagehand) (r : Nat) (v : DWord) : Stagehand := rvFsDirty { h with f := tabSet 0#64 h.f r v }

/-- Floating-point exceptions accumulate in fcsr. -/
def rvFlags (h : Stagehand) (fl : Nat) : Stagehand :=
  if fl = 0 then h else rvFsDirty (rvPut h 3 (rvRaw h 3 ||| BitVec.ofNat 64 (fl % 32)))

/-- Vector registers by number: vstart 8, vxsat 9, vxrm 10, vcsr 15, vl 0xC20, vtype 0xC21, vlenb 0xC22. -/
def vectorCsr (a : Nat) : Bool := a = 8 || a = 9 || a = 0xA || a = 0xF || (0xC20 ≤ a && a ≤ 0xC22)
/-- fflags, frm and fcsr. -/
def floatCsr (a : Nat) : Bool := 1 ≤ a && a ≤ 3
/-- cycle, time, instret and the hardware counters. -/
def counterCsr (a : Nat) : Bool := 0xC00 ≤ a && a < 0xC20

/-- Machine registers: status, trap handling, protection, counters and identity. -/
def machineCsr (a : Nat) : Bool :=
  [0x300, 0x301, 0x304, 0x305, 0x306, 0x30A, 0x320, 0x340, 0x341, 0x342, 0x343, 0x344, 0x3A0, 0x3A2, 0xB00, 0xB02, 0xF11, 0xF12,
    0xF13, 0xF14, 0xF15].contains a ||
    (0x3B0 ≤ a && a < 0x3C0) || (0x323 ≤ a && a < 0x340) || (0xB03 ≤ a && a < 0xB20)

/-- Whether an access to a register is legal: it exists, its privilege (bits [9:8]) is held, it may be written (bits [11:10]), its unit
is on, and a counter is open to user mode (R161, R172). -/
def rvCsrOk (h : Stagehand) (a : Nat) (write : Bool) : Bool :=
  (a = 0x800 || (floatCsr a && rvFsOn h) || (vectorCsr a && rvVsOn h) || machineCsr a ||
    (counterCsr a && (h.machine || bitAt (rvRaw h 0x306) (a - 0xC00)))) &&
    (h.machine || nfld a 9 8 = 0) && !(write && nfld a 11 10 = 3)

/-- A register as it reads. Counters are free values, and the registers of identity are the implementation's. -/
def rvCsr (h : Stagehand) (w : Word) (a : Nat) : DWord :=
  if a = 0x800 then h.zshtmo
  else if a = 1 then rvRaw h 3 &&& 0x1F#64
  else if a = 2 then (rvRaw h 3 >>> 5) &&& 7#64
  else if a = 0xF then (rvRaw h 0xA <<< 1) ||| rvRaw h 9
  else if a = 0xC22 then 64
  else if a = 0x300 then
    rvStatus h ||| 0x200000000#64 ||| (if fld (rvStatus h) 14 13 = 3 || fld (rvStatus h) 10 9 = 3 then 0x8000000000000000#64 else 0)
  else if a = 0x301 then 0x800000000030112D#64
  else if counterCsr a || (0xB00 ≤ a && a < 0xB20) then rvFree h w (BitVec.ofNat 64 a) 0
  else if 0xF11 ≤ a && a ≤ 0xF15 then Config.riscv 0 (BitVec.ofNat 64 a) 0 0
  else rvRaw h a

/-- Configuration byte and address of a protection region. -/
def pmpCfg (h : Stagehand) (i : Nat) : Nat := fld (rvRaw h (0x3A0 + 2 * (i / 8))) (8 * (i % 8) + 7) (8 * (i % 8))
def pmpAddr (h : Stagehand) (i : Nat) : Nat := (rvRaw h (0x3B0 + i)).toNat

/-- Whether a region is locked. -/
def pmpLocked (h : Stagehand) (i : Nat) : Bool := nfld (pmpCfg h i) 7 7 = 1

/-- A write of eight configuration bytes: a locked one stays, and so does one whose new value is reserved (W without R). -/
def pmpCfgWrite (h : Stagehand) (a : Nat) (v : DWord) : DWord :=
  (List.range 8).foldl (fun t k =>
    let b := fld v (8 * k + 7) (8 * k)
    if pmpLocked h (4 * (a - 0x3A0) + k) || nfld b 1 0 = 2 then t
    else setFld t (8 * k + 7) (8 * k) (b % 32 + 128 * nfld b 7 7)) (rvRaw h a)

/-- What a write leaves in a register: fields that are read-only or would take an illegal value keep theirs. -/
def rvSetCsr (h : Stagehand) (a : Nat) (v : DWord) : Stagehand :=
  if a = 0x800 then { h with zshtmo := v }
  else if a = 1 then rvFsDirty (rvPut h 3 (setFld (rvRaw h 3) 4 0 (fld v 4 0)))
  else if a = 2 then rvFsDirty (rvPut h 3 (setFld (rvRaw h 3) 7 5 (fld v 2 0)))
  else if a = 3 then rvFsDirty (rvPut h 3 (v &&& 0xFF#64))
  else if a = 8 then rvVsDirty (rvPut h 8 (v &&& 0x1FF#64))
  else if a = 9 then rvVsDirty (rvPut h 9 (v &&& 1#64))
  else if a = 0xA then rvVsDirty (rvPut h 0xA (v &&& 3#64))
  else if a = 0xF then rvVsDirty (rvPut (rvPut h 9 (v &&& 1#64)) 0xA ((v >>> 1) &&& 3#64))
  else if a = 0x300 then
    let keep := rvStatus h
    let new := v &&& 0x227E88#64
    rvPut h a (if fld v 12 11 = 0 || fld v 12 11 = 3 then new else setFld new 12 11 (fld keep 12 11))
  else if a = 0x304 then rvPut h a (v &&& 0x888#64)
  else if a = 0x305 then (if fld v 1 1 = 1 then h else rvPut h a v)
  else if a = 0x306 || a = 0x320 then rvPut h a (v &&& 0xFFFFFFFF#64)
  else if a = 0x30A then rvPut h a (v &&& 1#64)
  else if a = 0x341 then rvPut h a (v &&& ~~~ 1#64)
  else if a = 0x3A0 || a = 0x3A2 then rvPut h a (pmpCfgWrite h a v)
  else if 0x3B0 ≤ a && a < 0x3C0 then
    let i := a - 0x3B0
    let top := i < 15 && pmpLocked h (i + 1) && nfld (pmpCfg h (i + 1)) 4 3 = 1
    if pmpLocked h i || top then h else rvPut h a (v &&& 0x3FFFFFFFFFFFFF#64)
  else if [0x340, 0x342, 0x343].contains a || (0x323 ≤ a && a < 0x340) then rvPut h a v
  else h

/-! ### Physical memory protection (R161) -/

/-- The bytes of a region, from the first up to the one after the last; none where it is off. -/
def pmpRange (h : Stagehand) (i : Nat) : Option (Nat × Nat) :=
  let v := pmpAddr h i
  match nfld (pmpCfg h i) 4 3 with
  | 0 => none
  | 1 => some (4 * (if i = 0 then 0 else pmpAddr h (i - 1)), 4 * v)
  | 2 => some (4 * v, 4 * v + 4)
  | _ =>
    let k := ((List.range 54).find? fun j => nfld v j j = 0).getD 54
    some (4 * (v + 1 - 2 ^ k), 4 * (v + 1 - 2 ^ k) + 8 * 2 ^ k)

/-- Whether an access is allowed: by the lowest-numbered region that holds any of its bytes, which must hold them all; without one, to
machine mode only. `perm` is 0 read, 1 write, 2 execute. -/
def pmpAllows (h : Stagehand) (machine : Bool) (perm a n : Nat) : Bool :=
  let hit := (List.range 16).filterMap fun i => match pmpRange h i with
    | some r => if a < r.2 && r.1 < a + n then some (i, r) else none
    | none => none
  match hit.head? with
  | none => machine
  | some (i, r) => r.1 ≤ a && a + n ≤ r.2 && ((machine && !pmpLocked h i) || nfld (pmpCfg h i) perm perm = 1)

/-- The privilege of data accesses: mstatus.MPRV lends machine mode that of MPP. -/
def rvDataMachine (h : Stagehand) : Bool := h.machine && !(bitAt (rvStatus h) 17 && fld (rvStatus h) 12 11 ≠ 3)

/-- Whether a fetch is allowed. -/
def rvFetchOk (h : Stagehand) (len : Nat) : Bool := pmpAllows h h.machine 2 h.pc.toNat len

/-- What stops a data access: misaligned (R162), or not allowed; its cause. -/
def rvDataFault (h : Stagehand) (store : Bool) (a : DWord) (n : Nat) : Option Nat :=
  if a.toNat % n ≠ 0 then some (if store then 6 else 4)
  else if !pmpAllows h (rvDataMachine h) (b2n store) a.toNat n then some (if store then 7 else 5)
  else none

/-! ### Memory: local memory at 0 to 0x7FFFF; what lies beyond is a free value -/

def rvIn (a n : Nat) : Bool := a + n ≤ 0x80000

/-- The bytes of a load, as a number. -/
def rvLoad (h : Stagehand) (w : Word) (a : DWord) (n : Nat) : Nat :=
  if rvIn a.toNat n then leNat (tabRead 0#8 h.lm a.toNat n) else (rvFree h w a 0).toNat % 2 ^ (8 * n)
def rvStore (h : Stagehand) (a : DWord) (n : Nat) (v : DWord) : Stagehand :=
  if rvIn a.toNat n then { h with lm := tabWrite 0#8 h.lm a.toNat (leBytes n v.toNat) } else h

end Sys2Proof.Machine
end

