-- ==== Sys2Proof/Machine/RvVec.lean ====
section
/-! DEFINITION. The Vector extension 1.0 with VLEN 512 and ELEN 64 (R160, R163). PRESUMED from the published RISC-V manual
(notes/assumptions/13.md): a reserved encoding or operand traps, and an agnostic element keeps its value or takes ones by a free value. -/

namespace Sys2Proof.Machine

open Sys2Proof

/-! ### Configuration -/

/-- vtype and vl: SEW in bits, eight times LMUL, vl, vstart, and the tail and mask policies. -/
structure VCfg where
  sew : Nat
  lmul : Nat
  vl : Nat
  start : Nat
  ta : Bool
  ma : Bool
deriving DecidableEq, Repr

/-- Eight times the LMUL of a vtype; 0 where it is reserved. -/
def vLmul (t : Nat) : Nat := match nfld t 2 0 with | 0 => 8 | 1 => 16 | 2 => 32 | 3 => 64 | 5 => 1 | 6 => 2 | 7 => 4 | _ => 0

/-- VLMAX of a vtype, LMUL × 512 / SEW; none where the vtype is illegal, or an element would not fit its fraction of a register. -/
def rvVlmax (t : Nat) : Option Nat :=
  let sew := 8 * 2 ^ nfld t 5 3
  let n := 64 * vLmul t / sew
  if nfld t 5 3 > 3 || vLmul t = 0 || t ≥ 256 || n = 0 || sew > 8 * vLmul t then none else some n

/-- The configuration in force; none while vtype.vill is set. -/
def vcfg (h : Stagehand) : Option VCfg :=
  let t := (rvRaw h 0xC21).toNat
  (rvVlmax t).map fun _ => ⟨8 * 2 ^ nfld t 5 3, vLmul t, (rvRaw h 0xC20).toNat, (rvRaw h 8).toNat, nfld t 6 6 = 1, nfld t 7 7 = 1⟩

/-- VLMAX of a configuration. -/
def VCfg.max (c : VCfg) : Nat := 64 * c.lmul / c.sew

/-- vsetvli, vsetivli and vsetvl. -/
def rvVset (h : Stagehand) (w : Word) : Stagehand :=
  let imm := fld w 31 30 = 3
  let t := if fld w 31 31 = 0 then fld w 30 20 else if imm then fld w 29 20 else (rvX h (fld w 24 20)).toNat
  let rs1 := fld w 19 15
  let rd := fld w 11 7
  let set (vl : Nat) (vt : DWord) : Stagehand :=
    rvVsDirty (rvPut (rvPut (rvPut (rvSetX h rd (BitVec.ofNat 64 vl)) 0xC20 (BitVec.ofNat 64 vl)) 0xC21 vt) 8 0)
  match rvVlmax t with
  | none => set 0 (BitVec.ofNat 64 (2 ^ 63))
  | some m =>
    let avl := if imm then rs1 else if rs1 ≠ 0 then (rvX h rs1).toNat else if rd ≠ 0 then m else (rvRaw h 0xC20).toNat
    set (min avl m) (BitVec.ofNat 64 t)

/-! ### Elements, masks and what an instruction leaves -/

/-- Element i of width w of the group from register r, and its replacement. -/
def vElem (h : Stagehand) (r w i : Nat) : Nat := leNat (tabRead 0#8 h.v (64 * r + i * (w / 8)) (w / 8))
def vSetElem (h : Stagehand) (r w i x : Nat) : Stagehand :=
  { h with v := tabWrite 0#8 h.v (64 * r + i * (w / 8)) (leBytes (w / 8) x) }

/-- Mask bit i of register r, and its replacement. -/
def vBit (h : Stagehand) (r i : Nat) : Bool := bitAt (tabGet 0#8 h.v (64 * r + i / 8)) (i % 8)
def vSetBit (h : Stagehand) (r i : Nat) (b : Bool) : Stagehand :=
  { h with v := tabMod 0#8 h.v (64 * r + i / 8) fun x => setFld x (i % 8) (i % 8) (b2n b) }

/-- Whether element i takes part: the instruction is unmasked, or its bit of v0 is set. -/
def vActive (h : Stagehand) (w : Word) (i : Nat) : Bool := bitAt w 25 || vBit h 0 i

/-- Exceptions of the elements: floating-point ones in the low five bits, saturation in the sixth. -/
def vFlags (fl : Nat) (h : Stagehand) : Stagehand := if fl ≥ 32 then rvPut (rvFlags h (fl % 32)) 9 1 else rvFlags h fl

/-- Whether an agnostic element takes ones. -/
def vOnes (h : Stagehand) (w : Word) (i : Nat) : Bool := (rvFree h w 1 1).getLsbD (i % 64)

/-- Writes the elements of width `w` and eight times LMUL `lm` of a destination: the active ones take `f`, and what the policies call
agnostic keeps its value or takes ones. -/
def vWrite (h : Stagehand) (iw : Word) (c : VCfg) (vd w lm : Nat) (act : Nat → Bool) (f : Nat → Nat × Nat) : Stagehand :=
  if c.start ≥ c.vl then h
  else (List.range (max (512 / w) (64 * lm / w))).foldl (fun t i =>
    let ones := vSetElem t vd w i (2 ^ w - 1)
    if i < c.start then t
    else if i < c.vl then
      if act i then let r := f i; vFlags r.2 (vSetElem t vd w i r.1)
      else if c.ma && vOnes h iw i then ones else t
    else if c.ta && vOnes h iw i then ones else t) h

/-- Writes the bits of a mask destination, whose tail is always agnostic. -/
def vWriteMask (h : Stagehand) (iw : Word) (c : VCfg) (vd : Nat) (act : Nat → Bool) (f : Nat → Bool × Nat) : Stagehand :=
  if c.start ≥ c.vl then h
  else (List.range 512).foldl (fun t i =>
    if i < c.start then t
    else if i < c.vl then
      if act i then let r := f i; vFlags r.2 (vSetBit t vd i r.1)
      else if c.ma && vOnes h iw i then vSetBit t vd i true else t
    else if vOnes h iw i then vSetBit t vd i true else t) h

/-! ### Legal register groups -/

/-- Registers of a group of eight times LMUL `lm`. -/
def vRegs (lm : Nat) : Nat := max 1 (lm / 8)

/-- Whether a group may begin at a register. -/
def regOk (r lm : Nat) : Bool := 0 < lm && lm ≤ 64 && r % vRegs lm = 0 && r + vRegs lm ≤ 32

/-- Whether a destination may overlap a source of another element width: not at all, or wider in the source's highest registers, or
narrower in its lowest. -/
def overlapOk (vd lmd wd vs lms ws : Nat) : Bool :=
  vd + vRegs lmd ≤ vs || vs + vRegs lms ≤ vd || wd = ws || (wd < ws && vd = vs) ||
    (wd > ws && 8 ≤ lms && vd + vRegs lmd = vs + vRegs lms)

/-- Whether two groups share a register. -/
def vMeet (a lma b lmb : Nat) : Bool := a < b + vRegs lmb && b < a + vRegs lma

/-! ### Integer arithmetic -/

def sgnOf (w x : Nat) : Int := if nfld x (w - 1) (w - 1) = 1 then (x % 2 ^ w : Nat) - (2 ^ w : Nat) else (x % 2 ^ w : Nat)
def ofSgn (w : Nat) (v : Int) : Nat := (v % (2 ^ w : Nat)).toNat

/-- Fixed-point rounding of v / 2^d under vxrm. -/
def vRound (rm : Nat) (v : Int) (d : Nat) : Int :=
  let t := v / (2 ^ d : Nat)
  let r := (v % (2 ^ d : Nat)).toNat
  let up : Bool := match rm with
    | 0 => decide (2 * r ≥ 2 ^ d)
    | 1 => decide (2 * r > 2 ^ d) || (decide (2 * r = 2 ^ d) && decide (t % 2 = 1))
    | 2 => false
    | _ => decide (r ≠ 0) && decide (t % 2 = 0)
  if d ≠ 0 && up then t + 1 else t

/-- Saturation to w bits, signed or not, with its flag. -/
def vSat (signed : Bool) (w : Nat) (v : Int) : Nat × Nat :=
  let lo : Int := if signed then -(2 ^ (w - 1) : Nat) else 0
  let hi : Int := if signed then (2 ^ (w - 1) : Nat) - 1 else (2 ^ w : Nat) - 1
  if v < lo then (ofSgn w lo, 32) else if v > hi then (ofSgn w hi, 32) else (ofSgn w v, 0)

/-- Which of the forms VV (1), VX (2) and VI (4) an OPI code has. -/
def opiForms (f6 : Nat) : Nat :=
  if [0x00, 0x09, 0x0A, 0x0B, 0x0C, 0x0E, 0x10, 0x11, 0x17, 0x18, 0x19, 0x1C, 0x1D, 0x20, 0x21, 0x25, 0x27, 0x28, 0x29, 0x2A, 0x2B,
      0x2C, 0x2D, 0x2E, 0x2F].contains f6 then 7
  else if [0x02, 0x04, 0x05, 0x06, 0x07, 0x12, 0x13, 0x1A, 0x1B, 0x22, 0x23].contains f6 then 3
  else if [0x03, 0x0F, 0x1E, 0x1F].contains f6 then 6
  else if f6 = 0x30 || f6 = 0x31 then 1 else 0

/-- OPI operations of one width: a from vs2, b the other operand, `n` the shift amount, m the mask bit. -/
def opiVal (f6 w rm a b n : Nat) (m : Bool) : Nat × Nat :=
  let x := sgnOf w a
  let y := sgnOf w b
  let wrap (v : Int) : Nat × Nat := (ofSgn w v, 0)
  let sh := n % w
  match f6 with
  | 0x00 => wrap (x + y)
  | 0x02 => wrap (x - y)
  | 0x03 => wrap (y - x)
  | 0x04 => (min a b, 0)
  | 0x05 => wrap (min x y)
  | 0x06 => (max a b, 0)
  | 0x07 => wrap (max x y)
  | 0x09 => (a &&& b, 0)
  | 0x0A => (a ||| b, 0)
  | 0x0B => (a ^^^ b, 0)
  | 0x10 => wrap (x + y + b2n m)
  | 0x12 => wrap (x - y - b2n m)
  | 0x17 => (if m then b else a, 0)
  | 0x20 => vSat false w ((a : Int) + b)
  | 0x21 => vSat true w (x + y)
  | 0x22 => vSat false w ((a : Int) - b)
  | 0x23 => vSat true w (x - y)
  | 0x25 => (a * 2 ^ sh % 2 ^ w, 0)
  | 0x27 => vSat true w (vRound rm (x * y) (w - 1))
  | 0x28 => (a / 2 ^ sh, 0)
  | 0x29 => wrap (x / (2 ^ sh : Nat))
  | 0x2A => wrap (vRound rm a sh)
  | _ => wrap (vRound rm x sh)

/-- OPI comparisons, and the carry and borrow outputs. -/
def opiCmp (f6 w a b : Nat) (m : Bool) : Bool :=
  let x := sgnOf w a
  let y := sgnOf w b
  match f6 with
  | 0x11 => a + b + b2n m ≥ 2 ^ w
  | 0x13 => a < b + b2n m
  | 0x18 => a = b
  | 0x19 => a ≠ b
  | 0x1A => a < b
  | 0x1B => x < y
  | 0x1C => a ≤ b
  | 0x1D => x ≤ y
  | 0x1E => a > b
  | _ => x > y

/-- Narrowing shifts and clips: a is twice as wide. -/
def opiNarrow (f6 w rm a n : Nat) : Nat × Nat :=
  let sh := n % (2 * w)
  match f6 with
  | 0x2C => (a / 2 ^ sh % 2 ^ w, 0)
  | 0x2D => (ofSgn w (sgnOf (2 * w) a / (2 ^ sh : Nat)), 0)
  | 0x2E => vSat false w (vRound rm a sh)
  | _ => vSat true w (vRound rm (sgnOf (2 * w) a) sh)

/-- The operands of a vector instruction: its word, its fields, and the configuration. -/
structure VOp where
  w : Word
  c : VCfg
  f6 : Nat
  vm : Bool
  vd : Nat
  vs2 : Nat
  vs1 : Nat
  /-- the second operand is a vector -/
  vv : Bool
  /-- the scalar operand at SEW, and as it stands -/
  sc : Nat
  usc : Nat

/-- Whether the destination of a masked instruction is not the mask. -/
def VOp.maskOk (o : VOp) : Bool := o.vm || o.vd ≠ 0

/-- Element i of the second operand, and its shift amount. -/
def VOp.b (o : VOp) (h : Stagehand) (i : Nat) : Nat := if o.vv then vElem h o.vs1 o.c.sew i else o.sc
def VOp.n (o : VOp) (h : Stagehand) (i : Nat) : Nat := if o.vv then vElem h o.vs1 o.c.sew i else o.usc

/-- Both sources and the destination are legal groups of the configuration. -/
def VOp.plain (o : VOp) : Bool :=
  o.maskOk && regOk o.vd o.c.lmul && regOk o.vs2 o.c.lmul && (!o.vv || regOk o.vs1 o.c.lmul)

/-- A gather: the element of vs2 at an index, 0 beyond VLMAX. -/
def vGather (h : Stagehand) (o : VOp) (j : Nat) : Nat × Nat := (if j < o.c.max then vElem h o.vs2 o.c.sew j else 0, 0)

/-- vmv<n>r.v: whole registers. -/
def vMoveRegs (h : Stagehand) (o : VOp) : Option Stagehand :=
  let n := o.vs1 + 1
  if !o.vm || !([1, 2, 4, 8].contains n) || o.vd % n ≠ 0 || o.vs2 % n ≠ 0 then none
  else if o.c.start ≥ n * 512 / o.c.sew then some h
  else
    let skip := o.c.start * (o.c.sew / 8)
    some { h with v := tabWrite 0#8 h.v (64 * o.vd + skip) (tabRead 0#8 h.v (64 * o.vs2 + skip) (64 * n - skip)) }

/-- A reduction into element 0 of vd: element 0 of vs1, then the active elements of vs2 in their order (R163). -/
def vReduce (h : Stagehand) (o : VOp) (wd : Nat) (ext : Nat → Nat) (f : Nat → Nat → Nat × Nat) : Option Stagehand :=
  if !regOk o.vs2 o.c.lmul || o.c.start ≠ 0 then none
  else if o.c.vl = 0 then some h
  else
    let r := (List.range o.c.vl).foldl (fun (p : Nat × Nat) i =>
      if vActive h o.w i then let q := f p.1 (ext (vElem h o.vs2 o.c.sew i)); (q.1, p.2 ||| q.2) else p) (vElem h o.vs1 wd 0, 0)
    some (vWrite h o.w { o.c with vl := 1 } o.vd wd 8 (fun _ => true) fun _ => r)

/-- OPIVV, OPIVX and OPIVI; none where the encoding is reserved. -/
def vOpi (h : Stagehand) (o : VOp) (vi : Bool) : Option Stagehand :=
  let c := o.c
  let w := c.sew
  let lm := c.lmul
  let rm := (rvRaw h 0xA).toNat
  let form := if o.vv then 1 else if vi then 4 else 2
  let act := vActive h o.w
  let a (i : Nat) : Nat := vElem h o.vs2 w i
  if opiForms o.f6 &&& form = 0 then none
  else if o.f6 = 0x27 && vi then vMoveRegs h o
  else if o.f6 = 0x30 || o.f6 = 0x31 then
    if w = 64 then none
    else
      let ext (x : Nat) : Nat := if o.f6 = 0x30 then x else ofSgn (2 * w) (sgnOf w x)
      vReduce h o (2 * w) ext fun p x => ((p + x) % 2 ^ (2 * w), 0)
  else if o.f6 = 0x0C then
    if !o.plain || vMeet o.vd lm o.vs2 lm || (o.vv && vMeet o.vd lm o.vs1 lm) then none
    else some (vWrite h o.w c o.vd w lm act fun i => vGather h o (o.n h i))
  else if o.f6 = 0x0E && o.vv then
    let lx := lm * 16 / w
    if !o.maskOk || !regOk o.vd lm || !regOk o.vs2 lm || !regOk o.vs1 lx || vMeet o.vd lm o.vs2 lm || vMeet o.vd lm o.vs1 lx then none
    else some (vWrite h o.w c o.vd w lm act fun i => vGather h o (vElem h o.vs1 16 i))
  else if o.f6 = 0x0E then
    if !o.plain || vMeet o.vd lm o.vs2 lm then none
    else some (vWrite h o.w { c with start := max c.start o.usc } o.vd w lm act fun i => (a (i - o.usc), 0))
  else if o.f6 = 0x0F then
    if !o.plain then none else some (vWrite h o.w c o.vd w lm act fun i => vGather h o (i + o.usc))
  else if o.f6 = 0x11 || o.f6 = 0x13 || (0x18 ≤ o.f6 && o.f6 ≤ 0x1F) then
    let carry := o.f6 < 0x18
    if !regOk o.vs2 lm || (o.vv && !regOk o.vs1 lm) || !overlapOk o.vd 8 1 o.vs2 lm w || (o.vv && !overlapOk o.vd 8 1 o.vs1 lm w)
    then none
    else some (vWriteMask h o.w c o.vd (fun i => carry || act i) fun i => (opiCmp o.f6 w (a i) (o.b h i) (!o.vm && vBit h 0 i), 0))
  else if 0x2C ≤ o.f6 && o.f6 ≤ 0x2F then
    if w = 64 || !o.maskOk || !regOk o.vd lm || !regOk o.vs2 (2 * lm) || (o.vv && !regOk o.vs1 lm) ||
      !overlapOk o.vd lm w o.vs2 (2 * lm) (2 * w) then none
    else some (vWrite h o.w c o.vd w lm act fun i => opiNarrow o.f6 w rm (vElem h o.vs2 (2 * w) i) (o.n h i))
  else if ((o.f6 = 0x10 || o.f6 = 0x12) && o.vm) || (o.f6 = 0x17 && o.vm && o.vs2 ≠ 0) || !o.plain then none
  else
    let whole := o.f6 = 0x10 || o.f6 = 0x12 || o.f6 = 0x17
    some (vWrite h o.w c o.vd w lm (fun i => whole || act i) fun i =>
      opiVal o.f6 w rm (a i) (o.b h i) (o.n h i) (o.vm || vBit h 0 i))

/-! ### Multiplication, division, masks -/

/-- OPM operations of one width: d is the old destination. -/
def opmVal (f6 w rm a b d : Nat) : Nat × Nat :=
  let x := sgnOf w a
  let y := sgnOf w b
  let wrap (v : Int) : Nat × Nat := (ofSgn w v, 0)
  match f6 with
  | 0x08 => wrap (vRound rm ((a : Int) + b) 1)
  | 0x09 => wrap (vRound rm (x + y) 1)
  | 0x0A => wrap (vRound rm ((a : Int) - b) 1)
  | 0x0B => wrap (vRound rm (x - y) 1)
  | 0x20 => (if b = 0 then 2 ^ w - 1 else a / b, 0)
  | 0x21 => if b = 0 then (2 ^ w - 1, 0) else wrap (x.tdiv y)
  | 0x22 => (if b = 0 then a else a % b, 0)
  | 0x23 => if b = 0 then (a, 0) else wrap (x.tmod y)
  | 0x24 => (a * b / 2 ^ w, 0)
  | 0x25 => wrap (x * y)
  | 0x26 => wrap (x * b / (2 ^ w : Nat))
  | 0x27 => wrap (x * y / (2 ^ w : Nat))
  | 0x29 => wrap ((b : Int) * d + a)
  | 0x2B => wrap (a - (b : Int) * d)
  | 0x2D => wrap ((b : Int) * a + d)
  | _ => wrap (d - (b : Int) * a)

/-- Widening OPM operations: a at its width (twice SEW for the .w forms). -/
def opmWide (f6 w a b d : Nat) : Nat × Nat :=
  let x := sgnOf w a
  let y := sgnOf w b
  let wrap (v : Int) : Nat × Nat := (ofSgn (2 * w) v, 0)
  match f6 with
  | 0x30 => wrap ((a : Int) + b)
  | 0x31 => wrap (x + y)
  | 0x32 => wrap ((a : Int) - b)
  | 0x33 => wrap (x - y)
  | 0x34 => wrap ((a : Int) + b)
  | 0x35 => wrap (a + y)
  | 0x36 => wrap ((a : Int) - b)
  | 0x37 => wrap (a - y)
  | 0x38 => wrap ((a : Int) * b)
  | 0x3A => wrap (x * b)
  | 0x3B => wrap (x * y)
  | 0x3C => wrap ((a : Int) * b + d)
  | 0x3D => wrap (x * y + d)
  | 0x3E => wrap (x * b + d)
  | _ => wrap (a * y + d)

/-- Reductions of integers. -/
def opmRed (f6 w p x : Nat) : Nat × Nat :=
  match f6 with
  | 0 => ((p + x) % 2 ^ w, 0)
  | 1 => (p &&& x, 0)
  | 2 => (p ||| x, 0)
  | 3 => (p ^^^ x, 0)
  | 4 => (min p x, 0)
  | 5 => (ofSgn w (min (sgnOf w p) (sgnOf w x)), 0)
  | 6 => (max p x, 0)
  | _ => (ofSgn w (max (sgnOf w p) (sgnOf w x)), 0)

/-- Mask logic. -/
def maskVal (f6 : Nat) (a b : Bool) : Bool :=
  match f6 with
  | 0x18 => a && !b
  | 0x19 => a && b
  | 0x1A => a || b
  | 0x1B => a ≠ b
  | 0x1C => a || !b
  | 0x1D => !(a && b)
  | 0x1E => !(a || b)
  | _ => a = b

/-- The active elements of vs2's mask bits that are set, in order. -/
def maskSet (h : Stagehand) (o : VOp) : List Nat := (List.range o.c.vl).filter fun i => vActive h o.w i && vBit h o.vs2 i

/-- VWXUNARY0: vmv.x.s, vcpop.m and vfirst.m. -/
def vToX (h : Stagehand) (o : VOp) : Option Stagehand :=
  match o.vs1 with
  | 0 => if o.vm then some (rvSetX h o.vd (BitVec.ofInt 64 (sgnOf o.c.sew (vElem h o.vs2 o.c.sew 0)))) else none
  | 0x10 => if o.c.start = 0 then some (rvSetX h o.vd (BitVec.ofNat 64 (maskSet h o).length)) else none
  | 0x11 =>
    if o.c.start = 0 then some (rvSetX h o.vd (match (maskSet h o).head? with | some i => BitVec.ofNat 64 i | none => BitVec.allOnes 64))
    else none
  | _ => none

/-- VMUNARY0: vmsbf, vmsof, vmsif, viota and vid. -/
def vMaskUnary (h : Stagehand) (o : VOp) : Option Stagehand :=
  let c := o.c
  let act := vActive h o.w
  let first := (maskSet h o).head?
  if [1, 2, 3].contains o.vs1 then
    if c.start ≠ 0 || o.vd = o.vs2 || !o.maskOk then none
    else some (vWriteMask h o.w c o.vd act fun i =>
      (match first with
       | some k => if o.vs1 = 1 then i < k else if o.vs1 = 2 then i = k else i ≤ k
       | none => o.vs1 ≠ 2, 0))
  else if o.vs1 = 0x10 then
    if c.start ≠ 0 || !o.maskOk || !regOk o.vd c.lmul || vMeet o.vd c.lmul o.vs2 8 then none
    else some (vWrite h o.w c o.vd c.sew c.lmul act fun i => (((maskSet h o).filter (· < i)).length % 2 ^ c.sew, 0))
  else if o.vs1 = 0x11 then
    if o.vs2 ≠ 0 || !o.maskOk || !regOk o.vd c.lmul then none
    else some (vWrite h o.w c o.vd c.sew c.lmul act fun i => (i % 2 ^ c.sew, 0))
  else none

/-- VXUNARY0: zero and sign extension by 2, 4 and 8. -/
def vExtend (h : Stagehand) (o : VOp) : Option Stagehand :=
  let c := o.c
  let k := match o.vs1 / 2 with | 1 => 8 | 2 => 4 | 3 => 2 | _ => 0
  if k = 0 || c.sew / k < 8 || c.lmul < k || c.lmul % k ≠ 0 || !o.maskOk || !regOk o.vd c.lmul || !regOk o.vs2 (c.lmul / k) ||
    !overlapOk o.vd c.lmul c.sew o.vs2 (c.lmul / k) (c.sew / k) then none
  else some (vWrite h o.w c o.vd c.sew c.lmul (vActive h o.w) fun i =>
    let x := vElem h o.vs2 (c.sew / k) i
    (if o.vs1 % 2 = 0 then x else ofSgn c.sew (sgnOf (c.sew / k) x), 0))

/-- vcompress.vm: the elements of vs2 that the mask vs1 names, one after another; what follows is tail. -/
def vCompress (h : Stagehand) (o : VOp) : Option Stagehand :=
  let c := o.c
  if !o.vm || c.start ≠ 0 || !regOk o.vd c.lmul || !regOk o.vs2 c.lmul || vMeet o.vd c.lmul o.vs2 c.lmul || vMeet o.vd c.lmul o.vs1 8
  then none
  else
    let js := (List.range c.vl).filter (vBit h o.vs1)
    some (vWrite h o.w { c with vl := js.length } o.vd c.sew c.lmul (fun _ => true) fun i => (vElem h o.vs2 c.sew (js.getD i 0), 0))

/-- vslide1up and vslide1down, with the scalar x. -/
def vSlide1 (h : Stagehand) (o : VOp) (up : Bool) (x : Nat) : Option Stagehand :=
  let c := o.c
  if !o.maskOk || !regOk o.vd c.lmul || !regOk o.vs2 c.lmul || (up && vMeet o.vd c.lmul o.vs2 c.lmul) then none
  else some (vWrite h o.w c o.vd c.sew c.lmul (vActive h o.w) fun i =>
    (if up then (if i = 0 then x else vElem h o.vs2 c.sew (i - 1))
     else if i + 1 = c.vl then x else vElem h o.vs2 c.sew (i + 1), 0))

/-- Whether the operands of a widening instruction are legal; `aw` says whether vs2 is wide already. -/
def VOp.wideOk (o : VOp) (aw : Bool) : Bool :=
  let lm := o.c.lmul
  o.c.sew < 64 && o.maskOk && regOk o.vd (2 * lm) && regOk o.vs2 (if aw then 2 * lm else lm) && (!o.vv || regOk o.vs1 lm) &&
    (aw || overlapOk o.vd (2 * lm) (2 * o.c.sew) o.vs2 lm o.c.sew) &&
    (!o.vv || overlapOk o.vd (2 * lm) (2 * o.c.sew) o.vs1 lm o.c.sew)

/-- OPMVV and OPMVX. -/
def vOpm (h : Stagehand) (o : VOp) : Option Stagehand :=
  let c := o.c
  let w := c.sew
  let lm := c.lmul
  let rm := (rvRaw h 0xA).toNat
  let act := vActive h o.w
  if o.f6 < 8 then (if o.vv then vReduce h o w id (opmRed o.f6 w) else none)
  else if o.f6 = 0x0E || o.f6 = 0x0F then (if o.vv then none else vSlide1 h o (o.f6 = 0x0E) o.sc)
  else if o.f6 = 0x10 then
    if o.vv then vToX h o
    else if o.vs2 ≠ 0 || !o.vm then none
    else some (vWrite h o.w { c with vl := min c.vl 1 } o.vd w 8 (fun _ => true) fun _ => (o.sc, 0))
  else if o.f6 = 0x12 then (if o.vv then vExtend h o else none)
  else if o.f6 = 0x14 then (if o.vv then vMaskUnary h o else none)
  else if o.f6 = 0x17 then (if o.vv then vCompress h o else none)
  else if 0x18 ≤ o.f6 && o.f6 ≤ 0x1F then
    if o.vv && o.vm then some (vWriteMask h o.w c o.vd (fun _ => true) fun i => (maskVal o.f6 (vBit h o.vs2 i) (vBit h o.vs1 i), 0))
    else none
  else if 0x30 ≤ o.f6 then
    let aw := 0x34 ≤ o.f6 && o.f6 ≤ 0x37
    if o.f6 = 0x39 || (o.f6 = 0x3E && o.vv) || !o.wideOk aw then none
    else some (vWrite h o.w c o.vd (2 * w) (2 * lm) act fun i =>
      opmWide o.f6 w (vElem h o.vs2 (if aw then 2 * w else w) i) (o.b h i) (vElem h o.vd (2 * w) i))
  else if [0x08, 0x09, 0x0A, 0x0B, 0x20, 0x21, 0x22, 0x23, 0x24, 0x25, 0x26, 0x27, 0x29, 0x2B, 0x2D, 0x2F].contains o.f6 && o.plain then
    some (vWrite h o.w c o.vd w lm act fun i => opmVal o.f6 w rm (vElem h o.vs2 w i) (o.b h i) (vElem h o.vd w i))
  else none

/-! ### Floating point -/

/-- OPF operations of one width with two or three operands. -/
def opfVal (f6 w rm a b d : Nat) : Nat × Nat :=
  let sn := fpIsSnan w a || fpIsSnan w b
  let sd := sn || fpIsSnan w d
  let x := fpVal w a
  let y := fpVal w b
  let z := fpVal w d
  match f6 with
  | 0x00 => fpAdd w rm sn x y
  | 0x02 => fpAdd w rm sn x y.negate
  | 0x04 => fpMinMax w false a b
  | 0x06 => fpMinMax w true a b
  | 0x08 => (fpSgnj w 0 a b, 0)
  | 0x09 => (fpSgnj w 1 a b, 0)
  | 0x0A => (fpSgnj w 2 a b, 0)
  | 0x20 => fpDiv w rm sn x y
  | 0x21 => fpDiv w rm sn y x
  | 0x24 => fpMul w rm sn x y
  | 0x27 => fpAdd w rm sn y x.negate
  | 0x28 => fpFma w rm sd y z x
  | 0x29 => fpFma w rm sd y.negate z x.negate
  | 0x2A => fpFma w rm sd y z x.negate
  | 0x2B => fpFma w rm sd y.negate z x
  | 0x2C => fpFma w rm sd y x z
  | 0x2D => fpFma w rm sd y.negate x z.negate
  | 0x2E => fpFma w rm sd y x z.negate
  | _ => fpFma w rm sd y.negate x z

/-- Widening OPF operations: vs2 at width wa. -/
def opfWide (f6 w wa rm a b d : Nat) : Nat × Nat :=
  let sn := fpIsSnan wa a || fpIsSnan w b
  let sd := sn || fpIsSnan (2 * w) d
  let x := fpVal wa a
  let y := fpVal w b
  let z := fpVal (2 * w) d
  match f6 with
  | 0x30 => fpAdd (2 * w) rm sn x y
  | 0x32 => fpAdd (2 * w) rm sn x y.negate
  | 0x34 => fpAdd (2 * w) rm sn x y
  | 0x36 => fpAdd (2 * w) rm sn x y.negate
  | 0x38 => fpMul (2 * w) rm sn x y
  | 0x3C => fpFma (2 * w) rm sd y x z
  | 0x3D => fpFma (2 * w) rm sd y.negate x z.negate
  | 0x3E => fpFma (2 * w) rm sd y x z.negate
  | _ => fpFma (2 * w) rm sd y.negate x z

/-- OPF comparisons. -/
def opfCmp (f6 w a b : Nat) : Bool × Nat :=
  match f6 with
  | 0x18 => fpCmp w 2 a b
  | 0x19 => fpCmp w 0 a b
  | 0x1B => fpCmp w 1 a b
  | 0x1C => let r := fpCmp w 2 a b; (!r.1, r.2)
  | 0x1D => fpCmp w 1 b a
  | _ => fpCmp w 0 b a

/-- VFUNARY0 of one width: conversions. -/
def opfCvt (k w rm a : Nat) : Option (Nat × Nat) :=
  match k with
  | 0 => some (fpToInt w rm w false a)
  | 1 => some (fpToInt w rm w true a)
  | 2 => some (fpOfInt w rm a)
  | 3 => some (fpOfInt w rm (sgnOf w a))
  | 6 => some (fpToInt w 1 w false a)
  | 7 => some (fpToInt w 1 w true a)
  | _ => none

/-- VFUNARY0, widening: SEW w to twice w. Floating-point sources and results are of 32 and 64 bits only. -/
def opfCvtWide (k w rm a : Nat) : Option (Nat × Nat) :=
  match k with
  | 0x08 => if w = 32 then some (fpToInt w rm 64 false a) else none
  | 0x09 => if w = 32 then some (fpToInt w rm 64 true a) else none
  | 0x0A => if w = 16 || w = 32 then some (fpOfInt (2 * w) rm a) else none
  | 0x0B => if w = 16 || w = 32 then some (fpOfInt (2 * w) rm (sgnOf w a)) else none
  | 0x0C => if w = 32 then some (fpCvt 64 w rm a) else none
  | 0x0E => if w = 32 then some (fpToInt w 1 64 false a) else none
  | 0x0F => if w = 32 then some (fpToInt w 1 64 true a) else none
  | _ => none

/-- VFUNARY0, narrowing: twice SEW w to w. -/
def opfCvtNarrow (k w rm a : Nat) : Option (Nat × Nat) :=
  let int := w = 16 || w = 32
  match k with
  | 0x10 => if int then some (fpToInt (2 * w) rm w false a) else none
  | 0x11 => if int then some (fpToInt (2 * w) rm w true a) else none
  | 0x12 => if w = 32 then some (fpOfInt w rm a) else none
  | 0x13 => if w = 32 then some (fpOfInt w rm (sgnOf 64 a)) else none
  | 0x14 => if w = 32 then some (fpCvt w 64 rm a) else none
  | 0x15 => if w = 32 then some (fpCvt w 64 5 a) else none
  | 0x16 => if int then some (fpToInt (2 * w) 1 w false a) else none
  | 0x17 => if int then some (fpToInt (2 * w) 1 w true a) else none
  | _ => none

/-- VFUNARY1: square root, estimates, class. -/
def opfUnary (k w rm a : Nat) : Option (Nat × Nat) :=
  match k with
  | 0x00 => some (fpSqrt w rm (fpIsSnan w a) (fpVal w a))
  | 0x04 => some (fpRsqrt7 w a)
  | 0x05 => some (fpRec7 w rm a)
  | 0x10 => some (fpClass w a, 0)
  | _ => none

/-- Every element of vs2 of width wa to the destination's width wd. -/
def vUnary (h : Stagehand) (o : VOp) (wa lma wd lmd : Nat) (f : Nat → Option (Nat × Nat)) : Option Stagehand :=
  if (f 0).isNone || !o.maskOk || !regOk o.vd lmd || !regOk o.vs2 lma || !overlapOk o.vd lmd wd o.vs2 lma wa then none
  else some (vWrite h o.w o.c o.vd wd lmd (vActive h o.w) fun i => (f (vElem h o.vs2 wa i)).getD (0, 0))

/-- OPFVV and OPFVF: the scalar operand is an f register. -/
def vOpf (h : Stagehand) (o : VOp) : Option Stagehand :=
  let c := o.c
  let w := c.sew
  let lm := c.lmul
  let rm := fld (rvRaw h 3) 7 5
  let act := vActive h o.w
  let float := w = 32 || w = 64
  if rm > 4 then none
  else if o.f6 = 0x12 then
    if !o.vv then none
    else if o.vs1 < 8 then (if float then vUnary h o w lm w lm (opfCvt o.vs1 w rm) else none)
    else if o.vs1 < 0x10 then vUnary h o w lm (2 * w) (2 * lm) (opfCvtWide o.vs1 w rm)
    else vUnary h o (2 * w) (2 * lm) w lm (opfCvtNarrow o.vs1 w rm)
  else if !float then none
  else if [1, 3, 5, 7].contains o.f6 then
    if !o.vv then none
    else if o.f6 = 5 || o.f6 = 7 then vReduce h o w id (fpMinMax w (o.f6 = 7))
    else vReduce h o w id fun p x => fpAdd w rm (fpIsSnan w p || fpIsSnan w x) (fpVal w p) (fpVal w x)
  else if o.f6 = 0x31 || o.f6 = 0x33 then
    if !o.vv || w = 64 then none
    else vReduce h o 64 id fun p x => fpAdd 64 rm (fpIsSnan 64 p || fpIsSnan w x) (fpVal 64 p) (fpVal w x)
  else if o.f6 = 0x0E || o.f6 = 0x0F then (if o.vv then none else vSlide1 h o (o.f6 = 0x0E) o.sc)
  else if o.f6 = 0x10 then
    if !o.vm then none
    else if o.vv then
      if o.vs1 ≠ 0 then none
      else
        let x := BitVec.ofNat 64 (vElem h o.vs2 w 0)
        some (rvSetF h o.vd (if w = 32 then x ||| 0xFFFFFFFF00000000#64 else x))
    else if o.vs2 ≠ 0 then none
    else some (vWrite h o.w { c with vl := min c.vl 1 } o.vd w 8 (fun _ => true) fun _ => (o.sc, 0))
  else if o.f6 = 0x13 then (if o.vv then vUnary h o w lm w lm (opfUnary o.vs1 w rm) else none)
  else if o.f6 = 0x17 then
    if o.vv || !o.plain || (o.vm && o.vs2 ≠ 0) then none
    else some (vWrite h o.w c o.vd w lm (fun _ => true) fun i => (if o.vm || vBit h 0 i then o.sc else vElem h o.vs2 w i, 0))
  else if [0x18, 0x19, 0x1B, 0x1C, 0x1D, 0x1F].contains o.f6 then
    if (o.vv && o.f6 ≥ 0x1D) || !regOk o.vs2 lm || (o.vv && !regOk o.vs1 lm) || !overlapOk o.vd 8 1 o.vs2 lm w ||
      (o.vv && !overlapOk o.vd 8 1 o.vs1 lm w) then none
    else some (vWriteMask h o.w c o.vd act fun i => opfCmp o.f6 w (vElem h o.vs2 w i) (o.b h i))
  else if [0x30, 0x32, 0x34, 0x36, 0x38, 0x3C, 0x3D, 0x3E, 0x3F].contains o.f6 then
    let aw := o.f6 = 0x34 || o.f6 = 0x36
    if !o.wideOk aw then none
    else
      let wa := if aw then 2 * w else w
      some (vWrite h o.w c o.vd (2 * w) (2 * lm) act fun i =>
        opfWide o.f6 w wa rm (vElem h o.vs2 wa i) (o.b h i) (vElem h o.vd (2 * w) i))
  else if ([0x00, 0x02, 0x04, 0x06, 0x08, 0x09, 0x0A, 0x20, 0x24].contains o.f6 || (0x28 ≤ o.f6 && o.f6 ≤ 0x2F) ||
      (!o.vv && (o.f6 = 0x21 || o.f6 = 0x27))) && o.plain then
    some (vWrite h o.w c o.vd w lm act fun i => opfVal o.f6 w rm (vElem h o.vs2 w i) (o.b h i) (vElem h o.vd w i))
  else none

/-- A register of single precision as it is read: one that is not a NaN-boxed value reads as the canonical NaN. -/
def unbox (v : DWord) : Nat := if fld v 63 32 = 0xFFFFFFFF then fld v 31 0 else fpNan 32

/-- An arithmetic vector instruction (opcode 0x57); none where it is reserved. -/
def vArith (h : Stagehand) (w : Word) : Option Stagehand :=
  let f3 := fld w 14 12
  let r1 := fld w 19 15
  if f3 = 7 then (if fld w 31 25 = 0x40 || fld w 31 31 = 0 || fld w 31 30 = 3 then some (rvVset h w) else none)
  else match vcfg h with
    | none => none
    | some c =>
      let x := (rvX h r1).toNat
      let sc := if f3 = 3 then (sx 5 r1).toNat else if f3 = 5 then (if c.sew = 32 then unbox (rvF h r1) else (rvF h r1).toNat) else x
      let o : VOp := ⟨w, c, fld w 31 26, bitAt w 25, fld w 11 7, fld w 24 20, r1, f3 < 3, sc % 2 ^ c.sew, if f3 = 3 then r1 else x⟩
      let r := if f3 = 0 || f3 = 3 || f3 = 4 then vOpi h o (f3 = 3) else if f3 = 2 || f3 = 6 then vOpm h o
        else if rvFsOn h then vOpf h o else none
      r.map fun t => rvVsDirty (rvPut t 8 0)

/-! ### Loads and stores -/

/-- One element access of a vector load or store: register, element, address. -/
structure VAcc where
  reg : Nat
  elem : Nat
  addr : DWord

/-- Element i of a load or store: its accesses, one for each field of a segment. A trap names its cause and address. -/
def vAccess (w : Word) (store : Bool) (bytes : Nat) : List VAcc → Stagehand → Stagehand × Option (Nat × DWord)
  | [], h => (h, none)
  | a :: as, h =>
    match rvDataFault h store a.addr bytes with
    | some cause => (h, some (cause, a.addr))
    | none =>
      let t := if store then rvStore h a.addr bytes (BitVec.ofNat 64 (vElem h a.reg (8 * bytes) a.elem))
        else vSetElem h a.reg (8 * bytes) a.elem (rvLoad h w a.addr bytes)
      vAccess w store bytes as t

/-- The elements from a number on, in order. A trap leaves vstart at its element; a fault-only-first load that traps after element 0 ends
with a shorter vl instead. -/
def vAccesses (w : Word) (store fof : Bool) (bytes : Nat) (acc : Nat → List VAcc) : List Nat → Stagehand → RvRes
  | [], h => .ok (rvVsDirty (rvPut h 8 0))
  | i :: is, h =>
    match vAccess w store bytes (acc i) h with
    | (t, none) => vAccesses w store fof bytes acc is t
    | (t, some (cause, a)) =>
      if fof && i ≠ 0 then .ok (rvVsDirty (rvPut (rvPut h 0xC20 (BitVec.ofNat 64 i)) 8 0))
      else .trap (rvVsDirty (rvPut t 8 (BitVec.ofNat 64 i))) cause a

/-- Tail and inactive elements of a load, as the policies have them. -/
def vLoadRest (h : Stagehand) (w : Word) (c : VCfg) (ew lm nf : Nat) (vd : Nat) (act : Nat → Bool) : Stagehand :=
  (List.range nf).foldl (fun t k =>
    vWrite t w c (vd + k * vRegs lm) ew lm act fun i => (vElem t (vd + k * vRegs lm) ew i, 0)) h

/-- A vector load or store (opcodes 0x07 and 0x27 with a vector width): unit-stride, strided, indexed, segments, whole registers, masks and
fault-only-first. -/
def vMem (h : Stagehand) (w : Word) (store : Bool) : RvRes :=
  let bad : RvRes := .trap h 2 (w.zeroExtend 64)
  let nf := fld w 31 29 + 1
  let mop := fld w 27 26
  let um := fld w 24 20
  let vd := fld w 11 7
  let base := rvX h (fld w 19 15)
  let ew := match fld w 14 12 with | 0 => 8 | 5 => 16 | 6 => 32 | _ => 64
  let start := (rvRaw h 8).toNat
  if fld w 28 28 = 1 then bad
  else if mop = 0 && um = 8 then
    if !bitAt w 25 || !([1, 2, 4, 8].contains nf) || vd % nf ≠ 0 || (store && ew ≠ 8) then bad
    else
      let n := nf * 512 / ew
      vAccesses w store false (ew / 8) (fun i => [⟨vd, i, base + BitVec.ofNat 64 (i * (ew / 8))⟩]) ((List.range n).drop start) h
  else match vcfg h with
  | none => bad
  | some c =>
    let elems (n : Nat) : List Nat := ((List.range n).drop c.start).filter (vActive h w)
    if mop = 0 && um = 0xB then
      if !bitAt w 25 || nf ≠ 1 || ew ≠ 8 then bad
      else
        let n := cdiv c.vl 8
        let h1 := if store then h else vLoadRest h w { c with vl := n, ta := true } 8 8 1 vd fun _ => true
        vAccesses w store false 1 (fun i => [⟨vd, i, base + BitVec.ofNat 64 i⟩]) (elems n) h1
    else
      let indexed := mop = 1 || mop = 3
      let dw := if indexed then c.sew else ew
      let lm := if indexed then c.lmul else c.lmul * ew / c.sew
      let lmx := c.lmul * ew / c.sew
      let regs := vRegs lm
      let maskOk := bitAt w 25 || store || vd ≠ 0
      let off (i : Nat) : DWord :=
        if indexed then BitVec.ofNat 64 (vElem h um ew i)
        else if mop = 2 then BitVec.ofNat 64 i * rvX h um
        else BitVec.ofNat 64 (i * nf * (dw / 8))
      let acc (i : Nat) : List VAcc :=
        (List.range nf).map fun k => ⟨vd + k * regs, i, base + off i + BitVec.ofNat 64 (k * (dw / 8))⟩
      if (mop = 0 && um ≠ 0 && (um ≠ 0x10 || store)) || !regOk vd lm || nf * regs > 8 || vd + nf * regs > 32 || !maskOk ||
        (indexed && (!regOk um lmx || (!store && (if nf = 1 then !overlapOk vd lm dw um lmx ew
          else vd < um + vRegs lmx && um < vd + nf * regs)))) then bad
      else
        let h1 := if store then h else vLoadRest h w c dw lm nf vd (vActive h w)
        vAccesses w store (mop = 0 && um = 0x10) (dw / 8) acc (elems c.vl) h1

end Sys2Proof.Machine
end

