-- ==== Sys2Proof/Machine/Stagehand.lean ====
section
/-! DEFINITION. STAGEHAND_INSTRUCTION (R160 to R163). The manual names RV64GC, Zicsr, Zifencei and the Vector extension
and restates none of them. PRESUMED from the published RISC-V manuals (notes/assumptions/13.md): every instruction below and in
RvFloat, RvCore and RvVec, the encodings they reserve, and their traps. -/

namespace Sys2Proof.Machine

open Sys2Proof

/-- Immediates of the I, S, B, U and J formats. -/
def immI (w : Word) : DWord := sx 12 (fld w 31 20)
def immS (w : Word) : DWord := sx 12 (fld w 31 25 * 32 + fld w 11 7)
def immB (w : Word) : DWord := sx 13 (fld w 31 31 * 4096 + fld w 7 7 * 2048 + fld w 30 25 * 32 + fld w 11 8 * 2)
def immU (w : Word) : DWord := sx 32 (fld w 31 12 * 4096)
def immJ (w : Word) : DWord := sx 21 (fld w 31 31 * 2 ^ 20 + fld w 19 12 * 4096 + fld w 20 20 * 2048 + fld w 30 21 * 2)

/-- The low 32 bits of a result, sign-extended. -/
def rvW (x : DWord) : DWord := (x.truncate 32 : Word).signExtend 64

/-! ### Integer arithmetic -/

/-- Signed quotient and remainder of M, with its results for a divisor of 0. -/
def rvDiv {n : Nat} (a b : BitVec n) : BitVec n := if b = 0 then BitVec.allOnes n else a.sdiv b
def rvDivu {n : Nat} (a b : BitVec n) : BitVec n := if b = 0 then BitVec.allOnes n else a.udiv b
def rvRem {n : Nat} (a b : BitVec n) : BitVec n := if b = 0 then a else a.srem b
def rvRemu {n : Nat} (a b : BitVec n) : BitVec n := if b = 0 then a else a.umod b

/-- OP and OP-IMM: funct3, and funct7 bit 5. -/
def rvAlu (f3 : Nat) (alt : Bool) (a b : DWord) : DWord :=
  match f3 with
  | 0 => if alt then a - b else a + b
  | 1 => a <<< (b.toNat % 64)
  | 2 => if a.slt b then 1 else 0
  | 3 => if a.ult b then 1 else 0
  | 4 => a ^^^ b
  | 5 => if alt then a.sshiftRight (b.toNat % 64) else a >>> (b.toNat % 64)
  | 6 => a ||| b
  | _ => a &&& b

/-- OP-32 and OP-IMM-32. -/
def rvAluW (f3 : Nat) (alt : Bool) (a b : DWord) : DWord :=
  let x : Word := a.truncate 32
  let n := b.toNat % 32
  match f3 with
  | 1 => (x <<< n).signExtend 64
  | 5 => (if alt then x.sshiftRight n else x >>> n).signExtend 64
  | _ => rvW (if alt then a - b else a + b)

/-- M: 64-bit forms. -/
def rvMul (f3 : Nat) (a b : DWord) : DWord :=
  match f3 with
  | 0 => a * b
  | 1 => BitVec.ofInt 64 (a.toInt * b.toInt / 2 ^ 64)
  | 2 => BitVec.ofInt 64 (a.toInt * b.toNat / 2 ^ 64)
  | 3 => BitVec.ofNat 64 (a.toNat * b.toNat / 2 ^ 64)
  | 4 => rvDiv a b
  | 5 => rvDivu a b
  | 6 => rvRem a b
  | _ => rvRemu a b

/-- M: 32-bit forms. -/
def rvMulW (f3 : Nat) (a b : DWord) : DWord :=
  let x : Word := a.truncate 32
  let y : Word := b.truncate 32
  (match f3 with
   | 0 => x * y
   | 4 => rvDiv x y
   | 5 => rvDivu x y
   | 6 => rvRem x y
   | _ => rvRemu x y).signExtend 64

/-- Whether a conditional branch is taken. -/
def rvTaken (f3 : Nat) (a b : DWord) : Bool :=
  match f3 with
  | 0 => a = b
  | 1 => a ≠ b
  | 4 => a.slt b
  | 5 => !a.slt b
  | 6 => a.ult b
  | _ => !a.ult b

/-! ### System -/

/-- mret: the interrupt enable and the privilege of before the trap come back; leaving machine mode ends MPRV. -/
def rvMret (h : Stagehand) : Stagehand :=
  let ms := rvStatus h
  let m := fld ms 12 11 = 3
  let new := setFld (setFld (setFld ms 3 3 (fld ms 7 7)) 7 7 1) 12 11 0
  { rvPut h 0x300 (if m then new else setFld new 17 17 0) with pc := rvRaw h 0x341, machine := m }

/-- SYSTEM. -/
def rvSystem (h : Stagehand) (w : Word) : RvRes :=
  let f3 := fld w 14 12
  let a := fld w 31 20
  let next : DWord := h.pc + 4
  let bad : RvRes := .trap h 2 (w.zeroExtend 64)
  if f3 = 0 then
    if w = 0x00000073#32 then .trap h (if h.machine then 11 else 8) 0
    else if w = 0x00100073#32 then .trap h 3 h.pc
    else if w = 0x10500073#32 then (if h.machine || !bitAt (rvStatus h) 21 then .ok { h with pc := next } else bad)
    else if w = 0x30200073#32 && h.machine then .ok (rvMret h)
    else bad
  else if f3 = 4 then bad
  else
    let src := fld w 19 15
    let write := nfld f3 1 0 = 1 || src ≠ 0
    if !rvCsrOk h a write then bad
    else
      let old := rvCsr h w a
      let v := if f3 ≥ 4 then BitVec.ofNat 64 src else rvX h src
      let new := if nfld f3 1 0 = 1 then v else if nfld f3 1 0 = 2 then old ||| v else old &&& ~~~ v
      let h := if write then rvSetCsr h a new else h
      .ok { rvDrawn (rvSetX h (fld w 11 7) old) with pc := next }

/-! ### Loads, stores and atomics -/

/-- A load: what the bytes, as a number, do to the Stagehand, or its trap. -/
def rvLoadTo (h : Stagehand) (w : Word) (p next : DWord) (n : Nat) (g : Nat → Stagehand) : RvRes :=
  match rvDataFault h false p n with
  | some cause => .trap h cause p
  | none => .ok { rvDrawn (g (rvLoad h w p n)) with pc := next }

/-- A store, or its trap. -/
def rvStoreTo (h : Stagehand) (p next : DWord) (n : Nat) (v : DWord) : RvRes :=
  match rvDataFault h true p n with
  | some cause => .trap h cause p
  | none => .ok { rvStore h p n v with pc := next }

/-- What an AMO stores: the operation of funct5 on the old value and the operand, at its width. -/
def rvAmoVal (f5 : Nat) (wide : Bool) (old b : DWord) : Option DWord :=
  let u (x : DWord) : Nat := if wide then x.toNat else x.toNat % 2 ^ 32
  match f5 with
  | 0 => some (old + b)
  | 1 => some b
  | 4 => some (old ^^^ b)
  | 8 => some (old ||| b)
  | 12 => some (old &&& b)
  | 16 => some (if old.slt b then old else b)
  | 20 => some (if old.slt b then b else old)
  | 24 => some (if u old < u b then old else b)
  | 28 => some (if u old < u b then b else old)
  | _ => none

/-- A. A load-reserved reserves the bytes it reads; a store-conditional to other bytes, or without a reservation, fails, and one to
them may fail (DESIGN CHOICE, a free value: notes/assumptions/110.md). An AMO checks its address as a store does. -/
def rvAmo (h : Stagehand) (w : Word) (next : DWord) : RvRes :=
  let wide := fld w 14 12 = 3
  let n := if wide then 8 else 4
  let a := rvX h (fld w 19 15)
  let b := rvX h (fld w 24 20)
  let f5 := fld w 31 27
  let rd := fld w 11 7
  let bad : RvRes := .trap h 2 (w.zeroExtend 64)
  let val (x : Nat) : DWord := if wide then BitVec.ofNat 64 x else sx 32 x
  if fld w 14 12 ≠ 2 && !wide then bad
  else if f5 = 2 then
    if fld w 24 20 ≠ 0 then bad
    else rvLoadTo h w a next n fun x => { rvSetX h rd (val x) with resv := some (a.toNat, n) }
  else
    let old := val (rvLoad h w a n)
    let new := rvAmoVal f5 wide old (if wide then b else rvW b)
    if f5 ≠ 3 && new.isNone then bad
    else match rvDataFault h true a n with
      | some cause => .trap h cause a
      | none =>
        let h1 := rvDrawn h
        if f5 = 3 then
          let won := h.resv = some (a.toNat, n) && (rvFree h w a b).getLsbD 0
          let h2 := { (if won then rvStore h1 a n b else h1) with resv := none }
          .ok { rvSetX h2 rd (if won then 0 else 1) with pc := next }
        else .ok { rvSetX (rvStore h1 a n (new.getD 0)) rd old with pc := next }

/-! ### Floating point -/

/-- An f register at a width: single precision is NaN-boxed. -/
def rvFp (h : Stagehand) (fw r : Nat) : Nat := if fw = 32 then unbox (rvF h r) else (rvF h r).toNat
def rvSetFp (h : Stagehand) (fw r x : Nat) : Stagehand :=
  rvSetF h r (BitVec.ofNat 64 (if fw = 32 then x % 2 ^ 32 + 0xFFFFFFFF * 2 ^ 32 else x))

/-- The rounding mode of an instruction: its own or, at 7, frm; none where it is reserved. -/
def rvRm (h : Stagehand) (w : Word) : Option Nat :=
  let rm := if fld w 14 12 = 7 then fld (rvRaw h 3) 7 5 else fld w 14 12
  if rm ≤ 4 then some rm else none

/-- The width that a fmt field names. -/
def rvFmt (f : Nat) : Option Nat := match f with | 0 => some 32 | 1 => some 64 | _ => none

/-- A floating-point result, and its exceptions. -/
def rvFpTo (h : Stagehand) (fw rd : Nat) (r : Nat × Nat) : Stagehand := rvFlags (rvSetFp h fw rd r.1) r.2

/-- FMADD, FMSUB, FNMSUB and FNMADD. -/
def rvFma (h : Stagehand) (w : Word) : Option Stagehand :=
  match rvFmt (fld w 26 25), rvRm h w with
  | some fw, some rm =>
    let x := rvFp h fw (fld w 19 15)
    let y := rvFp h fw (fld w 24 20)
    let z := rvFp h fw (fld w 31 27)
    let k := fld w 3 2
    let a := fpVal fw x
    let c := fpVal fw z
    let snan := fpIsSnan fw x || fpIsSnan fw y || fpIsSnan fw z
    some (rvFpTo h fw (fld w 11 7)
      (fpFma fw rm snan (if k ≥ 2 then a.negate else a) (fpVal fw y) (if k = 1 || k = 3 then c.negate else c)))
  | _, _ => none

/-- An operation of OP-FP that rounds: funct5, width, the number of the second operand, and the rounding mode. -/
def rvFpRound (h : Stagehand) (f5 fw rs1 rs2 rd rm : Nat) : Option Stagehand :=
  let x := rvFp h fw rs1
  let y := rvFp h fw rs2
  let snan := fpIsSnan fw x || fpIsSnan fw y
  let f (r : Nat × Nat) : Option Stagehand := some (rvFpTo h fw rd r)
  let i := rvX h rs1
  match f5 with
  | 0x00 => f (fpAdd fw rm snan (fpVal fw x) (fpVal fw y))
  | 0x01 => f (fpAdd fw rm snan (fpVal fw x) (fpVal fw y).negate)
  | 0x02 => f (fpMul fw rm snan (fpVal fw x) (fpVal fw y))
  | 0x03 => f (fpDiv fw rm snan (fpVal fw x) (fpVal fw y))
  | 0x0B => if rs2 = 0 then f (fpSqrt fw rm (fpIsSnan fw x) (fpVal fw x)) else none
  | 0x08 => if rs2 = (if fw = 32 then 1 else 0) then f (fpCvt fw (96 - fw) rm (rvFp h (96 - fw) rs1)) else none
  | 0x18 =>
    if rs2 > 3 then none
    else
      let n := if rs2 < 2 then 32 else 64
      let r := fpToInt fw rm n (rs2 % 2 = 0) x
      some (rvFlags (rvSetX h rd (sx n r.1)) r.2)
  | 0x1A =>
    if rs2 = 0 then f (fpOfInt fw rm (i.truncate 32 : Word).toInt)
    else if rs2 = 1 then f (fpOfInt fw rm (i.toNat % 2 ^ 32))
    else if rs2 = 2 then f (fpOfInt fw rm i.toInt)
    else if rs2 = 3 then f (fpOfInt fw rm i.toNat)
    else none
  | _ => none

/-- OP-FP; none where it is reserved. -/
def rvFpOp (h : Stagehand) (w : Word) : Option Stagehand :=
  let rs1 := fld w 19 15
  let rs2 := fld w 24 20
  let rd := fld w 11 7
  let f3 := fld w 14 12
  let f5 := fld w 31 27
  match rvFmt (fld w 26 25) with
  | none => none
  | some fw =>
    let x := rvFp h fw rs1
    let y := rvFp h fw rs2
    if f5 = 0x04 then (if f3 ≤ 2 then some (rvSetFp h fw rd (fpSgnj fw f3 x y)) else none)
    else if f5 = 0x05 then (if f3 ≤ 1 then some (rvFpTo h fw rd (fpMinMax fw (f3 = 1) x y)) else none)
    else if f5 = 0x14 then
      if f3 ≤ 2 then
        let r := fpCmp fw f3 x y
        some (rvFlags (rvSetX h rd (BitVec.ofNat 64 (b2n r.1))) r.2)
      else none
    else if f5 = 0x1C then
      if rs2 ≠ 0 then none
      else if f3 = 0 then some (rvSetX h rd (if fw = 32 then sx 32 (fld (rvF h rs1) 31 0) else rvF h rs1))
      else if f3 = 1 then some (rvSetX h rd (BitVec.ofNat 64 (fpClass fw x)))
      else none
    else if f5 = 0x1E then (if rs2 = 0 && f3 = 0 then some (rvSetFp h fw rd (rvX h rs1).toNat) else none)
    else (rvRm h w).bind (rvFpRound h f5 fw rs1 rs2 rd)

/-! ### One instruction -/

/-- An instruction of OP, OP-32, OP-IMM or OP-IMM-32 that is not reserved. -/
def rvOpOk (w : Word) : Bool :=
  let f3 := fld w 14 12
  let f7 := fld w 31 25
  match fld w 6 0 with
  | 0x33 => f7 = 0 || f7 = 1 || (f7 = 0x20 && (f3 = 0 || f3 = 5))
  | 0x3B => (f7 = 0 && (f3 = 0 || f3 = 1 || f3 = 5)) || (f7 = 1 && (f3 = 0 || f3 ≥ 4)) || (f7 = 0x20 && (f3 = 0 || f3 = 5))
  | 0x13 => (f3 = 1 && fld w 31 26 = 0) || (f3 = 5 && (fld w 31 26 = 0 || fld w 31 26 = 0x10)) || (f3 ≠ 1 && f3 ≠ 5)
  | _ => f3 = 0 || (f3 = 1 && f7 = 0) || (f3 = 5 && (f7 = 0 || f7 = 0x20))

/-- A 32-bit instruction word, `len` bytes of the program. -/
def rvExec (h : Stagehand) (w : Word) (len : Nat) : RvRes :=
  let rd := fld w 11 7
  let f3 := fld w 14 12
  let f7 := fld w 31 25
  let rs2 := fld w 24 20
  let a := rvX h (fld w 19 15)
  let b := rvX h rs2
  let next : DWord := h.pc + BitVec.ofNat 64 len
  let reg (v : DWord) : RvRes := .ok { rvSetX h rd v with pc := next }
  let bad : RvRes := .trap h 2 (w.zeroExtend 64)
  let op (v : DWord) : RvRes := if rvOpOk w then reg v else bad
  let run (on : Bool) (r : Option Stagehand) : RvRes :=
    match r with
    | some t => if on then .ok { rvDrawn t with pc := next } else bad
    | none => bad
  let vec (store : Bool) : RvRes :=
    if f3 = 0 || f3 ≥ 5 then
      if !rvVsOn h then bad
      else match vMem h w store with
        | .ok t => .ok { rvDrawn t with pc := next }
        | r => r
    else bad
  match fld w 6 0 with
  | 0x37 => reg (immU w)
  | 0x17 => reg (h.pc + immU w)
  | 0x6F => .ok { rvSetX h rd next with pc := h.pc + immJ w }
  | 0x67 => if f3 ≠ 0 then bad else .ok { rvSetX h rd next with pc := (a + immI w) &&& ~~~ 1#64 }
  | 0x63 => if f3 = 2 || f3 = 3 then bad else .ok { h with pc := if rvTaken f3 a b then h.pc + immB w else next }
  | 0x03 =>
    let n := 2 ^ (f3 % 4)
    if f3 = 7 then bad
    else rvLoadTo h w (a + immI w) next n fun v => rvSetX h rd (if f3 < 4 then sx (8 * n) v else BitVec.ofNat 64 v)
  | 0x23 => if f3 > 3 then bad else rvStoreTo h (a + immS w) next (2 ^ (f3 % 4)) b
  | 0x13 => op (rvAlu f3 (f3 = 5 && bitAt w 30) a (if f3 = 1 || f3 = 5 then BitVec.ofNat 64 (fld w 25 20) else immI w))
  | 0x1B => op (rvAluW f3 (f3 = 5 && bitAt w 30) a (if f3 = 0 then immI w else BitVec.ofNat 64 (fld w 24 20)))
  | 0x33 => op (if f7 = 1 then rvMul f3 a b else rvAlu f3 (bitAt w 30) a b)
  | 0x3B => op (if f7 = 1 then rvMulW f3 a b else rvAluW f3 (bitAt w 30) a b)
  | 0x0F => if f3 ≤ 1 then .ok { h with pc := next } else bad
  | 0x73 => rvSystem h w
  | 0x2F => rvAmo h w next
  | 0x07 =>
    if f3 = 2 || f3 = 3 then
      if rvFsOn h then rvLoadTo h w (a + immI w) next (2 ^ f3) fun v => rvSetFp h (8 * 2 ^ f3) rd v else bad
    else vec false
  | 0x27 =>
    if f3 = 2 || f3 = 3 then
      if rvFsOn h then rvStoreTo h (a + immS w) next (2 ^ f3) (rvF h rs2) else bad
    else vec true
  | 0x43 | 0x47 | 0x4B | 0x4F => run (rvFsOn h) (rvFma h w)
  | 0x53 => run (rvFsOn h) (rvFpOp h w)
  | 0x57 => run (rvVsOn h) (vArith h w)
  | _ => bad

/-! ### Compressed instructions -/

def encI (op f3 rd rs1 imm : Nat) : Word := BitVec.ofNat 32 (imm % 4096 * 2 ^ 20 + rs1 * 2 ^ 15 + f3 * 4096 + rd * 128 + op)
def encS (op f3 rs1 rs2 imm : Nat) : Word :=
  BitVec.ofNat 32 (nfld imm 11 5 * 2 ^ 25 + rs2 * 2 ^ 20 + rs1 * 2 ^ 15 + f3 * 4096 + nfld imm 4 0 * 128 + op)
def encR (op f3 f7 rd rs1 rs2 : Nat) : Word :=
  BitVec.ofNat 32 (f7 * 2 ^ 25 + rs2 * 2 ^ 20 + rs1 * 2 ^ 15 + f3 * 4096 + rd * 128 + op)
def encB (f3 rs1 imm : Nat) : Word :=
  BitVec.ofNat 32 (nfld imm 12 12 * 2 ^ 31 + nfld imm 10 5 * 2 ^ 25 + rs1 * 2 ^ 15 + f3 * 4096 + nfld imm 4 1 * 256 +
    nfld imm 11 11 * 128 + 0x63)
def encJ (imm : Nat) : Word :=
  BitVec.ofNat 32 (nfld imm 20 20 * 2 ^ 31 + nfld imm 10 1 * 2 ^ 21 + nfld imm 11 11 * 2 ^ 20 + nfld imm 19 12 * 4096 + 0x6F)

/-- The 32-bit instruction that a 16-bit one stands for. -/
def rvcExpand (c : Nat) : Option Word :=
  let r (hi : Nat) : Nat := 8 + nfld c (hi + 2) hi
  let rd := nfld c 11 7
  let rs2 := nfld c 6 2
  let i6 := nfld c 12 12 * 32 + nfld c 6 2
  let s6 := (sx 6 i6).toNat
  let lw := nfld c 12 10 * 8 + nfld c 6 6 * 4 + nfld c 5 5 * 64
  let ld := nfld c 12 10 * 8 + nfld c 6 5 * 64
  let ldsp := nfld c 12 12 * 32 + nfld c 6 5 * 8 + nfld c 4 2 * 64
  let lwsp := nfld c 12 12 * 32 + nfld c 6 4 * 4 + nfld c 3 2 * 64
  let sdsp := nfld c 12 10 * 8 + nfld c 9 7 * 64
  let swsp := nfld c 12 9 * 4 + nfld c 8 7 * 64
  let b := (sx 9 (nfld c 12 12 * 256 + nfld c 11 10 * 8 + nfld c 6 5 * 64 + nfld c 4 3 * 2 + nfld c 2 2 * 32)).toNat
  let j := (sx 12 (nfld c 12 12 * 2048 + nfld c 11 11 * 16 + nfld c 10 9 * 256 + nfld c 8 8 * 1024 + nfld c 7 7 * 64 +
    nfld c 6 6 * 128 + nfld c 5 3 * 2 + nfld c 2 2 * 32)).toNat
  match c % 4, nfld c 15 13 with
  | 0, 0 =>
    let n := nfld c 12 11 * 16 + nfld c 10 7 * 64 + nfld c 6 6 * 4 + nfld c 5 5 * 8
    if n = 0 then none else some (encI 0x13 0 (r 2) 2 n)
  | 0, 1 => some (encI 0x07 3 (r 2) (r 7) ld)
  | 0, 2 => some (encI 0x03 2 (r 2) (r 7) lw)
  | 0, 3 => some (encI 0x03 3 (r 2) (r 7) ld)
  | 0, 5 => some (encS 0x27 3 (r 7) (r 2) ld)
  | 0, 6 => some (encS 0x23 2 (r 7) (r 2) lw)
  | 0, 7 => some (encS 0x23 3 (r 7) (r 2) ld)
  | 1, 0 => some (encI 0x13 0 rd rd s6)
  | 1, 1 => if rd = 0 then none else some (encI 0x1B 0 rd rd s6)
  | 1, 2 => some (encI 0x13 0 rd 0 s6)
  | 1, 3 =>
    if i6 = 0 then none
    else if rd = 2 then
      some (encI 0x13 0 2 2 (sx 10 (nfld c 12 12 * 512 + nfld c 6 6 * 16 + nfld c 5 5 * 64 + nfld c 4 3 * 128 + nfld c 2 2 * 32)).toNat)
    else some (BitVec.ofNat 32 (s6 % 2 ^ 20 * 4096 + rd * 128 + 0x37))
  | 1, 4 =>
    let d := r 7
    match nfld c 11 10 with
    | 0 => some (encI 0x13 5 d d i6)
    | 1 => some (encI 0x13 5 d d (0x400 + i6))
    | 2 => some (encI 0x13 7 d d s6)
    | _ => match nfld c 12 12, nfld c 6 5 with
      | 0, 0 => some (encR 0x33 0 0x20 d d (r 2))
      | 0, 1 => some (encR 0x33 4 0 d d (r 2))
      | 0, 2 => some (encR 0x33 6 0 d d (r 2))
      | 0, _ => some (encR 0x33 7 0 d d (r 2))
      | _, 0 => some (encR 0x3B 0 0x20 d d (r 2))
      | _, 1 => some (encR 0x3B 0 0 d d (r 2))
      | _, _ => none
  | 1, 5 => some (encJ j)
  | 1, 6 => some (encB 0 (r 7) b)
  | 1, 7 => some (encB 1 (r 7) b)
  | 2, 0 => some (encI 0x13 1 rd rd i6)
  | 2, 1 => some (encI 0x07 3 rd 2 ldsp)
  | 2, 2 => if rd = 0 then none else some (encI 0x03 2 rd 2 lwsp)
  | 2, 3 => if rd = 0 then none else some (encI 0x03 3 rd 2 ldsp)
  | 2, 4 =>
    if nfld c 12 12 = 0 then
      if rs2 = 0 then (if rd = 0 then none else some (encI 0x67 0 0 rd 0)) else some (encR 0x33 0 0 rd 0 rs2)
    else if rs2 = 0 then (if rd = 0 then some 0x00100073#32 else some (encI 0x67 0 1 rd 0))
    else some (encR 0x33 0 0 rd rd rs2)
  | 2, 5 => some (encS 0x27 3 2 rs2 sdsp)
  | 2, 6 => some (encS 0x23 2 2 rs2 swsp)
  | 2, 7 => some (encS 0x23 3 2 rs2 sdsp)
  | _, _ => none

/-- One instruction word: 16 bits where its low two bits are not both 1. The fetch is checked first, and an illegal instruction's trap
value is the instruction as it stands in the program. -/
def rvStep (h : Stagehand) (w : Word) : RvRes :=
  let wide := fld w 1 0 = 3
  if !rvFetchOk h (if wide then 4 else 2) then .trap h 1 h.pc
  else if wide then rvExec h w 4
  else match rvcExpand (fld w 15 0) with
    | some x => match rvExec h x 2 with
      | .trap t cause tval => .trap t cause (if cause = 2 then BitVec.ofNat 64 (fld w 15 0) else tval)
      | r => r
    | none => .trap h 2 (BitVec.ofNat 64 (fld w 15 0))

/-- A trap taken in machine mode: pc, cause and value are saved, the interrupt enable and the privilege go to their places of before, and
the pc goes to the trap vector's base. -/
def rvTrap (h : Stagehand) (cause : Nat) (tval : DWord) : Stagehand :=
  let ms := rvStatus h
  let h1 := rvPut (rvPut (rvPut h 0x341 h.pc) 0x342 (BitVec.ofNat 64 cause)) 0x343 tval
  let h2 := rvPut h1 0x300 (setFld (setFld (setFld ms 12 11 (if h.machine then 3 else 0)) 7 7 (fld ms 3 3)) 3 3 0)
  { h2 with pc := rvRaw h 0x305 &&& ~~~ 3#64, machine := true }

/-- Whether a word lies in the opcode spaces of Xzsh (R172). -/
def isZsh (w : Word) : Bool := fld w 6 0 = 0x0B || fld w 6 0 = 0x2B

/-- The Xzsh instruction that a word spells in R-type format (R172); none for a reserved encoding. -/
def zshOf (sh : Nat) (w : Word) (s : State) : Option Res :=
  let r (lo : Nat) : BitVec 5 := BitVec.ofNat 5 (fld w (lo + 4) lo)
  let rd := r 7
  let rs1 := r 15
  let rs2 := r 20
  if fld w 31 25 ≠ 0 then none
  else match fld w 6 0, fld w 14 12 with
    | 0x0B, 0 => some (execZshCsig sh rs1 rs2 s)
    | 0x0B, 1 => some (execZshCwait sh rd rs1 rs2 s)
    | 0x0B, 2 => some (execZshCwaitd sh rd rs1 rs2 s)
    | 0x0B, 3 => some (execZshCset sh rs1 rs2 s)
    | 0x0B, 4 => some (execZshFladd sh rd rs1 rs2 s)
    | 0x0B, 5 => some (execZshFlcas sh rd rs1 rs2 s)
    | 0x2B, 0 => some (execZshXfer sh rs1 rs2 s)
    | 0x2B, 1 => some (execZshMxpack sh rd rs2 rs1 s)
    | 0x2B, 2 => some (execZshMxunpack sh rd rs2 rs1 s)
    | 0x2B, 3 => some (execZshPhilox sh rd rs2 rs1 s)
    | 0x2B, 4 => some (execZshCtx sh rd s)
    | _, _ => none

/-- STAGEHAND_INSTRUCTION (R160 to R162, R171): a trap in a helper program raises HELPER_FAULT; one in the runtime enters
its handler. -/
def execStagehandInstruction (sh : Nat) (w : Word) (s : State) : Res :=
  need (sh < 72) <|
    let h := shOf s sh
    if h.wait.isSome || h.serv.inReset || h.serv.selftest || h.phase = .clearing || h.phase = .draining || (h.job.isNone && !h.machine)
    then .next s
    else
      let trap (t : Stagehand) (cause : Nat) (tval : DWord) : Res :=
        if h.machine then .next (setSh sh (rvTrap t cause tval) s)
        else .next (raiseHelperFault sh h.pc.toNat 0 [cause] (setSh sh t s))
      if isZsh w then
        if rvFetchOk h 4 then (zshOf sh w s).getD (trap h 2 (w.zeroExtend 64)) else trap h 1 h.pc
      else match rvStep h w with
      | .ok t => .next (setSh sh t s)
      | .trap t cause tval => trap t cause tval

end Sys2Proof.Machine
end

