-- ==== Sys2Proof/Machine/Sys.lean ====
section
/-! DEFINITION. SYS instructions (R232 to R234). -/

namespace Sys2Proof.Machine

open Sys2Proof

/-- A status register of R108, by the CODE of R232; st.cycle is a free value. -/
def statusReg (s : State) (e : Nat) (c : EntryCtx) (x : Engine) (code : Nat) : DWord :=
  match code with
  | 0 => ctxOf c
  | 1 => c.beat
  | 2 => c.progId.zeroExtend 64
  | 3 => BitVec.ofNat 64 (flSize c)
  | 4 => BitVec.ofNat 64 (c.clCount % 2048 * 65536 + c.clBase)
  | 5 => x.round.zeroExtend 64
  | 6 => x.flags.zeroExtend 64
  | 7 => BitVec.ofNat 64 (s.beat.phaseUs % 2 ^ 32)
  | _ => Config.engineCycle e x.freeCnt

/-- Whether an access to a status register waits: st.flags for the earlier transfers of the entry, the only work that outlives
its instruction (R280). -/
def statusWaits (x : Engine) (code : Nat) : Bool := code = 6 && !x.xq.isEmpty

/-- sys.rdst (R232, R280). -/
def execSysRdst (e : Nat) (f : Fields) (s : State) : Res :=
  runEng e 0x24 0 f s fun c x =>
    let code := imm f 3 0
    if statusWaits x code then .stall
    else
      let y := wrS x f.a (statusReg s e c x code)
      .ok (setEng e (advance (if code = 8 then { y with freeCnt := y.freeCnt + 1 } else y)) s)

/-- What sys.wrst does to its engine (R233): a write of 3 leaves st.round unchanged (R108). -/
def wrStatus (x : Engine) (code : Nat) (v : DWord) : Engine :=
  if code = 5 then (if fld v 1 0 = 3 then x else { x with round := v.truncate 2 }) else clearFlags x v

/-- sys.wrst (R233, R280). -/
def execSysWrst (e : Nat) (f : Fields) (s : State) : Res :=
  runEng e 0x24 1 f s fun _ x =>
    if statusWaits x (imm f 3 0) then .stall
    else .ok (setEng e (advance (wrStatus x (imm f 3 0) (rdS x f.b))) s)

/-- sys.trap: TRAP with the code (R154). DESIGN CHOICE: the code stands in the record's ADDR (notes/assumptions/96.md). -/
def execSysTrap (e : Nat) (f : Fields) (s : State) : Res :=
  runEng e 0x24 2 f s fun _ _ => .exc 8 (imm f 15 0)

/-- The helper that takes a job: the one asked for, or the other when that is a hole (R164, R169). -/
def helperFor (s : State) (le h : Nat) : Option Nat := (shSlot s (2 * le + h)).or (shSlot s (2 * le + (1 - h)))

/-- sys.hcall (R165, R166, R169, R170, R234). -/
def execSysHcall (e : Nat) (f : Fields) (s : State) : Res :=
  runEng e 0x24 3 f s fun c x =>
    let a := (rdS x f.a).toNat
    (chkLm x a 64 64).run <|
      let d := lmRead x a 64
      let inc := leAt d 6 1
      let cl := cueIndex s c (leAt d 4 2)
      if cl.isNone then .exc 5 (leAt d 4 2)
      else match helperFor s c.le (imm f 0 0) with
        | none => .ok (setEng e (advance { x with deferred := x.deferred ++ [⟨true, 0xA, x.pc.toNat, 0, 0x0C, []⟩] }) s)
        | some k =>
          let h := shOf s k
          if h.queue.length ≥ 8 then .stall
          else
            let j : HelperJob := { image := BitVec.ofNat 32 (leAt d 0 4), cl := if inc = 0 then none else cl, inc := inc,
                                   args := d.drop 8, eng := e, ctx := c, pc := x.pc.toNat }
            .ok (setSh k { h with queue := h.queue ++ [j] } (setEng e (advance { x with helpers := x.helpers + 1 }) s))

end Sys2Proof.Machine
end

