-- ==== Sys2Proof/Machine/Therm.lean ====
section
/-! DEFINITION. Rail samples, the peak guard and temperature readings (R813 to R832). -/

namespace Sys2Proof.Machine

open Sys2Proof

/-- Adds one rail's sample (R813 to R815): the last and the peak sample, and the energy of the running Beat in deciwatt
microseconds. -/
def railOne (us r p : Nat) (s : State) : State :=
  let a := 0xF0300 + 4 * r
  let s := setRegF a 31 16 (max (regF s a 31 16) (min 0xFFFF p)) s
  { s with therm := { s.therm with
      railLast := tabSet 0 s.therm.railLast r p
      beatSum := tabMod 0 s.therm.beatSum r (· + p * us) } }

/-- A sample of every rail: the meters report to the main domain (R813, R816), and which rails lie beyond ±3 % of their set point
(R712). -/
def railOp (us : Nat) (ps off : List Nat) (s : State) : State :=
  let s := (ps.zipIdx).foldl (fun t q => railOne us q.2 q.1 t) s
  let s := { s with therm := { s.therm with railsOff := off, recent := (ps.getD 0 0 :: s.therm.recent).take 1000 } }
  if !s.therm.guardOn && guardAbove s 880 then
    bump 0xF0048 (guardStep (logTherm 4 0 0xFFFF { s with therm := { s.therm with guardOn := true, lastGuardUs := s.time } }))
  else s

/-- RAIL_SAMPLE (R712, R813, R814, R816): a sample covers 10 µs, and the last of a Beat what is left of the period. -/
def execRailSample (us : Nat) (rails : List (Nat × Bool)) (s : State) : Res :=
  .next (if mainUp s && 0 < us && (us = 10 || us = s.beat.period % 10) then
      railOp us (rails.map Prod.fst) ((rails.zipIdx.filter fun q => !q.1.2).map Prod.snd) s
    else s)

/-- PEAK_GUARD_STEP (R816): 100 µs after the last step, while the average stays above 850 W. -/
def execPeakGuardStep (s : State) : Res :=
  .next (if s.therm.guardOn && guardAbove s 850 then
    atTime (s.therm.lastGuardUs + 100) (fun s => guardStep { s with therm := { s.therm with lastGuardUs := s.time } }) s
  else s)

/-- What a die sensor's reading does (R822, R829): to its own unit, and to those of its cluster or of the hub whose sensors are excluded
(R819). -/
def sensorOp (x : Sensor) (t : Int) (s : State) : State :=
  let k := sensorKey x
  let again := s.therm.hot.contains k
  let hot := s.therm.hot.filter (· ≠ k)
  let s := { s with therm := { s.therm with
    sensors := tabSet 0 s.therm.sensors k t
    valid := if s.therm.valid.contains k then s.therm.valid else k :: s.therm.valid
    hot := if t ≥ 110 then k :: hot else hot } }
  if t ≥ 110 && again then thermalShutdown s
  else
    let near := s.therm.excluded.filter fun j => j ≠ k && sensorHome j = sensorHome k
    (k :: near).foldl (fun t j => if j < 70 then throttleUnit j t else throttleStack (j - 70) t) s

/-- SENSOR_READ (R822, R825, R829). -/
def execSensorRead (x : Sensor) (tempC : Int) (s : State) : Res :=
  need (sensorName x) (.next (if mainUp s then sensorOp x tempC s else s))

/-- AIR_SENSOR_READ (R820): the sensors lie in the always-on domain. -/
def execAirSensorRead (inlet outlet : Int) (s : State) : Res :=
  .next (if !s.pins.standby then s
    else
      let s := { s with therm := { s.therm with inlet := inlet, outlet := outlet } }
      if inlet > 45 && regF s 0xF0004 29 29 = 0 then logTherm 8 0 0xFFFF (setRegF 0xF0004 29 29 1 s) else s)

/-- SHUTDOWN_RESTART (R831): 60 s after a thermal shutdown, with an inlet at or below 45 °C, the main domain may start. -/
def execShutdownRestart (s : State) : Res :=
  .next (if s.therm.shutdown && s.therm.inlet ≤ 45 then
    atTime (s.therm.shutAtUs + 60000000) (fun s => { s with therm := { s.therm with shutdown := false } }) s
  else s)

end Sys2Proof.Machine
end

