-- ==== Sys2Proof/Machine/Container.lean ====
section
/-! DEFINITION. The medium and the Bredex container of an update (R783 to R790, R798), read from their bytes. -/

namespace Sys2Proof.Machine

open Sys2Proof

/-- Whether every byte of a range is 0. -/
def boxZero (f : List Byte) (off len : Nat) : Bool := (slice f off len).all (· = 0)

/-- A digest field. -/
def digestAt (f : List Byte) (off : Nat) : Digest := BitVec.ofNat 384 (leAt f off 48)

/-! ### The header (R787) -/

def boxKind (f : List Byte) : Nat := leAt f 10 1
def boxStepping (f : List Byte) : Nat := leAt f 11 1
def boxProduct (f : List Byte) : Nat := leAt f 12 4
def boxVersion (f : List Byte) : List Byte := slice f 16 3
def boxSchema (f : List Byte) : Byte := (slice f 19 1).getD 0 0
def boxTotal (f : List Byte) : Nat := leAt f 20 8
def boxManifestOff (f : List Byte) : Nat := leAt f 28 8
def boxManifestLen (f : List Byte) : Nat := leAt f 36 4
def boxSvn (f : List Byte) (kind : Nat) : Nat := leAt f (112 + 2 * kind) 2
def boxEcKey (f : List Byte) : List Byte := slice f 240 97
def boxMlKey (f : List Byte) : List Byte := slice f 0x1000 2592

/-- What both header signatures are over (R787): SHA-384 of bytes 0 to 351. -/
def boxDigest (f : List Byte) : Digest := Config.sha384 (slice f 0 352)

/-- Part kinds that a container of its KIND holds (R790): a full bundle one of each, a settings container the settings record. -/
def boxKinds (f : List Byte) : List Nat := if boxKind f = 1 then [7] else [2, 3, 4, 5, 6, 7]

/-! ### The manifest (R788) -/

/-- A manifest entry. -/
structure PartEntry where
  kind : Nat
  live : Bool
  commit : Bool
  svn : Nat
  offset : Nat
  length : Nat
  digest : Digest
  sigOff : Nat
  resvOk : Bool
deriving DecidableEq, Repr

/-- Reads a manifest entry. -/
def partEntry (b : List Byte) : PartEntry :=
  let flags := leAt b 1 1
  { kind := leAt b 0 1, live := nfld flags 0 0 = 1, commit := nfld flags 1 1 = 1, svn := leAt b 2 2, offset := leAt b 8 8
    length := leAt b 16 8, digest := digestAt b 24, sigOff := leAt b 72 8
    resvOk := flags < 4 && boxZero b 7 1 && boxZero b 80 48 }

/-- The manifest's bytes. -/
def manifestBytes (f : List Byte) : List Byte := slice f (boxManifestOff f) (boxManifestLen f)

/-- The manifest's entries. -/
def partEntries (f : List Byte) : List PartEntry :=
  (List.range ((boxManifestLen f - 16) / 128)).map fun i => partEntry (slice (manifestBytes f) (16 + 128 * i) 128)

/-- A part's bytes. -/
def partBytes (f : List Byte) (p : PartEntry) : List Byte := slice f p.offset p.length

/-- The byte ranges of the parts and of their signature blocks (R786). -/
def partSpans (f : List Byte) : List (Nat × Nat) :=
  (partEntries f).flatMap fun p => [(p.offset, p.offset + p.length), (p.sigOff, p.sigOff + 4736)]

/-- Whether no two of some ranges overlap. -/
def spansApart : List (Nat × Nat) → Bool
  | [] => true
  | x :: xs => xs.all (fun y => x.2 ≤ y.1 || y.2 ≤ x.1) && spansApart xs

/-! ### The settings record (R798) -/

/-- The entries of one section of a settings record. -/
def settingEntries (b : List Byte) (off n : Nat) : List (Nat × Word) :=
  (List.range n).map fun i => (leAt b (off + 8 * i) 4, BitVec.ofNat 32 (leAt b (off + 8 * i + 4) 4))

/-- The shared and the local section of a settings record. -/
def settingSections (b : List Byte) : List (Nat × Word) × List (Nat × Word) :=
  let n := leAt b 8 4
  (settingEntries b 64 n, settingEntries b (64 + 8 * n) (leAt b 12 4))

/-! ### The checks (R790) -/

/-- Check 1: the medium (R783 to R785). -/
def mediumOk (x : Stick) : Bool :=
  x.massStorage && !x.hub && x.blockBytes = 512 && x.fat32 && (x.atBlock0 || x.mbrType = 0x0B || x.mbrType = 0x0C) &&
    match x.file with | some f => f.length ≤ 2 ^ 28 | none => false

/-- Check 2: the header's form (R787). -/
def headerForm (f : List Byte) : Bool :=
  crc32c (slice f 0 4092) = leAt f 4092 4 && leAt f 0 8 = 0x3130584544455242 && leAt f 8 2 = 1 && boxKind f ≤ 1 &&
    boxZero f 40 24 && boxZero f 337 15 && boxZero f 448 3644 && boxTotal f = f.length &&
    boxManifestOff f % 4096 = 0 && 0x3000 ≤ boxManifestOff f && 16 ≤ boxManifestLen f && (boxManifestLen f - 16) % 128 = 0

/-- Whether a key's hash is fused and not revoked (R590, R593). -/
def signerOk (s : State) (h : Digest) : Bool := s.sec.signers.contains (h, false)

/-- Check 5: the ECDSA key and signature of the header. -/
def ecSigned (s : State) (f : List Byte) : Bool :=
  signerOk s (digestAt f 144) && Config.sha384 (boxEcKey f) = digestAt f 144 &&
    Config.ecdsaVerify (boxEcKey f) (boxDigest f) (slice f 352 96)

/-- Check 6: the ML-DSA-87 key and signature of the header. -/
def mlSigned (s : State) (f : List Byte) : Bool :=
  signerOk s (digestAt f 192) && Config.sha384 (boxMlKey f) = digestAt f 192 &&
    Config.mldsaVerify (boxMlKey f) (boxDigest f) (slice f 0x1A20 4627)

/-- Check 7: the manifest (R786, R788, R789). -/
def manifestOk (f : List Byte) : Bool :=
  let m := manifestBytes f
  let ps := partEntries f
  Config.sha384 m = digestAt f 64 && leAt m 0 4 = ps.length && boxZero m 4 12 &&
    noDup (ps.map PartEntry.kind) && ps.length = (boxKinds f).length && (ps.map PartEntry.kind).all (boxKinds f).contains &&
    ps.all (fun p => p.svn = boxSvn f p.kind && (!p.live || (3 ≤ p.kind && p.kind ≤ 5)) && p.offset % 4096 = 0 && p.resvOk) &&
    spansApart (partSpans f) && (partSpans f).all fun r => r.2 ≤ boxTotal f

/-- Check 8: both signatures of a part, with the keys that the header names, over its SHA-384 digest (R593, R786). -/
def partSigned (f : List Byte) (p : PartEntry) : Bool :=
  let d := Config.sha384 (partBytes f p)
  Config.ecdsaVerify (boxEcKey f) d (slice f p.sigOff 96) && Config.mldsaVerify (boxMlKey f) d (slice f (p.sigOff + 96) 4627)

/-- The first of checks 1 to 7 that a stick fails; 0 where it passes them all (R790). -/
def stickCheck (s : State) (x : Stick) : Nat :=
  if !mediumOk x || !s.upd.portPower then 1
  else
    let f := x.file.getD []
    if !headerForm f then 2
    else if boxProduct f ≠ 0x0D091ED7 || boxStepping f ≠ 0xB1 || (boxKind f = 1 && boxSchema f ≠ s.upd.schema) then 3
    else if (boxKinds f).any (fun k => boxSvn f k < tabGet 0 s.sec.svnMin k) then 4
    else if !ecSigned s f then 5
    else if !mlSigned s f then 6
    else if !manifestOk f then 7
    else 0

end Sys2Proof.Machine
end

