-- ==== Sys2Proof/Machine/Upd.lean ====
section
/-! DEFINITION. Firmware and settings update (R783 to R812): the service port, containers, activation, confirmation and fallback. -/

namespace Sys2Proof.Machine

open Sys2Proof

/-- Whether the RoT refuses a stick without reading it (R792). -/
def stickRefused (s : State) : Bool :=
  onTrial s || (s.boot.mode = .starting && !s.boot.ready) || s.upd.live.isSome || s.upd.copying

/-- Counts a refused container, and a signature that fails (R605). -/
def refuseStick (check : Nat) (s : State) : State :=
  let s := if check = 5 || check = 6 || check = 8 then authFail s else s
  bump 0x110040 { s with upd := { s.upd with status := BitVec.ofNat 8 check } }

/-- USB_STICK_INSERT (R790 to R792): checks 1 to 7, and the copy begins. -/
def execUsbStickInsert (x : Stick) (s : State) : Res :=
  .next (if !s.pins.standby then s
    else
      let t := { s with upd := { s.upd with stick := true } }
      if stickRefused s then refuseStick 0xFE t
      else
        let c := stickCheck s x
        if c ≠ 0 then refuseStick c t
        else modBundle (otherSlot s) (fun b => { b with state := .staging })
          { t with upd := { t.upd with container := x.file, copying := true, status := 0 } })

/-- The inactive slot is left EMPTY, and nothing is being copied (R791). -/
def dropCopy (s : State) : State :=
  if s.upd.copying then
    modBundle (otherSlot s) (fun _ => .init) { s with upd := { s.upd with container := none, copying := false } }
  else s

/-- USB_STICK_REMOVE (R791, R863): a read in progress is aborted, and port power returns. -/
def execUsbStickRemove (s : State) : Res :=
  .next (dropCopy { s with upd := { s.upd with stick := false, portPower := true } })

/-- USB_OVERCURRENT (R863): the port loses its power until the device is unplugged, and the stick fails check 1. -/
def execUsbOvercurrent (s : State) : Res :=
  .next (if !s.pins.standby then s else dropCopy (refuseStick 1 { s with upd := { s.upd with portPower := false } }))

/-- A bundle with the settings of a container of settings alone: every other part is the active slot's (R801). -/
def settingsBundle (s : State) (f : List Byte) (p : PartEntry) : Bundle :=
  let a := slotBundle s s.upd.running
  let own (i : Nat) : Bool := a.kinds.getD i 0 = 7
  let x := settingSections (partBytes f p)
  { a with
    state := .staged, schema := boxSchema f, shared := x.1, locals := x.2, settingsOnly := true
    svn := a.svn.zipIdx.map fun q => if own q.2 then p.svn else q.1
    digests := a.digests.zipIdx.map fun q => if own q.2 then p.digest else q.1
    commit := a.commit.zipIdx.map fun q => if own q.2 then p.commit else q.1 }

/-- What a container leaves in the slot that it is staged into (R788, R793, R801). -/
def stagedBundle (s : State) (f : List Byte) : Bundle :=
  let ps := partEntries f
  if boxKind f = 1 then match ps with | p :: _ => settingsBundle s f p | [] => .init
  else
    let x := match ps.find? fun p => p.kind = 7 with | some p => settingSections (partBytes f p) | none => ([], [])
    ⟨.staged, boxVersion f, boxSchema f, ps.map PartEntry.svn, ps.map PartEntry.kind, ps.map PartEntry.digest, ps.map PartEntry.live,
      ps.map PartEntry.commit, x.1, x.2, false⟩

/-- Whether the RoT activates a STAGED slot at once (R795). -/
def autoActivates (s : State) : Bool :=
  (regF s 0x110000 0 0 = 1 && s.pair.mode = .solo && !s.pair.serving && !s.fault.dark) || s.sec.bootStatus ≠ 0

/-- CONTAINER_STAGED (R791, R793, R795): checks 8 and 9. `partsOk` says whether the parts came from the stick as the file holds them, and
`slotOk` whether the slot holds what was copied into it. -/
def execContainerStaged (partsOk slotOk : Bool) (s : State) : Res :=
  .next (match s.upd.container with
    | none => s
    | some f =>
      if !s.upd.copying then s
      else if !partsOk || !(partEntries f).all (partSigned f) then dropCopy (refuseStick 8 s)
      else if !slotOk || (partEntries f).any (fun p => Config.sha384 (partBytes f p) ≠ p.digest) then dropCopy (refuseStick 9 s)
      else
        let s := modBundle (otherSlot s) (fun _ => stagedBundle s f)
          { s with upd := { s.upd with container := none, copying := false, status := 0 } }
        if autoActivates s then activateStaged (firstAfterFreeze s) s else s)

/-- UPDATE_ACTIVATE (R796, R808, R810, R812). -/
def updateActivateOp (m : Mgmt) (beat : DWord) (s : State) : State :=
  if (stagedSlot s).isNone then mgmtSt m 0x90 s
  else if liveBundle s && s.beat.started then
    if beat ≠ 0 && decide (beat < firstAfterFreeze s) then mgmtSt m 0x8F s
    else activateStaged (if beat = 0 then firstAfterFreeze s else beat) (mgmtSt m 0 s)
  else if s.pair.mode = .lead && (match s.pair.partner with | some b => b.state = 2 | none => false) then mgmtSt m 0x0E s
  else activateStaged 0 (mgmtSt m 0 s)

/-- UPDATE_ACTIVATE (R812). -/
def execUpdateActivate (m : Mgmt) (beat : DWord) (s : State) : Res := houseCmd m s (updateActivateOp m beat s)

/-- UPDATE_CONFIRM (R804, R812). -/
def execUpdateConfirm (m : Mgmt) (s : State) : Res :=
  operatorCmd m s (if onTrial s then mgmtSt m 0 (confirmTrial s) else mgmtSt m 0x90 s)

/-- UPDATE_REVERT (R805, R812). -/
def updateRevertOp (m : Mgmt) (s : State) : State :=
  if onTrial s then fallBackOp (mgmtSt m 0 s)
  else match stagedSlot s with
    | some k => mgmtSt m 0 (modBundle k (fun _ => .init) { s with upd := { s.upd with live := none } })
    | none => mgmtSt m 0x90 s

/-- UPDATE_REVERT (R805, R812). -/
def execUpdateRevert (m : Mgmt) (s : State) : Res := operatorCmd m s (updateRevertOp m s)

/-- TRIAL_WINDOW_EXPIRE (R802, R805): at the end of the window, without a confirmation, the module falls back. -/
def execTrialWindowExpire (s : State) : Res :=
  .next (if onTrial s then atTime (s.upd.trialEndUs.getD s.time) fallBackOp s else s)

/-- ROT_WATCHDOG (R806): the RoT domain is reset. A second trial boot without confirmation falls back. -/
def execRotWatchdog (s : State) : Res :=
  .next (if !s.pins.standby then s
    else
      let s := rotReset s
      if onTrial s && s.upd.trialBoots ≥ 2 then fallBackOp s else s)

end Sys2Proof.Machine
end

