-- ==== Sys2Proof/Machine/Dispatch.lean ====
section
/-! DEFINITION. One arm per command: what it does to everything but the queue. -/

namespace Sys2Proof.Machine

open Sys2Proof

/-- The effect of a command, by its meaning. -/
def exec (i : Instr) (s : State) : Host.Outcome State Fault Refusal :=
  match i with
  | .beatEdge => Sys2Proof.Machine.execBeatEdge s
  | .beatOutPulseEnd => Sys2Proof.Machine.execBeatOutPulseEnd s
  | .cutComplete => Sys2Proof.Machine.execCutComplete s
  | .flatClearDone => Sys2Proof.Machine.execFlatClearDone s
  | .agePromote req => Sys2Proof.Machine.execAgePromote req s
  | .headSpreadTimeout req => Sys2Proof.Machine.execHeadSpreadTimeout req s
  | .theHalf => Sys2Proof.Machine.execTheHalf s
  | .publishRunningOrder o => Sys2Proof.Machine.execPublishRunningOrder o s
  | .beatInEdge offsetNs highNs => Sys2Proof.Machine.execBeatInEdge offsetNs highNs s
  | .ptpMessage m => Sys2Proof.Machine.execPtpMessage m s
  | .holdover => Sys2Proof.Machine.execHoldover s
  | .lockTimeoutReady => Sys2Proof.Machine.execLockTimeoutReady s
  | .entryDispatch e => Sys2Proof.Machine.execEntryDispatch e s
  | .partitionClearDone unit => Sys2Proof.Machine.execPartitionClearDone unit s
  | .entryRetire e => Sys2Proof.Machine.execEntryRetire e s
  | .hang kind unit => Sys2Proof.Machine.execHang kind unit s
  | .entryDrainDone e => Sys2Proof.Machine.execEntryDrainDone e s
  | .unitStopTimeout unit => Sys2Proof.Machine.execUnitStopTimeout unit s
  | .hardwareException e arrayCheck addr => Sys2Proof.Machine.execHardwareException e arrayCheck addr s
  | .walkonGo slot w => Sys2Proof.Machine.execWalkonGo slot w s
  | .walkonDoorbell fn db => Sys2Proof.Machine.execWalkonDoorbell fn db s
  | .walkonDbHalfWrite fn high val => Sys2Proof.Machine.execWalkonDbHalfWrite fn high val s
  | .walkonDispatch slot => Sys2Proof.Machine.execWalkonDispatch slot s
  | .windowOpen index => Sys2Proof.Machine.execWindowOpen index s
  | .walkonSetFree set => Sys2Proof.Machine.execWalkonSetFree set s
  | .ledgerClose => Sys2Proof.Machine.execLedgerClose s
  | .ctrlNop e f => Sys2Proof.Machine.execCtrlNop e f s
  | .ctrlEnd e f => Sys2Proof.Machine.execCtrlEnd e f s
  | .ctrlFence e f => Sys2Proof.Machine.execCtrlFence e f s
  | .add e f => Sys2Proof.Machine.execAdd e f s
  | .sub e f => Sys2Proof.Machine.execSub e f s
  | .and e f => Sys2Proof.Machine.execAnd e f s
  | .or e f => Sys2Proof.Machine.execOr e f s
  | .xor e f => Sys2Proof.Machine.execXor e f s
  | .sll e f => Sys2Proof.Machine.execSll e f s
  | .srl e f => Sys2Proof.Machine.execSrl e f s
  | .sra e f => Sys2Proof.Machine.execSra e f s
  | .mul e f => Sys2Proof.Machine.execMul e f s
  | .mulhu e f => Sys2Proof.Machine.execMulhu e f s
  | .mulh e f => Sys2Proof.Machine.execMulh e f s
  | .divu e f => Sys2Proof.Machine.execDivu e f s
  | .remu e f => Sys2Proof.Machine.execRemu e f s
  | .slt e f => Sys2Proof.Machine.execSlt e f s
  | .sltu e f => Sys2Proof.Machine.execSltu e f s
  | .min e f => Sys2Proof.Machine.execMin e f s
  | .max e f => Sys2Proof.Machine.execMax e f s
  | .minu e f => Sys2Proof.Machine.execMinu e f s
  | .maxu e f => Sys2Proof.Machine.execMaxu e f s
  | .sel e f => Sys2Proof.Machine.execSel e f s
  | .addi e f => Sys2Proof.Machine.execAddi e f s
  | .andi e f => Sys2Proof.Machine.execAndi e f s
  | .ori e f => Sys2Proof.Machine.execOri e f s
  | .xori e f => Sys2Proof.Machine.execXori e f s
  | .slli e f => Sys2Proof.Machine.execSlli e f s
  | .srli e f => Sys2Proof.Machine.execSrli e f s
  | .srai e f => Sys2Proof.Machine.execSrai e f s
  | .slti e f => Sys2Proof.Machine.execSlti e f s
  | .sltiu e f => Sys2Proof.Machine.execSltiu e f s
  | .movhi e f => Sys2Proof.Machine.execMovhi e f s
  | .beq e f => Sys2Proof.Machine.execBeq e f s
  | .bne e f => Sys2Proof.Machine.execBne e f s
  | .blt e f => Sys2Proof.Machine.execBlt e f s
  | .bge e f => Sys2Proof.Machine.execBge e f s
  | .bltu e f => Sys2Proof.Machine.execBltu e f s
  | .bgeu e f => Sys2Proof.Machine.execBgeu e f s
  | .jmp e f => Sys2Proof.Machine.execJmp e f s
  | .dbnz e f => Sys2Proof.Machine.execDbnz e f s
  | .lmLdB e f => Sys2Proof.Machine.execLmLdB e f s
  | .lmLdBu e f => Sys2Proof.Machine.execLmLdBu e f s
  | .lmLdH e f => Sys2Proof.Machine.execLmLdH e f s
  | .lmLdHu e f => Sys2Proof.Machine.execLmLdHu e f s
  | .lmLdW e f => Sys2Proof.Machine.execLmLdW e f s
  | .lmLdWu e f => Sys2Proof.Machine.execLmLdWu e f s
  | .lmLdD e f => Sys2Proof.Machine.execLmLdD e f s
  | .lmStB e f => Sys2Proof.Machine.execLmStB e f s
  | .lmStH e f => Sys2Proof.Machine.execLmStH e f s
  | .lmStW e f => Sys2Proof.Machine.execLmStW e f s
  | .lmStD e f => Sys2Proof.Machine.execLmStD e f s
  | .lmVld e f => Sys2Proof.Machine.execLmVld e f s
  | .lmVst e f => Sys2Proof.Machine.execLmVst e f s
  | .lmVldBc e f => Sys2Proof.Machine.execLmVldBc e f s
  | .lmPld e f => Sys2Proof.Machine.execLmPld e f s
  | .lmPst e f => Sys2Proof.Machine.execLmPst e f s
  | .lmCpy e f => Sys2Proof.Machine.execLmCpy e f s
  | .lmFill e f => Sys2Proof.Machine.execLmFill e f s
  | .xferLd e f => Sys2Proof.Machine.execXferLd e f s
  | .xferSt e f => Sys2Proof.Machine.execXferSt e f s
  | .copyOnWrite x va => Sys2Proof.Machine.execCopyOnWrite x va s
  | .xferComplete e => Sys2Proof.Machine.execXferComplete e s
  | .xferFault e => Sys2Proof.Machine.execXferFault e s
  | .mxMul e f => Sys2Proof.Machine.execMxMul e f s
  | .mxZero e f => Sys2Proof.Machine.execMxZero e f s
  | .mxDrain e f => Sys2Proof.Machine.execMxDrain e f s
  | .mxFill e f => Sys2Proof.Machine.execMxFill e f s
  | .mxRowr e f => Sys2Proof.Machine.execMxRowr e f s
  | .mxRoww e f => Sys2Proof.Machine.execMxRoww e f s
  | .vadd e f => Sys2Proof.Machine.execVadd e f s
  | .vsub e f => Sys2Proof.Machine.execVsub e f s
  | .vmul e f => Sys2Proof.Machine.execVmul e f s
  | .vfma e f => Sys2Proof.Machine.execVfma e f s
  | .vmax e f => Sys2Proof.Machine.execVmax e f s
  | .vmin e f => Sys2Proof.Machine.execVmin e f s
  | .vand e f => Sys2Proof.Machine.execVand e f s
  | .vor e f => Sys2Proof.Machine.execVor e f s
  | .vxor e f => Sys2Proof.Machine.execVxor e f s
  | .vshl e f => Sys2Proof.Machine.execVshl e f s
  | .vshr e f => Sys2Proof.Machine.execVshr e f s
  | .vexp e f => Sys2Proof.Machine.execVexp e f s
  | .vlog e f => Sys2Proof.Machine.execVlog e f s
  | .vrcp e f => Sys2Proof.Machine.execVrcp e f s
  | .vrsqrt e f => Sys2Proof.Machine.execVrsqrt e f s
  | .vcmp e f => Sys2Proof.Machine.execVcmp e f s
  | .vsel e f => Sys2Proof.Machine.execVsel e f s
  | .vbc e f => Sys2Proof.Machine.execVbc e f s
  | .vlane e f => Sys2Proof.Machine.execVlane e f s
  | .vcvtDn e f => Sys2Proof.Machine.execVcvtDn e f s
  | .vcvtUp e f => Sys2Proof.Machine.execVcvtUp e f s
  | .vrsum e f => Sys2Proof.Machine.execVrsum e f s
  | .vrmax e f => Sys2Proof.Machine.execVrmax e f s
  | .vrmin e f => Sys2Proof.Machine.execVrmin e f s
  | .pand e f => Sys2Proof.Machine.execPand e f s
  | .por e f => Sys2Proof.Machine.execPor e f s
  | .pnot e f => Sys2Proof.Machine.execPnot e f s
  | .pfirst e f => Sys2Proof.Machine.execPfirst e f s
  | .vphilox e f => Sys2Proof.Machine.execVphilox e f s
  | .attnScore e f => Sys2Proof.Machine.execAttnScore e f s
  | .attnSmax e f => Sys2Proof.Machine.execAttnSmax e f s
  | .attnPv e f => Sys2Proof.Machine.execAttnPv e f s
  | .attnFin e f => Sys2Proof.Machine.execAttnFin e f s
  | .attnRecomp e f => Sys2Proof.Machine.execAttnRecomp e f s
  | .cueSig e f => Sys2Proof.Machine.execCueSig e f s
  | .cueWait e f => Sys2Proof.Machine.execCueWait e f s
  | .cueWaitd e f => Sys2Proof.Machine.execCueWaitd e f s
  | .cueSet e f => Sys2Proof.Machine.execCueSet e f s
  | .cueRead e f => Sys2Proof.Machine.execCueRead e f s
  | .cueWaitT e f => Sys2Proof.Machine.execCueWaitT e f s
  | .cueWaitdT e f => Sys2Proof.Machine.execCueWaitdT e f s
  | .cueWaitMet cl => Sys2Proof.Machine.execCueWaitMet cl s
  | .cueWaitTimeout e => Sys2Proof.Machine.execCueWaitTimeout e s
  | .cueOvf e => Sys2Proof.Machine.execCueOvf e s
  | .flyLdW e f => Sys2Proof.Machine.execFlyLdW e f s
  | .flyLdD e f => Sys2Proof.Machine.execFlyLdD e f s
  | .flyStW e f => Sys2Proof.Machine.execFlyStW e f s
  | .flyStD e f => Sys2Proof.Machine.execFlyStD e f s
  | .flyVld e f => Sys2Proof.Machine.execFlyVld e f s
  | .flyVst e f => Sys2Proof.Machine.execFlyVst e f s
  | .flyAdd e f => Sys2Proof.Machine.execFlyAdd e f s
  | .flyMax e f => Sys2Proof.Machine.execFlyMax e f s
  | .flyMin e f => Sys2Proof.Machine.execFlyMin e f s
  | .flyAnd e f => Sys2Proof.Machine.execFlyAnd e f s
  | .flyOr e f => Sys2Proof.Machine.execFlyOr e f s
  | .flyXchg e f => Sys2Proof.Machine.execFlyXchg e f s
  | .flyCas e f => Sys2Proof.Machine.execFlyCas e f s
  | .flatTestRestore flat => Sys2Proof.Machine.execFlatTestRestore flat s
  | .sysRdst e f => Sys2Proof.Machine.execSysRdst e f s
  | .sysWrst e f => Sys2Proof.Machine.execSysWrst e f s
  | .sysTrap e f => Sys2Proof.Machine.execSysTrap e f s
  | .sysHcall e f => Sys2Proof.Machine.execSysHcall e f s
  | .helperJobStart sh => Sys2Proof.Machine.execHelperJobStart sh s
  | .helperJobComplete sh => Sys2Proof.Machine.execHelperJobComplete sh s
  | .helperFault sh => Sys2Proof.Machine.execHelperFault sh s
  | .zshCsig sh rs1 rs2 => Sys2Proof.Machine.execZshCsig sh rs1 rs2 s
  | .zshCwait sh rd rs1 rs2 => Sys2Proof.Machine.execZshCwait sh rd rs1 rs2 s
  | .zshCwaitd sh rd rs1 rs2 => Sys2Proof.Machine.execZshCwaitd sh rd rs1 rs2 s
  | .zshCset sh rs1 rs2 => Sys2Proof.Machine.execZshCset sh rs1 rs2 s
  | .zshFladd sh rd rs1 rs2 => Sys2Proof.Machine.execZshFladd sh rd rs1 rs2 s
  | .zshFlcas sh rd rs1 rs2 => Sys2Proof.Machine.execZshFlcas sh rd rs1 rs2 s
  | .zshXfer sh rs1 rs2 => Sys2Proof.Machine.execZshXfer sh rs1 rs2 s
  | .zshMxpack sh vd vs2 vs1 => Sys2Proof.Machine.execZshMxpack sh vd vs2 vs1 s
  | .zshMxunpack sh vd vs2 vs1 => Sys2Proof.Machine.execZshMxunpack sh vd vs2 vs1 s
  | .zshPhilox sh vd vs2 vs1 => Sys2Proof.Machine.execZshPhilox sh vd vs2 vs1 s
  | .zshCtx sh rd => Sys2Proof.Machine.execZshCtx sh rd s
  | .samplerJobStart cluster => Sys2Proof.Machine.execSamplerJobStart cluster s
  | .samplerJobComplete cluster => Sys2Proof.Machine.execSamplerJobComplete cluster s
  | .stepCommit part stepId => Sys2Proof.Machine.execStepCommit part stepId s
  | .carryLimit req => Sys2Proof.Machine.execCarryLimit req s
  | .submit c d => Sys2Proof.Machine.execSubmit c d s
  | .prefixWalk req => Sys2Proof.Machine.execPrefixWalk req s
  | .cancel c => Sys2Proof.Machine.execCancel c s
  | .pause c => Sys2Proof.Machine.execPause c s
  | .resume c => Sys2Proof.Machine.execResume c s
  | .append c => Sys2Proof.Machine.execAppend c s
  | .query c => Sys2Proof.Machine.execQuery c s
  | .progLoad c => Sys2Proof.Machine.execProgLoad c s
  | .progUnload c => Sys2Proof.Machine.execProgUnload c s
  | .walkonReg c => Sys2Proof.Machine.execWalkonReg c s
  | .walkonUnreg c => Sys2Proof.Machine.execWalkonUnreg c s
  | .walkonReservationRefill slot => Sys2Proof.Machine.execWalkonReservationRefill slot s
  | .maskReg c => Sys2Proof.Machine.execMaskReg c s
  | .maskUnreg c => Sys2Proof.Machine.execMaskUnreg c s
  | .memMap c => Sys2Proof.Machine.execMemMap c s
  | .memUnmap c => Sys2Proof.Machine.execMemUnmap c s
  | .memProtect c => Sys2Proof.Machine.execMemProtect c s
  | .epochComplete space => Sys2Proof.Machine.execEpochComplete space s
  | .variantLoad c r => Sys2Proof.Machine.execVariantLoad c r s
  | .variantUnload c => Sys2Proof.Machine.execVariantUnload c s
  | .expertPublish c => Sys2Proof.Machine.execExpertPublish c s
  | .treeFlush c => Sys2Proof.Machine.execTreeFlush c s
  | .treeUpdate part => Sys2Proof.Machine.execTreeUpdate part s
  | .spreadReg c r => Sys2Proof.Machine.execSpreadReg c r s
  | .spreadUnreg c => Sys2Proof.Machine.execSpreadUnreg c s
  | .trainSubmit c => Sys2Proof.Machine.execTrainSubmit c s
  | .collective m => Sys2Proof.Machine.execCollective m s
  | .abort m => Sys2Proof.Machine.execAbort m s
  | .callBoardBadWrite addr w => Sys2Proof.Machine.execCallBoardBadWrite addr w s
  | .beatLoRead mirror => Sys2Proof.Machine.execBeatLoRead mirror s
  | .curtainNFall lowNs => Sys2Proof.Machine.execCurtainNFall lowNs s
  | .curtainNRise => Sys2Proof.Machine.execCurtainNRise s
  | .resultAtGate id => Sys2Proof.Machine.execResultAtGate id s
  | .resultPassed id => Sys2Proof.Machine.execResultPassed id s
  | .heldResultExpire id => Sys2Proof.Machine.execHeldResultExpire id s
  | .streamOpen c d => Sys2Proof.Machine.execStreamOpen c d s
  | .streamClose c => Sys2Proof.Machine.execStreamClose c s
  | .streamClosed stream => Sys2Proof.Machine.execStreamClosed stream s
  | .groupSet c => Sys2Proof.Machine.execGroupSet c s
  | .groupAttach c => Sys2Proof.Machine.execGroupAttach c s
  | .keyReq c => Sys2Proof.Machine.execKeyReq c s
  | .streamQuery c => Sys2Proof.Machine.execStreamQuery c s
  | .videoAu au => Sys2Proof.Machine.execVideoAu au s
  | .frameDecodeStart k => Sys2Proof.Machine.execFrameDecodeStart k s
  | .frameDecodeDone k r => Sys2Proof.Machine.execFrameDecodeDone k r s
  | .bindPoint => Sys2Proof.Machine.execBindPoint s
  | .bindReady group => Sys2Proof.Machine.execBindReady group s
  | .encodeFrameStart k stream => Sys2Proof.Machine.execEncodeFrameStart k stream s
  | .encodeResult k bytes lastSlice => Sys2Proof.Machine.execEncodeResult k bytes lastSlice s
  | .videoEngineFail k => Sys2Proof.Machine.execVideoEngineFail k s
  | .sqTailWrite fn k tail => Sys2Proof.Machine.execSqTailWrite fn k tail s
  | .cqHeadWrite fn k head => Sys2Proof.Machine.execCqHeadWrite fn k head s
  | .queuePairDisable fn k => Sys2Proof.Machine.execQueuePairDisable fn k s
  | .queuePairEnable fn k => Sys2Proof.Machine.execQueuePairEnable fn k s
  | .sqFetch fn k x m => Sys2Proof.Machine.execSqFetch fn k x m s
  | .data part plain => Sys2Proof.Machine.execData part plain s
  | .rxbuf fn k x => Sys2Proof.Machine.execRxbuf fn k x s
  | .outboundEvent fn k => Sys2Proof.Machine.execOutboundEvent fn k s
  | .msixCoalesce fn k => Sys2Proof.Machine.execMsixCoalesce fn k s
  | .functionLevelReset fn => Sys2Proof.Machine.execFunctionLevelReset fn s
  | .perstNAssert => Sys2Proof.Machine.execPerstNAssert s
  | .perstNRelease => Sys2Proof.Machine.execPerstNRelease s
  | .bar2Sig fn cl v => Sys2Proof.Machine.execBar2Sig fn cl v s
  | .bar2Set fn cl v => Sys2Proof.Machine.execBar2Set fn cl v s
  | .bar4Read part off len => Sys2Proof.Machine.execBar4Read part off len s
  | .bar4Write part off bytes => Sys2Proof.Machine.execBar4Write part off bytes s
  | .roceSend qpn m => Sys2Proof.Machine.execRoceSend qpn m s
  | .roceUnsupportedOp qpn => Sys2Proof.Machine.execRoceUnsupportedOp qpn s
  | .rqpCreate fn => Sys2Proof.Machine.execRqpCreate fn s
  | .rqpDestroy fn qpn => Sys2Proof.Machine.execRqpDestroy fn qpn s
  | .sparePort m role => Sys2Proof.Machine.execSparePort m role s
  | .spareTakeoverDone => Sys2Proof.Machine.execSpareTakeoverDone s
  | .houseFrame port f => Sys2Proof.Machine.execHouseFrame port f s
  | .keyPutPart m key => Sys2Proof.Machine.execKeyPutPart m key s
  | .keyDropPart m => Sys2Proof.Machine.execKeyDropPart m s
  | .keyPutJob m job epoch key => Sys2Proof.Machine.execKeyPutJob m job epoch key s
  | .keyDropJob m job => Sys2Proof.Machine.execKeyDropJob m job s
  | .jobKeyErase job => Sys2Proof.Machine.execJobKeyErase job s
  | .keyList m start => Sys2Proof.Machine.execKeyList m start s
  | .aperture m en => Sys2Proof.Machine.execAperture m en s
  | .perfConsent m consent => Sys2Proof.Machine.execPerfConsent m consent s
  | .acctGet m period => Sys2Proof.Machine.execAcctGet m period s
  | .claim m => Sys2Proof.Machine.execClaim m s
  | .release m => Sys2Proof.Machine.execRelease m s
  | .partEnable m part rootHash => Sys2Proof.Machine.execPartEnable m part rootHash s
  | .partDisable m part => Sys2Proof.Machine.execPartDisable m part s
  | .grant m part share privVideo => Sys2Proof.Machine.execGrant m part share privVideo s
  | .keyPutShared m slot key => Sys2Proof.Machine.execKeyPutShared m slot key s
  | .keyPutHouse m key => Sys2Proof.Machine.execKeyPutHouse m key s
  | .debugUnlock m token => Sys2Proof.Machine.execDebugUnlock m token s
  | .capSet m watts => Sys2Proof.Machine.execCapSet m watts s
  | .curtain m close => Sys2Proof.Machine.execCurtain m close s
  | .curtainPolicy m hold => Sys2Proof.Machine.execCurtainPolicy m hold s
  | .acctResend m period => Sys2Proof.Machine.execAcctResend m period s
  | .getVersion p => Sys2Proof.Machine.execGetVersion p s
  | .getCapabilities p => Sys2Proof.Machine.execGetCapabilities p s
  | .negotiateAlgorithms p ok => Sys2Proof.Machine.execNegotiateAlgorithms p ok s
  | .getDigests p => Sys2Proof.Machine.execGetDigests p s
  | .getCertificate p => Sys2Proof.Machine.execGetCertificate p s
  | .challenge p nonce => Sys2Proof.Machine.execChallenge p nonce s
  | .getMeasurements p session index => Sys2Proof.Machine.execGetMeasurements p session index s
  | .keyExchange p => Sys2Proof.Machine.execKeyExchange p s
  | .finish session chainOk sigOk rootHash => Sys2Proof.Machine.execFinish session chainOk sigOk rootHash s
  | .spdmHeartbeat session => Sys2Proof.Machine.execSpdmHeartbeat session s
  | .keyUpdate session => Sys2Proof.Machine.execKeyUpdate session s
  | .endSession session => Sys2Proof.Machine.execEndSession session s
  | .getEncapsulatedRequest session => Sys2Proof.Machine.execGetEncapsulatedRequest session s
  | .deliverEncapsulatedResponse session chainOk => Sys2Proof.Machine.execDeliverEncapsulatedResponse session chainOk s
  | .pairJoin m => Sys2Proof.Machine.execPairJoin m s
  | .pairSwap m beat => Sys2Proof.Machine.execPairSwap m beat s
  | .pairLeave m => Sys2Proof.Machine.execPairLeave m s
  | .pairRoll m roll => Sys2Proof.Machine.execPairRoll m roll s
  | .heartbeatSend => Sys2Proof.Machine.execHeartbeatSend s
  | .heartbeat onLink h b => Sys2Proof.Machine.execHeartbeat onLink h b s
  | .pathSilent link => Sys2Proof.Machine.execPathSilent link s
  | .order h o => Sys2Proof.Machine.execOrder h o s
  | .orderDeadline shadow => Sys2Proof.Machine.execOrderDeadline shadow s
  | .input h job kind stream seq beat => Sys2Proof.Machine.execInput h job kind stream seq beat s
  | .verdict h stepId req commit beat => Sys2Proof.Machine.execVerdict h stepId req commit beat s
  | .bind h beat frames => Sys2Proof.Machine.execBind h beat frames s
  | .pairWalkon h slot req arg beat => Sys2Proof.Machine.execPairWalkon h slot req arg beat s
  | .digestSend => Sys2Proof.Machine.execDigestSend s
  | .digest h b => Sys2Proof.Machine.execDigest h b s
  | .fetch h job kind seq => Sys2Proof.Machine.execFetch h job kind seq s
  | .state h x => Sys2Proof.Machine.execState h x s
  | .resyncRound => Sys2Proof.Machine.execResyncRound s
  | .config h r => Sys2Proof.Machine.execConfig h r s
  | .swap h beat => Sys2Proof.Machine.execSwap h beat s
  | .logRecordWrite => Sys2Proof.Machine.execLogRecordWrite s
  | .faultLogIdxWrite fn v => Sys2Proof.Machine.execFaultLogIdxWrite fn v s
  | .watchdogReset unit => Sys2Proof.Machine.execWatchdogReset unit s
  | .smTakeover => Sys2Proof.Machine.execSmTakeover s
  | .unitResetDone unit pass => Sys2Proof.Machine.execUnitResetDone unit pass s
  | .clusterSwitchUe c => Sys2Proof.Machine.execClusterSwitchUe c s
  | .clusterResetDone c pass => Sys2Proof.Machine.execClusterResetDone c pass s
  | .clusterResetTimeout c => Sys2Proof.Machine.execClusterResetTimeout c s
  | .partReset m part => Sys2Proof.Machine.execPartReset m part s
  | .partitionDrainTimeout part => Sys2Proof.Machine.execPartitionDrainTimeout part s
  | .deviceReset m => Sys2Proof.Machine.execDeviceReset m s
  | .darkClear m => Sys2Proof.Machine.execDarkClear m s
  | .sampleCopy m sampleNo addr => Sys2Proof.Machine.execSampleCopy m sampleNo addr s
  | .bistSliceStart x => Sys2Proof.Machine.execBistSliceStart x s
  | .bistSliceEnd unit pass durNs detail => Sys2Proof.Machine.execBistSliceEnd unit pass durNs detail s
  | .bistSliceAbort unit t => Sys2Proof.Machine.execBistSliceAbort unit t s
  | .bistResIdxWrite fn v => Sys2Proof.Machine.execBistResIdxWrite fn v s
  | .standbyPowerOn => Sys2Proof.Machine.execStandbyPowerOn s
  | .slotIdSample pins => Sys2Proof.Machine.execSlotIdSample pins s
  | .startSequence r => Sys2Proof.Machine.execStartSequence r s
  | .startRetry => Sys2Proof.Machine.execStartRetry s
  | .spareFitDone unit pass => Sys2Proof.Machine.execSpareFitDone unit pass s
  | .coldNext m => Sys2Proof.Machine.execColdNext m s
  | .usbStickInsert x => Sys2Proof.Machine.execUsbStickInsert x s
  | .usbOvercurrent => Sys2Proof.Machine.execUsbOvercurrent s
  | .containerStaged partsOk slotOk => Sys2Proof.Machine.execContainerStaged partsOk slotOk s
  | .updateActivate m beat => Sys2Proof.Machine.execUpdateActivate m beat s
  | .updateConfirm m => Sys2Proof.Machine.execUpdateConfirm m s
  | .updateRevert m => Sys2Proof.Machine.execUpdateRevert m s
  | .trialWindowExpire => Sys2Proof.Machine.execTrialWindowExpire s
  | .railSample us rails => Sys2Proof.Machine.execRailSample us rails s
  | .peakGuardStep => Sys2Proof.Machine.execPeakGuardStep s
  | .sensorRead x tempC => Sys2Proof.Machine.execSensorRead x tempC s
  | .airSensorRead inlet outlet => Sys2Proof.Machine.execAirSensorRead inlet outlet s
  | .shutdownRestart => Sys2Proof.Machine.execShutdownRestart s
  | .scrubRead granule => Sys2Proof.Machine.execScrubRead granule s
  | .refresh stack => Sys2Proof.Machine.execRefresh stack s
  | .stackTempRead stack tempC => Sys2Proof.Machine.execStackTempRead stack tempC s
  | .headCountRefresh port counts => Sys2Proof.Machine.execHeadCountRefresh port counts s
  | .hbmRetrainReq fn v => Sys2Proof.Machine.execHbmRetrainReq fn v s
  | .migrationStart stack => Sys2Proof.Machine.execMigrationStart stack s
  | .migrationSwitch stack => Sys2Proof.Machine.execMigrationSwitch stack s
  | .retrainDone stack pc ok => Sys2Proof.Machine.execRetrainDone stack pc ok s
  | .pwrEnLow lowUs => Sys2Proof.Machine.execPwrEnLow lowUs s
  | .pwrEnHigh => Sys2Proof.Machine.execPwrEnHigh s
  | .bulkUndervoltage => Sys2Proof.Machine.execBulkUndervoltage s
  | .inputRestored => Sys2Proof.Machine.execInputRestored s
  | .standbyLoss => Sys2Proof.Machine.execStandbyLoss s
  | .registerWrite fn addr wide v => Sys2Proof.Machine.execRegisterWrite fn addr wide v s
  | .blockLock fn addr => Sys2Proof.Machine.execBlockLock fn addr s
  | .rcRead fn addr => Sys2Proof.Machine.execRcRead fn addr s
  | .loWordRead fn addr => Sys2Proof.Machine.execLoWordRead fn addr s
  | .beatPeriodWrite fn v => Sys2Proof.Machine.execBeatPeriodWrite fn v s
  | .beatFreezeWrite fn v => Sys2Proof.Machine.execBeatFreezeWrite fn v s
  | .energyBillBeatsWrite fn v => Sys2Proof.Machine.execEnergyBillBeatsWrite fn v s
  | .guaranteeWrite fn part v => Sys2Proof.Machine.execGuaranteeWrite fn part v s
  | .serveLimitWrite fn addr v => Sys2Proof.Machine.execServeLimitWrite fn addr v s
  | .stagehandInstruction sh w => Sys2Proof.Machine.execStagehandInstruction sh w s
  | .partitionResetDone part => Sys2Proof.Machine.execPartitionResetDone part s
  | .resendRequest setId req step rank => Sys2Proof.Machine.execResendRequest setId req step rank s
  | .retrainDaysElapsed stack pc => Sys2Proof.Machine.execRetrainDaysElapsed stack pc s
  | .portLinkChange port up failed => Sys2Proof.Machine.execPortLinkChange port up failed s
  | .usbStickRemove => Sys2Proof.Machine.execUsbStickRemove s
  | .rotWatchdog => Sys2Proof.Machine.execRotWatchdog s
  | .p54OutOfRange milliVolt => Sys2Proof.Machine.execP54OutOfRange milliVolt s
  | .mainRailExcursion rail => Sys2Proof.Machine.execMainRailExcursion rail s
  | .roceAck qpn psn nak => Sys2Proof.Machine.execRoceAck qpn psn nak s
  | .cnpReceived qpn => Sys2Proof.Machine.execCnpReceived qpn s
  | .priorityFlowControl port pause => Sys2Proof.Machine.execPriorityFlowControl port pause s

end Sys2Proof.Machine
end

