-- ==== Sys2Proof/Machine/Isvex.lean ====
section
/-! DEFINITION. The opcode map of Isvex: the class and the function of every instruction word (R174), and the instruction
that a word spells. -/

namespace Sys2Proof.Machine

open Sys2Proof

/-- The engine, the class, the function and the fields of an Isvex instruction; none for a command that is no
instruction of a program. -/
def isvexOf (i : Instr) : Option (Nat × Nat × Nat × Fields) :=
  match i with
  | .ctrlNop e f => some (e, 0x00, 0x00, f)
  | .ctrlEnd e f => some (e, 0x00, 0x01, f)
  | .ctrlFence e f => some (e, 0x00, 0x02, f)
  | .add e f => some (e, 0x01, 0x00, f)
  | .sub e f => some (e, 0x01, 0x01, f)
  | .and e f => some (e, 0x01, 0x02, f)
  | .or e f => some (e, 0x01, 0x03, f)
  | .xor e f => some (e, 0x01, 0x04, f)
  | .sll e f => some (e, 0x01, 0x05, f)
  | .srl e f => some (e, 0x01, 0x06, f)
  | .sra e f => some (e, 0x01, 0x07, f)
  | .mul e f => some (e, 0x01, 0x08, f)
  | .mulhu e f => some (e, 0x01, 0x09, f)
  | .mulh e f => some (e, 0x01, 0x0A, f)
  | .divu e f => some (e, 0x01, 0x0B, f)
  | .remu e f => some (e, 0x01, 0x0C, f)
  | .slt e f => some (e, 0x01, 0x0D, f)
  | .sltu e f => some (e, 0x01, 0x0E, f)
  | .min e f => some (e, 0x01, 0x0F, f)
  | .max e f => some (e, 0x01, 0x10, f)
  | .minu e f => some (e, 0x01, 0x11, f)
  | .maxu e f => some (e, 0x01, 0x12, f)
  | .sel e f => some (e, 0x01, 0x13, f)
  | .addi e f => some (e, 0x02, 0x00, f)
  | .andi e f => some (e, 0x02, 0x02, f)
  | .ori e f => some (e, 0x02, 0x03, f)
  | .xori e f => some (e, 0x02, 0x04, f)
  | .slli e f => some (e, 0x02, 0x05, f)
  | .srli e f => some (e, 0x02, 0x06, f)
  | .srai e f => some (e, 0x02, 0x07, f)
  | .slti e f => some (e, 0x02, 0x0D, f)
  | .sltiu e f => some (e, 0x02, 0x0E, f)
  | .movhi e f => some (e, 0x02, 0x14, f)
  | .beq e f => some (e, 0x03, 0x00, f)
  | .bne e f => some (e, 0x03, 0x01, f)
  | .blt e f => some (e, 0x03, 0x02, f)
  | .bge e f => some (e, 0x03, 0x03, f)
  | .bltu e f => some (e, 0x03, 0x04, f)
  | .bgeu e f => some (e, 0x03, 0x05, f)
  | .jmp e f => some (e, 0x03, 0x08, f)
  | .dbnz e f => some (e, 0x03, 0x09, f)
  | .lmLdB e f => some (e, 0x08, 0x00, f)
  | .lmLdBu e f => some (e, 0x08, 0x01, f)
  | .lmLdH e f => some (e, 0x08, 0x02, f)
  | .lmLdHu e f => some (e, 0x08, 0x03, f)
  | .lmLdW e f => some (e, 0x08, 0x04, f)
  | .lmLdWu e f => some (e, 0x08, 0x05, f)
  | .lmLdD e f => some (e, 0x08, 0x06, f)
  | .lmStB e f => some (e, 0x08, 0x08, f)
  | .lmStH e f => some (e, 0x08, 0x09, f)
  | .lmStW e f => some (e, 0x08, 0x0A, f)
  | .lmStD e f => some (e, 0x08, 0x0B, f)
  | .lmVld e f => some (e, 0x08, 0x10, f)
  | .lmVst e f => some (e, 0x08, 0x11, f)
  | .lmVldBc e f => some (e, 0x08, 0x12, f)
  | .lmPld e f => some (e, 0x08, 0x14, f)
  | .lmPst e f => some (e, 0x08, 0x15, f)
  | .lmCpy e f => some (e, 0x08, 0x18, f)
  | .lmFill e f => some (e, 0x08, 0x19, f)
  | .xferLd e f => some (e, 0x0C, 0x00, f)
  | .xferSt e f => some (e, 0x0C, 0x01, f)
  | .mxMul e f => some (e, 0x10, 0x00, f)
  | .mxZero e f => some (e, 0x10, 0x01, f)
  | .mxDrain e f => some (e, 0x10, 0x02, f)
  | .mxFill e f => some (e, 0x10, 0x03, f)
  | .mxRowr e f => some (e, 0x10, 0x04, f)
  | .mxRoww e f => some (e, 0x10, 0x05, f)
  | .vadd e f => some (e, 0x14, 0x00, f)
  | .vsub e f => some (e, 0x14, 0x01, f)
  | .vmul e f => some (e, 0x14, 0x02, f)
  | .vfma e f => some (e, 0x14, 0x03, f)
  | .vmax e f => some (e, 0x14, 0x04, f)
  | .vmin e f => some (e, 0x14, 0x05, f)
  | .vand e f => some (e, 0x14, 0x06, f)
  | .vor e f => some (e, 0x14, 0x07, f)
  | .vxor e f => some (e, 0x14, 0x08, f)
  | .vshl e f => some (e, 0x14, 0x09, f)
  | .vshr e f => some (e, 0x14, 0x0A, f)
  | .vexp e f => some (e, 0x14, 0x10, f)
  | .vlog e f => some (e, 0x14, 0x11, f)
  | .vrcp e f => some (e, 0x14, 0x12, f)
  | .vrsqrt e f => some (e, 0x14, 0x13, f)
  | .vcmp e f => some (e, 0x14, 0x18, f)
  | .vsel e f => some (e, 0x14, 0x19, f)
  | .vbc e f => some (e, 0x14, 0x1A, f)
  | .vlane e f => some (e, 0x14, 0x1B, f)
  | .vcvtDn e f => some (e, 0x14, 0x1C, f)
  | .vcvtUp e f => some (e, 0x14, 0x1D, f)
  | .vrsum e f => some (e, 0x14, 0x20, f)
  | .vrmax e f => some (e, 0x14, 0x21, f)
  | .vrmin e f => some (e, 0x14, 0x22, f)
  | .pand e f => some (e, 0x14, 0x28, f)
  | .por e f => some (e, 0x14, 0x29, f)
  | .pnot e f => some (e, 0x14, 0x2A, f)
  | .pfirst e f => some (e, 0x14, 0x2B, f)
  | .vphilox e f => some (e, 0x14, 0x30, f)
  | .attnScore e f => some (e, 0x18, 0x00, f)
  | .attnSmax e f => some (e, 0x18, 0x01, f)
  | .attnPv e f => some (e, 0x18, 0x02, f)
  | .attnFin e f => some (e, 0x18, 0x03, f)
  | .attnRecomp e f => some (e, 0x18, 0x05, f)
  | .cueSig e f => some (e, 0x1C, 0x00, f)
  | .cueWait e f => some (e, 0x1C, 0x01, f)
  | .cueWaitd e f => some (e, 0x1C, 0x02, f)
  | .cueSet e f => some (e, 0x1C, 0x03, f)
  | .cueRead e f => some (e, 0x1C, 0x04, f)
  | .cueWaitT e f => some (e, 0x1C, 0x09, f)
  | .cueWaitdT e f => some (e, 0x1C, 0x0A, f)
  | .flyLdW e f => some (e, 0x20, 0x00, f)
  | .flyLdD e f => some (e, 0x20, 0x01, f)
  | .flyStW e f => some (e, 0x20, 0x02, f)
  | .flyStD e f => some (e, 0x20, 0x03, f)
  | .flyVld e f => some (e, 0x20, 0x04, f)
  | .flyVst e f => some (e, 0x20, 0x05, f)
  | .flyAdd e f => some (e, 0x20, 0x08, f)
  | .flyMax e f => some (e, 0x20, 0x09, f)
  | .flyMin e f => some (e, 0x20, 0x0A, f)
  | .flyAnd e f => some (e, 0x20, 0x0B, f)
  | .flyOr e f => some (e, 0x20, 0x0C, f)
  | .flyXchg e f => some (e, 0x20, 0x0D, f)
  | .flyCas e f => some (e, 0x20, 0x0E, f)
  | .sysRdst e f => some (e, 0x24, 0x00, f)
  | .sysWrst e f => some (e, 0x24, 0x01, f)
  | .sysTrap e f => some (e, 0x24, 0x02, f)
  | .sysHcall e f => some (e, 0x24, 0x03, f)
  | _ => none

/-- The instructions of class 0x00. -/
def isvexCtrl (e func : Nat) (f : Fields) : Option Instr :=
  match func with
  | 0x00 => some (.ctrlNop e f)
  | 0x01 => some (.ctrlEnd e f)
  | 0x02 => some (.ctrlFence e f)
  | _ => none

/-- The instructions of class 0x01. -/
def isvexScalar (e func : Nat) (f : Fields) : Option Instr :=
  match func with
  | 0x00 => some (.add e f)
  | 0x01 => some (.sub e f)
  | 0x02 => some (.and e f)
  | 0x03 => some (.or e f)
  | 0x04 => some (.xor e f)
  | 0x05 => some (.sll e f)
  | 0x06 => some (.srl e f)
  | 0x07 => some (.sra e f)
  | 0x08 => some (.mul e f)
  | 0x09 => some (.mulhu e f)
  | 0x0A => some (.mulh e f)
  | 0x0B => some (.divu e f)
  | 0x0C => some (.remu e f)
  | 0x0D => some (.slt e f)
  | 0x0E => some (.sltu e f)
  | 0x0F => some (.min e f)
  | 0x10 => some (.max e f)
  | 0x11 => some (.minu e f)
  | 0x12 => some (.maxu e f)
  | 0x13 => some (.sel e f)
  | _ => none

/-- The instructions of class 0x02. -/
def isvexImm (e func : Nat) (f : Fields) : Option Instr :=
  match func with
  | 0x00 => some (.addi e f)
  | 0x02 => some (.andi e f)
  | 0x03 => some (.ori e f)
  | 0x04 => some (.xori e f)
  | 0x05 => some (.slli e f)
  | 0x06 => some (.srli e f)
  | 0x07 => some (.srai e f)
  | 0x0D => some (.slti e f)
  | 0x0E => some (.sltiu e f)
  | 0x14 => some (.movhi e f)
  | _ => none

/-- The instructions of class 0x03. -/
def isvexBranch (e func : Nat) (f : Fields) : Option Instr :=
  match func with
  | 0x00 => some (.beq e f)
  | 0x01 => some (.bne e f)
  | 0x02 => some (.blt e f)
  | 0x03 => some (.bge e f)
  | 0x04 => some (.bltu e f)
  | 0x05 => some (.bgeu e f)
  | 0x08 => some (.jmp e f)
  | 0x09 => some (.dbnz e f)
  | _ => none

/-- The instructions of class 0x08. -/
def isvexLm (e func : Nat) (f : Fields) : Option Instr :=
  match func with
  | 0x00 => some (.lmLdB e f)
  | 0x01 => some (.lmLdBu e f)
  | 0x02 => some (.lmLdH e f)
  | 0x03 => some (.lmLdHu e f)
  | 0x04 => some (.lmLdW e f)
  | 0x05 => some (.lmLdWu e f)
  | 0x06 => some (.lmLdD e f)
  | 0x08 => some (.lmStB e f)
  | 0x09 => some (.lmStH e f)
  | 0x0A => some (.lmStW e f)
  | 0x0B => some (.lmStD e f)
  | 0x10 => some (.lmVld e f)
  | 0x11 => some (.lmVst e f)
  | 0x12 => some (.lmVldBc e f)
  | 0x14 => some (.lmPld e f)
  | 0x15 => some (.lmPst e f)
  | 0x18 => some (.lmCpy e f)
  | 0x19 => some (.lmFill e f)
  | _ => none

/-- The instructions of class 0x0C. -/
def isvexXfer (e func : Nat) (f : Fields) : Option Instr :=
  match func with
  | 0x00 => some (.xferLd e f)
  | 0x01 => some (.xferSt e f)
  | _ => none

/-- The instructions of class 0x10. -/
def isvexMx (e func : Nat) (f : Fields) : Option Instr :=
  match func with
  | 0x00 => some (.mxMul e f)
  | 0x01 => some (.mxZero e f)
  | 0x02 => some (.mxDrain e f)
  | 0x03 => some (.mxFill e f)
  | 0x04 => some (.mxRowr e f)
  | 0x05 => some (.mxRoww e f)
  | _ => none

/-- The instructions of class 0x14. -/
def isvexVec (e func : Nat) (f : Fields) : Option Instr :=
  match func with
  | 0x00 => some (.vadd e f)
  | 0x01 => some (.vsub e f)
  | 0x02 => some (.vmul e f)
  | 0x03 => some (.vfma e f)
  | 0x04 => some (.vmax e f)
  | 0x05 => some (.vmin e f)
  | 0x06 => some (.vand e f)
  | 0x07 => some (.vor e f)
  | 0x08 => some (.vxor e f)
  | 0x09 => some (.vshl e f)
  | 0x0A => some (.vshr e f)
  | 0x10 => some (.vexp e f)
  | 0x11 => some (.vlog e f)
  | 0x12 => some (.vrcp e f)
  | 0x13 => some (.vrsqrt e f)
  | 0x18 => some (.vcmp e f)
  | 0x19 => some (.vsel e f)
  | 0x1A => some (.vbc e f)
  | 0x1B => some (.vlane e f)
  | 0x1C => some (.vcvtDn e f)
  | 0x1D => some (.vcvtUp e f)
  | 0x20 => some (.vrsum e f)
  | 0x21 => some (.vrmax e f)
  | 0x22 => some (.vrmin e f)
  | 0x28 => some (.pand e f)
  | 0x29 => some (.por e f)
  | 0x2A => some (.pnot e f)
  | 0x2B => some (.pfirst e f)
  | 0x30 => some (.vphilox e f)
  | _ => none

/-- The instructions of class 0x18. -/
def isvexAttn (e func : Nat) (f : Fields) : Option Instr :=
  match func with
  | 0x00 => some (.attnScore e f)
  | 0x01 => some (.attnSmax e f)
  | 0x02 => some (.attnPv e f)
  | 0x03 => some (.attnFin e f)
  | 0x05 => some (.attnRecomp e f)
  | _ => none

/-- The instructions of class 0x1C. -/
def isvexCue (e func : Nat) (f : Fields) : Option Instr :=
  match func with
  | 0x00 => some (.cueSig e f)
  | 0x01 => some (.cueWait e f)
  | 0x02 => some (.cueWaitd e f)
  | 0x03 => some (.cueSet e f)
  | 0x04 => some (.cueRead e f)
  | 0x09 => some (.cueWaitT e f)
  | 0x0A => some (.cueWaitdT e f)
  | _ => none

/-- The instructions of class 0x20. -/
def isvexFly (e func : Nat) (f : Fields) : Option Instr :=
  match func with
  | 0x00 => some (.flyLdW e f)
  | 0x01 => some (.flyLdD e f)
  | 0x02 => some (.flyStW e f)
  | 0x03 => some (.flyStD e f)
  | 0x04 => some (.flyVld e f)
  | 0x05 => some (.flyVst e f)
  | 0x08 => some (.flyAdd e f)
  | 0x09 => some (.flyMax e f)
  | 0x0A => some (.flyMin e f)
  | 0x0B => some (.flyAnd e f)
  | 0x0C => some (.flyOr e f)
  | 0x0D => some (.flyXchg e f)
  | 0x0E => some (.flyCas e f)
  | _ => none

/-- The instructions of class 0x24. -/
def isvexSys (e func : Nat) (f : Fields) : Option Instr :=
  match func with
  | 0x00 => some (.sysRdst e f)
  | 0x01 => some (.sysWrst e f)
  | 0x02 => some (.sysTrap e f)
  | 0x03 => some (.sysHcall e f)
  | _ => none

/-- The instruction of an engine that a class, a function and fields spell, when no field value is reserved (R175 to R178). -/
def isvexInstr (e major func : Nat) (f : Fields) : Option Instr :=
  if wordOk major func f then
    match major with
    | 0x00 => isvexCtrl e func f
    | 0x01 => isvexScalar e func f
    | 0x02 => isvexImm e func f
    | 0x03 => isvexBranch e func f
    | 0x08 => isvexLm e func f
    | 0x0C => isvexXfer e func f
    | 0x10 => isvexMx e func f
    | 0x14 => isvexVec e func f
    | 0x18 => isvexAttn e func f
    | 0x1C => isvexCue e func f
    | 0x20 => isvexFly e func f
    | 0x24 => isvexSys e func f
    | _ => none
  else none

/-- The instruction that an engine reads from a word of its program. -/
def isvexDecode (e : Nat) (w : DWord) : Option Instr := isvexInstr e (wordMajor w) (wordFunc w) (wordFields w)

/-- The word of an instruction. -/
def isvexEncode (i : Instr) : Option DWord :=
  match isvexOf i with
  | some (_, major, func, f) => if wordOk major func f then some (packWord major func f) else none
  | none => none

end Sys2Proof.Machine
end

