-- ==== Sys2Proof/Safety.lean ====
section
/-! DEFINITION. The terms in which the claims speak: when an instruction issues, what a step leaves alone, and when a
state's memories are in canonical form. -/

namespace Sys2Proof.Machine

open Sys2Proof

/-- A step that goes on: neither a fault nor a refusal. -/
def goesOn (r : Res) : Prop := ∃ t, r = Host.Outcome.next t

/-- The outcome is a next state with a property. -/
def leadsTo (r : Res) (p : State → Prop) : Prop := ∃ t, r = Host.Outcome.next t ∧ p t

/-! ### Engines -/

/-- Engine `e` runs the entry `c` and stands at an instruction boundary with nothing to be taken first, so that its next
instruction issues (R131, R156). -/
def issues (s : State) (e : Nat) (c : EntryCtx) : Prop :=
  e < 36 ∧ (engOf s e).run = some c ∧ (engOf s e).phase = .running ∧ (engOf s e).wait = none ∧
    (engOf s e).deferred.any Deferred.reported = false

/-- No engine but `e` changes, and nothing outside the engines changes. -/
def onlyEngine (e : Nat) (s t : State) : Prop :=
  (∀ k, k ≠ e → engOf t k = engOf s k) ∧ { t with eng := s.eng } = s

/-- Engine `e` has gone on to pc `pc`, s[r] reads `v` where r is not 0, and nothing else has changed: s0 discards writes
(R107). -/
def scalarResult (e : Nat) (r : BitVec 5) (v : DWord) (pc : BitVec 20) (s t : State) : Prop :=
  onlyEngine e s t ∧ (∀ q, rdS (engOf t e) q = if q = r ∧ r ≠ 0 then v else rdS (engOf s e) q) ∧
    (engOf t e).pc = pc ∧ { engOf t e with s := (engOf s e).s, pc := (engOf s e).pc } = engOf s e

/-- The pc of the next instruction of engine `e`. -/
def nextPc (s : State) (e : Nat) : BitVec 20 := (engOf s e).pc + 8#20

/-- Engine `e` has gone on to its next instruction with the flags `fl`, v[r] reads `ls`, and nothing else has changed. -/
def vectorResult (e r : Nat) (ls : List Word) (fl : Byte) (s t : State) : Prop :=
  onlyEngine e s t ∧ (∀ q, q < 16 → rdV (engOf t e) q = if q = r then ls else rdV (engOf s e) q) ∧
    (engOf t e).pc = nextPc s e ∧ (engOf t e).flags = fl ∧
    { engOf t e with v := (engOf s e).v, pc := (engOf s e).pc, flags := (engOf s e).flags } = engOf s e

/-- Engine `e` has gone on to its next instruction, p[r] reads `v` where r is not 0, and nothing else has changed. -/
def predicateResult (e r : Nat) (v : BitVec 128) (s t : State) : Prop :=
  onlyEngine e s t ∧ (∀ q, q < 8 → rdP (engOf t e) q = if q = r ∧ r ≠ 0 then v else rdP (engOf s e) q) ∧
    (engOf t e).pc = nextPc s e ∧ { engOf t e with p := (engOf s e).p, pc := (engOf s e).pc } = engOf s e

/-- Engine `e` has gone on to its next instruction, the LM bytes from `a` read `bs`, every other LM byte reads as before,
and nothing else has changed. -/
def lmResult (e a : Nat) (bs : List Byte) (s t : State) : Prop :=
  onlyEngine e s t ∧
    (∀ b, tabGet 0#8 (engOf t e).lm b =
      if a ≤ b ∧ b < a + bs.length then bs.getD (b - a) 0 else tabGet 0#8 (engOf s e).lm b) ∧
    (engOf t e).pc = nextPc s e ∧ { engOf t e with lm := (engOf s e).lm, pc := (engOf s e).pc } = engOf s e

/-- As `lmResult`, but that the bytes which were moved set NAN when they hold one (R273). -/
def lmMoved (e a : Nat) (bs : List Byte) (s t : State) : Prop :=
  lmResult e a bs s (setEng e { engOf t e with flags := (engOf s e).flags } t) ∧
    (engOf t e).flags = (engOf s e).flags ||| (if bytesNan bs then 2#8 else 0#8)

/-- The flags of engine `e` with NAN set where a NaN was written (R273), and SAT where a conversion saturated. -/
def flagsWith (s : State) (e : Nat) (sat nan : Bool) : Byte :=
  (engOf s e).flags ||| (if sat then 1#8 else 0#8) ||| (if nan then 2#8 else 0#8)

/-- Engine `e` reads the same in every register file and in LM. -/
def sameRegisters (x y : Engine) : Prop :=
  (∀ r, rdS x r = rdS y r) ∧ (∀ r, rdV x r = rdV y r) ∧ (∀ r, rdP x r = rdP y r) ∧
    (∀ i r c, rdAcc x i r c = rdAcc y i r c) ∧ ∀ a, tabGet 0#8 x.lm a = tabGet 0#8 y.lm a

/-- An engine whose entry has been abandoned: it drains, with its registers, its LM and the transfers it had queued as they were (R157). -/
def abandoned (x : Engine) (cause : Byte) : Engine :=
  { x with phase := .draining, wait := none, deferred := [], excLast := cause, uncleared := decide (x.phase = .clearing) }

/-- The entry `c` of engine `e` has been abandoned by an exception (R154, R157): the engine drains, ENG_EXC_LAST and ENG_EXC_CNT say so, no other engine, no memory and no Cue Light
changes, and a record with the cause, the pc, the address and the entry's context is written when the log has room. -/
def raised (e cause addr : Nat) (c : EntryCtx) (s t : State) : Prop :=
  engOf t e = abandoned (engOf s e) (BitVec.ofNat 8 cause) ∧
    (∀ k, k ≠ e → engOf t k = engOf s k) ∧ t.mem = s.mem ∧ t.flies = s.flies ∧ t.cue = s.cue ∧
    regW t (0x50008 + 0x400 * e) = regW s (0x50008 + 0x400 * e) + 1 ∧
    (s.fault.fifo.length < 256 → ∃ v, t.fault.fifo = s.fault.fifo ++ [v] ∧ v.cls = 0 ∧ v.cause = cause ∧
      v.pc = (engOf s e).pc.toNat ∧ v.addr = BitVec.ofNat 64 addr ∧ v.ctx = ctxOf c ∧ v.unit = unitCode (engRef e))

/-- The main memory holds no error: no granule is poisoned, none would be found in error by its next read, no stack meets a parity
error, and no reset for an error in firmware data is due. -/
def cleanMem (s : State) : Prop :=
  s.mem.poison = [] ∧ s.mem.flips = [] ∧ s.mem.corrupt = [] ∧ s.fault.fwPoison = false ∧ ∀ e ∈ s.hbm.hbmStacks, e.2.parity = 0

/-- Time can reach a moment before the running Beat has to end: the moment has come, or it lies within the Beat's period and 1 µs (R39), while
12 V standby is present (R697). -/
def reaches (s : State) (due : Nat) : Prop :=
  due ≤ s.time ∨ s.pins.standby = true ∧ (s.beat.started = true → due - s.time ≤ s.beat.period + 1 - s.beat.phaseUs)

/-- One byte of main memory, by its physical address. -/
def memByte (s : State) (a : Nat) : Byte := tabGet 0#8 s.mem.bytes a

/-! ### Stagehands -/

/-- Stagehand `k` runs the helper job `j` and waits for nothing, so that its next instruction issues (R165, R172). -/
def runsJob (s : State) (k : Nat) (j : HelperJob) : Prop :=
  k < 72 ∧ (shOf s k).job = some j ∧ (shOf s k).phase = .running ∧ (shOf s k).wait = none

/-- Stagehand `k` has become `y`, and nothing outside it has changed. -/
def shResult (k : Nat) (y : Stagehand) (s t : State) : Prop :=
  shOf t k = y ∧ (∀ n, n ≠ k → shOf t n = shOf s n) ∧ { t with sh := s.sh } = s

/-- A Cue Light after a SIG of `n`: the sum, or the saturated count with OVF (R141, R143). -/
def lightAfter (q : CueLight) (n : Nat) : CueLight :=
  if 65535 < q.count + n then ⟨65535, true⟩ else { q with count := q.count + n }

/-! ### Serving -/

/-- No unit, no Cue Light, no flat and no byte of main memory changes. -/
def keepsUnits (s t : State) : Prop :=
  t.eng = s.eng ∧ t.sh = s.sh ∧ t.cue = s.cue ∧ t.flies = s.flies ∧ t.mem.bytes = s.mem.bytes

/-- The request at an index has ended (R395): DONE or FAILED, with its status and its FAIL_UNIT, and the ring has one entry
more (R466); every other request stays. -/
def requestEnded (i : Nat) (done : Bool) (status : Status) (unit : BitVec 16) (s t : State) : Prop :=
  (∃ r, reqOf s i = some r ∧ reqOf t i = some { r with
    state := if done then .done else .failed, status := status, failUnit := unit, pausePending := false, failAtEnd := none,
    cancelled := false }) ∧
  (∀ j, j ≠ i → reqOf t j = reqOf s j) ∧ t.board.ringHead = s.board.ringHead + 1

/-- A reply goes out by its route (R385, R550): the queue pair has it at the end of its wait queue, where it is enabled and
has room. -/
def sent (r : Reply) (s t : State) : Prop :=
  match r.route with
  | .pcie fn k cid => (qpOf s fn k).en = true → (qpOf s fn k).wait.length < 256 →
      (qpOf t fn k).wait = (qpOf s fn k).wait ++ [.reply { r with made := s.beat.num } cid]
  | .roce q => ∀ x, rqpOf s q = some x → x.wait.length < 256 →
      rqpOf t q = some { x with wait := x.wait ++ [.reply { r with made := s.beat.num } 0] }
  | .internal => True

/-- A command is answered with a status, a detail and a result, and the Beat from whose freeze it takes effect (R385). -/
def replied (c : Cmd) (st : Status) (detail : Nat) (result : DWord) (s t : State) : Prop :=
  sent (replyOf c st detail result (effectBeat s)) s t

/-- A mailbox command of a partition reaches the Stage Manager, and passes the checks of R389 and R876. -/
def accepted (c : Cmd) (opcode argLen : Nat) (used : List (Nat × Nat)) (s : State) : Prop :=
  c.part < 8 ∧ s.beat.started = true ∧ cmdCheck c opcode argLen used = none ∧ s.fault.fwPoison = false

/-- The request that a command names, of its partition and its job (R388). -/
def names (c : Cmd) (r : Request) (s : State) : Prop :=
  c.obj.toNat ≤ 8191 ∧ reqOf s c.obj.toNat = some r ∧ r.part = c.part ∧ r.jobId = c.job

/-- Partition memory that holds no error and that a command may read (R883). -/
def readable (part va n : Nat) (s : State) : Prop := cleanMem s ∧ rangeFault s (partMem part 5 true) false va n = none

/-- The bytes of partition memory. -/
def bytesAt (s : State) (part va n : Nat) : List Byte := (dvRead (partMem part 5 true) va n s).bytes

/-! ### The host interface -/

/-- A vector of a function has been signalled (R564, R565): its message has gone out, or it is pending while masked. -/
def signalled (fn v : Nat) (s t : State) : Prop :=
  let v := if v > lastVec fn then 0 else v
  if bitAt (regW s (msixKey fn v)) 0 then OutMsg.msi fn v ∈ t.out else tabGet false t.net.msix (32 * fn + v) = true

/-- Bytes have been stored at a device virtual range of a partition's space, and no other byte of main memory has changed: the
byte at each address whose walk is its own holds its new value. -/
def storedAt (c : MemCtx) (va : Nat) (bs : List Byte) (s t : State) : Prop :=
  (∀ i pa, i < bs.length → walk s c.part c.stepId true (va + i) = .ok pa →
    (∀ j, j < bs.length → j ≠ i → walk s c.part c.stepId true (va + j) ≠ .ok pa) → memByte t pa = bs.getD i 0) ∧
  (∀ b, (∀ i, i < bs.length → walk s c.part c.stepId true (va + i) ≠ .ok b) → memByte t b = memByte s b)

/-- A range that a write may store to at once: main memory holds no error, no page faults, and none waits for a copy. -/
def writable (c : MemCtx) (va n : Nat) (s : State) : Prop :=
  cleanMem s ∧ rangeFault s c true va n = none ∧ rangeCopies s c va n = none

/-! ### Management -/

/-- A management command reaches the RoT in a role, of a module that is not Dark; a House frame also needs a bundle slot that
passed (R596, R606, R607, R699). -/
def commands (m : Mgmt) (r : Role) (s : State) : Prop :=
  s.pins.standby = true ∧ mgmtRole s m = some r ∧ s.fault.dark = false ∧ (m.src = .house → s.sec.bootStatus = 0)

/-- A message that carries a reply: the secured SPDM response of its session, and the House frames that carry it or the reply itself on
both management ports (R602, R606). -/
def carries (m : Mgmt) (body : List Byte) (x : OutMsg) : Prop :=
  (∃ p, x = .spdm p true 0x7E body ∧ m.src ≠ .house) ∨ ∃ port f, x = .house port f ∧ port < 2

/-- The command has been answered, and nothing but the reply has been driven out. -/
def answered (m : Mgmt) (st : Status) (vals : List DWord) (s t : State) : Prop :=
  ∃ xs, t.out = .mgmt m.src m.tag st vals :: (xs ++ s.out) ∧ ∀ x, x ∈ xs → carries m (replyBody m st vals) x

/-- A state without what its messages have left: the log of what was driven out, and the HSEQ of House frames, as they were (R586). -/
def quiet (s t : State) : State := { t with out := s.out, net := { t.net with houseTx := s.net.houseTx } }

/-- The next message on the pairing link with a body (R634, R635): LSEQ is one above the last one sent. -/
def nextLink (s : State) (kind part : Nat) (body : List Byte) : OutMsg :=
  let n := s.pair.lseqTx + 1
  let h := linkHeader s kind part body.length n
  .pairMsg ⟨h, body, linkSeal s kind part n h body⟩

/-- Where a module that resynchronises by itself goes from `u`, the state in which it has stood down: RESYNC, while PAIR_CTRL.AUTO_RESYNC
is 1 and the conditions of R633 hold (R651). -/
def afterStandDown (u : State) : PairMode := if regF u 0xC0000 0 0 = 1 ∧ joinCheck u = none then .resync else .stoodDown

/-! ### Resets -/

/-- A device reset has lost what the main domain held (R694): no unit runs, no request, Walk-on slot or result is left, the
partition keys and the job keys are gone, and the stored bytes of main memory stand. -/
def lostMain (s t : State) : Prop :=
  t.eng = [] ∧ t.sh = [] ∧ t.cue = [] ∧ t.flies = Flies.init ∧ t.serve = Serve.init ∧ t.curtain.results = [] ∧
    t.board.slots = [] ∧ t.sec.jobs = [] ∧ (∀ k, k < 8 → keyHeld t k = false) ∧ t.mem.bytes = s.mem.bytes ∧
    t.fault.devTotal = s.fault.devTotal + 1 ∧ t.boot.ready = false

/-! ### The memories -/

/-- The main memory and the Flies are in canonical form: addresses strictly rising, no entry equal to what an unlisted
address reads as. -/
def Memory.wf (s : State) : Bool := tabWf 0#8 s.mem.bytes && tabWf 0#8 s.flies.mem

end Sys2Proof.Machine
end

