-- ==== Sys2Proof/Certificates/Slice0/Obligations.lean ====
section
/-! DEFINITION. The statements about the model that the provers are asked to prove. -/

open Sys2Proof Sys2Proof.Machine

/-- O1. Commands run first in, first out: a step takes the command at the front of the queue and is that command's effect
on the state with the rest of the queue. The queue is the model's form of the outside world (notes/assumptions/1.md). -/
def Obligations.StepRunsFrontCommand : Prop :=
  ∀ (s : State) (c : Instr) (rest : List Instr), s.pending = c :: rest → step s = exec c { s with pending := rest }

/-- O2. SCALAR instructions of class 0x01: rd takes the result of the table of R174's chapter, from rs1 = s[B], rs2 = s[C] and
rs3 = s[D], with R185 for a divisor of 0; s0 discards the write (R107); the pc moves by one word; nothing else changes. -/
def Obligations.ScalarRegisterResults : Prop :=
  ∀ (e : Nat) (f : Fields) (s : State) (c : EntryCtx), issues s e c →
    let a := rdS (engOf s e) f.b
    let b := rdS (engOf s e) f.c
    let gives (i : Instr) (func : Nat) (v : DWord) : Prop :=
      wordOk 1 func f = true → leadsTo (exec i s) (scalarResult e f.a v (nextPc s e) s)
    gives (.add e f) 0x00 (a + b) ∧
    gives (.sub e f) 0x01 (a - b) ∧
    gives (.and e f) 0x02 (a &&& b) ∧
    gives (.or e f) 0x03 (a ||| b) ∧
    gives (.xor e f) 0x04 (a ^^^ b) ∧
    gives (.sll e f) 0x05 (a <<< (b.toNat % 64)) ∧
    gives (.srl e f) 0x06 (a >>> (b.toNat % 64)) ∧
    gives (.sra e f) 0x07 (a.sshiftRight (b.toNat % 64)) ∧
    gives (.mul e f) 0x08 (BitVec.ofNat 64 (a.toNat * b.toNat)) ∧
    gives (.mulhu e f) 0x09 (BitVec.ofNat 64 (a.toNat * b.toNat / 2 ^ 64)) ∧
    gives (.mulh e f) 0x0A (BitVec.ofInt 64 (a.toInt * b.toInt / 2 ^ 64)) ∧
    gives (.divu e f) 0x0B (if b = 0 then 0xFFFFFFFFFFFFFFFF#64 else BitVec.ofNat 64 (a.toNat / b.toNat)) ∧
    gives (.remu e f) 0x0C (if b = 0 then a else BitVec.ofNat 64 (a.toNat % b.toNat)) ∧
    gives (.slt e f) 0x0D (if a.toInt < b.toInt then 1 else 0) ∧
    gives (.sltu e f) 0x0E (if a.toNat < b.toNat then 1 else 0) ∧
    gives (.min e f) 0x0F (BitVec.ofInt 64 (min a.toInt b.toInt)) ∧
    gives (.max e f) 0x10 (BitVec.ofInt 64 (max a.toInt b.toInt)) ∧
    gives (.minu e f) 0x11 (BitVec.ofNat 64 (min a.toNat b.toNat)) ∧
    gives (.maxu e f) 0x12 (BitVec.ofNat 64 (max a.toNat b.toNat)) ∧
    gives (.sel e f) 0x13 (if rdS (engOf s e) f.d ≠ 0 then a else b)

/-- O3. SCALAR instructions of class 0x02: rd takes the result from rs1 = s[B] and the sign-extended immediate (R186). -/
def Obligations.ScalarImmediateResults : Prop :=
  ∀ (e : Nat) (f : Fields) (s : State) (c : EntryCtx), issues s e c →
    let a := rdS (engOf s e) f.b
    let i := f.imm.signExtend 64
    let n := f.imm.toNat % 64
    let gives (x : Instr) (func : Nat) (v : DWord) : Prop :=
      wordOk 2 func f = true → leadsTo (exec x s) (scalarResult e f.a v (nextPc s e) s)
    gives (.addi e f) 0x00 (a + i) ∧
    gives (.andi e f) 0x02 (a &&& i) ∧
    gives (.ori e f) 0x03 (a ||| i) ∧
    gives (.xori e f) 0x04 (a ^^^ i) ∧
    gives (.slli e f) 0x05 (a <<< n) ∧
    gives (.srli e f) 0x06 (a >>> n) ∧
    gives (.srai e f) 0x07 (a.sshiftRight n) ∧
    gives (.slti e f) 0x0D (if a.toInt < i.toInt then 1 else 0) ∧
    gives (.sltiu e f) 0x0E (if a.toNat < i.toNat then 1 else 0) ∧
    gives (.movhi e f) 0x14 (BitVec.ofNat 64 (a.toNat % 2 ^ 32 + f.imm.toNat * 2 ^ 32))

/-- O4. Branches: pc moves by sext(IMM) where the condition on rs1 = s[A] and rs2 = s[B] holds, else by one word; dbnz lowers
s[A] by 1 first (R187). Nothing else changes. -/
def Obligations.BranchTargets : Prop :=
  ∀ (e : Nat) (f : Fields) (s : State) (c : EntryCtx), issues s e c →
    let a := rdS (engOf s e) f.a
    let b := rdS (engOf s e) f.b
    let target : BitVec 20 := (engOf s e).pc + BitVec.ofInt 20 f.imm.toInt
    let goes (i : Instr) (func : Nat) (r : BitVec 5) (v : DWord) (taken : Prop) : Prop :=
      wordOk 3 func f = true →
        (taken → leadsTo (exec i s) (scalarResult e r v target s)) ∧
        (¬ taken → leadsTo (exec i s) (scalarResult e r v (nextPc s e) s))
    goes (.beq e f) 0 0 0 (a = b) ∧
    goes (.bne e f) 1 0 0 (a ≠ b) ∧
    goes (.blt e f) 2 0 0 (a.toInt < b.toInt) ∧
    goes (.bge e f) 3 0 0 (b.toInt ≤ a.toInt) ∧
    goes (.bltu e f) 4 0 0 (a.toNat < b.toNat) ∧
    goes (.bgeu e f) 5 0 0 (b.toNat ≤ a.toNat) ∧
    goes (.jmp e f) 8 0 0 True ∧
    goes (.dbnz e f) 9 f.a (a - 1) (a - 1 ≠ 0)

/-- O5. LM loads: at an aligned address inside LM that no transfer in flight touches, the register takes the bytes from
s[B] + sext(IMM) (R189), extended as the form says; lm.vld and lm.vld.bc set NAN where they write one (R273: the words read as FP32 is the
model's choice, notes/assumptions/67.md); nothing else changes. -/
def Obligations.LmLoadResults : Prop :=
  ∀ (e : Nat) (f : Fields) (s : State) (c : EntryCtx), issues s e c →
    let x := engOf s e
    let a := (rdS x f.b + f.imm.signExtend 64).toNat
    let word (i n : Nat) : Nat := leNat (tabRead 0#8 x.lm (a + i) n)
    let ready (func n align : Nat) : Prop :=
      wordOk 8 func f = true ∧ a % align = 0 ∧ a + n ≤ 0xC00000 ∧ lmBusy x a n = false
    let loads (i : Instr) (func n : Nat) (v : DWord) : Prop :=
      ready func n n → leadsTo (exec i s) (scalarResult e f.a v (nextPc s e) s)
    loads (.lmLdB e f) 0 1 ((BitVec.ofNat 8 (word 0 1)).signExtend 64) ∧
    loads (.lmLdBu e f) 1 1 (BitVec.ofNat 64 (word 0 1)) ∧
    loads (.lmLdH e f) 2 2 ((BitVec.ofNat 16 (word 0 2)).signExtend 64) ∧
    loads (.lmLdHu e f) 3 2 (BitVec.ofNat 64 (word 0 2)) ∧
    loads (.lmLdW e f) 4 4 ((BitVec.ofNat 32 (word 0 4)).signExtend 64) ∧
    loads (.lmLdWu e f) 5 4 (BitVec.ofNat 64 (word 0 4)) ∧
    loads (.lmLdD e f) 6 8 (BitVec.ofNat 64 (word 0 8)) ∧
    (ready 0x10 512 64 → leadsTo (exec (.lmVld e f) s)
      (vectorResult e f.a.toNat ((List.range 128).map fun i => BitVec.ofNat 32 (word (4 * i) 4))
        (flagsWith s e false (bytesNan (tabRead 0#8 x.lm a 512))) s)) ∧
    (ready 0x12 4 4 → leadsTo (exec (.lmVldBc e f) s)
      (vectorResult e f.a.toNat (List.replicate 128 (BitVec.ofNat 32 (word 0 4)))
        (flagsWith s e false (isNan32 (BitVec.ofNat 32 (word 0 4)))) s)) ∧
    (ready 0x14 16 16 → leadsTo (exec (.lmPld e f) s)
      (predicateResult e f.a.toNat (BitVec.ofNat 128 (word 0 16)) s))

/-- O6. LM stores and block instructions: exactly the bytes of the footprint change (R189 to R193). lm.cpy of ranges that do
not overlap moves the source bytes; overlapping ranges give the result of ascending 256-byte pieces (R191). Vector stores and block
instructions set NAN where they write one (R273). -/
def Obligations.LmStoreResults : Prop :=
  ∀ (e : Nat) (f : Fields) (s : State) (c : EntryCtx), issues s e c →
    let x := engOf s e
    let a := (rdS x f.b + f.imm.signExtend 64).toNat
    let free (a n align : Nat) : Prop := a % align = 0 ∧ a + n ≤ 0xC00000 ∧ lmBusy x a n = false
    let stores (i : Instr) (func n : Nat) (bs : List Byte) : Prop :=
      wordOk 8 func f = true ∧ free a n (min n 64) → leadsTo (exec i s) (lmResult e a bs s)
    stores (.lmStB e f) 8 1 (leBytes 1 (rdS x f.a).toNat) ∧
    stores (.lmStH e f) 9 2 (leBytes 2 (rdS x f.a).toNat) ∧
    stores (.lmStW e f) 0xA 4 (leBytes 4 (rdS x f.a).toNat) ∧
    stores (.lmStD e f) 0xB 8 (leBytes 8 (rdS x f.a).toNat) ∧
    (wordOk 8 0x11 f = true ∧ free a 512 64 → leadsTo (exec (.lmVst e f) s)
      (lmMoved e a ((rdV x f.a.toNat).flatMap fun w => leBytes 4 w.toNat) s)) ∧
    stores (.lmPst e f) 0x15 16 (leBytes 16 (rdP x f.a.toNat).toNat) ∧
    (let dst := (rdS x f.a).toNat
     let src := (rdS x f.b).toNat
     let n := (rdS x f.c).toNat
     let block : Prop := n % 64 = 0 ∧ 64 ≤ n ∧ n ≤ 0xC00000 ∧ free dst n 64
     (wordOk 8 0x18 f = true ∧ block ∧ free src n 64 ∧ (dst + n ≤ src ∨ src + n ≤ dst) →
       leadsTo (exec (.lmCpy e f) s) (lmMoved e dst (tabRead 0#8 x.lm src n) s)) ∧
     (wordOk 8 0x18 f = true ∧ block ∧ free src n 64 → leadsTo (exec (.lmCpy e f) s) fun t =>
       let y := lmCopy (n / 256 + 1) x dst src n
       onlyEngine e s t ∧ engOf t e = { y with
         pc := nextPc s e, flags := flagsWith s e false (bytesNan (tabRead 0#8 y.lm dst n)) }) ∧
     (wordOk 8 0x19 f = true ∧ block → leadsTo (exec (.lmFill e f) s)
       (lmMoved e dst ((List.replicate (n / 8) (leBytes 8 (rdS x f.b).toNat)).flatten) s)))

/-- O7. FLY loads and stores: an aligned access inside the window reads or writes the flats of R113 at the address
s[B] + sext(IMM). A load leaves every Flies byte as it was, and a store writes exactly its bytes. A load's error correction
(R239, R240) concerns no register and no byte. fly.vld and fly.vst set NAN where they write one (R273). -/
def Obligations.FliesAccessResults : Prop :=
  ∀ (e : Nat) (f : Fields) (s : State) (c : EntryCtx), issues s e c →
    let x := engOf s e
    let a := (rdS x f.b + f.imm.signExtend 64).toNat
    let ready (func n : Nat) : Prop :=
      wordOk 0x20 func f = true ∧ a % min n 64 = 0 ∧ a + n ≤ flSize c ∧ flUnderTest s c a n = false
    let loads (i : Instr) (func n : Nat) (y : Engine) : Prop :=
      ready func n → leadsTo (exec i s) fun t =>
        engOf t e = { y with pc := nextPc s e } ∧ (∀ k, k ≠ e → engOf t k = engOf s k) ∧
        t.flies.mem = s.flies.mem ∧ t.mem = s.mem ∧ t.cue = s.cue
    let stores (i : Instr) (func n : Nat) (bs : List Byte) (fl : Byte) : Prop :=
      ready func n → leadsTo (exec i s) fun t =>
        engOf t e = { x with pc := nextPc s e, flags := fl } ∧ (∀ k, k ≠ e → engOf t k = engOf s k) ∧
        (∀ b, (∀ j, j < n → b ≠ flKey c (a + j)) → tabGet 0#8 t.flies.mem b = tabGet 0#8 s.flies.mem b) ∧
        ({ t with eng := s.eng, flies := s.flies } : State) = s ∧ t.flies = (flWrite c a bs s).flies
    loads (.flyLdW e f) 0 4 (wrS x f.a (BitVec.ofNat 64 (leNat (flRead s c a 4)))) ∧
    loads (.flyLdD e f) 1 8 (wrS x f.a (BitVec.ofNat 64 (leNat (flRead s c a 8)))) ∧
    loads (.flyVld e f) 4 512 { wrV x f.a.toNat
      ((List.range 128).map fun i => BitVec.ofNat 32 (leAt (flRead s c a 512) (4 * i) 4)) with
        flags := flagsWith s e false (bytesNan (flRead s c a 512)) } ∧
    stores (.flyStW e f) 2 4 (leBytes 4 (rdS x f.a).toNat) x.flags ∧
    stores (.flyStD e f) 3 8 (leBytes 8 (rdS x f.a).toNat) x.flags ∧
    stores (.flyVst e f) 5 512 ((rdV x f.a.toNat).flatMap fun w => leBytes 4 w.toNat) (flagsWith s e false (anyNan (rdV x f.a.toNat)))

/-- O8. Flies atomics (R230): s[A] takes the old 64-bit value and the location takes the new one, in one step. -/
def Obligations.FliesAtomicResults : Prop :=
  ∀ (e : Nat) (f : Fields) (s : State) (c : EntryCtx), issues s e c →
    let x := engOf s e
    let a := (rdS x f.b + f.imm.signExtend 64).toNat
    let old : DWord := BitVec.ofNat 64 (leNat (flRead s c a 8))
    let v := rdS x f.c
    let does (i : Instr) (func : Nat) (new : DWord) : Prop :=
      wordOk 0x20 func f = true ∧ a % 8 = 0 ∧ a + 8 ≤ flSize c ∧ flUnderTest s c a 8 = false →
        leadsTo (exec i s) fun t =>
          engOf t e = { wrS x f.a old with pc := nextPc s e } ∧ (∀ k, k ≠ e → engOf t k = engOf s k) ∧
          flRead t c a 8 = leBytes 8 new.toNat ∧
          (∀ b, (∀ j, j < 8 → b ≠ flKey c (a + j)) → tabGet 0#8 t.flies.mem b = tabGet 0#8 s.flies.mem b) ∧
          t.mem = s.mem ∧ t.cue = s.cue
    does (.flyAdd e f) 8 (old + v) ∧
    does (.flyMax e f) 9 (BitVec.ofNat 64 (max old.toNat v.toNat)) ∧
    does (.flyMin e f) 0xA (BitVec.ofNat 64 (min old.toNat v.toNat)) ∧
    does (.flyAnd e f) 0xB (old &&& v) ∧
    does (.flyOr e f) 0xC (old ||| v) ∧
    does (.flyXchg e f) 0xD v ∧
    does (.flyCas e f) 0xE (if old = rdS x f.d then v else old)

/-- O9. MX instructions, with operands in LM or in the Flies (R199 to R206): mx.mul gives each element of rows 0 to M − 1
the tree sum of its block dot products, added to the old element unless CLR is 1 (R202, R288); every other element keeps its
value. mx.zero, mx.fill, mx.rowr and mx.roww move whole accumulators and rows; mx.drain writes one tile, or strided rows. No
flag but NAN and SAT can change. -/
def Obligations.MatrixArrayResults : Prop :=
  ∀ (e : Nat) (f : Fields) (s : State) (c : EntryCtx), issues s e c →
    let x := engOf s e
    let acc := imm f 31 29
    let rows := imm f 17 11 + 1
    let a := (rdS x f.a).toNat
    let b := (rdS x f.b).toNat
    let accResult (v : Nat → Nat → Nat → Word) (t : State) : Prop :=
      (∀ k, k ≠ e → engOf t k = engOf s k) ∧ t.flies.mem = s.flies.mem ∧ t.mem = s.mem ∧ t.cue = s.cue ∧
        (∀ i m n, i < 8 → m < 128 → n < 128 → rdAcc (engOf t e) i m n = v i m n) ∧
        (engOf t e).pc = nextPc s e ∧ (engOf t e).flags ||| 2#8 = x.flags ||| 2#8 ∧
        { engOf t e with acc := x.acc, skip := x.skip, pc := x.pc, flags := x.flags } = x
    (let k := (rdS x f.c).toNat
     let fa := imm f 28 25
     let fb := imm f 24 21
     let spA : Bool := imm f 20 20 = 1
     let spB : Bool := imm f 19 19 = 1
     let na := tileBytes fa rows k
     let nb := tileBytes fb 128 k
     wordOk 0x10 0 f = true ∧ mulKOk k fa fb = true ∧ (if spA then na else 0) + (if spB then nb else 0) ≤ 196608 ∧
       chkTile s c x spA a na = .ok ∧ chkTile s c x spB b nb = .ok →
       let ta := mkTile (opRead s c x spA a na) fa rows k
       let tb := mkTile (opRead s c x spB b nb) fb 128 k
       leadsTo (exec (.mxMul e f) s) (accResult fun i m n =>
         if i = acc ∧ m < rows then
           (if imm f 18 18 = 1 then rowDot (arithRnd x) ta m tb n
            else add32 (arithRnd x) (rdAcc x i m n) (rowDot (arithRnd x) ta m tb n))
         else rdAcc x i m n)) ∧
    (wordOk 0x10 1 f = true → leadsTo (exec (.mxZero e f) s) (accResult fun i m n =>
      if bitAt f.imm i then 0 else rdAcc x i m n)) ∧
    (let fm := imm f 28 25
     let fl : Bool := imm f 20 20 = 1
     let rnd (m k : Nat) : Rnd :=
       cvtRnd x (stochWord c (fld (rdS x f.c) 31 0) (fld (rdS x f.c) 63 32) (m * 128 + k) 0)
     let rs := (List.range rows).map fun m => convertRow fm (rnd m) (accRow x acc m)
     let done := setEng e { x with pc := nextPc s e,
                                   flags := flagsWith s e (rs.any fun r => r.2.2.sat) (rs.any fun r => r.2.2.nan) } s
     (wordOk 0x10 2 f = true ∧ b = 0 ∧ (fl = true → tileBytes fm rows 128 ≤ 196608) ∧
         chkTile s c x fl a (tileBytes fm rows 128) = .ok →
       leadsTo (exec (.mxDrain e f) s) fun t => t = opWrite e c fl a
         (rs.flatMap (fun r => packRow fm r.1) ++ (rs.flatMap fun r => r.2.1.map fun v => BitVec.ofNat 8 v)) done) ∧
     (wordOk 0x10 2 f = true ∧ b ≠ 0 ∧ fmtMx fm = false ∧ b % 64 = 0 ∧ rowBytes fm ≤ b ∧
         (fl = true → rows * rowBytes fm ≤ 196608) ∧ (∀ m, m < rows → chkTile s c x fl (a + m * b) (rowBytes fm) = .ok) →
       leadsTo (exec (.mxDrain e f) s) fun t =>
         t = rs.zipIdx.foldl (fun u p => opWrite e c fl (a + p.2 * b) (packRow fm p.1.1) u) done)) ∧
    (let fl : Bool := imm f 20 20 = 1
     let stride := if b = 0 then 512 else b
     wordOk 0x10 3 f = true ∧ (b = 0 ∨ b % 64 = 0 ∧ 512 ≤ b) ∧ (fl = true → rows * 512 ≤ 196608) ∧
         (∀ m, m < rows → chkTile s c x fl (a + m * stride) 512 = .ok) →
       leadsTo (exec (.mxFill e f) s) (accResult fun i m n =>
         if i = acc ∧ m < rows then canon32 (BitVec.ofNat 32 (leAt (opRead s c x fl (a + m * stride) 512) (4 * n) 4))
         else rdAcc x i m n)) ∧
    (wordOk 0x10 4 f = true ∧ b < 128 → leadsTo (exec (.mxRowr e f) s)
      (vectorResult e f.a.toNat (accRow x acc b) (flagsWith s e false (anyNan (accRow x acc b))) s)) ∧
    (wordOk 0x10 5 f = true ∧ b < 128 → leadsTo (exec (.mxRoww e f) s) (accResult fun i m n =>
      if i = acc ∧ m = b then (rdV x f.a.toNat).getD n 0 else rdAcc x i m n))

/-- O10. Element-wise VEC instructions (R207 to R209, R877, R878): an active lane of vd takes the result of its lanes of the
sources, and an inactive lane keeps its value, or becomes 0 when ZM is 1; NAN is set where an FP32 result is a NaN. -/
def Obligations.VectorLaneResults : Prop :=
  ∀ (e : Nat) (f : Fields) (s : State) (c : EntryCtx), issues s e c →
    let x := engOf s e
    let va (i : Nat) : Word := (rdV x f.b.toNat).getD i 0
    let vb (i : Nat) : Word := (rdV x f.c.toNat).getD i 0
    let vc (i : Nat) : Word := (rdV x f.d.toNat).getD i 0
    let act (i : Nat) : Bool := (rdP x (imm f 31 29)).getLsbD i
    let ty := imm f 27 26
    let r := arithRnd x
    let gives (ins : Instr) (func : Nat) (g : Nat → Word) : Prop :=
      wordOk 0x14 func f = true → leadsTo (exec ins s) (vectorResult e f.a.toNat
        ((List.range 128).map fun i =>
          if act i then g i else if imm f 28 28 = 1 then 0 else (rdV x f.a.toNat).getD i 0)
        (flagsWith s e false (ty = 0 && (List.range 128).any fun i => act i && isNan32 (g i))) s)
    gives (.vadd e f) 0 (fun i => if ty = 0 then add32 r (va i) (vb i) else va i + vb i) ∧
    gives (.vsub e f) 1 (fun i => if ty = 0 then sub32 r (va i) (vb i) else va i - vb i) ∧
    gives (.vmul e f) 2 (fun i => if ty = 0 then mul32 r (va i) (vb i) else va i * vb i) ∧
    gives (.vfma e f) 3 (fun i => fma32 r (va i) (vb i) (vc i)) ∧
    gives (.vmax e f) 4 (fun i => if ty = 0 then max32 (va i) (vb i)
      else if ty = 1 then BitVec.ofInt 32 (max (va i).toInt (vb i).toInt)
      else BitVec.ofNat 32 (max (va i).toNat (vb i).toNat)) ∧
    gives (.vmin e f) 5 (fun i => if ty = 0 then min32 (va i) (vb i)
      else if ty = 1 then BitVec.ofInt 32 (min (va i).toInt (vb i).toInt)
      else BitVec.ofNat 32 (min (va i).toNat (vb i).toNat)) ∧
    gives (.vand e f) 6 (fun i => va i &&& vb i) ∧
    gives (.vor e f) 7 (fun i => va i ||| vb i) ∧
    gives (.vxor e f) 8 (fun i => va i ^^^ vb i) ∧
    gives (.vshl e f) 9 (fun i => va i <<< ((vb i).toNat % 32)) ∧
    gives (.vshr e f) 0xA (fun i =>
      if ty = 1 then (va i).sshiftRight ((vb i).toNat % 32) else va i >>> ((vb i).toNat % 32)) ∧
    gives (.vexp e f) 0x10 (fun i => expRef (va i)) ∧
    gives (.vlog e f) 0x11 (fun i => logRef (va i)) ∧
    gives (.vrcp e f) 0x12 (fun i => rcpRef (va i)) ∧
    gives (.vrsqrt e f) 0x13 (fun i => rsqrtRef (va i)) ∧
    gives (.vsel e f) 0x19 (fun i => if (rdP x f.d.toNat).getLsbD i then va i else vb i) ∧
    gives (.vbc e f) 0x1A (fun _ => (rdS x f.b).truncate 32)

/-- O11. VEC compares, predicates, reductions, conversions, vlane and vphilox (R206, R209 to R212, R282). -/
def Obligations.VectorRowResults : Prop :=
  ∀ (e : Nat) (f : Fields) (s : State) (c : EntryCtx), issues s e c →
    let x := engOf s e
    let va (i : Nat) : Word := (rdV x f.b.toNat).getD i 0
    let vb (i : Nat) : Word := (rdV x f.c.toNat).getD i 0
    let act (i : Nat) : Bool := (rdP x (imm f 31 29)).getLsbD i
    let ty := imm f 27 26
    let fm := imm f 25 22
    let preds (ins : Instr) (func : Nat) (g : Nat → Bool) : Prop :=
      wordOk 0x14 func f = true →
        ∃ p : BitVec 128, (∀ i, i < 128 → p.getLsbD i = g i) ∧ leadsTo (exec ins s) (predicateResult e f.a.toNat p s)
    let reduces (ins : Instr) (func : Nat) (unit : Word) (op : Word → Word → Word) : Prop :=
      wordOk 0x14 func f = true →
        let v := treeFold op 7 ((List.range 128).map fun i => if act i then va i else unit)
        leadsTo (exec ins s) (vectorResult e f.a.toNat (v :: List.replicate 127 0)
          (flagsWith s e false (ty = 0 && isNan32 v)) s)
    preds (.vcmp e f) 0x18 (fun i => act i && condHolds (imm f 25 23) (cmpLane ty (va i) (vb i))) ∧
    preds (.pand e f) 0x28 (fun i => (rdP x f.b.toNat).getLsbD i && (rdP x f.c.toNat).getLsbD i) ∧
    preds (.por e f) 0x29 (fun i => (rdP x f.b.toNat).getLsbD i || (rdP x f.c.toNat).getLsbD i) ∧
    preds (.pnot e f) 0x2A (fun i => !(rdP x f.b.toNat).getLsbD i) ∧
    preds (.pfirst e f) 0x2B (fun i => i < (rdS x f.b).toNat) ∧
    reduces (.vrsum e f) 0x20 0 (fun p q => if ty = 0 then add32 (arithRnd x) p q else p + q) ∧
    reduces (.vrmax e f) 0x21 (if ty = 0 then 0xFF800000#32 else if ty = 1 then 0x80000000#32 else 0)
      (byType f max32 smax32 umax32) ∧
    reduces (.vrmin e f) 0x22 (if ty = 0 then 0x7F800000#32 else if ty = 1 then 0x7FFFFFFF#32 else 0xFFFFFFFF#32)
      (byType f min32 smin32 umin32) ∧
    (wordOk 0x14 0x1B f = true ∧ (rdS x f.c).toNat < 128 → leadsTo (exec (.vlane e f) s)
      (scalarResult e f.a ((va (rdS x f.c).toNat).zeroExtend 64) (nextPc s e) s)) ∧
    (wordOk 0x14 0x1C f = true →
      let q := convertRow fm (fun k => cvtRnd x (stochWord c x.pc.toNat x.dnCount k 0x10000000)) (rdV x f.b.toNat)
      let bs := slice (packRow fm q.1 ++ q.2.1.map fun v => BitVec.ofNat 8 v) 0 512
      leadsTo (exec (.vcvtDn e f) s) fun t =>
        vectorResult e f.a.toNat (lanesOf bs) (flagsWith s e q.2.2.sat q.2.2.nan) s
          (setEng e { engOf t e with dnCount := x.dnCount } t) ∧
        (engOf t e).dnCount = if x.round = 2 then x.dnCount + 1 else x.dnCount) ∧
    (wordOk 0x14 0x1D f = true →
      let w := fmtWidth fm
      let bits := leNat (lanesBytes (rdV x f.b.toNat))
      let ls := (List.range 128).map fun i =>
        let p := 8 * (rowBytes fm + i / 32)
        BitVec.ofNat 32 (convertUp fm (nfld bits (i * w + w - 1) (i * w)) (if fmtMx fm then nfld bits (p + 7) p else 0x7F))
      leadsTo (exec (.vcvtUp e f) s) (vectorResult e f.a.toNat ls (flagsWith s e false (anyNan ls)) s)) ∧
    (wordOk 0x14 0x30 f = true → leadsTo (exec (.vphilox e f) s) (vectorResult e f.a.toNat
      ((List.range 32).flatMap fun g =>
        let o := philox ((va (4 * g)).toNat, (va (4 * g + 1)).toNat, (va (4 * g + 2)).toNat, (va (4 * g + 3)).toNat)
          (vb (4 * g)).toNat (vb (4 * g + 1)).toNat
        [BitVec.ofNat 32 o.1, BitVec.ofNat 32 o.2.1, BitVec.ofNat 32 o.2.2.1, BitVec.ofNat 32 o.2.2.2]) x.flags s))

/-- O12. ATTN instructions (R213 to R222, R289): attn.score and attn.recomp write every element of acc[SACC]; attn.smax keeps
the running maximum and sum of each row below NQ and rescales the output rows; attn.pv adds P × V to the output rows;
attn.fin divides them and forms the LSE. attn.pv of a VFMT that does not go with the PFMT of the attn.smax before it is ILLEGAL (R213;
that exception is the model's choice, notes/assumptions/66.md). On a skipped acc[SACC], attn.smax and attn.pv change only the pc (R218). attn.smax
and attn.pv complete in every form; their results are stated where the score and the output accumulators, and vm and vl,
are different registers. -/
def Obligations.AttentionResults : Prop :=
  ∀ (e : Nat) (f : Fields) (s : State) (c : EntryCtx), issues s e c →
    let x := engOf s e
    let sa := imm f 31 29
    let oa := imm f 28 26
    let md := rdS x f.d
    let nq := imm f 20 14 + 1
    let pair : Bool := imm f 21 21 = 1
    let goes (t : State) : Prop := onlyEngine e s t ∧ (engOf t e).pc = nextPc s e
    let tile (v : Nat → Nat → Word) (t : State) : Prop :=
      (∀ i m n, i < 8 → m < 128 → n < 128 → rdAcc (engOf t e) i m n = if i = sa then v m n else rdAcc x i m n) ∧
        (engOf t e).pc = nextPc s e ∧ (∀ k, k ≠ e → engOf t k = engOf s k) ∧
        { engOf t e with acc := x.acc, skip := x.skip, pc := x.pc, flags := x.flags } = x ∧ t.flies.mem = s.flies.mem
    (wordOk 0x18 0 f = true ∧ maskLegal md = true ∧ maskSum md ≠ 1 ∧ chkScore s c x f = .ok →
      leadsTo (exec (.attnScore e f) s) (tile fun m n =>
        ((attnTile s c x f (fun _ v => v) 0xFF800000#32).getD m []).getD n 0)) ∧
    (wordOk 0x18 0 f = true ∧ maskLegal md = true ∧ maskSum md = 1 →
      leadsTo (exec (.attnScore e f) s) (tile fun _ _ => 0xFF800000#32)) ∧
    (wordOk 0x18 5 f = true ∧ maskLegal md = true ∧ chkScore s c x f = .ok →
      leadsTo (exec (.attnRecomp e f) s) (tile fun m n =>
        ((attnTile s c x f (fun q v => expRef (sub32 .nearest v ((rdV x (imm f 6 3)).getD q 0))) 0).getD m []).getD n 0)) ∧
    (wordOk 0x18 1 f = true → leadsTo (exec (.attnSmax e f) s) fun t =>
      let row (q : Nat) := smaxRow (imm f 25 22) (accRow x sa q) ((rdV x f.a.toNat).getD q 0) ((rdV x f.b.toNat).getD q 0)
      goes t ∧
      (bitAt x.skip sa = true → engOf t e = { x with pc := nextPc s e }) ∧
      (bitAt x.skip sa = false → (engOf t e).smaxNq = nq ∧ (engOf t e).smaxFmt = imm f 25 22) ∧
      (bitAt x.skip sa = false ∧ f.a ≠ f.b → ∀ q, q < 128 →
        (rdV (engOf t e) f.a.toNat).getD q 0 = (if q < nq then (row q).2.2.1 else (rdV x f.a.toNat).getD q 0) ∧
        (rdV (engOf t e) f.b.toNat).getD q 0 = if q < nq then (row q).2.2.2 else (rdV x f.b.toNat).getD q 0) ∧
      (bitAt x.skip sa = false ∧ sa ≠ oa ∧ (pair = true → sa ≠ oa + 1) → ∀ i q n, i < 8 → q < 128 → n < 128 →
        rdAcc (engOf t e) i q n =
          if i = sa ∧ q < nq then (row q).1.getD n 0
          else if (i = oa ∨ pair = true ∧ i = oa + 1) ∧ q < nq then mul32 .nearest (rdAcc x i q n) (row q).2.1
          else rdAcc x i q n)) ∧
    (let d := 32 * (imm f 21 19 + 1)
     let nk := imm f 18 12 + 1
     let a := (rdS x f.a).toNat
     let v := mkTile (lmRead x a (tileBytes (imm f 25 22) nk d)) (imm f 25 22) nk d
     (wordOk 0x18 2 f = true ∧ bitAt x.skip sa = true →
       leadsTo (exec (.attnPv e f) s) fun t => onlyEngine e s t ∧ engOf t e = { x with pc := nextPc s e }) ∧
     let pairs : Prop := x.smaxFmt = 0 ∨ x.smaxFmt = 1 ∧ imm f 25 22 = 1 ∨
       x.smaxFmt ≠ 0 ∧ x.smaxFmt ≠ 1 ∧ (imm f 25 22 = 3 ∨ imm f 25 22 = 4)
     (wordOk 0x18 2 f = true ∧ bitAt x.skip sa = false ∧ ¬ pairs → leadsTo (exec (.attnPv e f) s) (raised e 1 0 c s)) ∧
     (wordOk 0x18 2 f = true ∧ bitAt x.skip sa = false ∧ pairs ∧ chkLm x a (tileBytes (imm f 25 22) nk d) 64 = .ok →
       leadsTo (exec (.attnPv e f) s) fun t => goes t ∧
         (sa ≠ oa ∧ (128 < d → sa ≠ oa + 1) ∧ x.smaxNq ≤ 128 → ∀ i q n, i < 8 → q < 128 → n < 128 →
           rdAcc (engOf t e) i q n =
             if (i = oa ∧ n < d ∨ i = oa + 1 ∧ 128 + n < d) ∧ q < x.smaxNq then
               add32 .nearest (rdAcc x i q n) (pvElem (accRow x sa q) v nk (128 * (i - oa) + n))
             else rdAcc x i q n))) ∧
    (wordOk 0x18 3 f = true →
      let zero (q : Nat) : Bool := cmp32 ((rdV x f.b.toNat).getD q 0) 0 = some 0
      leadsTo (exec (.attnFin e f) s) fun t => goes t ∧
        (∀ i q n, i < 8 → q < 128 → n < 128 → rdAcc (engOf t e) i q n =
          if (i = oa ∨ pair = true ∧ i = oa + 1) ∧ q < nq then
            (if zero q then 0 else div32 .nearest (rdAcc x i q n) ((rdV x f.b.toNat).getD q 0))
          else rdAcc x i q n) ∧
        ∀ q, q < 128 → (rdV (engOf t e) f.c.toNat).getD q 0 =
          if q < nq then (if zero q then 0xFF800000#32
            else add32 .nearest ((rdV x f.a.toNat).getD q 0) (logRef ((rdV x f.b.toNat).getD q 0)))
          else (rdV x f.c.toNat).getD q 0)

/-- O13. CUE instructions on a Cue Light i inside the entry's window and the partition's grants (R223 to R228): SIG adds and
saturates (R141, R143 to R145), SET writes and clears OVF, cue.read gives OVF and the count, a wait whose count is reached and
that no earlier WAITD precedes ends at once, one for a target of 0 always does (R228), and one whose count is not reached stays in the bank (R148). -/
def Obligations.CueInstructionResults : Prop :=
  ∀ (e : Nat) (f : Fields) (s : State) (c : EntryCtx), issues s e c →
    let x := engOf s e
    let win := ((rdS x f.b).toNat + imm f 9 0) % 2 ^ 64
    let i := c.clBase + win
    let n := if imm f 15 15 = 1 then (rdS x f.c).toNat % 65536 else imm f 31 16
    let q := cueOf s i
    let ok (func : Nat) : Prop :=
      wordOk 0x1C func f = true ∧ c.clOk = true ∧ win < c.clCount ∧ cueGranted s c.part i = true
    let rest (t : State) : Prop :=
      (∀ k, k ≠ e → engOf t k = engOf s k) ∧ (∀ j, j ≠ i → cueOf t j = cueOf s j) ∧
        { t with eng := s.eng, cue := s.cue, regs := s.regs } = s
    let after (i : Instr) (y : Engine) (l : CueLight) : Prop :=
      leadsTo (exec i s) fun t => rest t ∧ engOf t e = { y with pc := nextPc s e } ∧ cueOf t (c.clBase + win) = l
    let t32 := (rdS x f.d).toNat % 2 ^ 32
    let due : Option Nat := if f.d = 0 ∨ t32 = 0 then none else some (s.time + t32)
    let waits (i : Instr) (func : Nat) (take : Bool) (pd : Option Nat) (done : Engine) : Prop :=
      ok func →
        (n = 0 ∨ n ≤ q.count ∧ waitdPending s (c.clBase + win) = false →
          after i done { q with count := if take then q.count - n else q.count }) ∧
        (q.count < n → leadsTo (exec i s) fun t =>
          rest t ∧ t.cue = s.cue ∧ engOf t e = { x with wait := some ⟨c.clBase + win, n, take, pd, due⟩ })
    (ok 0 ∧ 0 < n → after (.cueSig e f)
      { x with deferred := x.deferred ++ if 65535 < q.count + n then [⟨false, 7, x.pc.toNat, i, 0, []⟩] else [] }
      ⟨if 65535 < q.count + n then 65535 else q.count + n, q.ovf || decide (65535 < q.count + n)⟩) ∧
    waits (.cueWait e f) 1 false none x ∧
    waits (.cueWaitd e f) 2 true none x ∧
    (ok 3 → after (.cueSet e f) x ⟨n, false⟩) ∧
    (ok 4 → after (.cueRead e f) (wrS x f.a (BitVec.ofNat 64 ((if q.ovf then 65536 else 0) + q.count))) q) ∧
    waits (.cueWaitT e f) 9 false (some (imm f 14 12)) (wrP x (imm f 14 12) (BitVec.allOnes 128)) ∧
    waits (.cueWaitdT e f) 0xA true (some (imm f 14 12)) (wrP x (imm f 14 12) (BitVec.allOnes 128))

/-- O14. CTRL and SYS instructions (R184, R139, R154, R165, R232 to R234). ctrl.end stops issue until the entry retires; a
fence passes once what its MASK names is done; sys.rdst reads a status register (the value of st.cycle is free) and sys.wrst
writes st.round, or clears flags, where an access to st.flags waits for the entry's earlier transfers (R280); sys.trap raises TRAP with its code, and sys.hcall queues a job on the helper asked for, or on
the other one when that is a hole. -/
def Obligations.ControlAndSysResults : Prop :=
  ∀ (e : Nat) (f : Fields) (s : State) (c : EntryCtx), issues s e c →
    let x := engOf s e
    let code := f.imm.toNat
    let v := rdS x f.b
    let a := (rdS x f.a).toNat
    let d := tabRead 0#8 x.lm a 64
    let becomes (i : Instr) (major func : Nat) (y : Engine) : Prop :=
      wordOk major func f = true → leadsTo (exec i s) fun t => onlyEngine e s t ∧ engOf t e = y
    (becomes (.ctrlNop e f) 0 0 { x with pc := nextPc s e }) ∧
    (x.deferred = [] → becomes (.ctrlEnd e f) 0 1 { x with phase := .ending }) ∧
    (x.deferred = [] ∧ (bitAt f.imm 0 = true → x.xq = []) ∧ (bitAt f.imm 1 = true → x.helpers = 0) →
      becomes (.ctrlFence e f) 0 2 { x with pc := nextPc s e }) ∧
    (code < 8 ∧ (code = 6 → x.xq = []) → becomes (.sysRdst e f) 0x24 0 { wrS x f.a (
      if code = 0 then packCtx c.stepId c.req c.index c.le c.part
      else if code = 1 then c.beat
      else if code = 2 then c.progId.zeroExtend 64
      else if code = 3 then BitVec.ofNat 64 ((c.cnt0 + c.cnt1) * 65536)
      else if code = 4 then BitVec.ofNat 64 (c.clCount % 2048 * 65536 + c.clBase)
      else if code = 5 then x.round.zeroExtend 64
      else if code = 6 then x.flags.zeroExtend 64
      else BitVec.ofNat 64 (s.beat.phaseUs % 2 ^ 32)) with pc := nextPc s e }) ∧
    (code = 8 → becomes (.sysRdst e f) 0x24 0
      { wrS x f.a (Config.engineCycle e x.freeCnt) with pc := nextPc s e, freeCnt := x.freeCnt + 1 }) ∧
    (code = 5 → becomes (.sysWrst e f) 0x24 1
      { x with pc := nextPc s e, round := if v.toNat % 4 = 3 then x.round else BitVec.ofNat 2 (v.toNat % 4) }) ∧
    (code = 6 ∧ x.xq = [] → becomes (.sysWrst e f) 0x24 1 { x with pc := nextPc s e, flags := x.flags &&& ~~~ (v.truncate 8) }) ∧
    (code = 6 ∧ x.xq ≠ [] ∧ wordOk 0x24 0 f = true → exec (.sysRdst e f) s = .next s) ∧
    (code = 6 ∧ x.xq ≠ [] ∧ wordOk 0x24 1 f = true → exec (.sysWrst e f) s = .next s) ∧
    (wordOk 0x24 2 f = true → leadsTo (exec (.sysTrap e f) s) (raised e 8 code c s)) ∧
    (∀ k j, wordOk 0x24 3 f = true ∧ a % 64 = 0 ∧ a + 64 ≤ 0xC00000 ∧ lmBusy x a 64 = false ∧
        cueIndex s c (leAt d 4 2) = some j ∧
        (shSlot s (2 * c.le + code) = some k ∨
          shSlot s (2 * c.le + code) = none ∧ shSlot s (2 * c.le + (1 - code)) = some k) ∧ (shOf s k).queue.length < 8 →
      leadsTo (exec (.sysHcall e f) s) fun t =>
        engOf t e = { x with pc := nextPc s e, helpers := x.helpers + 1 } ∧ (∀ n, n ≠ e → engOf t n = engOf s n) ∧
        shOf t k = { shOf s k with queue := (shOf s k).queue ++
          [⟨BitVec.ofNat 32 (leAt d 0 4), if leAt d 6 1 = 0 then none else some j, leAt d 6 1, d.drop 8, e, c, x.pc.toNat⟩] } ∧
        (∀ n, n ≠ k → shOf t n = shOf s n) ∧ { t with eng := s.eng, sh := s.sh } = s)

/-- O15. Every instruction of a program whose word has a reserved field value raises ILLEGAL at its own pc, and does nothing
else (R155, R176). -/
def Obligations.ReservedFieldsAreIllegal : Prop :=
  ∀ (i : Instr) (e major func : Nat) (f : Fields) (s : State) (c : EntryCtx),
    isvexOf i = some (e, major, func, f) → issues s e c → wordOk major func f = false →
      leadsTo (exec i s) (raised e 1 0 c s)

/-- O16. An access that is not aligned, or that leaves the local memory, the Flies window or the Cue Light window, raises its
exception and does nothing (R111 to R114, R116, R121, R155). -/
def Obligations.AccessExceptions : Prop :=
  ∀ (e : Nat) (f : Fields) (s : State) (c : EntryCtx), issues s e c →
    let x := engOf s e
    let a := (rdS x f.b + f.imm.signExtend 64).toNat
    let lm (i : Instr) (func n align : Nat) : Prop :=
      wordOk 8 func f = true →
        (a % align ≠ 0 → leadsTo (exec i s) (raised e 2 a c s)) ∧
        (a % align = 0 ∧ 0xC00000 < a + n → leadsTo (exec i s) (raised e 3 a c s))
    let fl (i : Instr) (func n align : Nat) : Prop :=
      wordOk 0x20 func f = true →
        (a % align ≠ 0 → leadsTo (exec i s) (raised e 2 a c s)) ∧
        (a % align = 0 ∧ (c.cnt0 + c.cnt1) * 65536 < a + n → leadsTo (exec i s) (raised e 4 a c s))
    let win := ((rdS x f.b).toNat + imm f 9 0) % 2 ^ 64
    let cue (i : Instr) (func : Nat) : Prop :=
      wordOk 0x1C func f = true ∧
          (c.clOk = false ∨ c.clCount ≤ win ∨ cueGranted s c.part (c.clBase + win) = false) →
        leadsTo (exec i s) (raised e 5 win c s)
    lm (.lmLdB e f) 0 1 1 ∧ lm (.lmLdBu e f) 1 1 1 ∧ lm (.lmLdH e f) 2 2 2 ∧ lm (.lmLdHu e f) 3 2 2 ∧
    lm (.lmLdW e f) 4 4 4 ∧ lm (.lmLdWu e f) 5 4 4 ∧ lm (.lmLdD e f) 6 8 8 ∧ lm (.lmStB e f) 8 1 1 ∧
    lm (.lmStH e f) 9 2 2 ∧ lm (.lmStW e f) 0xA 4 4 ∧ lm (.lmStD e f) 0xB 8 8 ∧ lm (.lmVld e f) 0x10 512 64 ∧
    lm (.lmVst e f) 0x11 512 64 ∧ lm (.lmVldBc e f) 0x12 4 4 ∧ lm (.lmPld e f) 0x14 16 16 ∧
    lm (.lmPst e f) 0x15 16 16 ∧
    fl (.flyLdW e f) 0 4 4 ∧ fl (.flyLdD e f) 1 8 8 ∧ fl (.flyStW e f) 2 4 4 ∧ fl (.flyStD e f) 3 8 8 ∧
    fl (.flyVld e f) 4 512 64 ∧ fl (.flyVst e f) 5 512 64 ∧ fl (.flyAdd e f) 8 8 8 ∧ fl (.flyMax e f) 9 8 8 ∧
    fl (.flyMin e f) 0xA 8 8 ∧ fl (.flyAnd e f) 0xB 8 8 ∧ fl (.flyOr e f) 0xC 8 8 ∧ fl (.flyXchg e f) 0xD 8 8 ∧
    fl (.flyCas e f) 0xE 8 8 ∧
    cue (.cueSig e f) 0 ∧ cue (.cueWait e f) 1 ∧ cue (.cueWaitd e f) 2 ∧ cue (.cueSet e f) 3 ∧ cue (.cueRead e f) 4 ∧
    cue (.cueWaitT e f) 9 ∧ cue (.cueWaitdT e f) 0xA

/-- O17. Nothing issues on an engine that runs no entry, waits on a Cue Light, or has ended its program or drains (R131, R139,
R150, R157): the state stays as it is. -/
def Obligations.NothingIssuesWhileAnEngineWaits : Prop :=
  ∀ (i : Instr) (e major func : Nat) (f : Fields) (s : State),
    isvexOf i = some (e, major, func, f) → e < 36 →
      (engOf s e).run = none ∨ (engOf s e).wait.isSome = true ∨ (engOf s e).phase ≠ .running →
        exec i s = Host.Outcome.next s

/-- O18. The word of an instruction spells it: an engine reads from the word of every instruction with no reserved field value
exactly that instruction, and what an engine reads from any word has that word (R174). -/
def Obligations.IsvexWordsRoundTrip : Prop :=
  (∀ (i : Instr) (e major func : Nat) (f : Fields) (w : DWord),
    isvexOf i = some (e, major, func, f) → isvexEncode i = some w → isvexDecode e w = some i) ∧
  (∀ (e : Nat) (w : DWord) (i : Instr), isvexDecode e w = some i →
    isvexEncode i = some w ∧ isvexOf i = some (e, wordMajor w, wordFunc w, wordFields w))

/-- O19. An XFER instruction that meets R133, R196 and R112 is queued behind the engine's earlier transfers, with the shape of
R194 and R195, the Cue Light that CUE = 1 names and the epoch of its partition's space (R336); nothing moves yet (R134). -/
def Obligations.TransferIssue : Prop :=
  ∀ (e : Nat) (f : Fields) (s : State) (c : EntryCtx), issues s e c →
    let x := engOf s e
    let d := (rdS x f.d).toNat
    let shaped := f.d ≠ 0
    let rows := if shaped then d % 65536 else 1
    let len := (rdS x f.c).toNat
    let lm := (rdS x f.a).toNat
    let dv := (rdS x f.b).toNat
    let lmStride := if shaped then d / 65536 % 2 ^ 24 else 0
    let dvStride := if shaped then 64 * (d / 2 ^ 40) else 0
    let legal : Prop :=
      x.xq.length < 16 ∧ 0 < rows * len ∧ rows * len % 64 = 0 ∧ rows * len ≤ 8 * 2 ^ 20 ∧ lm % 64 = 0 ∧ dv % 64 = 0 ∧
        (shaped → rows ≠ 0 ∧ len % 64 = 0 ∧ lmStride % 64 = 0) ∧ lm + (rows - 1) * lmStride + len ≤ 0xC00000
    let queued (i : Instr) (st : Bool) (q : Option (Nat × Nat)) : Prop :=
      leadsTo (exec i s) fun t => onlyEngine e s t ∧
        engOf t e = { x with pc := nextPc s e, xq := x.xq ++
          [⟨st, lm, dv, rows, len, lmStride, dvStride, q, x.pc.toNat, tabGet 0#32 s.mem.epochs c.part, []⟩] }
    let issue (i : Instr) (func : Nat) (st : Bool) : Prop :=
      wordOk 0xC func f = true ∧ legal →
        (imm f 31 31 = 0 → queued i st none) ∧
        (imm f 31 31 = 1 ∧ c.clOk = true ∧ imm f 9 0 < c.clCount ∧ cueGranted s c.part (c.clBase + imm f 9 0) = true →
          queued i st (some (c.clBase + imm f 9 0, imm f 30 23)))
    issue (.xferLd e f) 0 false ∧ issue (.xferSt e f) 1 true

/-- O20. A transfer that meets no fault and no copy delivers its data between main memory and the local memory of its unit,
row by row, and then its Cue Light is signalled once (R134, R136, R194, R195). An xfer.ld changes no byte of main memory, and
an xfer.st none of local memory; every byte outside the transfer's rows stays. A page that an earlier epoch checked is reached as that
epoch left it (R338). Stated where main memory holds no error and the unit does not drain. -/
def Obligations.TransferDelivery : Prop :=
  ∀ (u : Nat) (s : State) (x : Xfer) (rest : List Xfer) (c : EntryCtx),
    (u < 36 ∧ (engOf s u).phase ≠ .draining ∨ 64 ≤ u ∧ u < 136) → xferQueue s u = x :: rest → xferCtx s u = some c →
    cleanMem s →
    let m := { xferMem u c with held := x.held }
    (∀ r, r < x.rows → rangeFault s m x.st (x.dv + r * x.dvStride) x.len = none) →
    (x.st = true → ∀ r, r < x.rows → rangeCopies s m (x.dv + r * x.dvStride) x.len = none) →
    let dvAt (r j : Nat) : Walk := walkFor s m x.st (x.dv + r * x.dvStride + j)
    let lmAt (r j : Nat) : Nat := x.lm + r * x.lmStride + j
    let lmByte (t : State) (a : Nat) : List Byte := unitLmRead t u a 1
    leadsTo (exec (.xferComplete u) s) fun t =>
      xferQueue t u = rest ∧
      (x.st = false → { t.mem with tc := s.mem.tc, upper := s.mem.upper } = s.mem ∧
        (∀ a, (∀ r j, r < x.rows → j < x.len → lmAt r j ≠ a) → lmByte t a = lmByte s a) ∧
        (∀ r j pa, r < x.rows → j < x.len → dvAt r j = .ok pa →
          (∀ q k, r < q → q < x.rows → k < x.len → lmAt q k ≠ lmAt r j) → lmByte t (lmAt r j) = [memByte s pa])) ∧
      (x.st = true → (∀ a, lmByte t a = lmByte s a) ∧
        (∀ b, (∀ r j, r < x.rows → j < x.len → dvAt r j ≠ .ok b) → memByte t b = memByte s b) ∧
        (∀ r j pa, r < x.rows → j < x.len → dvAt r j = .ok pa →
          (∀ q k, q < x.rows → k < x.len → (q ≠ r ∨ k ≠ j) → dvAt q k ≠ .ok pa) → [memByte t pa] = lmByte s (lmAt r j))) ∧
      (∀ i, cueOf t i = match x.cue with
        | some (k, n) => if i = k then lightAfter (cueOf s i) n else cueOf s i
        | none => cueOf s i)

/-- O21. A transfer of an engine that meets a translation fault is a deferred exception that is taken at once on an engine that
waits for nothing: the entry is abandoned with XFER_FAULT, and its other transfers are left to drain (R156, R157, R319). A write to a copy-on-write page takes the next frame of
the step's reservation, copies the page, maps the copy and journals the old leaf (R326). Stated where main memory holds no
error and is in canonical form. -/
def Obligations.TransferFaultsAndCopies : Prop :=
  (∀ (e : Nat) (s : State) (x : Xfer) (rest : List Xfer) (c : EntryCtx) (va sub : Nat),
    issues s e c → (engOf s e).deferred = [] → (engOf s e).xq = x :: rest → cleanMem s →
    let m := { xferMem e c with held := x.held }
    xferFaultAt s m x = some (va, sub) → xferCopies s m x = false →
      leadsTo (exec (.xferFault e) s) fun t =>
        (engOf t e).phase = .draining ∧ (engOf t e).xq = rest ∧ (engOf t e).deferred = [] ∧ (engOf t e).excLast = 9 ∧
        (engOf t e).pc = (engOf s e).pc ∧ regW t 0x70040 = regW s 0x70040 + 1 ∧
        regW t (0x50008 + 0x400 * e) = regW s (0x50008 + 0x400 * e) + 1 ∧ t.cue = s.cue ∧
        (∀ k, k ≠ e → engOf t k = engOf s k) ∧
        (s.fault.fifo.length < 256 → ∃ v, t.fault.fifo = s.fault.fifo ++ [v] ∧ v.cls = 0 ∧ v.cause = 9 ∧ v.pc = x.pc ∧
          v.addr = BitVec.ofNat 64 va ∧ v.detail = [sub] ∧ v.ctx = ctxOf c)) ∧
  (∀ (a : Access) (va pa f : Nat) (rest : List Nat) (j : Journal) (old : DWord) (s : State),
    a.part < 8 → cleanMem s → Memory.wf s = true → walk s a.part a.stepId.toNat true va = .copy pa →
    journalOf s a.part a.stepId.toNat = some j → j.frames = f :: rest → leafAt s a.part va = some old →
      leadsTo (exec (.copyOnWrite a va) s) fun t =>
        (∀ k, k < 65536 → memByte t (65536 * f + k) = memByte s (65536 * leafFrame old + k)) ∧
        (∀ b, b / 65536 ≠ f → memByte t b = memByte s b) ∧
        ptOf t a.part 3 va = ptLeaf true true false true a.part f a.stepId.toNat ∧
        journalOf t a.part a.stepId.toNat =
          some { j with frames := rest, entries := j.entries ++ [⟨va / 65536 * 65536, old, false⟩] } ∧
        regW t 0x70044 = regW s 0x70044 + 1)

/-- O22. The bank ends the waits that a count has reached, WAITDs one after another, each taking its target off the count
(R141, R142, R429); a wait whose timeout passes ends with CUE_TMO, a 0, or the exception CUE_TIMEOUT (R148, R149, R172); a saturation
that the bank reports abandons the entry with CUE_OVF (R144); and a flat under test is restored for an access (R724). -/
def Obligations.CueBankAndFlatEvents : Prop :=
  (∀ (cl : Nat) (s : State), cl < 65536 → leadsTo (exec (.cueWaitMet cl) s) fun t =>
    (∀ e w, e < 36 → (engOf s e).wait = some w → w.cl = cl → w.take = false → engOf t e =
      if w.target ≤ (cueOf s cl).count ∧ waitLate s w = false then
        { (match w.pd with | some p => wrP (engOf s e) p (BitVec.allOnes 128) | none => engOf s e) with
          wait := none, pc := nextPc s e }
      else engOf s e) ∧
    (∀ e, (∀ w, (engOf s e).wait = some w → w.cl ≠ cl) → engOf t e = engOf s e) ∧
    (∀ k w, k < 72 → (shOf s k).wait = some w → w.cl = cl → w.take = false → w.target ≤ (cueOf s cl).count →
      waitLate s w = false → (shOf t k).wait = none ∧ (shOf t k).pc = (shOf s k).pc + 4) ∧
    (∀ i, i ≠ cl → cueOf t i = cueOf s i) ∧ (cueOf t cl).ovf = (cueOf s cl).ovf ∧
    (cueOf t cl).count ≤ (cueOf s cl).count ∧ t.mem = s.mem ∧ t.flies = s.flies) ∧
  (∀ (cl e : Nat) (w : CueWait) (s : State), cl < 65536 → e < 36 → (engOf s e).wait = some w → w.cl = cl → w.take = true →
    w.target ≤ (cueOf s cl).count → waitLate s w = false →
    (∀ u v, u ∈ waitUnits → u ≠ e → unitWait s u = some v → v.cl ≠ cl) → (∀ k, k < 4 → samplerWait s k cl = none) →
      leadsTo (exec (.cueWaitMet cl) s) fun t =>
        (engOf t e).wait = none ∧ cueOf t cl = { cueOf s cl with count := (cueOf s cl).count - w.target }) ∧
  (∀ (cl k : Nat) (x : QJob) (s : State), cl < 65536 → k < 4 → samplerWait s k cl = some x →
    (∀ u v, u ∈ waitUnits → unitWait s u = some v → v.cl ≠ cl) → (∀ i, i < 4 → i ≠ k → samplerWait s i cl = none) →
      leadsTo (exec (.cueWaitMet cl) s) fun t =>
        cueOf t cl = { cueOf s cl with count := (cueOf s cl).count - x.job.waitCnt } ∧ t.eng = s.eng ∧ t.sh = s.sh ∧
        (tabGet Sampler.init t.serve.samplers k).queue =
          (tabGet Sampler.init s.serve.samplers k).queue.replace x { x with phase := .granted }) ∧
  (∀ (e : Nat) (w : CueWait) (due : Nat) (c : EntryCtx) (s : State), e < 36 → (engOf s e).run = some c →
    (engOf s e).wait = some w → w.deadline = some due → (cueOf s w.cl).count < w.target ∨ due < s.time → reaches s due →
      leadsTo (exec (.cueWaitTimeout e) s) fun t =>
        regW t 0x40044 = regW s 0x40044 + 1 ∧ t.time = max s.time due ∧
        (∀ p, w.pd = some p → engOf t e = { wrP (engOf s e) p 0 with
          wait := none, pc := nextPc s e, flags := (engOf s e).flags ||| 4#8 }) ∧
        (w.pd = none → raised e 6 w.cl c s t)) ∧
  (∀ (k : Nat) (w : CueWait) (due : Nat) (s : State), k < 72 → (shOf s k).wait = some w → w.deadline = some due →
    (cueOf s w.cl).count < w.target ∨ due < s.time → reaches s due → leadsTo (exec (.cueWaitTimeout (64 + k)) s) fun t =>
      shOf t k = { shOf s k with wait := none, pc := (shOf s k).pc + 4, x :=
        (if (shOf s k).waitRd = 0 then (shOf s k).x else tabSet 0#64 (shOf s k).x (shOf s k).waitRd 0) } ∧
      (∀ n, n ≠ k → shOf t n = shOf s n) ∧ regW t 0x40044 = regW s 0x40044 + 1) ∧
  (∀ (e : Nat) (c : EntryCtx) (d : Deferred) (s : State), issues s e c → (engOf s e).deferred = [d] → d.cause = 7 →
    leadsTo (exec (.cueOvf e) s) fun t =>
      engOf t e = abandoned (engOf s e) 7 ∧ regW t (0x50008 + 0x400 * e) = regW s (0x50008 + 0x400 * e) + 1 ∧
      (s.fault.fifo.length < 256 → ∃ v, t.fault.fifo = s.fault.fifo ++ [v] ∧ v.cls = 0 ∧ v.cause = 7 ∧ v.pc = d.pc ∧
        v.addr = BitVec.ofNat 64 d.addr ∧ v.ctx = ctxOf c)) ∧
  (∀ (n : Nat) (s : State), n < 128 → (flatOf s n).test = true → s.flies.testCopy = some n →
    leadsTo (exec (.flatTestRestore n) s) fun t =>
      (∀ k, k < 65536 → tabGet 0#8 t.flies.mem (65536 * n + k) =
        tabGet 0#8 s.flies.mem (65536 * s.flies.areas.getD 5 27 + k)) ∧
      (∀ a, a / 65536 ≠ n → tabGet 0#8 t.flies.mem a = tabGet 0#8 s.flies.mem a) ∧
      flatOf t n = { flatOf s n with test := false } ∧ (∀ k, k ≠ n → flatOf t k = flatOf s k) ∧
      t.flies.testCopy = none ∧ { t with flies := s.flies } = s)

/-- O23. Helper jobs (R165 to R168, R171, R173): the oldest queued job starts in user mode, after a clear when the partition
changes; at its end its Cue Light is signalled and the entry that posted it waits for one job less; a fault ends it with a
HELPER record, and abandons that entry. Where an image begins is a free value (notes/assumptions/13.md), and the control registers with
which the runtime starts it are the model's choice (notes/assumptions/110.md). -/
def Obligations.HelperJobs : Prop :=
  ∀ (k : Nat) (s : State), k < 72 →
    let h := shOf s k
    (∀ j rest, h.queue = j :: rest → h.phase = .idle → h.job = none → h.serv.role.isSome = true → h.serv.inReset = false →
      h.serv.selftest = false → s.fault.clReset.contains (k / 18) = false →
        leadsTo (exec (.helperJobStart k) s) fun t =>
          shOf t k = { h with queue := rest, job := some j, machine := false, pc := (shOf t k).pc,
                              phase := if h.serv.lastPart = some j.ctx.part then .running else .clearing,
                              csr := if h.serv.lastPart = some j.ctx.part then helperCsr h.csr else h.csr,
                              serv := { h.serv with lastPart := some j.ctx.part } } ∧
          (∀ n, n ≠ k → shOf t n = shOf s n) ∧ { t with sh := s.sh, free := s.free } = s) ∧
    (∀ j, runsJob s k j → h.xq = [] → leadsTo (exec (.helperJobComplete k) s) fun t =>
      shOf t k = { h with phase := .idle, job := none, xq := [], wait := none, machine := true, resv := none } ∧
      (∀ n, n ≠ k → shOf t n = shOf s n) ∧
      (∀ n, engOf t n = if n = j.eng ∧ jobAlive s j = true then { engOf s n with helpers := (engOf s n).helpers - 1 }
        else engOf s n) ∧
      (∀ i, cueOf t i = if j.cl = some i ∧ j.inc ≠ 0 then lightAfter (cueOf s i) j.inc else cueOf s i)) ∧
    (∀ j, h.job = some j → s.fault.fifo.length < 255 → leadsTo (exec (.helperFault k) s) fun t =>
      shOf t k = { h with phase := .idle, job := none, xq := [], wait := none, machine := true, resv := none,
                          serv := { h.serv with lastPart := if h.phase = .clearing then none else h.serv.lastPart } } ∧
      (∃ v vs, t.fault.fifo = s.fault.fifo ++ v :: vs ∧ v.cls = 1 ∧ v.ctx = ctxOf j.ctx ∧ v.unit = unitCode (shRef k)) ∧
      (∀ c, issues s j.eng c → (engOf s j.eng).deferred = [] → sameEntry c j.ctx = true →
        (engOf t j.eng).phase = .draining ∧ (engOf t j.eng).excLast = 0xA))

/-- O24. Xzsh instructions of a helper program on Cue Lights, the Flies and local memory (R172, R173): the results of the table,
each with the pc moved by 4. zsh.xfer queues the transfer of its descriptor when that is legal, waits for a place in the queue, and
otherwise ends the job with a HELPER_FAULT; where the descriptor's fields lie is a free value (notes/assumptions/22.md). -/
def Obligations.XzshResults : Prop :=
  ∀ (k : Nat) (rd rs1 rs2 : BitVec 5) (s : State) (j : HelperJob), runsJob s k j →
    let h := shOf s k
    let win := (rdX h rs1).toNat
    let n := (rdX h rs2).toNat % 65536
    let next (y : Stagehand) : Stagehand := { y with pc := h.pc + 4 }
    (∀ i, cueIndex s j.ctx win = some i →
      let q := cueOf s i
      let due : Option Nat := if h.zshtmo = 0 then none else some (s.time + h.zshtmo.toNat)
      let m := (rdX h rs2).toNat
      let waits (x : Instr) (take : Bool) : Prop :=
        (m = 0 ∨ m ≤ q.count ∧ waitdPending s i = false → leadsTo (exec x s) fun t =>
          shOf t k = { next (wrX h rd 1) with waitRd := rd.toNat } ∧ (∀ l, l ≠ k → shOf t l = shOf s l) ∧
          cueOf t i = { q with count := if take then q.count - m else q.count } ∧
          (∀ l, l ≠ i → cueOf t l = cueOf s l) ∧ { t with sh := s.sh, cue := s.cue } = s) ∧
        (q.count < m → leadsTo (exec x s)
          (shResult k { h with wait := some ⟨i, m, take, none, due⟩, waitRd := rd.toNat } s))
      leadsTo (exec (.zshCsig k rs1 rs2) s) (fun t =>
        shOf t k = next h ∧ (∀ m, m ≠ k → shOf t m = shOf s m) ∧ t.eng = s.eng ∧
        ∀ m, cueOf t m = if m = i then lightAfter q n else cueOf s m) ∧
      waits (.zshCwait k rd rs1 rs2) false ∧ waits (.zshCwaitd k rd rs1 rs2) true ∧
      leadsTo (exec (.zshCset k rs1 rs2) s) (fun t =>
        shOf t k = next h ∧ (∀ m, cueOf t m = if m = i then ⟨n, false⟩ else cueOf s m) ∧
        { t with sh := s.sh, cue := s.cue } = s)) ∧
    (let old : DWord := BitVec.ofNat 64 (leNat (flRead s j.ctx win 8))
     let does (x : Instr) (new : DWord) : Prop :=
       win % 8 = 0 ∧ win + 8 ≤ flSize j.ctx ∧ flUnderTest s j.ctx win 8 = false → leadsTo (exec x s) fun t =>
         shOf t k = next (wrX h rd old) ∧ (∀ m, m ≠ k → shOf t m = shOf s m) ∧
         flRead t j.ctx win 8 = leBytes 8 new.toNat ∧
         (∀ b, (∀ i, i < 8 → b ≠ flKey j.ctx (win + i)) → tabGet 0#8 t.flies.mem b = tabGet 0#8 s.flies.mem b) ∧
         t.mem = s.mem ∧ t.cue = s.cue
     does (.zshFladd k rd rs1 rs2) (old + rdX h rs2) ∧
     does (.zshFlcas k rd rs1 rs2) (if old = rdX h rd then rdX h rs2 else old)) ∧
    leadsTo (exec (.zshCtx k rd) s) (shResult k (next (wrX h rd (ctxOf j.ctx))) s) ∧
    (let v := rdX h rs2
     let x := zshXferOf s j h (tabRead 0#8 h.lm win 32) v
     let legal : Prop := win + 32 ≤ 0x80000 ∧ 0 < x.len ∧ x.len % 64 = 0 ∧ x.dv % 64 = 0 ∧ x.lm % 64 = 0 ∧
       x.lm + x.len ≤ 0x80000 ∧ (zshInc v = 0 ∨ (cueIndex s j.ctx (zshIndex v)).isSome = true)
     (legal ∧ h.xq.length < 16 → leadsTo (exec (.zshXfer k rs1 rs2) s) (shResult k (next { h with xq := h.xq ++ [x] }) s)) ∧
     (legal ∧ 16 ≤ h.xq.length → exec (.zshXfer k rs1 rs2) s = .next s) ∧
     (¬ legal → leadsTo (exec (.zshXfer k rs1 rs2) s) fun t => (shOf t k).job = none ∧ (shOf t k).phase = .idle))

/-- O25. Xzsh instructions on vector registers (R172, R271, R277, R283): zsh.mxpack and zsh.mxunpack convert one block of 32
elements between FP32 and the MX format of vs1, zsh.philox draws 4 groups, and each then stands at the next instruction; any other format
code ends the job with a HELPER_FAULT. A NaN that is met or written sets st.flags.NAN of the engine whose entry posted the job, when it
still runs it, and nothing else outside the Stagehand changes (R271, R273; that engine is the model's choice, notes/assumptions/67.md).
Where the scale lies in a block is a free value (notes/assumptions/25.md). -/
def Obligations.XzshVectorResults : Prop :=
  ∀ (k : Nat) (vd vs2 vs1 : BitVec 5) (s : State) (j : HelperJob), runsJob s k j →
    let h := shOf s k
    let f := leAt (rdVb h vs1.toNat) 0 1 % 16
    let next (y : Stagehand) : Stagehand := { y with pc := h.pc + 4 }
    let becomes (y : Stagehand) (nan : Bool) (t : State) : Prop :=
      shOf t k = next y ∧ (∀ n, n ≠ k → shOf t n = shOf s n) ∧ { t with sh := s.sh, eng := s.eng } = s ∧
      (∀ e, engOf t e = if e = j.eng ∧ (engOf s e).run = some j.ctx then { engOf s e with flags := flagsWith s e false nan }
        else engOf s e)
    (fmtMx f = true →
      let r := mxPack f (fun _ => .nearest) ((rdVw h vs2.toNat ++ rdVw h ((vs2.toNat + 1) % 32)).map dec32)
      let b := rdVb h vs2.toNat
      let scale := (b.getD (Config.zshPlace (16 + f) % 64) 0).toNat
      let up (i : Nat) : Word := BitVec.ofNat 32 (convertUp f (streamElem b (fmtWidth f) i) scale)
      leadsTo (exec (.zshMxpack k vd vs2 vs1) s) (fun t =>
        becomes (wrVb h vd.toNat (mxBlockBytes f r.1 r.2.1)) r.2.2 t ∧ ∀ m, m ≠ vd.toNat → rdVb (shOf t k) m = rdVb h m) ∧
      leadsTo (exec (.zshMxunpack k vd vs2 vs1) s) (becomes
        (wrVw (wrVw h vd.toNat ((List.range 16).map up)) ((vd.toNat + 1) % 32) ((List.range 16).map fun i => up (16 + i)))
        ((List.range 32).any fun i => isNan32 (up i)))) ∧
    (fmtMx f = false → ∀ x, x = .zshMxpack k vd vs2 vs1 ∨ x = .zshMxunpack k vd vs2 vs1 →
      leadsTo (exec x s) fun t => (shOf t k).job = none ∧ (shOf t k).phase = .idle) ∧
    leadsTo (exec (.zshPhilox k vd vs2 vs1) s) (fun t =>
      shResult k (next (wrVw h vd.toNat ((List.range 4).flatMap fun g =>
        philoxGroup (rdVw h vs2.toNat) (rdVw h vs1.toNat) g))) s t ∧
      ∀ m, m ≠ vd.toNat → rdVb (shOf t k) m = rdVb h m)

/-- O26. Instructions of RV64GC on a Stagehand that waits for nothing (R160 to R162; the encodings and results are those of the
RISC-V standard, notes/assumptions/13.md), where its PMP regions allow the fetch and the access (R161): integer results, a sum of two f
registers, aligned loads and stores of local memory, and a store-conditional without a reservation; in user mode a misaligned access and an
environment call end the job with a HELPER_FAULT (R171). -/
def Obligations.StagehandInstructions : Prop :=
  ∀ (k rd rs1 rs2 n : Nat) (s : State) (j : HelperJob), runsJob s k j → (shOf s k).serv.inReset = false →
    (shOf s k).serv.selftest = false → rd < 32 → rs1 < 32 → rs2 < 32 → n < 4096 → rvFetchOk (shOf s k) 4 = true →
    let h := shOf s k
    let a := rdX h (BitVec.ofNat 5 rs1)
    let b := rdX h (BitVec.ofNat 5 rs2)
    let i : DWord := (BitVec.ofNat 12 n).signExtend 64
    let p := a + i
    let gives (w : Word) (y : Stagehand) : Prop :=
      leadsTo (exec (.stagehandInstruction k w) s) (shResult k { y with pc := h.pc + 4 } s)
    let put (v : DWord) : Stagehand := wrX h (BitVec.ofNat 5 rd) v
    gives (encI 0x13 0 rd rs1 n) (put (a + i)) ∧
    gives (encI 0x13 7 rd rs1 n) (put (a &&& i)) ∧
    gives (encR 0x33 0 0 rd rs1 rs2) (put (a + b)) ∧
    gives (encR 0x33 0 0x20 rd rs1 rs2) (put (a - b)) ∧
    gives (encR 0x33 4 0 rd rs1 rs2) (put (a ^^^ b)) ∧
    gives (encR 0x33 3 0 rd rs1 rs2) (put (if a.toNat < b.toNat then 1 else 0)) ∧
    gives (encR 0x33 0 1 rd rs1 rs2) (put (a * b)) ∧
    (p.toNat % 8 = 0 ∧ p.toNat + 8 ≤ 0x80000 ∧ pmpAllows h (rvDataMachine h) 0 p.toNat 8 = true →
      leadsTo (exec (.stagehandInstruction k (encI 0x03 3 rd rs1 n)) s) (fun t =>
        (∀ r, rdX (shOf t k) r = if r = BitVec.ofNat 5 rd ∧ r ≠ 0 then BitVec.ofNat 64 (leNat (tabRead 0#8 h.lm p.toNat 8))
          else rdX h r) ∧ (shOf t k).pc = h.pc + 4 ∧ (shOf t k).lm = h.lm)) ∧
    (p.toNat % 8 = 0 ∧ p.toNat + 8 ≤ 0x80000 ∧ pmpAllows h (rvDataMachine h) 1 p.toNat 8 = true →
      gives (encS 0x23 3 rs1 rs2 n) { h with lm := tabWrite 0#8 h.lm p.toNat (leBytes 8 b.toNat) }) ∧
    (rvFsOn h = true → leadsTo (exec (.stagehandInstruction k (encR 0x53 0 1 rd rs1 rs2)) s) fun t =>
      let x := (rvF h rs1).toNat
      let y := (rvF h rs2).toNat
      let r := fpAdd 64 0 (fpIsSnan 64 x || fpIsSnan 64 y) (fpVal 64 x) (fpVal 64 y)
      (∀ q, q < 32 → rvF (shOf t k) q = if q = rd then BitVec.ofNat 64 r.1 else rvF h q) ∧
      rvRaw (shOf t k) 3 = rvRaw h 3 ||| BitVec.ofNat 64 (r.2 % 32) ∧ (shOf t k).pc = h.pc + 4 ∧ (shOf t k).lm = h.lm) ∧
    (h.resv = none ∧ a.toNat % 8 = 0 ∧ pmpAllows h (rvDataMachine h) 1 a.toNat 8 = true →
      leadsTo (exec (.stagehandInstruction k (encR 0x2F 3 0x0C rd rs1 rs2)) s) fun t =>
        (∀ r, rdX (shOf t k) r = if r = BitVec.ofNat 5 rd ∧ r ≠ 0 then 1 else rdX h r) ∧ (shOf t k).lm = h.lm ∧
        (shOf t k).pc = h.pc + 4) ∧
    (h.machine = false → (p.toNat % 8 ≠ 0 → leadsTo (exec (.stagehandInstruction k (encI 0x03 3 rd rs1 n)) s)
        fun t => (shOf t k).job = none ∧ (shOf t k).phase = .idle) ∧
      leadsTo (exec (.stagehandInstruction k 0x00000073#32) s) fun t => (shOf t k).job = none ∧ (shOf t k).phase = .idle)

/-- O27. An engine takes its next entry (R57, R58) with its registers at their values at dispatch (R108). On the partition of
its last entry the entry starts at once, its argument block in LM 0 to 255 and its Cue Light window from the block's prefix (R117 to
R121); on another one the clear comes first, and PARTITION_CLEAR_DONE starts it with every other byte of LM at 0 (R26, R27).
The same command clears a Stagehand (the control registers with which its runtime then starts the helper are the model's choice,
notes/assumptions/110.md), and an engine with no entry. Stated where main memory holds no error and the block can be
read. -/
def Obligations.EntryDispatch : Prop :=
  (∀ (e le i : Nat) (o : Order) (x : Entry) (s : State), e < 36 → (engOf s e).serv.role = some le →
    s.ro.running = some o → engineIdle s e = true → nextEntry s o e le = some (i, x) → cleanMem s →
    let y := engOf s e
    let c := entryCtx s o x le
    leadsTo (exec (.entryDispatch e) s) fun t =>
      (∀ k, k ≠ e → engOf t k = engOf s k) ∧ { t.mem with tc := s.mem.tc, upper := s.mem.upper } = s.mem ∧ t.flies = s.flies ∧
      (eKind x = 4 → statusAt t i = .running e ∧ engOf t e = y ∧ t.bist.queue = s.bist.queue ++ [i]) ∧
      (eKind x ≠ 4 ∧ y.serv.lastPart ≠ some (ePart x) → statusAt t i = .running e ∧ engOf t e = { Engine.init with
        serv := y.serv, lm := y.lm, excLast := y.excLast, freeCnt := y.freeCnt, run := some c, phase := .clearing,
        s := tabSet 0#64 [] 1 (BitVec.ofNat 64 (eArg x)) }) ∧
      (eKind x ≠ 4 ∧ y.serv.lastPart = some (ePart x) ∧
          rangeFault s (entryMem c (unitCode (engRef e)) 0) false (eArg x) 256 = none →
        statusAt t i = .running e ∧ (engOf t e).phase = .running ∧ (engOf t e).pc = 0 ∧ rdS (engOf t e) 1 = BitVec.ofNat 64 (eArg x) ∧
        (∀ r, r ≠ 1 → rdS (engOf t e) r = 0) ∧ (engOf t e).round = 0 ∧ (engOf t e).flags = 0 ∧
        (∃ d, (engOf t e).run = some d ∧ d.index = eIndex x ∧ d.part = ePart x ∧ d.stepId = eStep x ∧
          d.clBase = leNat (tabRead 0#8 (engOf t e).lm 12 2) ∧ d.clCount = leNat (tabRead 0#8 (engOf t e).lm 14 2)) ∧
        (∀ a, 256 ≤ a → tabGet 0#8 (engOf t e).lm a = tabGet 0#8 y.lm a) ∧
        (∀ a pa, a < 256 → walk s (ePart x) (eStep x) false (eArg x + a) = .ok pa →
          tabGet 0#8 (engOf t e).lm a = memByte s pa))) ∧
  (∀ (cl slot : Nat) (s : State), cl < 4 → slot < 9 → (engOf s (9 * cl + slot)).phase = .clearing → cleanMem s →
    let e := 9 * cl + slot
    let y := engOf s e
    leadsTo (exec (.partitionClearDone ⟨.engine, cl, slot⟩) s) fun t =>
      (∀ k, k ≠ e → engOf t k = engOf s k) ∧ { t.mem with tc := s.mem.tc, upper := s.mem.upper } = s.mem ∧
      (y.run = none → engOf t e = { Engine.init with serv := y.serv, excLast := y.excLast, freeCnt := y.freeCnt }) ∧
      (∀ c, y.run = some c → c.slot = none → rangeFault s (entryMem c (unitCode (engRef e)) 0) false c.argPtr 256 = none →
        (engOf t e).phase = .running ∧ (∀ a, 256 ≤ a → tabGet 0#8 (engOf t e).lm a = 0) ∧
        (∀ a pa, a < 256 → walk s c.part c.stepId false (c.argPtr + a) = .ok pa →
          tabGet 0#8 (engOf t e).lm a = memByte s pa))) ∧
  (∀ (cl slot : Nat) (s : State), cl < 4 → slot < 18 → (shOf s (18 * cl + slot)).phase = .clearing →
    leadsTo (exec (.partitionClearDone ⟨.stagehand, cl, slot⟩) s) (shResult (18 * cl + slot)
      { shOf s (18 * cl + slot) with x := [], f := [], v := [], csr := helperCsr [], resv := none, zshtmo := 0, lm := [], phase := .running } s))

/-- O28. The end of an entry. It retires once no transfer, no helper job and no deferred exception is left, and adds its
signals (R139, R59); at its hang deadline it is abandoned with a HANG record (R674, R675); once its transfers have drained the
engine is idle (R157, R158); a unit that does not stop, and one with a hardware exception, is reset (R159, R679, R686). -/
def Obligations.EntryEnd : Prop :=
  ∀ (e : Nat) (s : State) (c : EntryCtx), e < 36 → (engOf s e).run = some c →
    let x := engOf s e
    (x.phase = .ending ∧ x.xq = [] ∧ x.helpers = 0 ∧ x.deferred = [] → leadsTo (exec (.entryRetire e) s) fun t =>
      (engOf t e).phase = .idle ∧ (engOf t e).run = none ∧ (engOf t e).serv.lastPart = some c.part ∧
      (∀ k, k ≠ e → engOf t k = engOf s k) ∧ (c.slot = none → statusAt t c.index = .retired) ∧
      (∀ i, cueOf t i = c.sigs.foldl (fun q p => if p.1 = i ∧ p.2 ≠ 0 then lightAfter q p.2 else q) (cueOf s i))) ∧
    (((x.phase = .running ∨ x.phase = .ending ∨ x.phase = .clearing) ∧ hangDeadline s c < s.beat.period →
      leadsTo (exec (.hang .entry e) s) fun t =>
        engOf t e = { x with phase := .draining, wait := none, deferred := [], uncleared := decide (x.phase = .clearing) } ∧
        (∀ k, k ≠ e → engOf t k = engOf s k) ∧ t.mem = s.mem ∧ t.flies = s.flies ∧ t.cue = s.cue ∧
        regW t 0xD004C = regW s 0xD004C + 1 ∧
        (s.fault.fifo.length < 256 → ∃ v, t.fault.fifo = s.fault.fifo ++ [v] ∧ v.cls = 2 ∧ v.cause = 1 ∧ v.ctx = ctxOf c ∧
          v.unit = unitCode (engRef e)))) ∧
    (x.phase = .draining ∧ x.cut = false ∧ cleanMem s → leadsTo (exec (.entryDrainDone e) s) fun t =>
      (engOf t e).phase = .idle ∧ (engOf t e).run = none ∧ (engOf t e).xq = [] ∧ (∀ k, k ≠ e → engOf t k = engOf s k) ∧
      t.cue = s.cue ∧ (engOf t e).serv.lastPart = (if x.uncleared then none else some c.part) ∧
      (x.xq.all (fun q => !q.st) = true → t.mem.bytes = s.mem.bytes)) ∧
    (x.phase = .draining → leadsTo (exec (.unitStopTimeout ⟨.engine, e / 9, e % 9⟩) s) fun t =>
      engOf t e = { Engine.init with serv := { x.serv with inReset := true, lastPart := none }, excLast := x.excLast } ∧
      (∀ k, k ≠ e → engOf t k = engOf s k) ∧ regW t 0xD0040 = regW s 0xD0040 + 1) ∧
    (∀ chk addr, leadsTo (exec (.hardwareException e chk addr) s) fun t =>
      engOf t e = { Engine.init with serv := { x.serv with inReset := true, lastPart := none },
                                     excLast := if chk then 0x0C else 0x0B } ∧
      (∀ k, k ≠ e → engOf t k = engOf s k) ∧
      regW t (0x50008 + 0x400 * e) = regW s (0x50008 + 0x400 * e) + 1 ∧ regW t 0xD0040 = regW s 0xD0040 + 1)

/-- O29. Requests for Walk-ons: a write of slot word 0 with GO, or a doorbell of the slot's own partition, makes the slot
PENDING when every check of R462 passes and REFUSED with the status of the first that fails; a write while the slot is busy is
counted as a bad write, and GO = 0 writes REQ and ARG only (R460, R461, R560 to R562). -/
def Obligations.WalkonRequests : Prop :=
  ∀ (slot fn k : Nat) (w : Word) (db : DWord) (s : State), slot < 128 → fn ≤ 8 →
    let x := slotOf s slot
    let busy : Prop := x.state = .pending ∨ x.state = .running ∨ x.state = .planned
    let takes (i : Instr) (w : Word) (bell : Option (Nat × Nat)) : Prop :=
      (bitAt w 31 = false → leadsTo (exec i s) fun t =>
        slotOf t slot = { x with wordReq := fld w 29 16, wordArg := w.truncate 16 } ∧ keepsUnits s t) ∧
      (bitAt w 31 = true ∧ busy → leadsTo (exec i s) fun t =>
        t.board = { s.board with badWr := s.board.badWr + 1 } ∧ { t with board := s.board } = s) ∧
      (bitAt w 31 = true ∧ ¬ busy → leadsTo (exec i s) fun t => keepsUnits s t ∧
        (slotOf t slot).req = fld w 29 16 ∧ (slotOf t slot).arg = w.truncate 16 ∧ (slotOf t slot).bell = bell ∧
        (∀ n, n ≠ slot → slotOf t n = slotOf s n) ∧
        match walkonCheck s slot (fld w 29 16) with
        | none => (slotOf t slot).state = .pending ∧ (slotOf t slot).status = 0
        | some st => (slotOf t slot).state = .refused ∧ (slotOf t slot).status = st)
    (s.pins.standby = true → takes (.walkonGo slot w) w none) ∧
    (linkUp s = true ∧ fld db 38 32 = slot ∧ fld db 43 40 = k ∧ fld db 63 44 = 0 ∧
        (fn = 0 ∨ x.reg = none ∨ x.reg = some (fn - 1)) →
      takes (.walkonDoorbell fn db) (db.truncate 32) (some (fn, k))) ∧
    (∀ high, linkUp s = true → leadsTo (exec (.walkonDbHalfWrite fn high w) s) fun t =>
      t.board = { s.board with badWr := s.board.badWr + 1 } ∧ { t with board := s.board } = s)

/-- O30. Walk-ons in windows: an idle engine's window opens in its span, its registers and LM cleared when the engine's last
partition is not known or a registered slot is another partition's (R67); a pending Walk-on takes the window of R68, with its argument block from the slot's template
(R463), once no step of its request is in flight (R333); a set whose Walk-on has ended is cleared (R259), and a free slot's reservation is filled up with zeroed frames (R880). The
STEP_ID is a free value (notes/assumptions/24.md). -/
def Obligations.WalkonWindows : Prop :=
  (∀ (index e : Nat) (x : Entry) (s : State), index < 4096 → (runEntries s).find? (fun q => q.1 = index) = some (index, x) →
    engSlot s (eTarget x) = some e → eKind x = 1 → isQueued s index = true → s.beat.cutsDone = true →
    eEarliest x ≤ s.beat.phaseUs → s.beat.phaseUs < eDeadline x → engineIdle s e = true → s.ro.opened.contains index = false →
      leadsTo (exec (.windowOpen index) s) fun t =>
        t.ro.opened = s.ro.opened ++ [index] ∧ (∀ k, k ≠ e → engOf t k = engOf s k) ∧
        (if ∃ p, (engOf s e).serv.lastPart = some p ∧ s.board.slots.all (fun q => q.2.reg = none || q.2.reg = some p) = true then
           engOf t e = engOf s e ∧ t.time = s.time
         else ∀ a, rdS (engOf t e) (BitVec.ofNat 5 a) = 0 ∧ tabGet 0#8 (engOf t e).lm a = 0)) ∧
  (∀ (slot e p : Nat) (q : Nat × Entry) (s : State), slot < 128 → (slotOf s slot).state = .pending →
    (slotOf s slot).reg = some p → follows s = false → pickWindow s (slotOf s slot) = some q →
    engSlot s (eTarget q.2) = some e → engineIdle s e = true → s.fault.fwPoison = false →
    s.serve.groups.all (fun g => !g.plan.reqs.contains (slotOf s slot).req) = true →
      leadsTo (exec (.walkonDispatch slot) s) fun t =>
        (slotOf t slot).state = .running ∧ tabGet none t.ro.occupied q.1 = some slot ∧
        t.board.dispatched = s.board.dispatched + 1 ∧ regW t 0x10048 = regW s 0x10048 + 1 ∧
        (∀ k, k ≠ e → engOf t k = engOf s k) ∧
        (∃ c, (engOf t e).run = some c ∧ c.kind = 1 ∧ c.part = p ∧ c.slot = some slot ∧ c.index = q.1 ∧
          c.req = (slotOf s slot).req) ∧
        (let seed := match reqOf s (slotOf s slot).req with | some r => r.seed | none => 0
         tabRead 0#8 (engOf t e).lm 0 256 = walkonArgs (slotOf s slot) slot (walkonStep slot) s.beat.num seed)) ∧
  (∀ (k : Nat) (s : State), k < 4 → (tabGet WalkonSet.init s.flies.sets k).clearing = true →
    leadsTo (exec (.walkonSetFree k) s) fun t =>
      let base := 65536 * (s.flies.areas.getD 2 12 + 3 * k)
      tabGet WalkonSet.init t.flies.sets k = ⟨none, false⟩ ∧
      (∀ a, tabGet 0#8 t.flies.mem a = if base ≤ a ∧ a < base + 196608 then 0 else tabGet 0#8 s.flies.mem a) ∧
      { t with flies := s.flies } = s) ∧
  (∀ (slot p : Nat) (s : State), slot < 128 → (slotOf s slot).reg = some p → (slotOf s slot).state ≠ .running →
    journalOf s p (walkonStep slot) = none →
      let fs := freeFrames s ((slotOf s slot).pages - (slotFrames s slot).length)
      leadsTo (exec (.walkonReservationRefill slot) s) fun t =>
        slotFrames t slot = slotFrames s slot ++ fs ∧
        (∀ a, memByte t a = if a / 65536 ∈ fs then 0 else memByte s a) ∧
        (∀ f, f ∈ fs → (frameOf t f).owner = some p) ∧ (∀ f, f ∉ fs → frameOf t f = frameOf s f))

/-- O31. A ready Sampler job starts, a ready WALKON job before the others, and takes its WAIT_CNT (R429); a job whose wait CUE_WAIT_MET
has served has taken it there and starts first (R142). At its end the result words lie at OUT and DONE_CL is signalled (R436); stated
here for a job of one row whose request draws, where main memory holds no error. -/
def Obligations.SamplerJobs : Prop :=
  (∀ (k : Nat) (x : QJob) (s : State), k < 4 →
    let q := tabGet Sampler.init s.serve.samplers k
    q.phys.isSome = true → q.inReset = false → s.fault.clReset.contains k = false →
    q.queue.any (fun y => y.phase = .running) = false → s.beat.cutsDone = true → samplerTested s q = false →
    (q.queue.find? fun y => y.phase = .granted).or
      ((q.queue.find? fun y => y.job.walkon && jobReady s y).or (q.queue.find? (jobReady s))) = some x → jobReady s x = true →
      leadsTo (exec (.samplerJobStart k) s) fun t =>
        (tabGet Sampler.init t.serve.samplers k).queue = q.queue.replace x { x with phase := .running, startUs := s.time } ∧
        cueOf t x.job.waitCl = { cueOf s x.job.waitCl with
          count := (cueOf s x.job.waitCl).count - (if x.phase = .granted then 0 else x.job.waitCnt) } ∧
        (∀ i, i ≠ x.job.waitCl → cueOf t i = cueOf s i) ∧ { t with cue := s.cue, serve := s.serve } = s) ∧
  (∀ (k : Nat) (x : QJob) (r : Request) (e : DWord) (s : State), k < 4 →
    (tabGet Sampler.init s.serve.samplers k).queue.find? (fun y => y.phase = .running) = some x →
    x.job.crcOk = true → x.job.resvOk = true → x.job.nrows = 1 → cleanMem s →
    let m := samplerMem x.job 0xFFFF
    (dvRead m x.job.rowmap 8 s).fault = none → BitVec.ofNat 64 (leNat ((dvRead m x.job.rowmap 8 s).bytes)) = e →
    fld e 19 16 = 0 → reqOf s (fld e 15 0) = some r → r.part = x.job.part →
    (dvRead (samplerMem x.job (fld e 15 0)) x.job.logits (4 * x.job.vocab) s).fault = none →
    rangeFault s m true x.job.outAddr 8 = none → rangeCopies s m x.job.outAddr 8 = none →
      let bytes := (dvRead (samplerMem x.job (fld e 15 0)) x.job.logits (4 * x.job.vocab) s).bytes
      let logits := (List.range x.job.vocab).map fun i => (BitVec.ofNat 32 (leAt bytes (4 * i) 4) : Word)
      let word := resultWord (sampleRow r x.job.beatKey [] logits) ((e >>> 32).truncate 32)
      leadsTo (exec (.samplerJobComplete k) s) fun t =>
        (∀ i pa, i < 8 → walk s m.part m.stepId true (x.job.outAddr + i) = .ok pa →
          memByte t pa = (leBytes 8 word.toNat).getD i 0) ∧
        (∀ i, cueOf t i = if i = x.job.doneCl ∧ x.job.doneInc ≠ 0 then lightAfter (cueOf s i) x.job.doneInc else cueOf s i) ∧
        t.eng = s.eng)

/-- O32. A complete group commits: a commit record, its requests' lengths, emitted tokens and log grow by what the step wrote
and drew, and it leaves the groups in flight; no byte of main memory changes but those of its requests' extended logs (R331, R364 to
R366, R382, R438, R439). A request cut CARRY_LIMIT times ends with ST_CARRIED (R78), and one that has waited MAX_WAIT is promoted (R81). -/
def Obligations.StepCommitAndAging : Prop :=
  (∀ (p : Nat) (step : BitVec 16) (g : Group) (s : State), p < 8 → findGroup s p step.toNat = some g →
    runs s = true → groupComplete s g = true → g.awaiting = false → stepCancelled s g = false → needsVerdict s g = false → cleanMem s →
    let m : MemCtx := { partMem p 5 true with stepId := step.toNat, ctx := packCtx step.toNat 0xFFFF 0xFFF 0xFF p }
    let rows := (stepRows m (stepJobs s p step.toNat) s).2
    rows.2 = false → leadsTo (exec (.stepCommit p step) s) fun t =>
      t.serve.records.head? = some ⟨p, step.toNat, s.beat.num, lowestReq g.plan.reqs⟩ ∧ g ∉ t.serve.groups ∧
      regW t 0x90040 = regW s 0x90040 + 1 ∧ t.eng = s.eng ∧ t.sh = s.sh ∧ t.cue = s.cue ∧ t.flies = s.flies ∧
      (∀ a, (∀ i r, i ∈ g.plan.reqs → reqOf s i = some r → a / 65536 ∉ r.ext) → memByte t a = memByte s a) ∧
      (g.plan.reqs.Nodup → ∀ k i r, g.plan.reqs[k]? = some i → reqOf s i = some r → r.state.live = true →
        let drawn := rowsOf rows.1 i
        let ys := if drawn.2 then [] else (emission r drawn.1).1
        ∃ r', reqOf t i = some r' ∧ r'.lastBeat = s.beat.num ∧ r'.age = 0 ∧ r'.cuts = 0 ∧ r'.retry = false ∧
          r'.emitted = r.emitted + ys.length ∧ r'.logLen = r.logLen + ys.length ∧
          (ys = [] → r'.len = if r.state = .decode then r.len else r.len + g.plan.ntok.getD k 0) ∧ (ys ≠ [] → r'.len + 1 = r'.logLen))) ∧
  (∀ (i : Nat) (r : Request) (s : State), i < 8192 → reqOf s i = some r → r.state.live = true →
    (fld (regW s 0x1000C) 27 24 ≤ r.cuts → leadsTo (exec (.carryLimit i) s) fun t =>
      requestEnded i false 1 0 s t ∧ keepsUnits s t) ∧
    (r.state ≠ .paused ∧ fld (regW s 0x1000C) 23 16 ≤ r.age → leadsTo (exec (.agePromote i) s) fun t =>
      reqOf t i = some { r with promoted := true } ∧ (∀ j, j ≠ i → reqOf t j = reqOf s j) ∧
      { t with serve := { t.serve with reqs := s.serve.reqs } } = s))

/-- O33. Head-spread sets: a request whose contributions have not come in TIMEOUT_BEATS edges ends with ST_PEER_TIMEOUT, its
step's entries that have not started are voided, and ABORT goes to the other members (R378, R379); a contribution for a step
still to come is kept in rank order, and the last one of a layer completes its head outputs (R372, R373); an ABORT ends the request at
once, or at the end of its step (R380); and a member that asks is sent the kept contributions of the step that it names (R376, R377). -/
def Obligations.HeadSpread : Prop :=
  (∀ (i n : Nat) (r : Request) (x : SpreadSet) (s : State), i < 8192 → reqOf s i = some r → spreadOf s r = some x →
    r.spreadEdges = some n → r.state.live = true → timeoutBeats x.desc ≤ n → contribMissing x.desc r = true →
      leadsTo (exec (.headSpreadTimeout i) s) fun t =>
        (∃ r', reqOf t i = some r' ∧ r'.state = .failed ∧ r'.status = 4) ∧
        (∀ k, k ∈ otherRanks x.desc → OutMsg.member (rankQp x.desc k) 0x22 (memberSeq r.stepNo 0xFFFF x.desc.rank.toNat)
          (abortPlain x.desc i r.stepNo) ∈ t.out) ∧
        (∀ q, q ∈ runEntries s → isQueued s q.1 = true → eKind q.2 ≠ 4 → eKind q.2 ≠ 1 →
          (s.serve.groups.any fun g => g.status = .active && g.plan.reqs.contains i && g.plan.part = ePart q.2 &&
            g.plan.stepId.toNat = eStep q.2) = true → statusAt t q.1 = .voided)) ∧
  (∀ (m : Sealed) (p : SpreadPrefix) (r : Request) (s : State), spreadTarget s m.jobId m.plain = some (p, r) →
    (p.step = r.stepNo ∨ p.step = r.stepNo + 1 →
      (r.contribIn.any fun d => d.step = p.step && d.layer = p.layer && d.rank = p.rank) = false →
      leadsTo (exec (.collective m) s) fun t =>
        (∃ y, reqOf t p.req = some y ∧ y.contribIn = insertContrib ⟨p.step, p.layer, p.rank, m.plain.drop 16⟩ r.contribIn ∧
          { y with contribIn := r.contribIn, contribOut := r.contribOut, gathered := r.gathered } = r ∧
          (∀ x, spreadOf s r = some x → (∀ k, k < x.desc.nmod.toNat →
              ∃ c, c ∈ y.contribIn ∧ c.step = r.stepNo ∧ c.layer = p.layer ∧ c.rank = k) →
            (∀ g, g ∈ r.gathered → g.1 ≠ p.layer) → (p.layer, (y.contribIn.filter fun c => c.step = r.stepNo && c.layer = p.layer).flatMap
              Contribution.bytes) ∈ y.gathered)) ∧
        (∀ j, j ≠ p.req → reqOf t j = reqOf s j) ∧ keepsUnits s t) ∧
    leadsTo (exec (.abort m) s) fun t => keepsUnits s t ∧
      if stepRunning s p.req then reqOf t p.req = some { r with failAtEnd := some 4 }
      else requestEnded p.req false 4 0 s t) ∧
  (∀ (setId : Word) (i step rank : Nat) (r : Request) (x : SpreadSet) (s : State), reqOf s i = some r →
    spreadOf s r = some x → x.desc.setId = setId → rank < x.desc.nmod.toNat → rank ≠ x.desc.rank.toNat →
      leadsTo (exec (.resendRequest setId i step rank) s) fun t =>
        (∀ c, c ∈ r.contribOut → c.step = step →
          OutMsg.member (rankQp x.desc rank) 0x21 (memberSeq c.step c.layer c.rank) (contribPlain x.desc i c) ∈ t.out) ∧
        t.serve = s.serve ∧ keepsUnits s t)

/-- O34. SUBMIT: a descriptor that passes checks 1 to 10 of R392, with a readable prompt, is admitted at the lowest free index
with LEN 0 and its prompt in the log (R393, R394); one that fails a check is answered with that check's status and counted. The
prefix walk gives an admitted request the pages of its matched chunks, copy-on-write (R403); the identities of chunks are SHA-384
values, and whether a variant's KV is token-major is a free value (notes/assumptions/27.md), so that both are in the
conclusion. -/
def Obligations.RequestAdmission : Prop :=
  (∀ (c : Cmd) (d : ReqDesc) (s : State), accepted c 1 128 [] s → keyHeld s c.part = true →
    (∀ i, admitCheck s c.part d = none → freeIndex s = some i → readable c.part d.prompt.toNat (4 * d.promptLen.toNat) s →
      leadsTo (exec (.submit c d) s) fun t =>
        (∃ r, reqOf t i = some r ∧ r.state = .admitted ∧ r.part = c.part ∧ r.jobId = d.jobId ∧ r.len = 0 ∧
          r.variant = d.variant.toNat ∧ r.maxNew = d.maxNew.toNat ∧ r.seed = d.seed ∧ r.emitted = 0 ∧ r.cuts = 0 ∧
          r.admitBeat = s.beat.num ∧ r.logLen = d.promptLen.toNat ∧ ∀ k, k < d.promptLen.toNat → tabGet 0#32 r.log k =
            BitVec.ofNat 32 (leAt (bytesAt s c.part d.prompt.toNat (4 * d.promptLen.toNat)) (4 * k) 4)) ∧
        (∀ j, j ≠ i → reqOf t j = reqOf s j) ∧ t.eng = s.eng ∧ t.cue = s.cue ∧ t.flies = s.flies ∧
        tabGet 0#32 t.serve.cnt (4 * c.part) = tabGet 0#32 s.serve.cnt (4 * c.part) + 1 ∧
        replied c 0 0 (BitVec.ofNat 64 i) s t) ∧
    (∀ st, admitCheck s c.part d = some st → leadsTo (exec (.submit c d) s) fun t =>
      t.serve.reqs = s.serve.reqs ∧ keepsUnits s t ∧
      tabGet 0#32 t.serve.cnt (4 * c.part + 1) = tabGet 0#32 s.serve.cnt (4 * c.part + 1) + 1 ∧ replied c st 0 0 s t)) ∧
  (∀ (i : Nat) (r : Request) (s : State), i < 8192 → reqOf s i = some r → r.state = .admitted → r.walked = false →
    s.serve.walkers ≠ 0 → stepBusy s i = false → leadsTo (exec (.prefixWalk i) s) fun t =>
      let hits := matchNodes s r none (chunkIdents r (min ((r.logLen - 1) / 64) 4095))
      let pages := hits.flatMap fun e => e.2.pages
      if prefixShared s r.variant then
        (∃ r', reqOf t i = some r' ∧ r'.walked = true ∧ r'.prefixTokens = 64 * hits.length ∧ r'.len = 64 * hits.length) ∧
        (pages.length ≤ 65536 → ∀ k f, pages[k]? = some f →
          ptOf t r.part 3 (kvBase i + 65536 * k) = ptLeaf true false true true r.part f 0xFFFF) ∧
        regW t 0x9004C = regW s 0x9004C + 1 ∧ regW t 0x90050 = regW s 0x90050 + BitVec.ofNat 32 hits.length ∧ keepsUnits s t
      else t = s)

/-- O35. Commands on a request that they name (R388, R390, R395, R398, R399, R441, R442): CANCEL ends it, or marks it while its
step runs; PAUSE stops it once no step of it is planned or runs; RESUME returns it to PREFILL or DECODE; APPEND adds tokens to the
log of a paused request, and to the frames of an extended one (R382); QUERY tells its state, status, length and emitted tokens. In any other state the command is refused with
FW_WRONG_STATE and changes nothing. -/
def Obligations.RequestCommands : Prop :=
  ∀ (c : Cmd) (r : Request) (s : State), names c r s →
    let i := c.obj.toNat
    let others (t : State) : Prop := ∀ j, j ≠ i → reqOf t j = reqOf s j
    let becomes (x : Instr) (y : Request) : Prop := leadsTo (exec x s) fun t =>
      reqOf t i = some y ∧ others t ∧ keepsUnits s t ∧ replied c 0 0 0 s t
    let wrong (x : Instr) : Prop := leadsTo (exec x s) fun t =>
      t.serve = s.serve ∧ keepsUnits s t ∧ replied c 0x90 0 0 s t
    (accepted c 2 0 [] s →
      (r.state.live = true ∧ stepRunning s i = true → becomes (.cancel c) { r with cancelled := true }) ∧
      (r.state.live = true ∧ stepRunning s i = false → leadsTo (exec (.cancel c) s) fun t =>
        requestEnded i true 0x8A 0 s t ∧ keepsUnits s t) ∧
      (r.state.live = false → wrong (.cancel c))) ∧
    (accepted c 3 0 [] s →
      (r.state = .prefill ∨ r.state = .decode → becomes (.pause c)
        (if stepBusy s i then { r with pausePending := true } else { r with state := .paused, pausePending := false })) ∧
      (r.state ≠ .prefill ∧ r.state ≠ .decode → wrong (.pause c))) ∧
    (accepted c 4 0 [] s →
      (r.state = .paused → becomes (.resume c)
        { r with state := if r.emitted = 0 ∨ r.len + 1 < r.logLen then .prefill else .decode }) ∧
      (r.state ≠ .paused → wrong (.resume c))) ∧
    (accepted c 5 0 [(32, 8), (40, 4)] s →
      (∀ v, r.state = .paused → variantOf s r = some v → 1 ≤ inl c 40 4 → inl c 40 4 ≤ 8192 →
        r.logLen + inl c 40 4 + r.maxNew - r.emitted ≤ v.desc.maxCtx.toNat → readable c.part (inl c 32 8) (4 * inl c 40 4) s →
          leadsTo (exec (.append c) s) fun t => others t ∧ replied c 0 0 0 s t ∧
            t.eng = s.eng ∧ t.sh = s.sh ∧ t.cue = s.cue ∧ t.flies = s.flies ∧
            (∀ a, a / 65536 ∉ r.ext → memByte t a = memByte s a) ∧
            (r.ext.Nodup → ∀ k j f, k < inl c 40 4 → j < 4 → r.ext[(r.logLen + k) / 16384]? = some f →
              memByte t (65536 * f + 4 * (r.logLen + k) % 65536 + j) =
                (bytesAt s c.part (inl c 32 8) (4 * inl c 40 4)).getD (4 * k + j) 0) ∧
            ∃ y, reqOf t i = some y ∧ y.state = .prefill ∧ y.logLen = r.logLen + inl c 40 4 ∧ y.len = r.len ∧
              (∀ k, k < r.logLen → tabGet 0#32 y.log k = tabGet 0#32 r.log k) ∧
              ∀ k, k < inl c 40 4 → tabGet 0#32 y.log (r.logLen + k) =
                BitVec.ofNat 32 (leAt (bytesAt s c.part (inl c 32 8) (4 * inl c 40 4)) (4 * k) 4)) ∧
      (r.state ≠ .paused → wrong (.append c))) ∧
    (accepted c 6 0 [] s → leadsTo (exec (.query c) s) fun t => t.serve = s.serve ∧ keepsUnits s t ∧
      replied c 0 (reqCode r.state + 256 * (reqStatus s r).toNat)
        (BitVec.ofNat 64 (r.len % 2 ^ 32 + r.emitted % 2 ^ 32 * 2 ^ 32)) s t)

/-- O36. Program images and masks: an image that passes the checks of R123 is loaded at the next address of the firmware window
and measured (R122 to R125), one that fails is refused with the check and the instruction; an image or a mask that is not in use
is taken out at once, one in use when it falls out of use (R130, R390); a mask object is registered with its uniform tiles
summarised (R357, R358). -/
def Obligations.ImagesAndMasks : Prop :=
  (∀ (c : Cmd) (s : State), accepted c 0x10 0 [(32, 8), (40, 4)] s → keyHeld s c.part = true → inl c 32 8 % 64 = 0 →
    64 ≤ inl c 40 4 → inl c 40 4 ≤ 64 + 8 * 131064 → readable c.part (inl c 32 8) (inl c 40 4) s →
    let bs := bytesAt s c.part (inl c 32 8) (inl c 40 4)
    let k := s.serve.nextImage
    (imageCheck bs (guarOf s c.part) = none → leadsTo (exec (.progLoad c) s) fun t =>
      tabGet none t.serve.images k = some ⟨c.part, bitAt (bs.getD 6 0) 0, bitAt (bs.getD 6 0) 1, BitVec.ofNat 32 (leAt bs 12 4),
        leAt bs 16 4, leAt bs 20 4, leAt bs 24 2, imageWords bs, false⟩ ∧
      (∀ j, j ≠ k → tabGet none t.serve.images j = tabGet none s.serve.images j) ∧ t.serve.nextImage = k + 1 ∧
      t.eng = s.eng ∧ t.cue = s.cue ∧ t.flies = s.flies ∧
      replied c 0 0 (BitVec.ofNat 64 (0xF00000000000 + k * 0x100000)) s t) ∧
    (∀ n i, imageCheck bs (guarOf s c.part) = some (n, i) → leadsTo (exec (.progLoad c) s) fun t =>
      t.serve = s.serve ∧ keepsUnits s t ∧ replied c 0x0A n (BitVec.ofNat 64 i) s t)) ∧
  (∀ (c : Cmd) (k : Nat) (x : Image) (s : State), accepted c 0x11 0 [] s → imageAt s c.obj.toNat = some (k, x) →
    x.part = c.part → x.unloading = false → s.serve.owed = [] →
      (imageUsed s k = false → leadsTo (exec (.progUnload c) s) fun t =>
        tabGet none t.serve.images k = none ∧ t.serve.owed = [] ∧ t.eng = s.eng ∧ replied c 0 0 0 s t) ∧
      (imageUsed s k = true → leadsTo (exec (.progUnload c) s) fun t =>
        tabGet none t.serve.images k = some { x with unloading := true } ∧
        t.serve.owed = [(.image k, replyOf c 0 0 0 0)] ∧ t.net = s.net)) ∧
  (∀ (c : Cmd) (i : Nat) (s : State), accepted c 0x18 0 [] s → keyHeld s c.part = true → c.obj.toNat % 64 = 0 →
    c.obj.toNat < 2 ^ 47 →
    let va := c.obj.toNat
    let hb := bytesAt s c.part va 64
    let h := maskHead hb
    let tb := bytesAt s c.part (va + h.tbl) (4 * h.nqt * h.nkt)
    let bb := bytesAt s c.part (va + h.bmp) (2048 * h.nbmp)
    let tiles := maskTiles (h.nqt * h.nkt) tb
    let canon := maskCanon tiles ((List.range h.nbmp).map fun n => slice bb (2048 * n) 2048)
    va + h.tbl + 4 * h.nqt * h.nkt ≤ 2 ^ 47 → va + h.bmp + 2048 * h.nbmp ≤ 2 ^ 47 → readable c.part va 64 s → h.ok = true → readable c.part (va + h.tbl) (4 * h.nqt * h.nkt) s →
    readable c.part (va + h.bmp) (2048 * h.nbmp) s → leAt hb 60 4 = crc32c (hb.take 60 ++ tb ++ bb) →
    tiles.all (tileOk h.nbmp) = true → tabFree s.serve.masks (2 ^ 15) = some i → leadsTo (exec (.maskReg c) s) fun t =>
      tabGet none t.serve.masks i = some ⟨c.part, h.nqt, h.nkt, canon.1, canon.2, false⟩ ∧
      (∀ j, j ≠ i → tabGet none t.serve.masks j = tabGet none s.serve.masks j) ∧ t.eng = s.eng ∧ t.cue = s.cue ∧
      replied c 0 0 (BitVec.ofNat 64 (maskBase i)) s t) ∧
  (∀ (c : Cmd) (i : Nat) (x : Mask) (s : State), accepted c 0x19 0 [] s → maskAt c.obj.toNat = some i →
    tabGet none s.serve.masks i = some x → x.part = c.part → x.unloading = false → s.serve.owed = [] →
      (maskUsed s c.part = false → leadsTo (exec (.maskUnreg c) s) fun t =>
        tabGet none t.serve.masks i = none ∧ t.serve.owed = [] ∧ t.eng = s.eng ∧ replied c 0 0 0 s t) ∧
      (maskUsed s c.part = true → leadsTo (exec (.maskUnreg c) s) fun t =>
        tabGet none t.serve.masks i = some { x with unloading := true } ∧ t.serve.owed = [(.mask i, replyOf c 0 0 0 0)]))

/-- O37. WALKON_REG gives a slot a slot program of its partition, with the argument template, the Sampler job template and a
reservation of PAGES frames (R65, R328, R390, R463); the predicted time of the program is a free value, and a program too long for
the period is refused. The model's choice (notes/assumptions/95.md): an argument template whose CL_BASE and CL_COUNT break R120 is
refused with FW_BAD_ARG. WALKON_UNREG marks the slot to leave at the next edge. -/
def Obligations.WalkonRegistration : Prop :=
  (∀ (c : Cmd) (k : Nat) (x : Image) (s : State), accepted c 0x12 0 [(32, 8), (40, 8), (48, 2), (52, 4)] s →
    imageAt s c.obj.toNat = some (k, x) → x.part = c.part → x.unloading = false → x.walkon = true → x.flMin ≤ 196608 →
    let slot := inl c 48 2
    let tpl := inl c 32 8
    let job := parseJob 0 (bytesAt s c.part tpl 64)
    slot ≤ 127 → ((slotOf s slot).reg = none ∨ (slotOf s slot).reg = some c.part) → inl c 40 8 % 64 = 0 →
    (tpl ≠ 0 → readable c.part tpl 64 s ∧ job.resvOk = true ∧ job.crcOk = true) → readable c.part (inl c 40 8) 256 s →
    let args := bytesAt s c.part (inl c 40 8) 256
    framesCover (unregSlot slot s) (inl c 52 4) = true → leadsTo (exec (.walkonReg c) s) fun t =>
      if s.beat.period < 4 * (predictedUs s + 2) then t.board = s.board ∧ keepsUnits s t ∧ replied c 0x88 0 0 s t
      else if 1024 < leAt args 14 2 ∨ leAt args 14 2 < x.clMax ∨ 65536 < leAt args 12 2 + leAt args 14 2 then
        t.board = s.board ∧ keepsUnits s t ∧ replied c 0x81 0 0 s t
      else
        (slotOf t slot).reg = some c.part ∧ (slotOf t slot).image = k ∧ (slotOf t slot).pages = inl c 52 4 ∧
        (slotOf t slot).predUs = predictedUs s ∧ (slotOf t slot).argTpl = args ∧
        (slotOf t slot).samplerTpl = (if tpl = 0 then none else some job) ∧
        slotFrames t slot = freeFrames (unregSlot slot s) (inl c 52 4) ∧
        (∀ n, n ≠ slot → slotOf t n = slotOf s n) ∧ t.eng = s.eng ∧ replied c 0 0 0 s t) ∧
  (∀ (c : Cmd) (s : State), accepted c 0x13 0 [] s → c.obj.toNat ≤ 127 → (slotOf s c.obj.toNat).reg = some c.part →
    leadsTo (exec (.walkonUnreg c) s) fun t =>
      slotOf t c.obj.toNat = { slotOf s c.obj.toNat with leaving := true } ∧
      (∀ n, n ≠ c.obj.toNat → slotOf t n = slotOf s n) ∧ keepsUnits s t ∧ replied c 0 0 0 s t)

/-- O38. MEM_MAP maps zeroed frames over a range that is a whole number of pages and not mapped (R335, R390); MEM_UNMAP and
MEM_PROTECT raise the space's epoch and change its pages at once, when no epoch command is in progress, and are refused with ST_BUSY
when five wait (R337, R342); of a transfer under way only what it holds as checked, and under which epoch, changes (R338). An epoch
command completes only when no access of its space that an older epoch has checked is under way, and then releases the frames and sends
the reply (R339 to R341). -/
def Obligations.MemoryMapping : Prop :=
  (∀ (c : Cmd) (s : State), accepted c 0x20 0 [(32, 8), (40, 8), (48, 1)] s → inl c 48 1 < 4 → keyHeld s c.part = true →
    let va := inl c 32 8
    let n := inl c 40 8
    let fs := freeFrames s (n / 65536)
    rangeOk va n = true → rangeTaken s c.part va n = false → framesCover s (n / 65536) = true →
      leadsTo (exec (.memMap c) s) fun t =>
        (∀ k f, fs[k]? = some f → ptOf t c.part 3 (va + 65536 * k) =
          ptLeaf (bitAt (c.inline.getD 16 0) 0) (bitAt (c.inline.getD 16 0) 1) false false c.part f 0xFFFF) ∧
        (∀ a, memByte t a = if a / 65536 ∈ fs then 0 else memByte s a) ∧
        (∀ f, f ∈ fs → (frameOf t f).owner = some c.part ∧ (frameOf t f).count = 1) ∧
        t.eng = s.eng ∧ t.cue = s.cue ∧ t.flies = s.flies ∧ replied c 0 0 0 s t) ∧
  let held (xs ys : List Xfer) : Prop := xs.map (fun x => { x with held := [], epoch := 0 }) = ys.map fun x => { x with held := [], epoch := 0 }
  let kept (s t : State) : Prop := t.cue = s.cue ∧ t.flies = s.flies ∧ t.mem.bytes = s.mem.bytes ∧
    (∀ k, { engOf t k with xq := [] } = { engOf s k with xq := [] } ∧ held (engOf t k).xq (engOf s k).xq) ∧
    ∀ k, { shOf t k with xq := [] } = { shOf s k with xq := [] } ∧ held (shOf t k).xq (shOf s k).xq
  (∀ (c : Cmd) (s : State), accepted c 0x21 0 [(32, 8), (40, 8)] s → rangeOk (inl c 32 8) (inl c 40 8) = true →
    (s.mem.epochQ = [] → leadsTo (exec (.memUnmap c) s) fun t =>
      (∀ k, k < inl c 40 8 / 65536 → leafAt t c.part (inl c 32 8 + 65536 * k) = none) ∧
      tabGet 0#32 t.mem.epochs c.part = tabGet 0#32 s.mem.epochs c.part + 1 ∧
      t.mem.epochQ = [⟨c.part, inl c 32 8, inl c 40 8, .unmap, replyOf c 0 0 0 0⟩] ∧ kept s t ∧ t.net = s.net) ∧
    (5 ≤ s.mem.epochQ.length → leadsTo (exec (.memUnmap c) s) fun t =>
      t.mem.epochStatus = 0x0E ∧ t.mem.epochQ = s.mem.epochQ ∧ t.mem.pt = s.mem.pt ∧ replied c 0x0E 0 0 s t)) ∧
  (∀ (c : Cmd) (w : DWord) (k : Nat) (s : State), accepted c 0x22 0 [(32, 8), (40, 8), (48, 1)] s → inl c 48 1 < 4 →
    rangeOk (inl c 32 8) (inl c 40 8) = true → s.mem.epochQ = [] → tabWf 0#64 s.mem.pt = true →
    k < inl c 40 8 / 65536 → leafAt s c.part (inl c 32 8 + 65536 * k) = some w → leadsTo (exec (.memProtect c) s) fun t =>
      ptOf t c.part 3 (inl c 32 8 + 65536 * k) = setFld (setFld w 61 61 (fld (c.inline.getD 16 0) 0 0)) 60 60
        (fld (c.inline.getD 16 0) 1 1) ∧
      tabGet 0#32 t.mem.epochs c.part = tabGet 0#32 s.mem.epochs c.part + 1 ∧ kept s t ∧ t.net = s.net) ∧
  (∀ (x : EpochCmd) (s : State), x.space < 9 → s.mem.epochQ = [x] → leadsTo (exec (.epochComplete x.space) s) fun t =>
    if oldAccess s x.space then t = s else
    t.mem.epochQ = [] ∧ regW t 0x7004C = regW s 0x7004C + 1 ∧ keepsUnits s t ∧
    sent { x.reply with beat := effectBeat s } s t ∧
    (x.op = .unmap → rangeOk x.va x.len = true → tabWf 0#64 s.mem.pt = true → ∀ k w, k < x.len / 65536 →
      ptOf s x.space 3 (x.va + 65536 * k) = w → bitAt w 63 = false → ptOf t x.space 3 (x.va + 65536 * k) = 0))

/-- O39. Variants, trees, head-spread sets and fine-tuning: a valid record becomes resident at the lowest free number (R408 to
R410, R884), an unused variant leaves with its tree nodes (R407, R415), a publication waits for its Beat (R419, R420), a flush and
the queued tree updates are taken (R390, R404), sets are registered and leave (R370, R390), and training steps are queued
(R417). -/
def Obligations.VariantsTreesAndSets : Prop :=
  (∀ (c : Cmd) (r : VariantRec) (v : Nat) (s : State), accepted c 0x28 64 [] s → keyHeld s c.part = true →
    variantRecOk r = true → readable c.part r.expertTbl.toNat (32 * r.npriv.toNat) s →
    let bs := bytesAt s c.part r.expertTbl.toNat (32 * r.npriv.toNat)
    let ex := parseExperts r.npriv.toNat bs
    expertsOk r.npriv.toNat bs = true → poolBytes s + sumNat (ex.map Expert.weightBytes) ≤ fld (regW s 0x90010) 15 0 * 2 ^ 20 →
    tabFree s.serve.variants 64 = some v → leadsTo (exec (.variantLoad c r) s) fun t =>
      tabGet none t.serve.variants v = some ⟨c.part, r, ex, none, 0, [], false, false⟩ ∧
      (∀ j, j ≠ v → tabGet none t.serve.variants j = tabGet none s.serve.variants j) ∧ keepsUnits s t ∧
      replied c 0 0 (BitVec.ofNat 64 v) s t) ∧
  (∀ (c : Cmd) (v : Variant) (s : State), c.obj.toNat ≤ 63 → tabGet none s.serve.variants c.obj.toNat = some v →
    v.part = c.part → v.unloading = false →
    (accepted c 0x29 0 [] s → s.serve.owed = [] → variantUsed s c.obj.toNat = false →
      leadsTo (exec (.variantUnload c) s) fun t =>
        tabGet none t.serve.variants c.obj.toNat = none ∧ (∀ e, e ∈ treeNodes t c.part → e.2.variant ≠ c.obj.toNat) ∧
        keepsUnits s t ∧ replied c 0 0 0 s t) ∧
    (accepted c 0x2A 0 [(32, 8)] s → (effectBeat s).toNat < c.beat.toNat →
      readable c.part (inl c 32 8) (sumNat (v.experts.map Expert.weightBytes)) s →
      leadsTo (exec (.expertPublish c) s) fun t =>
        t.serve.publishes = s.serve.publishes ++ [⟨c.obj.toNat, c.beat, inl c 32 8, cmdBytes c⟩] ∧
        t.serve.variants = s.serve.variants ∧ keepsUnits s t ∧ sent (replyOf c 0 0 0 c.beat) s t) ∧
    (accepted c 0x40 0 [(32, 8), (40, 4)] s → inl c 40 4 ≠ 0 → leadsTo (exec (.trainSubmit c) s) fun t =>
      t.serve.train = s.serve.train ++ [⟨c.obj.toNat, c.part, inl c 32 8, inl c 40 4, c.route, c.tag⟩] ∧
      keepsUnits s t ∧ replied c 0 0 0 s t)) ∧
  (∀ (c : Cmd) (s : State), accepted c 0x30 0 [] s → leadsTo (exec (.treeFlush c) s) fun t =>
    t.serve.flush.contains c.part = true ∧ t.serve.nodes = s.serve.nodes ∧ keepsUnits s t ∧ replied c 0 0 0 s t) ∧
  (∀ (p : Nat) (s : State), p < 8 → leadsTo (exec (.treeUpdate p) s) fun t => keepsUnits s t ∧
    ∀ i r, reqOf s i = some r → r.part = p → r.treeDue ≠ [] → ∃ r', reqOf t i = some r' ∧ r'.treeDue = [] ∧ r'.len = r.len) ∧
  (∀ (c : Cmd) (r : SpreadRec) (s : State), accepted c 0x38 48 [] s → spreadRecOk r = true →
    tabGet none s.serve.sets r.setId.toNat = none → leadsTo (exec (.spreadReg c r) s) fun t =>
      tabGet none t.serve.sets r.setId.toNat = some ⟨c.part, r, false⟩ ∧
      (∀ j, j ≠ r.setId.toNat → tabGet none t.serve.sets j = tabGet none s.serve.sets j) ∧ keepsUnits s t ∧
      replied c 0 0 0 s t) ∧
  (∀ (c : Cmd) (x : SpreadSet) (s : State), accepted c 0x39 0 [] s → tabGet none s.serve.sets c.obj.toNat = some x →
    x.part = c.part → leadsTo (exec (.spreadUnreg c) s) fun t => keepsUnits s t ∧ replied c 0 0 0 s t ∧
      tabGet none t.serve.sets c.obj.toNat =
        if (liveWhere s fun r => r.spread = some c.obj.toNat) = [] then none else some { x with leaving := true })

/-- O40. Submission queues (R545 to R549, R553 to R556, R559, R575, R580): TAIL and HEAD take an index within the queue's depth,
and any other is a queue error that signals vector 0; EN empties the queues; a fetched entry posts a receive buffer, is refused with
an ERROR event, or is acted on; the payload of DATA is stored at its address. -/
def Obligations.SubmissionQueues : Prop :=
  ∀ (fn k : Nat) (s : State), fn ≤ 8 → k < 16 →
    let q := qpOf s fn k
    let becomes (i : Instr) (y : QPair) : Prop := leadsTo (exec i s) fun t =>
      qpOf t fn k = y ∧ (∀ f n, qpKey f n ≠ qpKey fn k → qpOf t f n = qpOf s f n) ∧ keepsUnits s t ∧ t.serve = s.serve
    (linkUp s = true → q.en = true → q.err = false → ∀ w : Word,
      let v := fld w 11 0
      (v < sqDepth s fn k → becomes (.sqTailWrite fn k w) { q with sqTail := v }) ∧
      (v < cqDepth s fn k → becomes (.cqHeadWrite fn k w) { q with cqHead := v }) ∧
      (sqDepth s fn k ≤ v → leadsTo (exec (.sqTailWrite fn k w) s) fun t =>
        qpOf t fn k = { q with err := true } ∧ signalled fn 0 s t) ∧
      (cqDepth s fn k ≤ v → leadsTo (exec (.cqHeadWrite fn k w) s) fun t =>
        qpOf t fn k = { q with err := true } ∧ signalled fn 0 s t)) ∧
    (linkUp s = true → becomes (.queuePairDisable fn k) { q with en := false }) ∧
    (linkUp s = true → q.en = false → becomes (.queuePairEnable fn k)
      { en := true, err := false, sqHead := 0, sqTail := 0, cqTail := 0, cqHead := 0, phase := true, rx := [], wait := q.wait,
        drops := q.drops, unsignalled := 0, oldestUs := 0 }) ∧
    (sqReady s fn k = true → ∀ x : SqEntry,
      let head := (q.sqHead + 1) % sqDepth s fn k
      (sqEntryOk x = true ∧ x.kind = 5 →
        becomes (.rxbuf fn k x) { q with sqHead := head, rx := q.rx ++ [(x.cid, x.length.toNat)] } ∧
        (s.beat.started = true → ∀ m,
          becomes (.sqFetch fn k x m) { q with sqHead := head, rx := q.rx ++ [(x.cid, x.length.toNat)] })) ∧
      (s.beat.started = true ∧ (sqEntryOk x = false ∨ x.kind ≠ 5) → ∀ m : Sealed,
        match sealCheck s (qpPart s fn k) (sqEntryOk x && x.kind = m.kind) x.length.toNat m with
        | some (n, st) => leadsTo (exec (.sqFetch fn k x m) s) fun t =>
            qpOf t fn k = { q with sqHead := head, wait := q.wait ++ [.error st x.cid m.jobId m.seq] } ∧
            regW t (0xB0040 + 4 * n) = regW s (0xB0040 + 4 * n) + 1 ∧ keepsUnits s t ∧ t.serve = s.serve
        | none => follows s = false → leads s = false → exec (.sqFetch fn k x m) s = .next (messageOp
            ⟨.pcie fn k x.cid, qpPart s fn k, m.jobId, m.kind.toNat, m.stream.toNat, m.seq, m.plain⟩
            (setWin m.jobId m.kind.toNat (seqTake (winOf s m.jobId m.kind.toNat) m.seq) (setQp fn k { q with sqHead := head } s))))) ∧
    (∀ (p : Nat) (plain : List Byte), p < 8 → s.beat.started = true → 8 ≤ plain.length →
      writable (partMem p 4 false) (leAt plain 0 8) (plain.length - 8) s → leadsTo (exec (.data p plain) s) fun t =>
        storedAt (partMem p 4 false) (leAt plain 0 8) (plain.drop 8) s t ∧ t.eng = s.eng ∧ t.serve = s.serve ∧ t.net = s.net)

/-- O41. Completion queues and vectors (R549 to R552, R557, R558, R565, R566): the event at the head of a wait queue leaves as
a CQ entry of its type when there is room, a reply in the buffers that it spans; dropped events are reported first; on a disabled
pair the event is dropped and counted; the coalescing time signals the pair's vector. -/
def Obligations.CompletionQueues : Prop :=
  ∀ (fn k : Nat) (s : State), fn ≤ 8 → k < 16 →
    let q := qpOf s fn k
    let tail := (q.cqTail + 1) % cqDepth s fn k
    let entry (event : Nat) (st : Status) (cid : BitVec 16) (len nbuf : Nat) (job seq : DWord) : OutMsg :=
      .cq ⟨fn, k, event, st, cid, len, nbuf, q.sqHead, job, seq, q.phase⟩
    let leaves (rest : List OutEvent) (rx : List (BitVec 16 × Nat)) (m : OutMsg) : Prop :=
      leadsTo (exec (.outboundEvent fn k) s) fun t => m ∈ t.out ∧ (qpOf t fn k).wait = rest ∧ (qpOf t fn k).rx = rx ∧
        (qpOf t fn k).cqTail = tail ∧ (qpOf t fn k).phase = (if tail = 0 then !q.phase else q.phase) ∧ keepsUnits s t
    (∀ ev rest, q.en = true → q.err = false → q.drops.all (· = 0) = true → tail ≠ q.cqHead → q.wait = ev :: rest →
      match ev with
      | .error st cid job seq => leaves rest q.rx (entry 3 st cid 0 0 job seq)
      | .walkon slot st code => leaves rest q.rx (entry 4 st (BitVec.ofNat 16 slot) 0 code 0 0)
      | .reply r cid => ∀ e n, sealEpoch s r.job r.made = some e → rxSpan 80 q.rx = some n →
          leaves rest (q.rx.drop n) (entry 1 0 cid 80 n r.job r.seq)
      | .result _ => True
      | .member _ _ _ _ => True) ∧
    (∀ a b c d, q.en = true → q.err = false → q.drops = [a, b, c, d] → a + b + c + d ≠ 0 → tail ≠ q.cqHead →
      leadsTo (exec (.outboundEvent fn k) s) fun t => (qpOf t fn k).drops = [0, 0, 0, 0] ∧
        entry 5 0x0F 0 0 0 0 (BitVec.ofNat 64 (a + b * 2 ^ 16 + c * 2 ^ 32 + d * 2 ^ 48)) ∈ t.out) ∧
    (∀ ev rest, q.en = false → q.wait = ev :: rest → leadsTo (exec (.outboundEvent fn k) s) fun t =>
      qpOf t fn k = { q with wait := rest, drops := countDrop q.drops ev.dropIdx }) ∧
    (0 < q.unsignalled → reaches s (q.oldestUs + fld (regW s (qpAddr fn k 0x14)) 31 16) →
      leadsTo (exec (.msixCoalesce fn k) s) fun t =>
      qpOf t fn k = { q with unsignalled := 0 } ∧ signalled fn (fld (regW s (qpAddr fn k 0x10)) 18 14) s t ∧ keepsUnits s t)

/-- O42. The reset of a function puts its queue pairs and queue registers at their reset values (R567, R568), and PERST_N does so
for every function (R695, R854). A Cue Light or aperture access of the host that its partition may make has its effect, and any
other one is counted and has none (R539 to R544); a read that is refused gives all ones. -/
def Obligations.FunctionResetAndBars : Prop :=
  (∀ (fn : Nat) (s : State), fn ≤ 8 → leadsTo (exec (.functionLevelReset fn) s) fun t =>
    (∀ k, k < 16 → qpOf t fn k = QPair.init) ∧ (∀ f k, f ≤ 8 → f ≠ fn → k < 16 → qpOf t f k = qpOf s f k) ∧
    (∀ a, 0xB1000 + 0x1000 * fnSlice fn ≤ a → a < 0xB1400 + 0x1000 * fnSlice fn → regW t a = tabGet 0#32 regsReset a) ∧
    keepsUnits s t ∧ t.serve = s.serve) ∧
  (∀ s : State, leadsTo (exec .perstNAssert s) fun t =>
    t.net.perst = false ∧ (∀ fn k, fn ≤ 8 → k < 16 → qpOf t fn k = QPair.init) ∧ keepsUnits s t ∧ t.serve = s.serve) ∧
  (∀ s : State, leadsTo (exec .perstNRelease s) fun t =>
    t.net.perst = true ∧ { t with net := { t.net with perst := s.net.perst } } = s) ∧
  (∀ (fn cl : Nat) (v : Word) (s : State), fn ≤ 8 → cl < 65536 → linkUp s = true →
    let lights (i : Instr) (q : CueLight) : Prop := leadsTo (exec i s) fun t =>
      (∀ i, cueOf t i = if i = cl then q else cueOf s i) ∧ t.eng = s.eng ∧ t.mem = s.mem ∧ t.serve = s.serve
    let denied (i : Instr) : Prop := leadsTo (exec i s) fun t =>
      regW t (0xB1414 + 0x1000 * fnSlice fn) = regW s (0xB1414 + 0x1000 * fnSlice fn) + 1 ∧ { t with regs := s.regs } = s
    (fn = 0 ∨ cueGranted s (fn - 1) cl = true →
      (fld v 15 0 ≠ 0 → lights (.bar2Sig fn cl v) (lightAfter (cueOf s cl) (fld v 15 0))) ∧
      lights (.bar2Set fn cl v) ⟨fld v 15 0, false⟩) ∧
    (fn ≠ 0 ∧ cueGranted s (fn - 1) cl = false → denied (.bar2Sig fn cl v) ∧ denied (.bar2Set fn cl v))) ∧
  (∀ (p off len : Nat) (bs : List Byte) (s : State), p < 8 → linkUp s = true →
    let c := partMem p 4 false
    let on : Prop := bitAt (regW s (0xB1420 + 0x1000 * p)) 0 = true
    let fault (i : Instr) (out : List OutMsg) : Prop := leadsTo (exec i s) fun t =>
      regW t (0xB1418 + 0x1000 * p) = regW s (0xB1418 + 0x1000 * p) + 1 ∧ t.mem = s.mem ∧ t.out = out ++ s.out
    (on ∧ cleanMem s ∧ rangeFault s c false off len = none → leadsTo (exec (.bar4Read p off len) s) fun t =>
      t = emit (.bytes (dvRead c off len s).bytes) s) ∧
    (on ∧ cleanMem s ∧ (rangeFault s c false off len).isSome = true →
      fault (.bar4Read p off len) [.bytes (List.replicate len 0xFF#8)]) ∧
    (¬ on → leadsTo (exec (.bar4Read p off len) s) fun t => t = emit (.bytes (List.replicate len 0xFF#8)) s) ∧
    (on ∧ writable c off bs.length s → leadsTo (exec (.bar4Write p off bs) s) fun t =>
      storedAt c off bs s t ∧ t.eng = s.eng ∧ t.serve = s.serve ∧ t.net = s.net) ∧
    (on ∧ (rangeFault s c true off bs.length).isSome = true → fault (.bar4Write p off bs) []))

/-- O43. RoCE queue pairs and ports (R569 to R573, R580 to R583): a SEND that finds no room is answered with an RNR NAK and an
unsupported operation with a NAK for a remote access error; after a NAK the pair sends again what is not acknowledged; one that fails a check is counted and dropped; a context creates a queue pair under a new number (the
number is a free value) and a number destroys it; acknowledgements, congestion notices, pauses and link changes act on their pair or
port, and the spare port takes its role over. -/
def Obligations.EthernetPorts : Prop :=
  (∀ (n : Nat) (q : Rqp) (s : State), rqpOf s n = some q →
    let becomes (i : Instr) (y : Rqp) : Prop := leadsTo (exec i s) fun t =>
      rqpOf t n = some y ∧ (∀ m, m ≠ n → rqpOf t m = rqpOf s m) ∧ keepsUnits s t ∧ t.serve = s.serve
    (roceReceives s q = true → leadsTo (exec (.roceUnsupportedOp n) s) fun t => t = emit (.accessNak n) s) ∧
    (∀ m : Sealed, s.beat.started = true → roceReceives s q = true →
      let k := m.kind.toNat
      let ok := (1 ≤ k && k ≤ 4) || k = 0x21 || k = 0x22
      let p := { q with recvPsn := q.recvPsn + BitVec.ofNat 24 (cdiv m.size 4096) }
      (128 ≤ q.wait.length → leadsTo (exec (.roceSend n m) s) fun t => t = emit (.rnrNak n) s) ∧
      (q.wait.length < 128 → ∀ i st, sealCheck s q.part (ok && m.size ≤ 2 ^ 24) m.size m = some (i, st) →
        becomes (.roceSend n m) p ∧ leadsTo (exec (.roceSend n m) s) fun t =>
          regW t (0xB0040 + 4 * i) = regW s (0xB0040 + 4 * i) + 1) ∧
      (q.wait.length < 128 → sealCheck s q.part (ok && m.size ≤ 2 ^ 24) m.size m = none → follows s = false →
        leads s = false →
        let s' := setRqp n (some p) s
        exec (.roceSend n m) s = .next (drainAll (messageOp
          ⟨.roce n, q.part, m.jobId, k, m.stream.toNat, m.seq, m.plain⟩
          (if k ≤ 4 then setWin m.jobId k (seqTake (winOf s m.jobId k) m.seq) s' else s'))))) ∧
    (leadsTo (exec (.rqpDestroy 0 n) s) fun t => n < 2 ^ 24 → rqpOf t n = none ∧ t.net.rqpStat = 0) ∧
    (∀ psn nak, psnInFlight q psn = true →
      let ack := if nak then psn else psn + 1
      let left := q.sent.filter fun m => (ack - q.ackPsn).toNat < (m.1 - q.ackPsn).toNat + cdiv m.2.size 4096
      becomes (.roceAck n psn nak) { q with ackPsn := ack, sent := left } ∧
      (nak = true → roceSends s q = true → leadsTo (exec (.roceAck n psn nak) s) fun t => ∀ m, m ∈ left → OutMsg.sealed m.2 ∈ t.out)) ∧
    becomes (.cnpReceived n) { q with rateCuts := q.rateCuts + 1 }) ∧
  (∀ s : State, s.net.rqps.length < 1024 → rqpCtxOk (rqpCtx s) = true → leadsTo (exec (.rqpCreate 0) s) fun t =>
    t.net.rqpStat = 0 ∧ ∃ n q, n < 2 ^ 24 ∧ rqpOf s n = none ∧ rqpOf t n = some q ∧ regW t 0xB0120 = setFld (regW s 0xB0120) 23 0 n ∧
      q.role = leAt (rqpCtx s) 3 1 / 8 % 4 ∧ q.part = leAt (rqpCtx s) 3 1 % 8 ∧ q.wait = [] ∧
      q.sendPsn = BitVec.ofNat 24 (leAt (rqpCtx s) 4 3) ∧ q.recvPsn = BitVec.ofNat 24 (leAt (rqpCtx s) 8 3)) ∧
  (∀ (n : Nat) (s : State), n < 5 →
    let becomes (i : Instr) (y : Port) : Prop := leadsTo (exec i s) fun t =>
      portOf t n = y ∧ (∀ m, m ≠ n → portOf t m = portOf s m) ∧ keepsUnits s t ∧ t.serve = s.serve
    (∀ pause, becomes (.priorityFlowControl n pause) { portOf s n with paused := pause }) ∧
    (∀ up failed, becomes (.portLinkChange n up failed)
      { portOf s n with link := up, failed := (portOf s n).failed || failed })) ∧
  (∀ (r : Nat) (s : State), s.net.busy = true → s.net.takeover = some r → leadsTo (exec .spareTakeoverDone s) fun t =>
    portOf t 4 = { portOf s 4 with role := some r, link := true, ptp := r = 0 } ∧ t.net.busy = false ∧
    (∀ n, n < 4 → (portOf s n).role = some r → (portOf t n).role = none) ∧
    (∀ n q, rqpOf t n = some q → q.role = r → q.stopped = false) ∧ keepsUnits s t ∧ t.serve = s.serve)

/-- O44. The Call Board and the Curtain (R453, R457, R466, R471 to R487, R850, R886): a write of any other word than a slot's
word 0 is only counted; word 0x004 latches word 0x005 for its reader; CURTAIN_N low for 100 ns closes the gates and under 50 ns does
not; a result at an open gate is sent, at a closed one held, dropped or forgotten; a held one is dropped at its 64th edge. On a module
that does not run (R631) a result is forgotten (the model's choice, notes/assumptions/113.md). -/
def Obligations.CallBoardAndCurtain : Prop :=
  (∀ (addr : Nat) (w : Word) (s : State), addr < 1024 → s.pins.standby = true → isSlotWord addr = false →
    exec (.callBoardBadWrite addr w) s = .next { s with board := { s.board with badWr := s.board.badWr + 1 } }) ∧
  (∀ (mirror : Bool) (s : State), s.pins.standby = true → leadsTo (exec (.beatLoRead mirror) s) fun t =>
    t.out = .read ((boardWord s 4).zeroExtend 64) :: s.out ∧ beatHiFor t mirror = boardWord s 5 ∧
    beatHiFor t (!mirror) = beatHiFor s (!mirror) ∧ { t with out := s.out, board := s.board } = s) ∧
  (∀ (lowNs : Nat) (s : State), leadsTo (exec (.curtainNFall lowNs) s) fun t =>
    { t with curtain := s.curtain, free := s.free } = s ∧
    (100 ≤ lowNs → gatesClosed t = true ∧ t.curtain = { s.curtain with pinLow := true }) ∧
    (lowNs < 50 → t.curtain = s.curtain) ∧ (t.curtain = s.curtain ∨ t.curtain = { s.curtain with pinLow := true })) ∧
  (∀ s : State, s.curtain.pinLow = true → leadsTo (exec .curtainNRise s) fun t => t.curtain.pinLow = false ∧ keepsUnits s t ∧
    (gatesClosed { s with curtain := { s.curtain with pinLow := false } } = true →
      t = { s with curtain := { s.curtain with pinLow := false } }) ∧
    (gatesClosed { s with curtain := { s.curtain with pinLow := false } } = false →
      ∀ r, r ∈ t.curtain.results → r.state ≠ .held)) ∧
  (∀ (id : Nat) (r : Result) (s : State), resultOf s id = some r → r.state = .queued → atGate s r = true →
    leadsTo (exec (.resultAtGate id) s) fun t => keepsUnits s t ∧ t.serve = s.serve ∧
      (runs s = false → resultOf t id = none ∧ t.board = s.board) ∧
      (runs s = true → gatesClosed s = false → resultOf t id = some { r with state := .sending } ∧ t.board = s.board) ∧
      (runs s = true → gatesClosed s = true → s.curtain.rehearsal = true → resultOf t id = none ∧ t.board = s.board) ∧
      (runs s = true → gatesClosed s = true → s.curtain.rehearsal = false → bitAt s.curtain.policy r.part = false →
        resultOf t id = none ∧ t.board.dropped = s.board.dropped + 1 ∧ t.board.ringHead = s.board.ringHead + 1) ∧
      (runs s = true → gatesClosed s = true → s.curtain.rehearsal = false → bitAt s.curtain.policy r.part = true →
        heldBytes s r.part + r.size ≤ 2 ^ 24 → t.board.dropped = s.board.dropped ∧
        resultOf t id = some { r with state := .held, heldEdges := some (r.heldEdges.getD 0) })) ∧
  (∀ (id : Nat) (r : Result) (s : State), resultOf s id = some r → r.state = .sending →
    leadsTo (exec (.resultPassed id) s) fun t => resultOf t id = none ∧ t.board.ringHead = s.board.ringHead + 1 ∧
      t.board.dropped = s.board.dropped ∧ keepsUnits s t ∧ t.serve = s.serve) ∧
  (∀ (id n : Nat) (r : Result) (s : State), resultOf s id = some r → r.state = .held → r.heldEdges = some n → 64 ≤ n →
    leadsTo (exec (.heldResultExpire id) s) fun t => resultOf t id = none ∧ t.board.ringHead = s.board.ringHead + 1 ∧
      t.board.dropped = s.board.dropped + 1 ∧ keepsUnits s t ∧ t.serve = s.serve ∧ t.net = s.net)

/-- O45. Supplies and pins (R694, R736, R737, R837, R839, R851, R852, R856, R859, R861): SLOT_ID is sampled once; PWR_EN low for
10 µs, a bulk under 40.0 V and an input over 60.0 V turn the main regulators off, which loses what the main domain held; a loss
of 12 V standby also loses the RoT's working state but not what it seals away (log entries 47 and 48: the model's choices). -/
def Obligations.SuppliesAndPins : Prop :=
  (∀ (w : BitVec 5) (s : State), s.pins.standby = true → exec (.slotIdSample w) s = .next
    (if s.pins.slotSampled then s else { s with pins := { s.pins with slotId := w, slotSampled := true } })) ∧
  (∀ s : State, s.pins.standby = false → leadsTo (exec .standbyPowerOn s) fun t =>
    t.pins.standby = true ∧ t.pins.slotSampled = false ∧ t.boot.mode = .standby ∧ t.boot.coldForced = true ∧
    keepsUnits s t ∧ t.serve = s.serve ∧ t.sec.keys = s.sec.keys) ∧
  (∀ s : State, s.pins.standby = true → leadsTo (exec .standbyLoss s) fun t =>
    t.pins.standby = false ∧ t.pins.regulators = false ∧ t.eng = [] ∧ t.mem = Mem.init ∧ t.serve = Serve.init ∧
    t.sec.jobs = [] ∧ (∀ k, k < 8 → keyHeld t k = false) ∧ t.beat.num = s.beat.rotNum ∧ t.energy.records = s.energy.records ∧
    t.fault.dark = s.fault.dark ∧ t.sec.svnMin = s.sec.svnMin ∧ t.pair.lseqTx = s.pair.lseqTx) ∧
  (∀ (lowUs : Nat) (s : State),
    (lowUs < 10 → exec (.pwrEnLow lowUs) s = .next s) ∧
    (10 ≤ lowUs → leadsTo (exec (.pwrEnLow lowUs) s) fun t => t.pins.pwrEn = false ∧ t.pins.regulators = false ∧
      (mainUp s = true → lostMain s t) ∧ (s.pins.regulators = false → t = { s with pins := { s.pins with pwrEn := false } }))) ∧
  (∀ s : State, exec .pwrEnHigh s = .next { s with pins := { s.pins with pwrEn := true } }) ∧
  (∀ s : State, leadsTo (exec .bulkUndervoltage s) fun t => t.pins.inputOk = false ∧ t.pins.bulkOk = false ∧
    t.pins.regulators = false ∧ (mainUp s = true → lostMain s t)) ∧
  (∀ (mv : Nat) (s : State),
    (46000 ≤ mv → mv ≤ 59500 → exec (.p54OutOfRange mv) s = .next s) ∧
    (mv < 46000 ∨ 59500 < mv ∧ mv ≤ 60000 →
      exec (.p54OutOfRange mv) s = .next { s with pins := { s.pins with inputOk := false } }) ∧
    (60000 < mv → leadsTo (exec (.p54OutOfRange mv) s) fun t => t.pins.inputOk = false ∧ t.pins.regulators = false ∧
      (mainUp s = true → lostMain s t))) ∧
  (∀ s : State, leadsTo (exec .inputRestored s) fun t => t.pins.inputOk = true ∧ t.pins.bulkOk = true ∧
    keepsUnits s t ∧ t.serve = s.serve ∧ t.boot = s.boot) ∧
  (∀ (rail : Nat) (s : State), 1 ≤ rail → rail ≤ 12 →
    exec (.mainRailExcursion rail) s = .next { s with pins := { s.pins with pwrGood := false } })

/-- O46. Accesses to BAR0 (R6, R9, R34, R46, R99, R245, R448, R872, R875): a plain register takes the value; a LOCK bit sets
and from then on the block's RWL fields stay; an RC counter is read and cleared; a LO word latches its HI word; the period and the
lead wait for the next The Half; a guarantee or a limit that the pool or the table does not carry is refused. -/
def Obligations.RegisterAccesses : Prop :=
  (∀ (k : Nat) (v : DWord) (s : State), k < 8 → linkUp s = true → leadsTo (exec (.registerWrite 0 (0xB0100 + 4 * k) false v) s)
    fun t => regW t (0xB0100 + 4 * k) = v.truncate 32 ∧ (∀ a, a ≠ 0xB0100 + 4 * k → regW t a = regW s a) ∧
      { t with regs := s.regs } = s) ∧
  (∀ (v : DWord) (s : State), linkUp s = true → leadsTo (exec (.registerWrite 0 0x10020 false v) s) fun t =>
    regW t 0x10020 = (if bitAt (regW s 0x10000) 31 then regW s 0x10020 else v.truncate 32) ∧
    (∀ a, a ≠ 0x10020 → regW t a = regW s a) ∧ { t with regs := s.regs } = s) ∧
  (∀ (a : Nat) (s : State), lockRegs.contains a = true → linkUp s = true → leadsTo (exec (.blockLock 0 a) s) fun t =>
    bitAt (regW t a) 31 = true ∧ (∀ i, i < 31 → bitAt (regW t a) i = bitAt (regW s a) i) ∧
    (∀ b, b ≠ a → regW t b = regW s b) ∧ { t with regs := s.regs } = s) ∧
  (∀ (k : Nat) (s : State), k < 5 → linkUp s = true → leadsTo (exec (.rcRead 0 (0x10040 + 4 * k)) s) fun t =>
    regW t (0x10040 + 4 * k) = 0 ∧ (∀ b, b ≠ 0x10040 + 4 * k → regW t b = regW s b) ∧
    t.out = .read ((readWord s 0 (0x10040 + 4 * k)).zeroExtend 64) :: s.out ∧ { t with regs := s.regs, out := s.out } = s) ∧
  (∀ s : State, linkUp s = true → leadsTo (exec (.loWordRead 0 0x10010) s) fun t =>
    t.out = .read ((s.beat.num.truncate 32 : Word).zeroExtend 64) :: s.out ∧
    readWord t 0 0x10014 = (s.beat.num >>> 32).truncate 32 ∧ keepsUnits s t ∧ t.beat = s.beat) ∧
  (∀ (v : Word) (s : State), linkUp s = true →
    (locked s 0x10004 = false → 1000 ≤ fld v 15 0 → fld v 15 0 ≤ 64000 → leadsTo (exec (.beatPeriodWrite 0 v) s) fun t =>
      regF t 0x10004 15 0 = fld v 15 0 ∧ t.beat = { s.beat with periodPend := some (fld v 15 0) } ∧ keepsUnits s t) ∧
    (locked s 0x10004 = true ∨ fld v 15 0 < 1000 ∨ 64000 < fld v 15 0 → exec (.beatPeriodWrite 0 v) s = .next s) ∧
    (locked s 0x10008 = false → 100 ≤ fld v 15 0 → fld v 15 0 ≤ 32000 → leadsTo (exec (.beatFreezeWrite 0 v) s) fun t =>
      regF t 0x10008 15 0 = fld v 15 0 ∧ t.beat = { s.beat with leadPend := some (fld v 15 0) } ∧ keepsUnits s t) ∧
    (locked s 0x20010 = false → exec (.energyBillBeatsWrite 0 v) s = .next (setReg 0x20010 v s))) ∧
  (∀ (p : Nat) (v : Word) (s : State), p < 8 → linkUp s = true → locked s (0x30200 + 0x20 * p) = false →
    4 ≤ fld v 7 0 → fld v 7 0 ≤ 100 → leadsTo (exec (.guaranteeWrite 0 p v) s) fun t =>
      let refused := guarReg s p < fld v 7 0 ∧ partEnabled s p = true ∧ guarFits s p (fld v 7 0) = false
      regF t (0x30200 + 0x20 * p) 7 0 = (if refused then regF s (0x30200 + 0x20 * p) 7 0 else fld v 7 0) ∧
      (refused → regF t (0x30208 + 0x20 * p) 0 0 = 1) ∧ { t with regs := s.regs } = s) ∧
  (∀ (p : Nat) (v : Word) (s : State), p < 8 → linkUp s = true → locked s (0x90200 + 0x40 * p) = false →
    fld v 13 0 ≤ 8192 → leadsTo (exec (.serveLimitWrite 0 (0x90200 + 0x40 * p) v) s) fun t =>
      let refused := partEnabled s p = true ∧ 8192 < limitSum s 0 13 p (fld v 13 0) ∧ regF s (0x90200 + 0x40 * p) 13 0 < fld v 13 0
      regF t (0x90200 + 0x40 * p) 13 0 = (if refused then regF s (0x90200 + 0x40 * p) 13 0 else fld v 13 0) ∧
      (refused → regF t 0x90004 31 31 = 1) ∧ { t with regs := s.regs } = s)

/-- O47. A tenant's keys (R607, R609, R611 to R616, R780): KEY_PUT_PART fills the slot of an enabled partition whose halves
differ; KEY_DROP_PART waits for its edge; a JOB_ID outside the partition is refused, an epoch must exceed the newest one, and the
previous epoch stays; KEY_DROP_JOB stops the job at once, and its key goes once its results have. -/
def Obligations.TenantKeys : Prop :=
  (∀ (m : Mgmt) (n : Nat) (key : BitVec 512) (s : State), commands m (.tenant n) s → m.target.toNat = n → n < 8 → m.src ≠ .house →
    (mainUp s = true → partEnabled s n = true → keyHeld s n = false →
      key.truncate 256 ≠ ((key >>> 256).truncate 256 : BitVec 256) → leadsTo (exec (.keyPutPart m key) s) fun t =>
      keyHeld t n = true ∧ tabGet 0 t.sec.keyVals n = key ∧
      (∀ k, k ≠ n → tabGet none t.sec.keys k = tabGet none s.sec.keys k ∧ tabGet 0 t.sec.keyVals k = tabGet 0 s.sec.keyVals k) ∧
      answered m 0 [] s t ∧ keepsUnits s t ∧ t.serve = s.serve) ∧
    (mainUp s = true → partEnabled s n = false → exec (.keyPutPart m key) s = .next (mgmtSt m 0x83 s)) ∧
    (mainUp s = true → partEnabled s n = true → keyHeld s n = true → exec (.keyPutPart m key) s = .next (mgmtSt m 0x0E s)) ∧
    (leadsTo (exec (.keyDropPart m) s) fun t => t.sec.acts = s.sec.acts ++ [⟨n, .keyDrop, false, false, m.src, m.tag⟩] ∧
      { t with sec := s.sec } = s)) ∧
  (∀ (m : Mgmt) (n : Nat) (job : DWord) (epoch : Word) (key : BitVec 256) (s : State), commands m (.tenant n) s →
    m.target.toNat = n → n < 8 → m.src ≠ .house →
    (jobIdOk n job = false → exec (.keyPutJob m job epoch key) s = .next (mgmtSt m 0x81 s) ∧
      exec (.keyDropJob m job) s = .next (mgmtSt m 0x81 s)) ∧
    (jobIdOk n job = true → ∀ k, jobKey s job = some k →
      (epoch.toNat ≤ k.newest.toNat → exec (.keyPutJob m job epoch key) s = .next (mgmtSt m 0x81 s)) ∧
      (k.newest.toNat < epoch.toNat → k.dropping = false → leadsTo (exec (.keyPutJob m job epoch key) s) fun t =>
        let kept : JobKey := { k with prev := some (k.newest, k.newestBeat), prevKey := k.key }
        jobKey t job = some { kept with newest := epoch, newestBeat := s.beat.num, key := key } ∧
        (∀ j, j ≠ job → jobKey t j = jobKey s j) ∧ answered m 0 [] s t ∧ keepsUnits s t ∧ t.serve = s.serve) ∧
      (leadsTo (exec (.keyDropJob m job) s) fun t => jobKey t job = some { k with dropping := true } ∧
        (∀ j, j ≠ job → jobKey t j = jobKey s j) ∧ answered m 0 [] s t ∧ keepsUnits s t ∧ t.serve = s.serve)) ∧
    (jobIdOk n job = true → jobKey s job = none →
      (s.sec.jobs.length < 4096 → (jobsOf s n).length < jobMax s n → leadsTo (exec (.keyPutJob m job epoch key) s) fun t =>
        jobKey t job = some ⟨n, epoch, s.beat.num, none, key, 0, false, false⟩ ∧ (∀ j, j ≠ job → jobKey t j = jobKey s j) ∧
        answered m 0 [] s t ∧ keepsUnits s t) ∧
      (4096 ≤ s.sec.jobs.length ∨ jobMax s n ≤ (jobsOf s n).length →
        exec (.keyPutJob m job epoch key) s = .next (mgmtSt m 0x0E s)))) ∧
  (∀ (job : DWord) (k : JobKey) (s : State), jobKey s job = some k → k.dropping = true → k.cut = true →
    s.curtain.results.all (fun r => r.job ≠ job) = true → leadsTo (exec (.jobKeyErase job) s) fun t =>
      jobKey t job = none ∧ (∀ j, j ≠ job → jobKey t j = jobKey s j) ∧ { t with sec := s.sec } = s) ∧
  (∀ (m : Mgmt) (n start : Nat) (s : State), commands m (.tenant n) s → m.target.toNat = n → n < 8 → m.src ≠ .house →
    exec (.keyList m start) s = .next (mgmtReply m 0 ((((jobsOf s n).drop start).take 64).flatMap fun j =>
      [j.1, j.2.newest.zeroExtend 64]) s))

/-- O48. Commands of a tenant and of the operator (R243, R245, R543, R588, R598, R603, R607, R617, R620, R622 to R624, R626 to R629,
R699): each has its effect in its own role, and is refused without any in another; PART_ENABLE opens a partition whose guarantee
fits; PART_DISABLE waits for its edge; a debug nonce serves once, and opening the port erases every key but that of slot 8. -/
def Obligations.TenantAndOperatorCommands : Prop :=
  (∀ (m : Mgmt) (n p : Nat) (b : Bool) (s : State), commands m (.tenant n) s → m.target.toNat = n → n < 8 → m.src ≠ .house →
    (leadsTo (exec (.aperture m b) s) fun t => regF t (0xB1420 + 0x1000 * n) 0 0 = b2n b ∧ answered m 0 [] s t ∧
      { quiet s t with regs := s.regs } = s) ∧
    (leadsTo (exec (.perfConsent m b) s) fun t => t.sec.consent.contains n = b ∧ answered m 0 [] s t ∧
      (∀ k, k ≠ n → t.sec.consent.contains k = s.sec.consent.contains k) ∧ { quiet s t with sec := s.sec } = s) ∧
    (∀ r, billOf s p = some r → exec (.acctGet m p) s =
      .next (mgmtReply m 0 [BitVec.ofNat 64 (r.energy.getD n 0 / 1000), BitVec.ofNat 64 (r.eus.getD n 0)] s)) ∧
    (billOf s p = none → exec (.acctGet m p) s = .next (mgmtSt m 0x81 s)) ∧
    (∀ root, exec (.partEnable m p root) s = .next (mgmtSt m 0x82 s) ∧ exec (.release m) s = .next (mgmtSt m 0x82 s))) ∧
  (∀ (m : Mgmt) (s : State), commands m .verifier s → m.src ≠ .house → activeClaim s = none → s.sec.claims.length < 4 →
    leadsTo (exec (.claim m) s) fun t => t.sec.claims = s.sec.claims ++ [(requesterHash s m, true)] ∧ answered m 0 [] s t ∧
      keepsUnits s t) ∧
  (∀ (m : Mgmt) (n slot : Nat) (b : Bool) (share : BitVec 4) (root : Digest) (k : BitVec 512) (h : BitVec 384) (s : State),
    commands m .operator s → m.src ≠ .house →
    (leadsTo (exec (.release m) s) fun t => activeClaim t = none ∧ answered m 0 [] s t ∧ keepsUnits s t) ∧
    (n < 8 → s.sec.debugOpen = false → partEnabled s n = false → guarFits s n (guarReg s n) = true →
      leadsTo (exec (.partEnable m n root) s) fun t => t.sec.enabled = s.sec.enabled ++ [n] ∧
        tabGet none t.sec.bindings n = some root ∧ tabGet 4 t.flies.guar n = guarReg s n ∧ answered m 0 [] s t ∧
        t.eng = s.eng ∧ t.mem = s.mem ∧ t.serve = s.serve) ∧
    (n < 8 → s.sec.debugOpen = false → partEnabled s n = false → guarFits s n (guarReg s n) = false →
      leadsTo (exec (.partEnable m n root) s) fun t => regF t (0x30208 + 0x20 * n) 0 0 = 1 ∧ answered m 6 [] s t ∧
        { quiet s t with regs := s.regs } = s) ∧
    (n < 8 → partEnabled s n = true → leadsTo (exec (.partDisable m n) s) fun t =>
      t.sec.acts = s.sec.acts ++ [⟨n, .disable, false, false, m.src, m.tag⟩] ∧ { t with sec := s.sec } = s) ∧
    (n < 8 → leadsTo (exec (.grant m n share b) s) fun t => regF t (0x70108 + 0x20 * n) 3 0 = share.toNat ∧
      regF t (0xA0400 + 0x20 * n) 0 0 = b2n b ∧ answered m 0 [] s t ∧ { quiet s t with regs := s.regs } = s) ∧
    (mainUp s = true → 10 ≤ slot → slot ≤ 13 → keyHeld s slot = false → leadsTo (exec (.keyPutShared m slot k) s) fun t =>
      keyHeld t slot = true ∧ (∀ j, j ≠ slot → tabGet none t.sec.keys j = tabGet none s.sec.keys j) ∧ answered m 0 [] s t ∧
      keepsUnits s t) ∧
    (leadsTo (exec (.keyPutHouse m h) s) fun t => t.sec = { s.sec with house := true, houseKey := h } ∧ answered m 0 [] s t ∧
      { quiet s t with sec := s.sec } = s) ∧
    (leadsTo (exec (.debugUnlock m none) s) fun t => ∃ v, answered m 0 [v] s t ∧ noncesOf t m = noncesOf s m ++ [v] ∧
      keepsUnits s t) ∧
    (∀ v, (noncesOf s m).contains v = true → leadsTo (exec (.debugUnlock m (some (v, true))) s) fun t =>
      t.sec.debugOpen = true ∧ t.sec.enabled = [] ∧ t.sec.house = false ∧ lostMain s t ∧ answered m 0 [] s t ∧
      (∀ j, j ≠ 8 → keyHeld t j = false))) ∧
  (∀ (m : Mgmt) (p : Nat) (r : BillRecord) (s : State), s.pins.standby = true → mgmtRole s m = some .operator →
    (m.src = .house → s.sec.bootStatus = 0) → s.sec.house = true → billOf s p = some r → leadsTo (exec (.acctResend m p) s) fun t =>
      (∀ port, port < 2 → OutMsg.house port (houseFrame s 7 (s.net.houseTx + 1) (accountBytes s r)) ∈ t.out) ∧
      answered m 0 [] s t ∧ quiet s t = s)

/-- O49. The cabinet's commands and SPDM (R86, R87, R472, R475, R478, R581, R583, R585, R587, R588, R600, R603 to R605): a cap
waits for its freeze, CURTAIN works the gates, SPARE_PORT begins a takeover, a House frame that fails its check is only counted; a
session goes through its handshake and takes the role of its root hash, and a 17th is answered with Busy (the codes of SPDM messages and
errors: PRESUMED, DSP0274, notes/assumptions/105.md). -/
def Obligations.CabinetAndSpdm : Prop :=
  (∀ (m : Mgmt) (w role : Nat) (b : Bool) (hold : Byte) (s : State), commands m .operator s →
    (200 ≤ w → w ≤ 800 → leadsTo (exec (.capSet m w) s) fun t => t.energy = { s.energy with capPend := some w } ∧
      answered m 0 [] s t ∧ { quiet s t with energy := s.energy } = s) ∧
    (w < 200 ∨ 800 < w → exec (.capSet m w) s = .next (mgmtSt m 0x81 s)) ∧
    (leadsTo (exec (.curtain m b) s) fun t => t.curtain.mgmt = b ∧ answered m 0 [] s t ∧ keepsUnits s t ∧
      (b = true → gatesClosed t = true ∧ t.curtain.results = s.curtain.results)) ∧
    (leadsTo (exec (.curtainPolicy m hold) s) fun t => t.curtain = { s.curtain with policyPend := some hold } ∧
      answered m 0 [] s t ∧ { quiet s t with curtain := s.curtain } = s) ∧
    (role < 4 → s.net.takeover = none → leadsTo (exec (.sparePort m role) s) fun t => t.net.takeover = some role ∧
      t.net.busy = true ∧ answered m 0 [] s t ∧ keepsUnits s t ∧
      ∀ q x, rqpOf t q = some x → x.role = role → x.stopped = true)) ∧
  (∀ (port : Nat) (f : HouseFrame) (s : State), port < 2 → s.pins.standby = true →
    (houseBad s f = true → leadsTo (exec (.houseFrame port f) s) fun t => regW t 0xB0054 = regW s 0xB0054 + 1 ∧
      { t with regs := s.regs } = s) ∧
    (houseBad s f = false → f.version ≠ 1 ∨ 7 < f.cls.toNat → leadsTo (exec (.houseFrame port f) s) fun t =>
      keepsUnits s t ∧ t.pair = s.pair ∧ t.regs = s.regs) ∧
    (s.sec.house = true → houseBad s f = false → leadsTo (exec (.houseFrame port f) s) fun t =>
      houseBad t f = true)) ∧
  (∀ (p : SpdmPort) (nonce : BitVec 256) (s : State), s.pins.standby = true →
    let sends (secured : Bool) (code : Nat) (payload : List Byte) (t : State) : Prop := OutMsg.spdm p secured code payload ∈ t.out
    (leadsTo (exec (.getVersion p) s) fun t => sends false 0x04 [0x12#8] t ∧ t.sec.spdmVersion = true ∧ t.sec.spdmAlgs = false ∧
      { quiet s t with sec := s.sec } = s) ∧
    (s.sec.spdmVersion = true → leadsTo (exec (.getCapabilities p) s) fun t =>
      sends false 0x61 (leBytes 4 1280 ++ leBytes 4 1280) t ∧ t.sec = { s.sec with spdmCaps := true } ∧
      { quiet s t with sec := s.sec } = s) ∧
    (s.sec.spdmCaps = true → leadsTo (exec (.negotiateAlgorithms p true) s) fun t =>
      t.sec = { s.sec with spdmAlgs := true } ∧ { quiet s t with sec := s.sec } = s) ∧
    (s.sec.spdmAlgs = true →
      let digest := leBytes 48 (Config.sha384 (certChain s)).toNat
      let signed (bs : List Byte) : List Byte := bs ++ Config.aliasSign (aliasKey s) bs
      (leadsTo (exec (.getDigests p) s) fun t => sends false 0x01 digest t ∧ quiet s t = s) ∧
      (leadsTo (exec (.getCertificate p) s) fun t => sends false 0x02 (certChain s) t ∧ quiet s t = s) ∧
      (leadsTo (exec (.challenge p nonce) s) fun t => sends false 0x03 (signed (leBytes 32 nonce.toNat ++ digest)) t ∧ quiet s t = s) ∧
      (∀ x i, 1 ≤ i → i ≤ 12 → leadsTo (exec (.getMeasurements p x i) s) fun t => quiet s t = s ∧ sends x.isSome 0x60
        (signed ([BitVec.ofNat 8 i, BitVec.ofNat 8 (measType i)] ++ leBytes 48 (tabGet 0 s.sec.meas i).toNat)) t) ∧
      (∀ i, freeSession s = some i → leadsTo (exec (.keyExchange p) s) fun t => i < 16 ∧
        (∃ y, sessionOf t i = some y ∧ y.phase = .keyExchange ∧ y.role = .verifier) ∧
        ∀ j, j ≠ i → sessionOf t j = sessionOf s j) ∧
      (freeSession s = none → leadsTo (exec (.keyExchange p) s) fun t => sends false 0x7F [3#8] t ∧ quiet s t = s))) ∧
  (∀ (i : Nat) (x : Session) (root : Digest) (s : State), s.pins.standby = true → sessionOf s i = some x →
    let goes (c : Instr) (y : Option Session) : Prop := leadsTo (exec c s) fun t => sessionOf t i = y ∧
      (∀ j, j ≠ i → sessionOf t j = sessionOf s j) ∧ keepsUnits s t ∧ t.serve = s.serve ∧ t.sec.keys = s.sec.keys
    (x.phase = .keyExchange → goes (.getEncapsulatedRequest i) (some { x with phase := .encapsulated })) ∧
    (x.phase = .encapsulated → goes (.deliverEncapsulatedResponse i true) (some { x with phase := .chain }) ∧
      goes (.deliverEncapsulatedResponse i false) none) ∧
    (x.phase = .chain → goes (.finish i true true root)
        (some { x with phase := .established, role := roleFor s root, rootHash := root, beatUs := s.time }) ∧
      ∀ a b, (a && b) = false → goes (.finish i a b root) none) ∧
    (x.phase = .established → goes (.spdmHeartbeat i) (some { x with beatUs := s.time }) ∧
      goes (.keyUpdate i) (some { x with keyGen := x.keyGen + 1 }) ∧ goes (.endSession i) none))

/-- O50. What the modules of a pair send each other (R634, R635, R637 to R642, R648, R651, R653): the heartbeat and the digest go out;
a message whose check or LSEQ fails does nothing; an order waits for The Half, or the shadow order serves, and a second late one means
RESYNC; an INPUT waits for its message, a VERDICT commits or discards a step whose order the sender froze, a Walk-on is taken, and STATE pieces are taken in. The
model's choices: an order that the planner may not publish gives the fallback (notes/assumptions/39.md), and the pieces of STATE are the
operand of the command (notes/assumptions/61.md). -/
def Obligations.PairMessages : Prop :=
  (∀ s : State, s.beat.started = true → s.sec.house = true → leadsTo (exec .heartbeatSend s) fun t =>
    let b := heartbeatBytes (ownHeartbeat s)
    let f := houseFrame s 0 (s.net.houseTx + 1) b
    t.out = .house 1 f :: .house 0 f :: nextLink s 1 0xFF b :: s.out ∧
    t.pair = { s.pair with lseqTx := s.pair.lseqTx + 1 } ∧ { quiet s t with pair := s.pair } = s) ∧
  (∀ (d : BeatDigests) (rest : List BeatDigests) (s : State), s.pair.own = d :: rest → s.sec.house = false →
    leadsTo (exec .digestSend s) fun t =>
      t.out = nextLink s 7 0xFF (digestBytes (digestBody s d)) :: s.out ∧
      t.pair = { s.pair with lseqTx := s.pair.lseqTx + 1, slackOwn := min 0xFFFF s.pair.slackEnd } ∧
      regW t 0xC0064 = regW s 0xC0064 + BitVec.ofNat 32 s.pair.lateEnd ∧ keepsUnits s t ∧ t.serve = s.serve) ∧
  (∀ (h : PairHdr) (b : HbBody) (o : Order) (job seq beat : DWord) (k st : Byte) (step req : BitVec 16) (c : Bool)
    (fs : List (Nat × Nat)) (g : DigestBody) (r : ConfigMsg) (x : StateChunk) (slot : Nat) (q : BitVec 14) (s : State),
    pairOk s h = false → slot < 128 → exec (.heartbeat true h b) s = .next s ∧ exec (.order h o) s = .next s ∧
      exec (.input h job k st seq beat) s = .next s ∧ exec (.fetch h job k seq) s = .next s ∧
      exec (.verdict h step req c beat) s = .next s ∧ exec (.bind h beat fs) s = .next s ∧ exec (.digest h g) s = .next s ∧
      exec (.config h r) s = .next s ∧ exec (.swap h beat) s = .next s ∧ exec (.state h x) s = .next s ∧
      exec (.pairWalkon h slot q req beat) s = .next s) ∧
  (∀ (h : PairHdr) (o : Order) (s : State), takesOrder s = true →
    (pairOk s h = true → s.beat.halfPassed = false → leadsTo (exec (.order h o) s) fun t =>
      t.pair = { (pairTake h s).pair with order := some o } ∧ { t with pair := s.pair } = s ∧ t.pair.partnerBeat = h.beat ∧
      ∀ x, lseqFrom t x = if x = h.sender then h.lseq else lseqFrom s x) ∧
    (pairOk s h = true → s.beat.halfPassed = true → s.ro.frozen = none → cleanMem s → o.steps = [] →
      headerOk o (nextNum s).toNat (nextPeriod s) = true → leadsTo (exec (.order h o) s) fun t =>
        t.ro.frozen = some o ∧ t.pair.ordersLate = 0 ∧ t.eng = s.eng ∧ t.cue = s.cue ∧ t.serve = s.serve ∧
        (o.entries.all (fun e => eKind e = 1 || eKind e = 4) = true → t.mem = s.mem)) ∧
    (s.beat.halfPassed = true → s.ro.frozen = none → cleanMem s → s.pair.ordersLate = 0 → o.steps = [] →
      headerOk o (nextNum s).toNat (nextPeriod s) = true →
      let u := setRegF 0xC0010 23 23 1 { s with pair := { s.pair with ordersLate := 1 } }
      leadsTo (exec (.orderDeadline o) s) fun t =>
        (if orderPlanned u o then t.ro.frozen = some o else t.ro.frozen = some (fallbackOrder u) ∧ regF t 0x1001C 3 3 = 1) ∧
        t.pair.ordersLate = 1 ∧ regF t 0xC0010 23 23 = 1 ∧ t.eng = s.eng ∧ t.serve = s.serve) ∧
    (s.beat.halfPassed = true → s.ro.frozen = none → 1 ≤ s.pair.ordersLate → leadsTo (exec (.orderDeadline o) s) fun t =>
      t.pair.reason = 4 ∧ t.pair.ordersLate = 0 ∧ keepsUnits s t ∧ t.serve = s.serve ∧
      t.pair.mode = afterStandDown (standDown 4 0 s.beat.num (setRegF 0xC0010 23 23 1 { s with pair := { s.pair with ordersLate := 0 } })))) ∧
  (∀ (h : PairHdr) (job seq beat : DWord) (k st : Byte) (s : State), pairOk s h = true →
    (follows s = true → s.pair.inputs = [] → s.pair.held = [] → leadsTo (exec (.input h job k st seq beat) s) fun t =>
      t.pair.inputs = [⟨job, k.toNat, st.toNat, seq, beat, s.beat.num, false⟩] ∧ lseqFrom t h.sender = h.lseq ∧
      { t with pair := s.pair } = s) ∧
    (leads s = true → leadsTo (exec (.fetch h job k seq) s) fun t =>
      t.out = nextLink s 3 0xFF (Config.linkBody 3 [job.toNat, k.toNat, 0xFF, seq.toNat, (effectBeat s).toNat]) :: s.out ∧
      t.pair = { (pairTake h s).pair with lseqTx := s.pair.lseqTx + 1 } ∧
      { t with pair := s.pair, out := s.out } = s)) ∧
  (∀ (h : PairHdr) (step req : BitVec 16) (commit : Bool) (beat : DWord) (s : State), pairOk s h = true →
    match verdictGroup s step req with
    | some g =>
      (g.awaiting = true → exec (.verdict h step req commit beat) s =
        .next (settle (if commit then lateDigest beat (commitGroup g beat (pairTake h s)) else cutStep g (pairTake h s)))) ∧
      (g.awaiting = false → leadsTo (exec (.verdict h step req commit beat) s) fun t =>
        t.pair.verdicts = s.pair.verdicts ++ [(step.toNat, commit, beat)] ∧ { t with pair := s.pair } = s)
    | none => leadsTo (exec (.verdict h step req commit beat) s) fun t => keepsUnits s t ∧ t.serve = s.serve ∧
        (commit = true → follows s = true → t.pair.reason = 3 ∧ regW t 0xC004C = regW s 0xC004C + 1 ∧
          t.pair.mode = afterStandDown (standDown 3 0 s.beat.num (bump 0xC004C (pairTake h s)))) ∧
        (commit = false ∨ follows s = false → t = pairTake h s)) ∧
  (∀ (h : PairHdr) (slot : Nat) (req : BitVec 14) (arg : BitVec 16) (beat : DWord) (s : State), slot < 128 → pairOk s h = true →
    leads s = true → (slotOf s slot).state ≠ .pending → (slotOf s slot).state ≠ .running → (slotOf s slot).state ≠ .planned →
    leadsTo (exec (.pairWalkon h slot req arg beat) s) fun t => keepsUnits s t ∧ (slotOf t slot).req = req.toNat ∧
      (slotOf t slot).arg = arg ∧ (slotOf t slot).state = (if (walkonCheck s slot req.toNat).isNone then .pending else .refused)) ∧
  (∀ (h : PairHdr) (s : State), pairOk s h = true → s.pair.mode = .resync →
    (∀ beat, leadsTo (exec (.state h (.cutover beat)) s) fun t => t.pair.resync = .cutover beat ∧ { t with pair := s.pair } = s) ∧
    (∀ i bs, leadsTo (exec (.state h (.request i bs)) s) fun t => reqOf t i = some (requestFrom bs) ∧
      (∀ j, j ≠ i → reqOf t j = reqOf s j) ∧ keepsUnits s t ∧ t.mem = s.mem) ∧
    (∀ space page w, space < 9 → page < 2 ^ 32 → bitAt w 63 = true →
      let k := (space * 4 + 3) * 2 ^ 32 + page
      (∀ x, leafAt s space (65536 * page) = some x → leadsTo (exec (.state h (.table [(k, w)])) s) fun t =>
        ptOf t space 3 (65536 * page) = setFld w 38 16 (leafFrame x) ∧ (∀ j, j ≠ k → tabGet 0#64 t.mem.pt j = tabGet 0#64 s.mem.pt j) ∧
        tabGet 0#32 t.mem.epochs space = tabGet 0#32 s.mem.epochs space + 1 ∧ t.mem.bytes = s.mem.bytes ∧ t.eng = s.eng) ∧
      (∀ f, leafAt s space (65536 * page) = none → tabGet none s.pair.frameMap (leafFrame w) = some f →
        leadsTo (exec (.state h (.table [(k, w)])) s) fun t => ptOf t space 3 (65536 * page) = setFld w 38 16 f ∧
          t.mem.bytes = s.mem.bytes ∧ t.eng = s.eng)) ∧
    (∀ va fr f o b, tabGet none s.pair.frameMap fr = some f → (leafAt s h.part.toNat va).isSome = true →
      leadsTo (exec (.state h (.page va fr [(o, b)])) s) fun t => memByte t (65536 * f + o % 65536) = b ∧
        (∀ a, a ≠ 65536 * f + o % 65536 → memByte t a = memByte s a) ∧ t.mem.pt = s.mem.pt ∧ t.eng = s.eng) ∧
    (leadsTo (exec (.state h .finalDelta) s) fun t => keepsUnits s t ∧
      (rehearsalNeeded s = true → joinCheck s = none → t.pair.mode = .rehearsal ∧ t.pair.resync = .off ∧ t.curtain.rehearsal = true) ∧
      (rehearsalNeeded s = true → joinCheck s ≠ none → t = pairTake h s) ∧
      (rehearsalNeeded s = false → t.pair.mode = .understudy ∧ t.pair.resync = .off ∧ t.curtain = s.curtain))) ∧
  (∀ (n : Nat) (s : State), s.pair.resync = .rounds n → s.pair.serving = true → leadsTo (exec .resyncRound s) fun t =>
    keepsUnits s t ∧ t.serve = s.serve ∧
    if s.pair.dirty.length ≤ regF s 0xC0008 7 0 then
      t.pair.resync = .cutover (effectBeat s) ∧ t.out = nextLink s 9 0xFF (Config.linkBody 9 [(effectBeat s).toNat]) :: s.out
    else t.pair.resync = .rounds (n + 1) ∧ t.pair.dirty = [] ∧ ∀ part p, part < 8 → p ∈ partFrames s part → p.2 ∈ s.pair.dirty →
      ∃ x, OutMsg.pairMsg x ∈ t.out ∧
        x.body = Config.linkBody 9 (p.1 :: p.2 :: (List.range 65536).map fun i => (memByte s (65536 * p.2 + i)).toNat))

/-- O51. The states of a pair (R631 to R633, R643 to R645, R649, R650, R652, R656 to R659, R662, R663): PAIR_JOIN from SOLO or
STOOD_DOWN enters RESYNC where every condition of R633 holds, and is refused where one does not; PAIR_SWAP for a Beat to come,
PAIR_LEAVE and PAIR_ROLL; a silent path raises PAIR_ALARM, and two end the pair; what a heartbeat, a digest and a configuration record
change, and what the comparison of the records does; a module in RESYNC or STOOD_DOWN starts no entry and no Sampler job and commits no
step. The model's choice (notes/assumptions/61.md): the partner's side of R633 has come with its CONFIG. -/
def Obligations.PairStates : Prop :=
  (∀ (m : Mgmt) (s : State), commands m .operator s →
    (s.pair.mode ≠ .solo → s.pair.mode ≠ .stoodDown → exec (.pairJoin m) s = .next (mgmtSt m 0x90 s)) ∧
    (s.pair.mode = .solo ∨ s.pair.mode = .stoodDown → ∀ c f, s.pair.partnerCfg = some c → s.pair.partnerFacts = some f →
      let keys : Prop := s.sec.house = true ∧ f.house = true ∧ ∀ k, k ∈ f.keys → keyHeld s k = true
      let agree : Prop := configAgrees (rollSet s) c (ownConfig s) = true ∧ (∀ n, n < 8 →
          (f.bindings.find? fun b => b.1 = n).map Prod.snd = if partEnabled s n then tabGet none s.sec.bindings n else none) ∧
        250 ≤ freezeLead s ∧ 250 ≤ f.lead ∧
        (regF s 0x10000 1 0 = 1 ∨ regF s 0x10000 1 0 = 2 ∧ f.ptpDomain = some (regF s 0x10024 7 0))
      (keys → agree → leadsTo (exec (.pairJoin m) s) fun t => t.pair.mode = .resync ∧ t.pair.resync = .pairing false (pairingNum s) ∧
        t.pair.drCount = 0 ∧ t.pair.tookOver = false ∧ .mgmt m.src m.tag 0 [] ∈ t.out ∧
        nextLink s 0xA 0xFF (configBytes (ownConfig s) ++ Config.linkBody 0xA (coefFields s)) ∈ t.out ∧
        keepsUnits s t ∧ t.serve = s.serve) ∧
      (¬ keys → leadsTo (exec (.pairJoin m) s) fun t =>
        t.pair = { s.pair with status := 0x0B } ∧ answered m 0x0B [] s t ∧ { quiet s t with pair := s.pair } = s) ∧
      (keys → ¬ agree → leadsTo (exec (.pairJoin m) s) fun t =>
        t.pair = { s.pair with status := 0x81 } ∧ answered m 0x81 [] s t ∧ { quiet s t with pair := s.pair } = s)) ∧
    (∀ beat : DWord, s.pair.mode = .lead → (effectBeat s).toNat < beat.toNat → leadsTo (exec (.pairSwap m beat) s) fun t =>
      t.pair.swapBeat = some beat ∧ nextLink s 0xB 0xFF (Config.linkBody 0xB [beat.toNat]) ∈ t.out ∧
      .mgmt m.src m.tag 0 [] ∈ t.out ∧ keepsUnits s t) ∧
    (∀ beat : DWord, s.pair.mode = .lead → beat.toNat ≤ (effectBeat s).toNat →
      exec (.pairSwap m beat) s = .next (mgmtSt m 0x8F s)) ∧
    (s.pair.mode = .lead ∨ follows s = true → leadsTo (exec (.pairLeave m) s) fun t =>
      t.pair.mode = .stoodDown ∧ t.pair.reason = 6 ∧ answered m 0 [] s t ∧ keepsUnits s t ∧ t.serve = s.serve) ∧
    (∀ roll, m.src ≠ .house → leadsTo (exec (.pairRoll m roll) s) fun t => regF t 0xC0000 1 1 = b2n roll ∧
      answered m 0 [] s t ∧ { quiet s t with regs := s.regs } = s)) ∧
  (∀ (link : Bool) (s : State), (if link then s.pair.linkSilent else s.pair.mgmtSilent) = false → s.fault.fwPoison = false →
    s.serve.groups.all (fun g => !g.awaiting) = true → leadsTo (exec (.pathSilent link) s) fun t =>
      t.pair.alarm = true ∧ (if link then t.pair.linkSilent else t.pair.mgmtSilent) = true ∧ keepsUnits s t ∧ t.serve = s.serve ∧
      regW t (if link then 0xC0040 else 0xC0044) = regW s (if link then 0xC0040 else 0xC0044) + 1 ∧
      let both := if link then s.pair.mgmtSilent else s.pair.linkSilent
      (both = false → t.pair.mode = s.pair.mode) ∧
      (both = true → (s.pair.mode = .lead → t.pair.mode = .solo ∧ t.pair.split = true) ∧
        (s.pair.mode = .understudy → t.pair.mode = .solo ∧ t.pair.tookOver = true ∧ t.pair.split = true))) ∧
  (∀ (h : PairHdr) (b : HbBody) (s : State), pairOk s h = true → s.serve.groups.all (fun g => !g.awaiting) = true →
    leadsTo (exec (.heartbeat true h b) s) fun t => lseqFrom t h.sender = h.lseq ∧ t.pair.partner = some b ∧ t.pair.linkSilent = false ∧ keepsUnits s t ∧ t.serve = s.serve ∧
    (follows s = true → t.pair.mode = s.pair.mode) ∧ (s.pair.mode = .lead → b.state = 5 → t.pair.mode = .solo) ∧
    (s.pair.mode = .solo → s.pair.split = true → b.state = 0 ∨ b.state = 1 → splitLoses s h b = true →
      t.pair.mode = .stoodDown ∧ t.pair.reason = 7) ∧
    (s.pair.mode = .solo → s.pair.serving = true → b.state = 2 → t.pair.mode = .lead ∧ t.pair.resync = .off)) ∧
  (∀ (h : PairHdr) (b : DigestBody) (d : BeatDigests) (s : State), pairOk s h = true →
    s.pair.partnerDigests.all (fun x => x.beat ≠ b.beat) = true → s.pair.own.find? (fun x => x.beat = b.beat) = some d →
    s.pair.selfOwn = .none → leadsTo (exec (.digest h b) s) fun t => keepsUnits s t ∧ t.serve = s.serve ∧
      (b.output = d.output → b.state = d.state → t.pair.selfOwn = .none ∧ t.curtain = s.curtain ∧
        (s.pair.mode = .rehearsal → t.pair.drCount = s.pair.drCount + 1)) ∧
      (b.output ≠ d.output ∨ b.state ≠ d.state →
        (s.pair.mode = .lead → t.pair.selfOwn = .planned ∧ t.pair.diverge = b.beat ∧ t.curtain = s.curtain ∧
          regW t 0xC0048 = regW s 0xC0048 + 1) ∧
        (s.pair.mode = .understudy → t.pair.selfOwn = .planned ∧ t.pair.diverge = b.beat ∧ gatesClosed t = true) ∧
        (s.pair.mode = .rehearsal → t.pair.mode = .stoodDown ∧ t.pair.reason = 2 ∧ t.pair.status = 9))) ∧
  (∀ (h : PairHdr) (r : ConfigMsg) (s : State), pairOk s h = true →
    leadsTo (exec (.config h r) s) fun t => t.pair.partnerCfg = some r.record ∧ t.pair.partnerFacts = r.facts.or s.pair.partnerFacts ∧
    t.pair.partnerCoef = r.coefs.getD s.pair.partnerCoef ∧ t.pair.mode = s.pair.mode ∧ { t with pair := s.pair } = s) ∧
  (∀ (c : ConfigRec) (s : State), s.pair.partnerCfg = some c → let t := checkConfig s
    t.pair.mapDiff = mapDiffers c (ownConfig s) ∧ keepsUnits s t ∧ t.serve = s.serve ∧
    (follows s = true → configAgrees (rollSet s) c (ownConfig s) = false → t.pair.mode = .stoodDown ∧ t.pair.reason = 5) ∧
    (follows s = false ∨ configAgrees (rollSet s) c (ownConfig s) = true → t.pair.mode = s.pair.mode)) ∧
  (∀ s : State, runs s = false → (∀ p step, p < 8 → exec (.stepCommit p step) s = .next s) ∧
    (∀ e, e < 36 → exec (.entryDispatch e) s = .next s) ∧ (∀ c, c < 4 → exec (.samplerJobStart c) s = .next s)) ∧
  (∀ (h : PairHdr) (beat : DWord) (s : State), pairOk s h = true → s.pair.mode = .understudy → exec (.swap h beat) s =
    .next { s with pair := { (pairTake h s).pair with swapBeat := some beat } })

/-- O52. Power and temperature (R813, R815 to R817, R820, R822, R829 to R832): a rail sample enters the sums and the last 1,000
samples, an average above 880 W steps every engine down once; a unit above its threshold steps down, a stack rises to its level; two
readings at 110 °C shut the module down, and it may start again 60 s later with a cool inlet. -/
def Obligations.PowerAndTemperature : Prop :=
  (∀ (us : Nat) (rs : List (Nat × Bool)) (s : State), ¬(0 < us ∧ (us = 10 ∨ us = s.beat.period % 10)) →
    exec (.railSample us rs) s = .next s) ∧
  (∀ (us : Nat) (rs : List (Nat × Bool)) (s : State), mainUp s = true → rs.length ≤ 14 → 0 < us → us = 10 ∨ us = s.beat.period % 10 →
    leadsTo (exec (.railSample us rs) s) fun t =>
    t.therm.recent = ((rs.getD 0 (0, true)).1 :: s.therm.recent).take 1000 ∧ t.eng = s.eng ∧ t.mem = s.mem ∧ t.serve = s.serve ∧
    (∀ r p ok, rs[r]? = some (p, ok) → tabGet 0 t.therm.railLast r = p ∧ t.therm.railsOff.contains r = !ok ∧
      tabGet 0 t.therm.beatSum r = tabGet 0 s.therm.beatSum r + p * us ∧
      regF t (0xF0300 + 4 * r) 31 16 = max (regF s (0xF0300 + 4 * r) 31 16) (min 0xFFFF p)) ∧
    (s.therm.guardOn = false → guardAbove t 880 = true → t.therm.guardOn = true ∧
      ∀ k, k < 36 → stepOf s k < 8 → stepOf t k = stepOf s k + 1) ∧
    (guardAbove t 880 = false → t.therm.guardOn = s.therm.guardOn ∧ t.therm.steps = s.therm.steps)) ∧
  (∀ s : State, s.therm.guardOn = true →
    (guardAbove s 850 = true → reaches s (s.therm.lastGuardUs + 100) → leadsTo (exec .peakGuardStep s) fun t =>
      t.therm.lastGuardUs = t.time ∧ s.therm.lastGuardUs + 100 ≤ t.time ∧
      (∀ k, k < 36 → stepOf s k < 8 → stepOf t k = stepOf s k + 1) ∧ keepsUnits s t ∧ t.serve = s.serve) ∧
    (guardAbove s 850 = false → exec .peakGuardStep s = .next s)) ∧
  (∀ (x : Sensor) (c : Int) (s : State), sensorName x = true → mainUp s = true →
    (c < 110 → leadsTo (exec (.sensorRead x c) s) fun t => tabGet 0 t.therm.sensors (sensorKey x) = c ∧ keepsUnits s t ∧
      (∀ k, x = .engine k → s.therm.excluded.contains k = false →
        stepOf t k = if unitLimit s k < c ∧ mayStepDown s k = true ∧ stepOf s k ≠ 8 then
          (if stepOf s k = 15 then 0 else stepOf s k + 1) else stepOf s k) ∧
      (∀ m, x = .phy m → s.therm.excluded.contains (70 + m) = false → 95 < c → 1 ≤ (stackOf t m).level)) ∧
    (110 ≤ c → s.therm.hot.contains (sensorKey x) = true → leadsTo (exec (.sensorRead x c) s) fun t =>
      t.therm.shutdown = true ∧ t.therm.shutAtUs = s.time ∧ t.pins.regulators = false ∧ lostMain s t)) ∧
  (∀ (a b : Int) (s : State), s.pins.standby = true → leadsTo (exec (.airSensorRead a b) s) fun t => keepsUnits s t ∧
    t.therm.inlet = a ∧ t.therm.outlet = b ∧ (45 < a → regF t 0xF0004 29 29 = 1 ∧ alertLow t = true) ∧
    (a ≤ 45 → t.regs = s.regs)) ∧
  (∀ s : State, s.therm.shutdown = true → s.pins.standby = true →
    (s.therm.inlet ≤ 45 → reaches s (s.therm.shutAtUs + 60000000) → leadsTo (exec .shutdownRestart s) fun t => t.therm.shutdown = false ∧
      s.therm.shutAtUs + 60000000 ≤ t.time ∧ keepsUnits s t ∧ t.serve = s.serve ∧ t.boot = s.boot) ∧
    (45 < s.therm.inlet → exec .shutdownRestart s = .next s))

/-- O53. Firmware update (R790 to R793, R795 to R797, R800, R802 to R806, R808, R812, R863): a container is refused with its first
failing check or copied into the inactive slot, staged once its parts verify, activated live or by a restart, confirmed or reverted;
the end of the trial window falls back; a reset of the RoT domain clears the LOCK bits and the keys. -/
def Obligations.FirmwareUpdate : Prop :=
  (∀ (x : Stick) (s : State), s.pins.standby = true → leadsTo (exec (.usbStickInsert x) s) fun t => keepsUnits s t ∧
    t.serve = s.serve ∧ t.upd.stick = true ∧
    let c := if stickRefused s then 0xFE else stickCheck s x
    t.upd.status = BitVec.ofNat 8 c ∧
    (c ≠ 0 → t.upd.slots = s.upd.slots ∧ t.upd.copying = s.upd.copying ∧ regW t 0x110040 = regW s 0x110040 + 1) ∧
    (c = 0 → t.upd.copying = true ∧ t.upd.container = x.file ∧ t.regs = s.regs ∧
      t.upd.slots = s.upd.slots.modify (otherSlot s) fun b => { b with state := .staging })) ∧
  (∀ s : State, leadsTo (exec .usbStickRemove s) fun t => t.upd.stick = false ∧ t.upd.portPower = true ∧
    t.upd.copying = false ∧ { t with upd := s.upd } = s ∧
    t.upd.slots = if s.upd.copying then s.upd.slots.modify (otherSlot s) fun _ => .init else s.upd.slots) ∧
  (∀ s : State, s.pins.standby = true → leadsTo (exec .usbOvercurrent s) fun t => t.upd.portPower = false ∧ t.upd.status = 1 ∧
    t.upd.copying = false ∧ regW t 0x110040 = regW s 0x110040 + 1 ∧ keepsUnits s t ∧ t.serve = s.serve) ∧
  (∀ (f : List Byte) (read ok : Bool) (s : State), s.upd.container = some f → s.upd.copying = true →
    let signed := read && (partEntries f).all (partSigned f)
    let whole := ok && (partEntries f).all fun p => decide (Config.sha384 (partBytes f p) = p.digest)
    (signed = false ∨ whole = false → leadsTo (exec (.containerStaged read ok) s) fun t =>
      t.upd.status = (if signed then 9 else 8) ∧ t.upd.copying = false ∧ t.upd.container = none ∧ keepsUnits s t ∧
      t.upd.slots = (s.upd.slots.modify (otherSlot s) fun _ => .init) ∧ regW t 0x110040 = regW s 0x110040 + 1) ∧
    (signed = true → whole = true → autoActivates s = false → leadsTo (exec (.containerStaged read ok) s) fun t =>
      t.upd.slots = s.upd.slots.modify (otherSlot s) (fun _ => stagedBundle s f) ∧ t.upd.status = 0 ∧ t.upd.container = none ∧
      t.upd.copying = false ∧ { t with upd := s.upd } = s)) ∧
  (∀ (m : Mgmt) (beat : DWord) (s : State), commands m .operator s →
    (stagedSlot s = none → exec (.updateActivate m beat) s = .next (mgmtSt m 0x90 s)) ∧
    (stagedSlot s ≠ none → liveBundle s = true → s.beat.started = true → beat = 0 ∨ firstAfterFreeze s ≤ beat →
      leadsTo (exec (.updateActivate m beat) s) fun t => answered m 0 [] s t ∧ { quiet s t with upd := s.upd } = s ∧
        t.upd = { s.upd with live := some ⟨if beat = 0 then firstAfterFreeze s else beat, 0, false⟩ }) ∧
    (stagedSlot s ≠ none → liveBundle s = true → s.beat.started = true → beat ≠ 0 → beat < firstAfterFreeze s →
      exec (.updateActivate m beat) s = .next (mgmtSt m 0x8F s)) ∧
    (stagedSlot s ≠ none → liveBundle s = false → s.pair.mode = .solo → s.pins.regulators = true →
      leadsTo (exec (.updateActivate m beat) s) fun t => answered m 0 [] s t ∧ t.upd.running = otherSlot s ∧
        t.upd.settings = activatedSettings s (slotBundle s (otherSlot s)) ∧ t.boot.mode = .updating ∧ lostMain s t) ∧
    (m.src ≠ .house → onTrial s = false →
      exec (.updateConfirm m) s = .next (mgmtSt m 0x90 s) ∧
      (stagedSlot s = none → exec (.updateRevert m) s = .next (mgmtSt m 0x90 s)) ∧
      (∀ k, stagedSlot s = some k → leadsTo (exec (.updateRevert m) s) fun t => answered m 0 [] s t ∧
        t.upd.slots = s.upd.slots.modify k (fun _ => .init) ∧ t.upd.live = none ∧ keepsUnits s t)) ∧
    (m.src ≠ .house → onTrial s = true →
      (leadsTo (exec (.updateConfirm m) s) fun t => answered m 0 [] s t ∧ t.upd.trialEndUs = none ∧ keepsUnits s t ∧
        t.upd.slots = s.upd.slots.modify s.upd.running (fun b => { b with state := .confirmed }) ∧
        ∀ k, tabGet 0 s.sec.svnMin k ≤ tabGet 0 t.sec.svnMin k) ∧
      (s.upd.trialLive = true → s.beat.started = true → leadsTo (exec (.updateRevert m) s) fun t => answered m 0 [] s t ∧
        t.upd.running = otherSlot s ∧ t.upd.live = some ⟨firstAfterFreeze s, 0, true⟩ ∧ keepsUnits s t))) ∧
  (∀ s : State, (onTrial s = false → exec .trialWindowExpire s = .next s) ∧
    (onTrial s = true → reaches s (s.upd.trialEndUs.getD s.time) → s.upd.trialLive = true → s.beat.started = true →
      leadsTo (exec .trialWindowExpire s) fun t => s.upd.trialEndUs.getD s.time ≤ t.time ∧
      t.upd.running = otherSlot s ∧ t.upd.live = some ⟨firstAfterFreeze s, 0, true⟩ ∧ keepsUnits s t) ∧
    (onTrial s = true → reaches s (s.upd.trialEndUs.getD s.time) → s.upd.trialLive = false → s.pair.mode = .solo →
      s.pins.regulators = true → leadsTo (exec .trialWindowExpire s) fun t => t.upd.running = otherSlot s ∧ t.upd.live = none ∧ lostMain s t)) ∧
  (∀ s : State, s.pins.standby = true → onTrial s = false → leadsTo (exec .rotWatchdog s) fun t =>
    t.sec.jobs = [] ∧ t.sec.sessions = [] ∧ t.sec.debugOpen = false ∧ (∀ k, k < 8 → keyHeld t k = false) ∧
    (∀ k, 10 ≤ k → keyHeld t k = keyHeld s k) ∧ (∀ a, lockRegs.contains a = true → regF t a 31 31 = 0) ∧
    keepsUnits s t ∧ t.serve = s.serve ∧ t.pins = s.pins)

/-- O54. The start of the main domain and in-service self-test (R596, R705, R714 to R719, R726, R730, R731, R733, R736, R739, R740,
R743, R753, R756, R781): a slot that does not verify leaves the domain unpowered, a start that fails counts as a reset, one that passes
places its units by the record; a slice takes its unit, writes its record at its end or abort, and a second failure retires the unit. -/
def Obligations.StartAndSelfTest : Prop :=
  (∀ (r : StartResults) (s : State), mayStart s = true → (bootChoice s r = none → leadsTo (exec (.startSequence r) s) fun t =>
      t.sec.bootVerified = false ∧ t.pins.regulators = false ∧ t.boot.mode = .standby ∧ t.boot.step = 3 ∧ t.beat.started = s.beat.started) ∧
    ∀ k, bootChoice s r = some k →
      let v := verified k (countRefusals r (passUs (1000 * r.durationMs) s))
      let p := startPlan v r
      (∀ byCommand, r.abandoned = some byCommand → leadsTo (exec (.startSequence r) s) fun t => lostMain v t ∧
        t.boot.coldNext = false ∧ t.fault.devWin = devWindow v ++ if byCommand then [] else [v.time]) ∧
      (r.abandoned = none → match startFails v r p with
      | some n => leadsTo (exec (.startSequence r) s) fun t => t.pins.regulators = false ∧ t.boot.failed = true ∧
          t.boot.step = n ∧ t.boot.mode = .standby ∧ t.fault.devTotal = v.fault.devTotal + 1 ∧ keepsUnits s t
      | none => leadsTo (exec (.startSequence r) s) fun t => t.pins.regulators = true ∧ t.boot.mode = .starting ∧
          t.boot.step = 17 ∧ t.boot.kind = (if p.cold then 1 else 2) ∧ t.beat.started = true ∧ t.beat.num = s.beat.rotNum ∧
          t.mem.bytes = [] ∧ (∀ e, e < 36 → (engOf t e).serv = placed (p.fit13.eng.getD e 0xFF)) ∧
          (∀ h, h < 72 → (shOf t h).serv = placed (p.fit13.sh.getD h 0xFF)) ∧ (inventory t).eng = p.fit13.eng)) ∧
  (∀ s : State, s.pins.standby = true → s.boot.failed = true → s.fault.dark = false → reaches s (s.boot.failedAtUs + 10000000) →
    leadsTo (exec .startRetry s) fun t =>
    t.boot = { s.boot with failed := false } ∧ s.boot.failedAtUs + 10000000 ≤ t.time ∧ keepsUnits s t ∧ t.serve = s.serve) ∧
  (∀ (m : Mgmt) (s : State), commands m .operator s → leadsTo (exec (.coldNext m) s) fun t =>
    t.boot = { s.boot with coldNext := true } ∧ answered m 0 [] s t ∧ { quiet s t with boot := s.boot } = s) ∧
  (∀ (f : Fitting) (c k : Nat) (s : State), f.unit = ⟨.engine, c, k⟩ → c < 4 → k < 9 → fittingOf s f.unit = some f →
    (leadsTo (exec (.spareFitDone f.unit true) s) fun t => { f with passed := true } ∈ t.boot.fitting ∧
      (inventory t).eng = (inventory s).eng.set (9 * c + k) f.role ∧ keepsUnits s t ∧ t.serve = s.serve) ∧
    (leadsTo (exec (.spareFitDone f.unit false) s) fun t => (engOf t (9 * c + k)).serv.retired = true ∧
      (engOf t (9 * c + k)).serv.role = none ∧ f ∉ t.boot.fitting ∧ t.mem = s.mem)) ∧
  (∀ (x : Slice) (c k : Nat) (s : State), x.unit = ⟨.engine, c, k⟩ → c < 4 → k < 9 → s.beat.started = true → sliceReady s x = true →
    x.planned = false ∨ (plannedEntry s x).isSome = true →
    leadsTo (exec (.bistSliceStart x) s) fun t =>
      t.bist.running = s.bist.running ++ [⟨x, s.beat.num, s.beat.phaseUs, c⟩] ∧ (engOf t (9 * c + k)).serv.selftest = true ∧
      (x.test ≠ 2 → (engOf t (9 * c + k)).s = [] ∧ (engOf t (9 * c + k)).lm = [] ∧ (engOf t (9 * c + k)).serv.lastPart = none) ∧
      (x.test = 2 → sameRegisters (engOf t (9 * c + k)) (engOf s (9 * c + k))) ∧
      (∀ e, e ≠ 9 * c + k → engOf t e = engOf s e) ∧ t.mem = s.mem) ∧
  (∀ (r : Running) (c k : Nat) (pass : Bool) (dur : Nat) (d : Word) (tr : AbortTrigger) (s : State), r.x.unit = ⟨.engine, c, k⟩ →
    c < 4 → k < 9 → runningOn s r.x.unit = some r →
    let wrote (out : Nat) (t : State) : Prop := t.bist.head = s.bist.head + 1 ∧ t.mem = s.mem ∧
      t.bist.running = (s.bist.running.filter fun y => y.x ≠ r.x) ∧ ∃ v, tabGet none t.bist.ring (s.bist.head.toNat % 256) = some v ∧
        v.unit = unitCode r.x.unit ∧ v.test = r.x.test ∧ v.slice = r.x.slice ∧ v.outcome = out
    (durationOk r.x.test dur = false → exec (.bistSliceEnd r.x.unit pass dur d) s = .next s) ∧
    (durationOk r.x.test dur = true → leadsTo (exec (.bistSliceEnd r.x.unit pass dur d) s) fun t => wrote (if pass then 0 else 1) t ∧
      (engOf t (9 * c + k)).serv.selftest = false ∧ abortsOf t r.x = 0 ∧
      (pass = true → regW t 0xE0040 = regW s 0xE0040 + 1 ∧ t.bist.recheck.any (fun q => sameSlice q.1 r.x) = false) ∧
      (pass = false → (regW t 0xE0044 = regW s 0xE0044 + 1) ∧
        if unitDoubted s r.x.unit then (engOf t (9 * c + k)).serv.retired = true
        else t.bist.recheck = (r.x, s.beat.num) :: s.bist.recheck)) ∧
    (abortDue s r tr = true → leadsTo (exec (.bistSliceAbort r.x.unit tr) s) fun t => wrote (abortCode tr) t ∧
      (engOf t (9 * c + k)).serv.selftest = false ∧ abortsOf t r.x = abortsOf s r.x + 1 ∧
      regW t 0xE0048 = regW s 0xE0048 + 1 ∧ (r.x, s.beat.num + 1) ∈ t.bist.requeue ∧
      (abortsOf s r.x = 15 → r.x.planned = true → r.x ∈ t.bist.starved ∧ regW t 0xE004C = regW s 0xE004C + 1))) ∧
  (∀ (v : Word) (r : BistRecord) (s : State), linkUp s = true → tabGet none s.bist.ring (fld v 7 0) = some r →
    leadsTo (exec (.bistResIdxWrite 0 v) s) fun t => regF t 0xE0034 7 0 = fld v 7 0 ∧
      tabRead 0#32 t.bist.window 0 8 = wordsOf (resultBytes r) 8 ∧ keepsUnits s t ∧ t.serve = s.serve)

/-- O55. Upkeep of the stacks (R300, R301, R303, R304, R306 to R308, R310 to R312, R347, R822, R829): the scrub reads a granule and
finds its error; a stack's temperature sets its level and its triggers, and 100 °C shuts the module down; a trigger waits for its
migration, which ends in a switch; a retrained pseudo-channel is a spare again, and one that fails is retired. -/
def Obligations.StackUpkeep : Prop :=
  (∀ (g : Nat) (s : State), g < 1024 * frameCount → mainUp s = true → frameIn s (g / 1024) = true → s.fault.fwPoison = false →
    let m := paStack (64 * g)
    let flips := tabGet [] s.mem.flips g
    let after (t : State) : Prop := t.hbm.scrubbed = s.hbm.scrubbed + 1 ∧ tabGet [] t.mem.flips g = [] ∧ (stackOf t m).parity = 0
    (tabGet false s.mem.poison g = false → (stackOf s m).parity ≤ 3 →
      (flips = [] → leadsTo (exec (.scrubRead g) s) fun t => after t ∧ t.regs = s.regs ∧ keepsUnits s t ∧ t.serve = s.serve) ∧
      (flips.length = 1 → leadsTo (exec (.scrubRead g) s) fun t => after t ∧ keepsUnits s t ∧ t.serve = s.serve ∧
        regW t (0x80108 + 0x80 * m) = regW s (0x80108 + 0x80 * m) + 1 ∧ t.mem.poison = s.mem.poison ∧ t.mem.corrupt = s.mem.corrupt)) ∧
    (tabGet false s.mem.poison g = true ∨ (∃ a b, flips = [a, b] ∧ a ≠ b) ∨ 3 < (stackOf s m).parity → g / 1024 < poolFrames →
      leadsTo (exec (.scrubRead g) s) fun t => after t ∧ tabGet false t.mem.poison g = true ∧ t.mem.bytes = s.mem.bytes ∧ t.eng = s.eng ∧
      regW t (0x8010C + 0x80 * paStack (64 * g)) = regW s (0x8010C + 0x80 * paStack (64 * g)) + 1)) ∧
  (∀ (m : Nat) (s : State), m < 8 → mainUp s = true → leadsTo (exec (.refresh m) s) fun t =>
    stackOf t m = { stackOf s m with refreshes := (stackOf s m).refreshes + 1 } ∧ { t with hbm := s.hbm } = s) ∧
  (∀ (m : Nat) (c : Int) (s : State), m < 8 → mainUp s = true →
    (c < 100 → leadsTo (exec (.stackTempRead m c) s) fun t => (stackOf t m).tempC = c ∧ keepsUnits s t ∧ t.serve = s.serve ∧
      levelFor 85 c ≤ (stackOf t m).level ∧ (stackOf s m).level ≤ (stackOf t m).level ∧
      ∀ pc, pc < 32 → (stackOf s m).map.any (fun e => e.2 = some pc) = true → (stackOf s m).migration = none →
        (regF s 0x80000 15 8 : Int) < c - tabGet 0 (stackOf s m).tempTrain pc → (m, pc) ∈ t.hbm.trigQ) ∧
    (100 ≤ c → leadsTo (exec (.stackTempRead m c) s) fun t => t.therm.shutdown = true ∧ t.pins.regulators = false ∧
      lostMain s t)) ∧
  (∀ (p : Nat) (ns : List Nat) (s : State), p < 5 → mainUp s = true → leadsTo (exec (.headCountRefresh p ns) s) fun t =>
    (∀ m, m < 8 → tabGet 0 (stackOf t m).headCnt p = min 63 (ns.getD m 0) ∧
      ∀ q, q ≠ p → tabGet 0 (stackOf t m).headCnt q = tabGet 0 (stackOf s m).headCnt q) ∧ { t with hbm := s.hbm } = s) ∧
  (∀ (m pc : Nat) (v : Word) (s : State), m < 8 → pc < 32 → (stackOf s m).map.any (fun e => e.2 = some pc) = true →
    (stackOf s m).migration = none →
    let asks (i : Instr) : Prop := leadsTo (exec i s) fun t => (m, pc) ∈ t.hbm.trigQ ∧ { t with hbm := s.hbm } = s
    (mainUp s = true → asks (.retrainDaysElapsed m pc)) ∧
    (linkUp s = true → bitAt v 31 = true → fld v 7 5 = m → fld v 4 0 = pc → asks (.hbmRetrainReq 0 v))) ∧
  (∀ (m pc d : Nat) (rest : List Nat) (e : Nat × Option Nat) (s : State), m < 8 → mainUp s = true → s.fault.fwPoison = false →
    nextTrigger s = some (m, pc) → (stackOf s m).map.find? (fun e => e.2 = some pc) = some e →
    ((stackOf s m).spares = d :: rest → leadsTo (exec (.migrationStart m) s) fun t =>
      stackOf t m = { stackOf s m with migration := some ⟨e.1, pc, d, s.time⟩ } ∧ t.hbm.trigQ = s.hbm.trigQ.erase (m, pc) ∧
      { t with hbm := s.hbm } = s) ∧
    ((stackOf s m).spares = [] → leadsTo (exec (.migrationStart m) s) fun t => pc ∈ (stackOf t m).retired ∧
      t.hbm.lcRetired.contains e.1 = true ∧ t.hbm.trigQ = s.hbm.trigQ.erase (m, pc) ∧ t.eng = s.eng)) ∧
  (∀ (m : Nat) (g : Migration) (s : State), m < 8 → (stackOf s m).migration = some g →
    (copiedRows s g < channelRows → exec (.migrationSwitch m) s = .next s) ∧
    (channelRows ≤ copiedRows s g → leadsTo (exec (.migrationSwitch m) s) fun t => tabGet none (stackOf t m).map g.lc = some g.dst ∧
      (stackOf t m).migration = none ∧ (stackOf t m).training = (stackOf s m).training ++ [g.src] ∧
      (stackOf t m).spares.contains g.dst = false ∧ keepsUnits s t ∧ t.serve = s.serve)) ∧
  (∀ (m pc : Nat) (s : State), m < 8 → pc < 32 → (stackOf s m).training.contains pc = true →
    (leadsTo (exec (.retrainDone m pc true) s) fun t => (stackOf t m).training.contains pc = false ∧
      (stackOf t m).spares.contains pc = true ∧ tabGet 0 (stackOf t m).tempTrain pc = (stackOf s m).tempC ∧
      regW t (0x80110 + 0x80 * m) = regW s (0x80110 + 0x80 * m) + 1 ∧ keepsUnits s t ∧ t.serve = s.serve) ∧
    (leadsTo (exec (.retrainDone m pc false) s) fun t => pc ∈ (stackOf t m).retired ∧
      (stackOf t m).training.contains pc = false ∧ (stackOf t m).spares.contains pc = false))

/-- O56. Faults and resets (R666 to R671, R678, R680, R681, R685, R686, R688, R689, R694, R696, R701, R702): the log writer takes the
oldest event and numbers it; a reset of a unit or a cluster clears it, and it returns only if it passes and has not been reset three
times in 900 s; a partition is reset at its edge; a device reset loses the main domain, and DARK_CLEAR ends the Dark state. -/
def Obligations.FaultsAndResets : Prop :=
  (∀ (v : FaultEvent) (rest : List FaultEvent) (s : State), s.pins.standby = true → s.fault.fifo = v :: rest →
    leadsTo (exec .logRecordWrite s) fun t => t.fault.fifo = rest ∧ t.fault.head = s.fault.head + 1 ∧ keepsUnits s t ∧
      t.serve = s.serve ∧ ∃ x, tabGet none t.fault.log (s.fault.head.toNat % 4096) = some x ∧ x.recordNo = s.fault.head ∧
        x.ev = { v with flags := x.ev.flags } ∧ x.lost = lostCounts s ∧ x.wallNs = wallLabel s) ∧
  (∀ (v : Word) (r : LogRecord) (s : State), linkUp s = true → tabGet none s.fault.log (fld v 11 0) = some r →
    leadsTo (exec (.faultLogIdxWrite 0 v) s) fun t => regF t 0xD0010 11 0 = fld v 11 0 ∧
      tabRead 0#32 t.fault.window 0 32 = wordsOf (logBytes r) 32 ∧ keepsUnits s t ∧ t.serve = s.serve) ∧
  (∀ (c k : Nat) (pass : Bool) (s : State), c < 4 → k < 9 →
    let u : UnitRef := ⟨.engine, c, k⟩
    let e := 9 * c + k
    (unitProbed s u = true → leadsTo (exec (.watchdogReset u) s) fun t => (engOf t e).serv.inReset = true ∧
      (engOf t e).run = none ∧ (engOf t e).s = [] ∧ (engOf t e).lm = [] ∧ regW t 0xD0050 = regW s 0xD0050 + 1 ∧
      regW t 0xD0040 = regW s 0xD0040 + 1 ∧ (∀ j, j < 36 → j ≠ e → (engOf t j).serv = (engOf s j).serv) ∧
      unitResets t u = unitResets s u + 1) ∧
    (unitInReset s u = true → unitResets s u < 3 → leadsTo (exec (.unitResetDone u true) s) fun t =>
      (engOf t e).serv = { (engOf s e).serv with inReset := false, lastPart := none } ∧
      (∀ j, j ≠ e → engOf t j = engOf s j) ∧ { t with eng := s.eng } = s) ∧
    (unitInReset s u = true → pass = false ∨ 3 ≤ unitResets s u → leadsTo (exec (.unitResetDone u pass) s) fun t =>
      (engOf t e).serv.retired = true ∧ (engOf t e).serv.role = none ∧ (engOf t e).serv.inReset = false)) ∧
  (∀ (c : Nat) (pass : Bool) (s : State), c < 4 →
    (s.beat.started = true → s.fault.clOut.contains c = false → s.fault.clReset.contains c = false →
      leadsTo (exec (.clusterSwitchUe c) s) fun t => t.fault.clReset.contains c = true ∧ t.cue = s.cue ∧
        regW t 0xD0044 = regW s 0xD0044 + 1 ∧ clusterResets t c = clusterResets s c + 1 ∧
        ∀ k, k < 9 → unitFitted s ⟨.engine, c, k⟩ = true → (engOf t (9 * c + k)).serv.inReset = true ∧
          (engOf t (9 * c + k)).run = none) ∧
    (s.fault.clReset.contains c = true → clusterResets s c < 3 → leadsTo (exec (.clusterResetDone c true) s) fun t =>
      t.fault.clReset.contains c = false ∧ (∀ k, k < 9 → (engOf t (9 * c + k)).serv.inReset = false) ∧
      (∀ k, k < 18 → (shOf t (18 * c + k)).serv.inReset = false) ∧ t.mem = s.mem ∧ t.cue = s.cue) ∧
    (s.fault.clReset.contains c = true →
      let fenced (i : Instr) : Prop := leadsTo (exec i s) fun t => t.fault.clReset.contains c = false ∧
        t.fault.clOut.contains c = true ∧ (∀ k, k < 9 → (engOf t (9 * c + k)).serv.role = none) ∧
        ∀ k, k < 18 → (shOf t (18 * c + k)).serv.role = none
      fenced (.clusterResetTimeout c) ∧ (pass = false ∨ 3 ≤ clusterResets s c → fenced (.clusterResetDone c pass)))) ∧
  (∀ s : State, s.beat.started = true →
    (2 ≤ s.boot.smPairs → leadsTo (exec .smTakeover s) fun t => t.boot.smPairs = s.boot.smPairs - 1 ∧
      regW t 0xD005C = regW s 0xD005C + 1 ∧ keepsUnits s t ∧ t.serve = s.serve) ∧
    (s.boot.smPairs < 2 → leadsTo (exec .smTakeover s) fun t => lostMain s t)) ∧
  (∀ (p : Nat) (s : State), p < 8 → s.fault.partReset.contains p = true →
    (leadsTo (exec (.partitionDrainTimeout p) s) fun t => lostMain s t) ∧
    (s.sec.acts.filter (fun a => a.part = p && a.running) = [] → exec (.partitionResetDone p) s = .next
      { s with fault := { s.fault with partReset := s.fault.partReset.filter (· ≠ p) } }) ∧
    (∀ a, s.sec.acts.filter (fun a => a.part = p && a.running) = [a] → a.act = .keyDrop →
      leadsTo (exec (.partitionResetDone p) s) fun t => t.fault.partReset.contains p = false ∧ keyHeld t p = false ∧
        (∀ k, k ≠ p → keyHeld t k = keyHeld s k) ∧ .mgmt a.src a.tag 0 [] ∈ t.out ∧ t.eng = s.eng)) ∧
  (∀ (m : Mgmt) (p : Nat) (s : State), commands m .operator s → m.src ≠ .house →
    (p < 8 → partEnabled s p = true → leadsTo (exec (.partReset m p) s) fun t =>
      answered m 0 [] (failRequests (fun r => r.part = p) 3 0xF000 s) t ∧
      t.sec.acts = s.sec.acts ++ [⟨p, .reset, false, false, m.src, m.tag⟩] ∧
      (∀ i r, reqOf t i = some r → r.part = p → r.state.live = false) ∧ t.eng = s.eng ∧ t.mem = s.mem) ∧
    (p < 8 → partEnabled s p = false → exec (.partReset m p) s = .next (mgmtSt m 0x83 s)) ∧
    (leadsTo (exec (.deviceReset m) s) fun t => lostMain s t ∧ answered m 0 [] s t ∧ t.fault.devWin = devWindow s) ∧
    exec (.darkClear m) s = .next (mgmtSt m 0x90 s)) ∧
  (∀ (m : Mgmt) (s : State), s.pins.standby = true → mgmtRole s m = some .operator → m.src ≠ .house → s.fault.dark = true →
    stagedSlot s = none → leadsTo (exec (.darkClear m) s) fun t => t.fault.dark = false ∧ t.fault.devWin = [] ∧
      t.fault.unitWin = [] ∧ t.fault.clusterWin = [] ∧ t.boot.coldForced = true ∧ answered m 0 [] s t ∧ keepsUnits s t) ∧
  (∀ (m : Mgmt) (n no addr : Nat) (x : Sample) (s : State), commands m (.tenant n) s → m.target.toNat = n → n < 8 →
    m.src ≠ .house → s.fault.samples.find? (fun y => y.no = no && y.part = n) = some x → cleanMem s →
    (generalOk s n addr (sampleSize x.unit) = true → leadsTo (exec (.sampleCopy m no addr) s) fun t =>
      storedAt (partMem n 7 true) addr (sampleStored x (sampleSize x.unit)) s t ∧ answered m 0 [] s t ∧ t.eng = s.eng ∧
      ∀ y, y ∈ t.fault.samples → y.no = no → y.copied = true) ∧
    (generalOk s n addr (sampleSize x.unit) = false → exec (.sampleCopy m no addr) s = .next (mgmtSt m 0x81 s)))

/-- O57. Video (R496 to R501, R503 to R512, R513, R514, R517, R519, R520, R522, R527 to R533): streams open and close, groups are set
and attached; an access unit is gathered, an idle engine takes the next frame, a good frame's tile is written to a free buffer;
every stream is bound for the next Beat; an encode stream takes its source frame, and its result leaves; a spare takes over. -/
def Obligations.VideoStreams : Prop :=
  (∀ (c : Cmd) (d : OpenDesc) (s : State), accepted c 0x100 64 [] s → openCheck s c.part d = none → d.stream.toNat < 48 →
    leadsTo (exec (.streamOpen c d) s) fun t => keepsUnits s t ∧ t.serve = s.serve ∧
      replied c 0 0 (BitVec.ofNat 64 d.stream.toNat) s t ∧ (streamOf t d.stream.toNat).desc = some d ∧
      (streamOf t d.stream.toNat).state = (if d.kind = 2 then .running else .waitKey) ∧
      (streamOf t d.stream.toNat).group = d.stream.toNat ∧ ∀ m, m ≠ d.stream.toNat → streamOf t m = streamOf s m) ∧
  (∀ (c : Cmd) (x : Stream) (s : State), c.obj.toNat < 48 → streamOf s c.obj.toNat = x → x.state ≠ .closed → x.part = c.part →
    let m := c.obj.toNat
    let becomes (i : Instr) (y : Stream) (v : DWord) : Prop := leadsTo (exec i s) fun t => streamOf t m = y ∧
      (∀ n, n ≠ m → streamOf t n = streamOf s n) ∧ keepsUnits s t ∧ t.serve = s.serve ∧ replied c 0 0 v s t
    (accepted c 0x101 0 [] s → x.state ≠ .draining → becomes (.streamClose c) { x with state := .draining } 0) ∧
    (accepted c 0x104 0 [] s → x.kind = 2 → becomes (.keyReq c) { x with keyReq := true } 0) ∧
    (accepted c 0x105 0 [] s → becomes (.streamQuery c) x (BitVec.ofNat 64 (streamCode x.state + 2 ^ 8 * b2n x.needKey +
      2 ^ 16 * min 255 x.staleBeats + 2 ^ 32 * (match x.good with | some f => f.frameNo % 2 ^ 32 | none => 0)))) ∧
    (accepted c 0x102 0 [(32, 28)] s → groupSetCheck s c = none → leadsTo (exec (.groupSet c) s) fun t =>
      groupRec t m = { groupRec s m with pendingSet := some (listedStreams c) } ∧ keepsUnits s t ∧ replied c 0 0 0 s t) ∧
    (∀ r, accepted c 0x103 0 [(32, 2), (34, 1)] s → inl c 34 1 = 1 → x.isDecode = true → x.group = m →
      reqOf s (inl c 32 2) = some r → r.part = c.part → leadsTo (exec (.groupAttach c) s) fun t =>
        (groupRec t m).attached = ((groupRec s m).attached.filter (· ≠ inl c 32 2)) ++ [inl c 32 2] ∧ keepsUnits s t ∧
        replied c 0 0 0 s t)) ∧
  (∀ (m : Nat) (s : State), m < 48 → drained s m = true → leadsTo (exec (.streamClosed m) s) fun t =>
    streamOf t m = Stream.init ∧ keepsUnits s t ∧ t.serve = s.serve) ∧
  (∀ (au : AccessUnit) (d : OpenDesc) (s : State), au.part < 8 → s.beat.started = true → au.stream.toNat < 48 →
    let x := streamOf s au.stream.toNat
    x.desc = some d → x.isDecode = true → x.state ≠ .draining → x.gather = 0 →
    (d.jobId = au.job → x.part = au.part → (∀ l, x.lastNo = some l → l < au.frameNo.toNat) → bitAt au.flags 0 = true →
      leadsTo (exec (.videoAu au) s) fun t => (streamOf t au.stream.toNat).gather = 0 ∧
        (streamOf t au.stream.toNat).frames = x.frames ++ [⟨au.frameNo.toNat, au.captureUs, au.bytes, s.time⟩] ∧
        (streamOf t au.stream.toNat).lastNo = some au.frameNo.toNat ∧ keepsUnits s t) ∧
    (d.jobId ≠ au.job ∨ x.part ≠ au.part ∨ (∃ l, x.lastNo = some l ∧ au.frameNo.toNat ≤ l) →
      leadsTo (exec (.videoAu au) s) fun t => regW t 0xA0048 = regW s 0xA0048 + 1 ∧ { t with regs := s.regs } = s)) ∧
  (∀ (k m : Nat) (x : Stream) (f : PendFrame) (s : State), k < 5 → nextFrame s = some (m, x, f) → vengIdle (vengOf s k) = true →
    leadsTo (exec (.frameDecodeStart k) s) fun t => (vengOf t k).stream = some m ∧ (vengOf t k).frame = some f ∧
      streamOf t m = { x with frames := x.frames.drop 1 } ∧ (∀ j, j ≠ k → vengOf t j = vengOf s j) ∧ keepsUnits s t ∧
      regW t 0xA0054 = regW s 0xA0054 + (if (vengOf s k).ctx = some m then 0 else 1)) ∧
  (∀ (k m b : Nat) (d : OpenDesc) (f : PendFrame) (r : Decoded) (s : State), k < 5 → (vengOf s k).stream = some m →
    (vengOf s k).frame = some f → (streamOf s m).isDecode = true →
    (r.good = false → s.fault.fwPoison = false → leadsTo (exec (.frameDecodeDone k r) s) fun t => (vengOf t k).stream = none ∧
      regW t 0xA0044 = regW s 0xA0044 + (if decodes (streamOf s m) r then 1 else 0) ∧
      ((streamOf s m).state = .running → (streamOf t m).state = .waitKey) ∧
      (streamOf t m).good = (streamOf s m).good ∧ keepsUnits s t) ∧
    (let va := d.tileBase.toNat + b * tilePitch d
    r.good = true → (streamOf s m).state = .running → (streamOf s m).desc = some d → (streamOf s m).freeBuf = some b →
      writable (videoMem (streamOf s m).part) va (tileBytesOf d r).length s → leadsTo (exec (.frameDecodeDone k r) s) fun t =>
        (streamOf t m).good = some ⟨f.frameNo, f.captureUs, b, s.time, r.filmGrain⟩ ∧ (vengOf t k).stream = none ∧
        storedAt (videoMem (streamOf s m).part) va (tileBytesOf d r) s t ∧ regW t 0xA0040 = regW s 0xA0040 + 1)) ∧
  (∀ (h : PairHdr) (beat : DWord) (fs : List (Nat × Nat)) (s : State), cleanMem s → (∀ g, (groupRec s g).pendingSet = none) →
    let member (m : Nat) : Prop := m < 48 ∧ (streamOf s m).isDecode = true ∧ (streamOf s m).state ≠ .draining ∧
      (streamOf s m).group < 48
    (s.video.bindDone = true → exec .bindPoint s = .next s) ∧
    (s.beat.started = true → s.video.bindDone = false → follows s = false → leadsTo (exec .bindPoint s) fun t =>
      t.eng = s.eng ∧ t.serve = s.serve ∧ t.video.bindDone = true ∧
      (s.pins.standby = true → s.beat.period ≤ t.beat.phaseUs + s.video.bindLead) ∧
      ∀ m, member m → (streamOf t m).boundNext = (streamOf s m).good) ∧
    (pairOk s h = true → follows s = true → leadsTo (exec (.bind h beat fs) s) fun t => t.eng = s.eng ∧ t.serve = s.serve ∧
      ∀ m no f, member m → fs.find? (fun q => q.1 = m) = some (m, no) → heldFrame (streamOf s m) no = some f →
        (streamOf t m).boundNext = some f)) ∧
  (∀ (g k : Nat) (d : OpenDesc) (s : State), g < 48 → (groupRec s g).unready = some k → (streamOf s g).desc = some d →
    leadsTo (exec (.bindReady g) s) fun t => cueOf t (d.readyCl.toNat + k) = ⟨1, false⟩ ∧ (groupRec t g).unready = none ∧
      (∀ i, i ≠ d.readyCl.toNat + k → cueOf t i = cueOf s i) ∧ t.eng = s.eng ∧ t.mem = s.mem) ∧
  (∀ (k m : Nat) (d : OpenDesc) (s : State), k < 5 → m < 48 →
    let x := streamOf s m
    x.desc = some d → x.kind = 2 →
    (vengIdle (vengOf s k) = true → (List.range 5).all (fun j => (vengOf s j).stream ≠ some m) = true →
      (x.redo = false → x.state = .running → 1 ≤ (cueOf s d.readyCl.toNat).count → d.readyCl ≠ d.recCl → cleanMem s →
        leadsTo (exec (.encodeFrameStart k m) s) fun t =>
          let source := dvRead (videoMem x.part) (d.tileBase.toNat + x.source % d.nbuf.toNat * sourceBytes d) (sourceBytes d) s
          (vengOf t k).stream = some m ∧ (streamOf t m).source = x.source + 1 ∧ (streamOf t m).keyReq = false ∧
          (streamOf t m).pictures = x.pictures ++ [(source.bytes, keyFrame x d)] ∧ (streamOf t m).ctuRow = 0 ∧
          (cueOf t d.readyCl.toNat).count = (cueOf s d.readyCl.toNat).count - 1 ∧
          cueOf t d.recCl.toNat = lightAfter (cueOf s d.recCl.toNat) 1 ∧ t.eng = s.eng ∧ t.mem = s.mem) ∧
      (x.redo = true → leadsTo (exec (.encodeFrameStart k m) s) fun t =>
        (vengOf t k).stream = some m ∧ streamOf t m = { x with redo := false, ctuRow := 0 } ∧ keepsUnits s t)) ∧
    ((vengOf s k).stream = some m →
      let row := (encoderGives d x).2
      leadsTo (exec (.encodeResult k (encoderGives d x).1 (decide (ctuRows d ≤ row))) s) fun t =>
      keepsUnits s t ∧ (streamOf t m).ctuRow = row ∧
      (x.skip = 0 → (streamOf t m).outSeq = x.outSeq + 1 ∧ t.curtain.nextId = s.curtain.nextId + 1) ∧
      (0 < x.skip → streamOf t m = { x with ctuRow := row, skip := x.skip - 1 } ∧ t.curtain = s.curtain) ∧
      (vengOf t k).stream = if ctuRows d ≤ row then none else some m)) ∧
  (∀ (k : Nat) (s : State), k < 5 → (vengOf s k).failed = false → (vengOf s k).inService = true →
    leadsTo (exec (.videoEngineFail k) s) fun t => (vengOf t k).failed = true ∧ (vengOf t k).inService = false ∧
      (vengOf t k).stream = none ∧ keepsUnits s t ∧
      (∀ j, (inventory s).video.getD k 0xFF < 0xFE → spareVideo s = some j → j ≠ k → (vengOf t j).inService = true) ∧
      ∀ m f, (vengOf s k).stream = some m → (vengOf s k).frame = some f →
        ((streamOf s m).kind ≠ 2 → (streamOf t m).frames = f :: (streamOf s m).frames) ∧
        ((streamOf s m).kind = 2 → streamOf t m = { streamOf s m with redo := true, skip := (streamOf s m).slices }))

/-- O58. The Beat (R34, R35, R37 to R40, R42, R45, R47, R48, R54, R73, R83, R84, R88, R96 to R102, R104, R151, R242, R252, R451, R778,
R847): The Half freezes the published order or the fallback; the edge begins the next Beat and latches the Call Board; the cuts end and
the clears follow; a ledger closes once; the sources lock and are lost. The model's choices: an idle step passes one microsecond, in which
a bit of the memories may flip (notes/assumptions/1.md, 93.md), and the offset of PTP is half of the two differences (notes/assumptions/58.md). -/
def Obligations.BeatAndOrders : Prop :=
  (∀ s : State, s.pending = [] →
    (s.beat.started = true → endPhase s ≤ s.beat.phaseUs → step s = exec .beatEdge s) ∧
    (s.pins.standby = true → s.beat.started = false ∨ s.beat.phaseUs < endPhase s ∧ s.beat.phaseUs ≤ s.beat.period →
      leadsTo (step s) fun t => t.time = s.time + 1 ∧ t.beat = { s.beat with phaseUs := s.beat.phaseUs + 1 } ∧
        t.mem.bytes = s.mem.bytes ∧ t.flies.mem = s.flies.mem ∧ (mainUp s = false → { t with time := s.time, beat := s.beat } = s) ∧
        { t with time := s.time, beat := s.beat, mem := s.mem, flies := s.flies, hbm := s.hbm, free := s.free } = s)) ∧
  (∀ (o : Order) (s : State), s.beat.started = true → freezesOwn s = true → exec (.publishRunningOrder o) s = .next
    (if orderPlanned s o && orderBuilt s o && sameOutput s o
      then settlePauses { s with ro := { s.ro with published := some o, planned := some (planInput s, o) } } else s)) ∧
  (∀ (o : Order) (s : State), s.beat.started = true → s.beat.halfPassed = false → freezesOwn s = true → s.pair.resync = .off →
    cleanMem s → leadsTo (exec .theHalf s) fun t => t.beat.halfPassed = true ∧ t.eng = s.eng ∧
      t.beat.periodNext = s.beat.periodPend ∧ t.beat.periodPend = none ∧ t.ro.published = none ∧
      (s.ro.published = none → t.ro.nextFallback = true ∧ t.ro.frozen.isSome = true ∧ regF t 0x1001C 3 3 = 1) ∧
      (s.ro.published = some o →
        if orderPlanned (halfReady s) o && headerOk o (s.beat.num + 1).toNat (nextPeriod s) then
          t.ro.frozen = some o ∧ t.ro.nextFallback = false
        else t.ro.frozen = some (fallbackOrder (halfReady s)) ∧ t.ro.nextFallback = true ∧ regF t 0x1001C 3 3 = 1)) ∧
  (∀ s : State, s.beat.started = true → s.beat.cutsDone = true → s.beat.clearsDone = true → s.energy.closed = true →
    s.beat.halfPassed = true → s.video.bindDone = true → s.pair.resync = .off → leadsTo (exec .beatEdge s) fun t =>
      t.beat.num = s.beat.num + 1 ∧ t.board.seq = s.board.seq + 1 ∧ boardWord t 4 = (s.beat.num + 1).truncate 32 ∧
      (s.pins.standby = true → endPhase s ≤ s.beat.period + 1 → t.time = s.time + (endPhase s - s.beat.phaseUs)) ∧
      (t.beat.started = true → t.beat.phaseUs = 0 ∧ t.beat.period = nextPeriod s ∧ t.beat.halfPassed = false ∧
        t.beat.cutsDone = false ∧ t.beat.rotNum = s.beat.num + 1 ∧ t.beat.beatOut = (regF s 0x10000 4 4 = 1) ∧
        (∀ o, s.ro.frozen = some o → t.ro.running = some o ∧ t.ro.onFallback = s.ro.nextFallback))) ∧
  (∀ s : State, (edgeShift s).natAbs ≤ 1000 ∧ (s.beat.locked = false ∨ s.beat.holdover = true ∨ regF s 0x10000 1 0 = 0 → edgeShift s = 0) ∧
    (s.beat.locked = true → s.beat.holdover = false → regF s 0x10000 1 0 = 1 → s.beat.edgeSeen = true → s.beat.pinNs.natAbs ≤ 1000 →
      edgeShift s = s.beat.pinNs)) ∧
  (∀ s : State, s.beat.started = true → s.beat.cutsDone = false → leadsTo (exec .cutComplete s) fun t =>
    t.beat.cutsDone = true ∧ (∀ e, e < 36 → (engOf s e).cut = true → (engOf t e).run = none) ∧
    (∀ o i x w, s.ro.running = some o → (i, x) ∈ runEntries s → s.ro.runningVoid.contains i = false → w ∈ eWaits o x ++ eSigs o x →
      cueOf t w.1 = CueLight.init) ∧
    ((∀ f, f < 128 → (flatOf s f).pending = false ∧ (flatOf s f).retired = false) → ∀ f, f < 128 →
      (flatOf t f).holder = (newHolder s f).holder)) ∧
  (∀ s : State, s.beat.started = true → s.beat.cutsDone = true → s.beat.clearsDone = false →
    leadsTo (exec .flatClearDone s) fun t => t.beat.clearsDone = true ∧ t.eng = s.eng ∧ t.mem = s.mem ∧
      (∀ f, f < 128 → (flatOf t f).clearing = false) ∧ ∀ f k, f < 128 → k < 65536 →
        tabGet 0#8 t.flies.mem (65536 * f + k) = if (flatOf s f).clearing then 0 else tabGet 0#8 s.flies.mem (65536 * f + k)) ∧
  (∀ s : State, s.energy.closed = false → s.energy.endingBeat ≤ s.energy.billLast → leadsTo (exec .ledgerClose s) fun t =>
    t.energy.closed = true ∧ keepsUnits s t ∧ t.serve = s.serve ∧ t.energy.lastMj = beatUj s / 1000 ∧ t.energy.lastBase = baseUj s ∧
    t.energy.reserve = nextReserve s.energy.reserve s.energy.endBudget (beatUj s) ∧
    (t.energy.reserve < -(s.energy.endBudget : Int) → regF t 0x20018 1 1 = 1) ∧
    (s.beat.num ≤ s.energy.billLast → t.energy.records = s.energy.records ∧
      t.energy.billOp = s.energy.billOp + operatorCharge s ∧
      ∀ n, n < 8 → tabGet 0 t.energy.billUj n = tabGet 0 s.energy.billUj n + partCharge s n) ∧
    (s.energy.billLast < s.beat.num → ∃ r, t.energy.records = r :: s.energy.records ∧ r.period = s.energy.billNum ∧
      r.last = s.energy.endingBeat ∧ r.operator = s.energy.billOp + operatorCharge s ∧
      r.labelFirst = s.energy.billLabel.1 ∧ r.labelLast = (labelOf s s.energy.endingBeat).1 ∧
      r.stepped = (s.energy.billLabel.2 || (labelOf s s.energy.endingBeat).2) ∧
      r.energy = (List.range 8).map fun n => tabGet 0 s.energy.billUj n + partCharge s n)) ∧
  (∀ (off : Int) (ns : Nat) (s : State), s.beat.started = true → regF s 0x10000 1 0 = 1 →
    (50 ≤ ns → off.natAbs ≤ 900 → leadsTo (exec (.beatInEdge off ns) s) fun t => t.beat.good = s.beat.good + 1 ∧
      t.beat.edgeSeen = true ∧ t.beat.pinNs = off ∧ t.beat.locked = (s.beat.locked || decide (2 ≤ s.beat.good)) ∧ keepsUnits s t) ∧
    (50 ≤ ns → 900 < off.natAbs → exec (.beatInEdge off ns) s = .next { s with beat := { s.beat with good := 0 } }) ∧
    (ns < 50 → exec (.beatInEdge off ns) s = .next s)) ∧
  (∀ (m : PtpMsg) (s : State), s.beat.started = true →
    (ptpTaken s m = false ∨ m.kind = .other → exec (.ptpMessage m) s = .next s) ∧
    (ptpTaken s m = true → m.kind = .sync → exec (.ptpMessage m) s = .next { s with
      beat := { s.beat with ptpSync := some (m.masterNs, m.localNs, s.time) }, out := .ptpDelayReq :: s.out }) ∧
    (ptpTaken s m = true → m.kind = .delayResp → s.beat.ptpSync = none → exec (.ptpMessage m) s = .next s) ∧
    (∀ t1 t2 u, ptpTaken s m = true → m.kind = .delayResp → s.beat.ptpSync = some (t1, t2, u) →
      let off : Int := (((t2 : Int) - t1) - ((m.masterNs : Int) - m.localNs)).tdiv 2
      leadsTo (exec (.ptpMessage m) s) fun t => t.beat.ptpOffsetNs = off ∧ t.beat.ptpSync = none ∧
        t.beat.wall = some (((t2 : Int) - off).toNat, u) ∧ keepsUnits s t ∧ t.regs = s.regs ∧
        (1000 < off.natAbs → t.beat.ptpIn = none ∧ t.beat.locked = s.beat.locked) ∧
        (off.natAbs ≤ 1000 → t.beat.ptpIn = s.beat.ptpIn.or (some s.time) ∧ t.beat.locked = (s.beat.locked ||
          (decide (regF s 0x10000 1 0 = 2) && decide ((s.beat.ptpIn.getD s.time) + 1000000 ≤ s.time)))))) ∧
  (∀ s : State, s.beat.started = true → sourceLost s = true → leadsTo (exec .holdover s) fun t => t.beat.locked = false ∧
    keepsUnits s t ∧ t.beat.num = s.beat.num ∧ (regF s 0x10000 5 5 = 1 → t.beat.holdover = true ∧ regF t 0x1001C 2 2 = 1) ∧
    (regF s 0x10000 5 5 = 0 → t.beat.holdover = s.beat.holdover ∧ t.regs = s.regs)) ∧
  (∀ s : State, s.beat.started = true → s.boot.mode = .starting → s.boot.ready = false → s.beat.locked = false →
    reaches s (s.boot.step16Us + 10000000) →
    leadsTo (exec .lockTimeoutReady s) fun t => t.boot.ready = true ∧ t.boot.mode = .serving ∧ t.boot.lockLate = true ∧
      t.beat.holdover = true ∧ keepsUnits s t ∧ t.serve = s.serve) ∧
  (∀ s : State, s.beat.beatOut = true → leadsTo (exec .beatOutPulseEnd s) fun t => t.beat.beatOut = false ∧ keepsUnits s t ∧
    t.beat.num = s.beat.num ∧ t.serve = s.serve)

/-- O59. The machine right after reset: every register at its reset value, no unit fitted, no request, the key of slot 8 alone, no
command waiting; its memories are in canonical form. -/
def Obligations.ResetState : Prop :=
  State.reset.pending = [] ∧ Memory.wf State.reset = true ∧ (∀ a, regW State.reset a = tabGet 0#32 regsReset a) ∧
  regF State.reset 0x10004 15 0 = 10000 ∧ regF State.reset 0x10008 15 0 = 500 ∧ regF State.reset 0x30200 7 0 = 4 ∧
  (∀ e, engOf State.reset e = Engine.init) ∧ (∀ k, shOf State.reset k = Stagehand.init) ∧ (∀ i, reqOf State.reset i = none) ∧
  (∀ k, keyHeld State.reset k = decide (k = 8)) ∧ (∀ i, cueOf State.reset i = ⟨0, false⟩) ∧ State.reset.beat.num = 0 ∧
  State.reset.pins.regulators = false ∧ modeNow State.reset = .standby ∧ State.reset.pair.mode = .solo

/-- O60. Every step keeps the main memory and the Flies in canonical form: addresses strictly rising, and no entry equal to what an
unlisted address reads as. -/
def Obligations.MemoryStaysCanonical : Prop :=
  ∀ s t : State, Memory.wf s = true → step s = .next t → Memory.wf t = true
end

