-- ==== Sys2Proof/Laws/Dispatch.lean ====
section
/-! SUPPORT. What `exec` runs for each command: one lemma per constructor, so that no proof unfolds the dispatch. -/

namespace Sys2Proof.Machine

open Sys2Proof

@[simp] theorem exec_beatEdge (s : State) : exec (.beatEdge) s = execBeatEdge s := rfl
@[simp] theorem exec_beatOutPulseEnd (s : State) : exec (.beatOutPulseEnd) s = execBeatOutPulseEnd s := rfl
@[simp] theorem exec_cutComplete (s : State) : exec (.cutComplete) s = execCutComplete s := rfl
@[simp] theorem exec_flatClearDone (s : State) : exec (.flatClearDone) s = execFlatClearDone s := rfl
@[simp] theorem exec_agePromote (req : Nat) (s : State) : exec (.agePromote req) s = execAgePromote req s := rfl
@[simp] theorem exec_headSpreadTimeout (req : Nat) (s : State) : exec (.headSpreadTimeout req) s = execHeadSpreadTimeout req s := rfl
@[simp] theorem exec_theHalf (s : State) : exec (.theHalf) s = execTheHalf s := rfl
@[simp] theorem exec_publishRunningOrder (o : Order) (s : State) : exec (.publishRunningOrder o) s = execPublishRunningOrder o s := rfl
@[simp] theorem exec_beatInEdge (offsetNs : Int) (highNs : Nat) (s : State) : exec (.beatInEdge offsetNs highNs) s = execBeatInEdge offsetNs highNs s := rfl
@[simp] theorem exec_ptpMessage (m : PtpMsg) (s : State) : exec (.ptpMessage m) s = execPtpMessage m s := rfl
@[simp] theorem exec_holdover (s : State) : exec (.holdover) s = execHoldover s := rfl
@[simp] theorem exec_lockTimeoutReady (s : State) : exec (.lockTimeoutReady) s = execLockTimeoutReady s := rfl
@[simp] theorem exec_entryDispatch (e : Nat) (s : State) : exec (.entryDispatch e) s = execEntryDispatch e s := rfl
@[simp] theorem exec_partitionClearDone (unit : UnitRef) (s : State) : exec (.partitionClearDone unit) s = execPartitionClearDone unit s := rfl
@[simp] theorem exec_entryRetire (e : Nat) (s : State) : exec (.entryRetire e) s = execEntryRetire e s := rfl
@[simp] theorem exec_hang (kind : HangKind) (unit : Nat) (s : State) : exec (.hang kind unit) s = execHang kind unit s := rfl
@[simp] theorem exec_entryDrainDone (e : Nat) (s : State) : exec (.entryDrainDone e) s = execEntryDrainDone e s := rfl
@[simp] theorem exec_unitStopTimeout (unit : UnitRef) (s : State) : exec (.unitStopTimeout unit) s = execUnitStopTimeout unit s := rfl
@[simp] theorem exec_hardwareException (e : Nat) (arrayCheck : Bool) (addr : Nat) (s : State) : exec (.hardwareException e arrayCheck addr) s = execHardwareException e arrayCheck addr s := rfl
@[simp] theorem exec_walkonGo (slot : Nat) (w : Word) (s : State) : exec (.walkonGo slot w) s = execWalkonGo slot w s := rfl
@[simp] theorem exec_walkonDoorbell (fn : Nat) (db : DWord) (s : State) : exec (.walkonDoorbell fn db) s = execWalkonDoorbell fn db s := rfl
@[simp] theorem exec_walkonDbHalfWrite (fn : Nat) (high : Bool) (val : Word) (s : State) : exec (.walkonDbHalfWrite fn high val) s = execWalkonDbHalfWrite fn high val s := rfl
@[simp] theorem exec_walkonDispatch (slot : Nat) (s : State) : exec (.walkonDispatch slot) s = execWalkonDispatch slot s := rfl
@[simp] theorem exec_windowOpen (index : Nat) (s : State) : exec (.windowOpen index) s = execWindowOpen index s := rfl
@[simp] theorem exec_walkonSetFree (set : Nat) (s : State) : exec (.walkonSetFree set) s = execWalkonSetFree set s := rfl
@[simp] theorem exec_ledgerClose (s : State) : exec (.ledgerClose) s = execLedgerClose s := rfl
@[simp] theorem exec_ctrlNop (e : Nat) (f : Fields) (s : State) : exec (.ctrlNop e f) s = execCtrlNop e f s := rfl
@[simp] theorem exec_ctrlEnd (e : Nat) (f : Fields) (s : State) : exec (.ctrlEnd e f) s = execCtrlEnd e f s := rfl
@[simp] theorem exec_ctrlFence (e : Nat) (f : Fields) (s : State) : exec (.ctrlFence e f) s = execCtrlFence e f s := rfl
@[simp] theorem exec_add (e : Nat) (f : Fields) (s : State) : exec (.add e f) s = execAdd e f s := rfl
@[simp] theorem exec_sub (e : Nat) (f : Fields) (s : State) : exec (.sub e f) s = execSub e f s := rfl
@[simp] theorem exec_and (e : Nat) (f : Fields) (s : State) : exec (.and e f) s = execAnd e f s := rfl
@[simp] theorem exec_or (e : Nat) (f : Fields) (s : State) : exec (.or e f) s = execOr e f s := rfl
@[simp] theorem exec_xor (e : Nat) (f : Fields) (s : State) : exec (.xor e f) s = execXor e f s := rfl
@[simp] theorem exec_sll (e : Nat) (f : Fields) (s : State) : exec (.sll e f) s = execSll e f s := rfl
@[simp] theorem exec_srl (e : Nat) (f : Fields) (s : State) : exec (.srl e f) s = execSrl e f s := rfl
@[simp] theorem exec_sra (e : Nat) (f : Fields) (s : State) : exec (.sra e f) s = execSra e f s := rfl
@[simp] theorem exec_mul (e : Nat) (f : Fields) (s : State) : exec (.mul e f) s = execMul e f s := rfl
@[simp] theorem exec_mulhu (e : Nat) (f : Fields) (s : State) : exec (.mulhu e f) s = execMulhu e f s := rfl
@[simp] theorem exec_mulh (e : Nat) (f : Fields) (s : State) : exec (.mulh e f) s = execMulh e f s := rfl
@[simp] theorem exec_divu (e : Nat) (f : Fields) (s : State) : exec (.divu e f) s = execDivu e f s := rfl
@[simp] theorem exec_remu (e : Nat) (f : Fields) (s : State) : exec (.remu e f) s = execRemu e f s := rfl
@[simp] theorem exec_slt (e : Nat) (f : Fields) (s : State) : exec (.slt e f) s = execSlt e f s := rfl
@[simp] theorem exec_sltu (e : Nat) (f : Fields) (s : State) : exec (.sltu e f) s = execSltu e f s := rfl
@[simp] theorem exec_min (e : Nat) (f : Fields) (s : State) : exec (.min e f) s = execMin e f s := rfl
@[simp] theorem exec_max (e : Nat) (f : Fields) (s : State) : exec (.max e f) s = execMax e f s := rfl
@[simp] theorem exec_minu (e : Nat) (f : Fields) (s : State) : exec (.minu e f) s = execMinu e f s := rfl
@[simp] theorem exec_maxu (e : Nat) (f : Fields) (s : State) : exec (.maxu e f) s = execMaxu e f s := rfl
@[simp] theorem exec_sel (e : Nat) (f : Fields) (s : State) : exec (.sel e f) s = execSel e f s := rfl
@[simp] theorem exec_addi (e : Nat) (f : Fields) (s : State) : exec (.addi e f) s = execAddi e f s := rfl
@[simp] theorem exec_andi (e : Nat) (f : Fields) (s : State) : exec (.andi e f) s = execAndi e f s := rfl
@[simp] theorem exec_ori (e : Nat) (f : Fields) (s : State) : exec (.ori e f) s = execOri e f s := rfl
@[simp] theorem exec_xori (e : Nat) (f : Fields) (s : State) : exec (.xori e f) s = execXori e f s := rfl
@[simp] theorem exec_slli (e : Nat) (f : Fields) (s : State) : exec (.slli e f) s = execSlli e f s := rfl
@[simp] theorem exec_srli (e : Nat) (f : Fields) (s : State) : exec (.srli e f) s = execSrli e f s := rfl
@[simp] theorem exec_srai (e : Nat) (f : Fields) (s : State) : exec (.srai e f) s = execSrai e f s := rfl
@[simp] theorem exec_slti (e : Nat) (f : Fields) (s : State) : exec (.slti e f) s = execSlti e f s := rfl
@[simp] theorem exec_sltiu (e : Nat) (f : Fields) (s : State) : exec (.sltiu e f) s = execSltiu e f s := rfl
@[simp] theorem exec_movhi (e : Nat) (f : Fields) (s : State) : exec (.movhi e f) s = execMovhi e f s := rfl
@[simp] theorem exec_beq (e : Nat) (f : Fields) (s : State) : exec (.beq e f) s = execBeq e f s := rfl
@[simp] theorem exec_bne (e : Nat) (f : Fields) (s : State) : exec (.bne e f) s = execBne e f s := rfl
@[simp] theorem exec_blt (e : Nat) (f : Fields) (s : State) : exec (.blt e f) s = execBlt e f s := rfl
@[simp] theorem exec_bge (e : Nat) (f : Fields) (s : State) : exec (.bge e f) s = execBge e f s := rfl
@[simp] theorem exec_bltu (e : Nat) (f : Fields) (s : State) : exec (.bltu e f) s = execBltu e f s := rfl
@[simp] theorem exec_bgeu (e : Nat) (f : Fields) (s : State) : exec (.bgeu e f) s = execBgeu e f s := rfl
@[simp] theorem exec_jmp (e : Nat) (f : Fields) (s : State) : exec (.jmp e f) s = execJmp e f s := rfl
@[simp] theorem exec_dbnz (e : Nat) (f : Fields) (s : State) : exec (.dbnz e f) s = execDbnz e f s := rfl
@[simp] theorem exec_lmLdB (e : Nat) (f : Fields) (s : State) : exec (.lmLdB e f) s = execLmLdB e f s := rfl
@[simp] theorem exec_lmLdBu (e : Nat) (f : Fields) (s : State) : exec (.lmLdBu e f) s = execLmLdBu e f s := rfl
@[simp] theorem exec_lmLdH (e : Nat) (f : Fields) (s : State) : exec (.lmLdH e f) s = execLmLdH e f s := rfl
@[simp] theorem exec_lmLdHu (e : Nat) (f : Fields) (s : State) : exec (.lmLdHu e f) s = execLmLdHu e f s := rfl
@[simp] theorem exec_lmLdW (e : Nat) (f : Fields) (s : State) : exec (.lmLdW e f) s = execLmLdW e f s := rfl
@[simp] theorem exec_lmLdWu (e : Nat) (f : Fields) (s : State) : exec (.lmLdWu e f) s = execLmLdWu e f s := rfl
@[simp] theorem exec_lmLdD (e : Nat) (f : Fields) (s : State) : exec (.lmLdD e f) s = execLmLdD e f s := rfl
@[simp] theorem exec_lmStB (e : Nat) (f : Fields) (s : State) : exec (.lmStB e f) s = execLmStB e f s := rfl
@[simp] theorem exec_lmStH (e : Nat) (f : Fields) (s : State) : exec (.lmStH e f) s = execLmStH e f s := rfl
@[simp] theorem exec_lmStW (e : Nat) (f : Fields) (s : State) : exec (.lmStW e f) s = execLmStW e f s := rfl
@[simp] theorem exec_lmStD (e : Nat) (f : Fields) (s : State) : exec (.lmStD e f) s = execLmStD e f s := rfl
@[simp] theorem exec_lmVld (e : Nat) (f : Fields) (s : State) : exec (.lmVld e f) s = execLmVld e f s := rfl
@[simp] theorem exec_lmVst (e : Nat) (f : Fields) (s : State) : exec (.lmVst e f) s = execLmVst e f s := rfl
@[simp] theorem exec_lmVldBc (e : Nat) (f : Fields) (s : State) : exec (.lmVldBc e f) s = execLmVldBc e f s := rfl
@[simp] theorem exec_lmPld (e : Nat) (f : Fields) (s : State) : exec (.lmPld e f) s = execLmPld e f s := rfl
@[simp] theorem exec_lmPst (e : Nat) (f : Fields) (s : State) : exec (.lmPst e f) s = execLmPst e f s := rfl
@[simp] theorem exec_lmCpy (e : Nat) (f : Fields) (s : State) : exec (.lmCpy e f) s = execLmCpy e f s := rfl
@[simp] theorem exec_lmFill (e : Nat) (f : Fields) (s : State) : exec (.lmFill e f) s = execLmFill e f s := rfl
@[simp] theorem exec_xferLd (e : Nat) (f : Fields) (s : State) : exec (.xferLd e f) s = execXferLd e f s := rfl
@[simp] theorem exec_xferSt (e : Nat) (f : Fields) (s : State) : exec (.xferSt e f) s = execXferSt e f s := rfl
@[simp] theorem exec_copyOnWrite (x : Access) (va : Nat) (s : State) : exec (.copyOnWrite x va) s = execCopyOnWrite x va s := rfl
@[simp] theorem exec_xferComplete (e : Nat) (s : State) : exec (.xferComplete e) s = execXferComplete e s := rfl
@[simp] theorem exec_xferFault (e : Nat) (s : State) : exec (.xferFault e) s = execXferFault e s := rfl
@[simp] theorem exec_mxMul (e : Nat) (f : Fields) (s : State) : exec (.mxMul e f) s = execMxMul e f s := rfl
@[simp] theorem exec_mxZero (e : Nat) (f : Fields) (s : State) : exec (.mxZero e f) s = execMxZero e f s := rfl
@[simp] theorem exec_mxDrain (e : Nat) (f : Fields) (s : State) : exec (.mxDrain e f) s = execMxDrain e f s := rfl
@[simp] theorem exec_mxFill (e : Nat) (f : Fields) (s : State) : exec (.mxFill e f) s = execMxFill e f s := rfl
@[simp] theorem exec_mxRowr (e : Nat) (f : Fields) (s : State) : exec (.mxRowr e f) s = execMxRowr e f s := rfl
@[simp] theorem exec_mxRoww (e : Nat) (f : Fields) (s : State) : exec (.mxRoww e f) s = execMxRoww e f s := rfl
@[simp] theorem exec_vadd (e : Nat) (f : Fields) (s : State) : exec (.vadd e f) s = execVadd e f s := rfl
@[simp] theorem exec_vsub (e : Nat) (f : Fields) (s : State) : exec (.vsub e f) s = execVsub e f s := rfl
@[simp] theorem exec_vmul (e : Nat) (f : Fields) (s : State) : exec (.vmul e f) s = execVmul e f s := rfl
@[simp] theorem exec_vfma (e : Nat) (f : Fields) (s : State) : exec (.vfma e f) s = execVfma e f s := rfl
@[simp] theorem exec_vmax (e : Nat) (f : Fields) (s : State) : exec (.vmax e f) s = execVmax e f s := rfl
@[simp] theorem exec_vmin (e : Nat) (f : Fields) (s : State) : exec (.vmin e f) s = execVmin e f s := rfl
@[simp] theorem exec_vand (e : Nat) (f : Fields) (s : State) : exec (.vand e f) s = execVand e f s := rfl
@[simp] theorem exec_vor (e : Nat) (f : Fields) (s : State) : exec (.vor e f) s = execVor e f s := rfl
@[simp] theorem exec_vxor (e : Nat) (f : Fields) (s : State) : exec (.vxor e f) s = execVxor e f s := rfl
@[simp] theorem exec_vshl (e : Nat) (f : Fields) (s : State) : exec (.vshl e f) s = execVshl e f s := rfl
@[simp] theorem exec_vshr (e : Nat) (f : Fields) (s : State) : exec (.vshr e f) s = execVshr e f s := rfl
@[simp] theorem exec_vexp (e : Nat) (f : Fields) (s : State) : exec (.vexp e f) s = execVexp e f s := rfl
@[simp] theorem exec_vlog (e : Nat) (f : Fields) (s : State) : exec (.vlog e f) s = execVlog e f s := rfl
@[simp] theorem exec_vrcp (e : Nat) (f : Fields) (s : State) : exec (.vrcp e f) s = execVrcp e f s := rfl
@[simp] theorem exec_vrsqrt (e : Nat) (f : Fields) (s : State) : exec (.vrsqrt e f) s = execVrsqrt e f s := rfl
@[simp] theorem exec_vcmp (e : Nat) (f : Fields) (s : State) : exec (.vcmp e f) s = execVcmp e f s := rfl
@[simp] theorem exec_vsel (e : Nat) (f : Fields) (s : State) : exec (.vsel e f) s = execVsel e f s := rfl
@[simp] theorem exec_vbc (e : Nat) (f : Fields) (s : State) : exec (.vbc e f) s = execVbc e f s := rfl
@[simp] theorem exec_vlane (e : Nat) (f : Fields) (s : State) : exec (.vlane e f) s = execVlane e f s := rfl
@[simp] theorem exec_vcvtDn (e : Nat) (f : Fields) (s : State) : exec (.vcvtDn e f) s = execVcvtDn e f s := rfl
@[simp] theorem exec_vcvtUp (e : Nat) (f : Fields) (s : State) : exec (.vcvtUp e f) s = execVcvtUp e f s := rfl
@[simp] theorem exec_vrsum (e : Nat) (f : Fields) (s : State) : exec (.vrsum e f) s = execVrsum e f s := rfl
@[simp] theorem exec_vrmax (e : Nat) (f : Fields) (s : State) : exec (.vrmax e f) s = execVrmax e f s := rfl
@[simp] theorem exec_vrmin (e : Nat) (f : Fields) (s : State) : exec (.vrmin e f) s = execVrmin e f s := rfl
@[simp] theorem exec_pand (e : Nat) (f : Fields) (s : State) : exec (.pand e f) s = execPand e f s := rfl
@[simp] theorem exec_por (e : Nat) (f : Fields) (s : State) : exec (.por e f) s = execPor e f s := rfl
@[simp] theorem exec_pnot (e : Nat) (f : Fields) (s : State) : exec (.pnot e f) s = execPnot e f s := rfl
@[simp] theorem exec_pfirst (e : Nat) (f : Fields) (s : State) : exec (.pfirst e f) s = execPfirst e f s := rfl
@[simp] theorem exec_vphilox (e : Nat) (f : Fields) (s : State) : exec (.vphilox e f) s = execVphilox e f s := rfl
@[simp] theorem exec_attnScore (e : Nat) (f : Fields) (s : State) : exec (.attnScore e f) s = execAttnScore e f s := rfl
@[simp] theorem exec_attnSmax (e : Nat) (f : Fields) (s : State) : exec (.attnSmax e f) s = execAttnSmax e f s := rfl
@[simp] theorem exec_attnPv (e : Nat) (f : Fields) (s : State) : exec (.attnPv e f) s = execAttnPv e f s := rfl
@[simp] theorem exec_attnFin (e : Nat) (f : Fields) (s : State) : exec (.attnFin e f) s = execAttnFin e f s := rfl
@[simp] theorem exec_attnRecomp (e : Nat) (f : Fields) (s : State) : exec (.attnRecomp e f) s = execAttnRecomp e f s := rfl
@[simp] theorem exec_cueSig (e : Nat) (f : Fields) (s : State) : exec (.cueSig e f) s = execCueSig e f s := rfl
@[simp] theorem exec_cueWait (e : Nat) (f : Fields) (s : State) : exec (.cueWait e f) s = execCueWait e f s := rfl
@[simp] theorem exec_cueWaitd (e : Nat) (f : Fields) (s : State) : exec (.cueWaitd e f) s = execCueWaitd e f s := rfl
@[simp] theorem exec_cueSet (e : Nat) (f : Fields) (s : State) : exec (.cueSet e f) s = execCueSet e f s := rfl
@[simp] theorem exec_cueRead (e : Nat) (f : Fields) (s : State) : exec (.cueRead e f) s = execCueRead e f s := rfl
@[simp] theorem exec_cueWaitT (e : Nat) (f : Fields) (s : State) : exec (.cueWaitT e f) s = execCueWaitT e f s := rfl
@[simp] theorem exec_cueWaitdT (e : Nat) (f : Fields) (s : State) : exec (.cueWaitdT e f) s = execCueWaitdT e f s := rfl
@[simp] theorem exec_cueWaitMet (cl : Nat) (s : State) : exec (.cueWaitMet cl) s = execCueWaitMet cl s := rfl
@[simp] theorem exec_cueWaitTimeout (e : Nat) (s : State) : exec (.cueWaitTimeout e) s = execCueWaitTimeout e s := rfl
@[simp] theorem exec_cueOvf (e : Nat) (s : State) : exec (.cueOvf e) s = execCueOvf e s := rfl
@[simp] theorem exec_flyLdW (e : Nat) (f : Fields) (s : State) : exec (.flyLdW e f) s = execFlyLdW e f s := rfl
@[simp] theorem exec_flyLdD (e : Nat) (f : Fields) (s : State) : exec (.flyLdD e f) s = execFlyLdD e f s := rfl
@[simp] theorem exec_flyStW (e : Nat) (f : Fields) (s : State) : exec (.flyStW e f) s = execFlyStW e f s := rfl
@[simp] theorem exec_flyStD (e : Nat) (f : Fields) (s : State) : exec (.flyStD e f) s = execFlyStD e f s := rfl
@[simp] theorem exec_flyVld (e : Nat) (f : Fields) (s : State) : exec (.flyVld e f) s = execFlyVld e f s := rfl
@[simp] theorem exec_flyVst (e : Nat) (f : Fields) (s : State) : exec (.flyVst e f) s = execFlyVst e f s := rfl
@[simp] theorem exec_flyAdd (e : Nat) (f : Fields) (s : State) : exec (.flyAdd e f) s = execFlyAdd e f s := rfl
@[simp] theorem exec_flyMax (e : Nat) (f : Fields) (s : State) : exec (.flyMax e f) s = execFlyMax e f s := rfl
@[simp] theorem exec_flyMin (e : Nat) (f : Fields) (s : State) : exec (.flyMin e f) s = execFlyMin e f s := rfl
@[simp] theorem exec_flyAnd (e : Nat) (f : Fields) (s : State) : exec (.flyAnd e f) s = execFlyAnd e f s := rfl
@[simp] theorem exec_flyOr (e : Nat) (f : Fields) (s : State) : exec (.flyOr e f) s = execFlyOr e f s := rfl
@[simp] theorem exec_flyXchg (e : Nat) (f : Fields) (s : State) : exec (.flyXchg e f) s = execFlyXchg e f s := rfl
@[simp] theorem exec_flyCas (e : Nat) (f : Fields) (s : State) : exec (.flyCas e f) s = execFlyCas e f s := rfl
@[simp] theorem exec_flatTestRestore (flat : Nat) (s : State) : exec (.flatTestRestore flat) s = execFlatTestRestore flat s := rfl
@[simp] theorem exec_sysRdst (e : Nat) (f : Fields) (s : State) : exec (.sysRdst e f) s = execSysRdst e f s := rfl
@[simp] theorem exec_sysWrst (e : Nat) (f : Fields) (s : State) : exec (.sysWrst e f) s = execSysWrst e f s := rfl
@[simp] theorem exec_sysTrap (e : Nat) (f : Fields) (s : State) : exec (.sysTrap e f) s = execSysTrap e f s := rfl
@[simp] theorem exec_sysHcall (e : Nat) (f : Fields) (s : State) : exec (.sysHcall e f) s = execSysHcall e f s := rfl
@[simp] theorem exec_helperJobStart (sh : Nat) (s : State) : exec (.helperJobStart sh) s = execHelperJobStart sh s := rfl
@[simp] theorem exec_helperJobComplete (sh : Nat) (s : State) : exec (.helperJobComplete sh) s = execHelperJobComplete sh s := rfl
@[simp] theorem exec_helperFault (sh : Nat) (s : State) : exec (.helperFault sh) s = execHelperFault sh s := rfl
@[simp] theorem exec_zshCsig (sh : Nat) (rs1 : BitVec 5) (rs2 : BitVec 5) (s : State) : exec (.zshCsig sh rs1 rs2) s = execZshCsig sh rs1 rs2 s := rfl
@[simp] theorem exec_zshCwait (sh : Nat) (rd : BitVec 5) (rs1 : BitVec 5) (rs2 : BitVec 5) (s : State) : exec (.zshCwait sh rd rs1 rs2) s = execZshCwait sh rd rs1 rs2 s := rfl
@[simp] theorem exec_zshCwaitd (sh : Nat) (rd : BitVec 5) (rs1 : BitVec 5) (rs2 : BitVec 5) (s : State) : exec (.zshCwaitd sh rd rs1 rs2) s = execZshCwaitd sh rd rs1 rs2 s := rfl
@[simp] theorem exec_zshCset (sh : Nat) (rs1 : BitVec 5) (rs2 : BitVec 5) (s : State) : exec (.zshCset sh rs1 rs2) s = execZshCset sh rs1 rs2 s := rfl
@[simp] theorem exec_zshFladd (sh : Nat) (rd : BitVec 5) (rs1 : BitVec 5) (rs2 : BitVec 5) (s : State) : exec (.zshFladd sh rd rs1 rs2) s = execZshFladd sh rd rs1 rs2 s := rfl
@[simp] theorem exec_zshFlcas (sh : Nat) (rd : BitVec 5) (rs1 : BitVec 5) (rs2 : BitVec 5) (s : State) : exec (.zshFlcas sh rd rs1 rs2) s = execZshFlcas sh rd rs1 rs2 s := rfl
@[simp] theorem exec_zshXfer (sh : Nat) (rs1 : BitVec 5) (rs2 : BitVec 5) (s : State) : exec (.zshXfer sh rs1 rs2) s = execZshXfer sh rs1 rs2 s := rfl
@[simp] theorem exec_zshMxpack (sh : Nat) (vd : BitVec 5) (vs2 : BitVec 5) (vs1 : BitVec 5) (s : State) : exec (.zshMxpack sh vd vs2 vs1) s = execZshMxpack sh vd vs2 vs1 s := rfl
@[simp] theorem exec_zshMxunpack (sh : Nat) (vd : BitVec 5) (vs2 : BitVec 5) (vs1 : BitVec 5) (s : State) : exec (.zshMxunpack sh vd vs2 vs1) s = execZshMxunpack sh vd vs2 vs1 s := rfl
@[simp] theorem exec_zshPhilox (sh : Nat) (vd : BitVec 5) (vs2 : BitVec 5) (vs1 : BitVec 5) (s : State) : exec (.zshPhilox sh vd vs2 vs1) s = execZshPhilox sh vd vs2 vs1 s := rfl
@[simp] theorem exec_zshCtx (sh : Nat) (rd : BitVec 5) (s : State) : exec (.zshCtx sh rd) s = execZshCtx sh rd s := rfl
@[simp] theorem exec_samplerJobStart (cluster : Nat) (s : State) : exec (.samplerJobStart cluster) s = execSamplerJobStart cluster s := rfl
@[simp] theorem exec_samplerJobComplete (cluster : Nat) (s : State) : exec (.samplerJobComplete cluster) s = execSamplerJobComplete cluster s := rfl
@[simp] theorem exec_stepCommit (part : Nat) (stepId : BitVec 16) (s : State) : exec (.stepCommit part stepId) s = execStepCommit part stepId s := rfl
@[simp] theorem exec_carryLimit (req : Nat) (s : State) : exec (.carryLimit req) s = execCarryLimit req s := rfl
@[simp] theorem exec_submit (c : Cmd) (d : ReqDesc) (s : State) : exec (.submit c d) s = execSubmit c d s := rfl
@[simp] theorem exec_prefixWalk (req : Nat) (s : State) : exec (.prefixWalk req) s = execPrefixWalk req s := rfl
@[simp] theorem exec_cancel (c : Cmd) (s : State) : exec (.cancel c) s = execCancel c s := rfl
@[simp] theorem exec_pause (c : Cmd) (s : State) : exec (.pause c) s = execPause c s := rfl
@[simp] theorem exec_resume (c : Cmd) (s : State) : exec (.resume c) s = execResume c s := rfl
@[simp] theorem exec_append (c : Cmd) (s : State) : exec (.append c) s = execAppend c s := rfl
@[simp] theorem exec_query (c : Cmd) (s : State) : exec (.query c) s = execQuery c s := rfl
@[simp] theorem exec_progLoad (c : Cmd) (s : State) : exec (.progLoad c) s = execProgLoad c s := rfl
@[simp] theorem exec_progUnload (c : Cmd) (s : State) : exec (.progUnload c) s = execProgUnload c s := rfl
@[simp] theorem exec_walkonReg (c : Cmd) (s : State) : exec (.walkonReg c) s = execWalkonReg c s := rfl
@[simp] theorem exec_walkonUnreg (c : Cmd) (s : State) : exec (.walkonUnreg c) s = execWalkonUnreg c s := rfl
@[simp] theorem exec_walkonReservationRefill (slot : Nat) (s : State) : exec (.walkonReservationRefill slot) s = execWalkonReservationRefill slot s := rfl
@[simp] theorem exec_maskReg (c : Cmd) (s : State) : exec (.maskReg c) s = execMaskReg c s := rfl
@[simp] theorem exec_maskUnreg (c : Cmd) (s : State) : exec (.maskUnreg c) s = execMaskUnreg c s := rfl
@[simp] theorem exec_memMap (c : Cmd) (s : State) : exec (.memMap c) s = execMemMap c s := rfl
@[simp] theorem exec_memUnmap (c : Cmd) (s : State) : exec (.memUnmap c) s = execMemUnmap c s := rfl
@[simp] theorem exec_memProtect (c : Cmd) (s : State) : exec (.memProtect c) s = execMemProtect c s := rfl
@[simp] theorem exec_epochComplete (space : Nat) (s : State) : exec (.epochComplete space) s = execEpochComplete space s := rfl
@[simp] theorem exec_variantLoad (c : Cmd) (r : VariantRec) (s : State) : exec (.variantLoad c r) s = execVariantLoad c r s := rfl
@[simp] theorem exec_variantUnload (c : Cmd) (s : State) : exec (.variantUnload c) s = execVariantUnload c s := rfl
@[simp] theorem exec_expertPublish (c : Cmd) (s : State) : exec (.expertPublish c) s = execExpertPublish c s := rfl
@[simp] theorem exec_treeFlush (c : Cmd) (s : State) : exec (.treeFlush c) s = execTreeFlush c s := rfl
@[simp] theorem exec_treeUpdate (part : Nat) (s : State) : exec (.treeUpdate part) s = execTreeUpdate part s := rfl
@[simp] theorem exec_spreadReg (c : Cmd) (r : SpreadRec) (s : State) : exec (.spreadReg c r) s = execSpreadReg c r s := rfl
@[simp] theorem exec_spreadUnreg (c : Cmd) (s : State) : exec (.spreadUnreg c) s = execSpreadUnreg c s := rfl
@[simp] theorem exec_trainSubmit (c : Cmd) (s : State) : exec (.trainSubmit c) s = execTrainSubmit c s := rfl
@[simp] theorem exec_collective (m : Sealed) (s : State) : exec (.collective m) s = execCollective m s := rfl
@[simp] theorem exec_abort (m : Sealed) (s : State) : exec (.abort m) s = execAbort m s := rfl
@[simp] theorem exec_callBoardBadWrite (addr : Nat) (w : Word) (s : State) : exec (.callBoardBadWrite addr w) s = execCallBoardBadWrite addr w s := rfl
@[simp] theorem exec_beatLoRead (mirror : Bool) (s : State) : exec (.beatLoRead mirror) s = execBeatLoRead mirror s := rfl
@[simp] theorem exec_curtainNFall (lowNs : Nat) (s : State) : exec (.curtainNFall lowNs) s = execCurtainNFall lowNs s := rfl
@[simp] theorem exec_curtainNRise (s : State) : exec (.curtainNRise) s = execCurtainNRise s := rfl
@[simp] theorem exec_resultAtGate (id : Nat) (s : State) : exec (.resultAtGate id) s = execResultAtGate id s := rfl
@[simp] theorem exec_resultPassed (id : Nat) (s : State) : exec (.resultPassed id) s = execResultPassed id s := rfl
@[simp] theorem exec_heldResultExpire (id : Nat) (s : State) : exec (.heldResultExpire id) s = execHeldResultExpire id s := rfl
@[simp] theorem exec_streamOpen (c : Cmd) (d : OpenDesc) (s : State) : exec (.streamOpen c d) s = execStreamOpen c d s := rfl
@[simp] theorem exec_streamClose (c : Cmd) (s : State) : exec (.streamClose c) s = execStreamClose c s := rfl
@[simp] theorem exec_streamClosed (stream : Nat) (s : State) : exec (.streamClosed stream) s = execStreamClosed stream s := rfl
@[simp] theorem exec_groupSet (c : Cmd) (s : State) : exec (.groupSet c) s = execGroupSet c s := rfl
@[simp] theorem exec_groupAttach (c : Cmd) (s : State) : exec (.groupAttach c) s = execGroupAttach c s := rfl
@[simp] theorem exec_keyReq (c : Cmd) (s : State) : exec (.keyReq c) s = execKeyReq c s := rfl
@[simp] theorem exec_streamQuery (c : Cmd) (s : State) : exec (.streamQuery c) s = execStreamQuery c s := rfl
@[simp] theorem exec_videoAu (au : AccessUnit) (s : State) : exec (.videoAu au) s = execVideoAu au s := rfl
@[simp] theorem exec_frameDecodeStart (k : Nat) (s : State) : exec (.frameDecodeStart k) s = execFrameDecodeStart k s := rfl
@[simp] theorem exec_frameDecodeDone (k : Nat) (r : Decoded) (s : State) : exec (.frameDecodeDone k r) s = execFrameDecodeDone k r s := rfl
@[simp] theorem exec_bindPoint (s : State) : exec (.bindPoint) s = execBindPoint s := rfl
@[simp] theorem exec_bindReady (group : Nat) (s : State) : exec (.bindReady group) s = execBindReady group s := rfl
@[simp] theorem exec_encodeFrameStart (k : Nat) (stream : Nat) (s : State) : exec (.encodeFrameStart k stream) s = execEncodeFrameStart k stream s := rfl
@[simp] theorem exec_encodeResult (k : Nat) (bytes : List Byte) (lastSlice : Bool) (s : State) : exec (.encodeResult k bytes lastSlice) s = execEncodeResult k bytes lastSlice s := rfl
@[simp] theorem exec_videoEngineFail (k : Nat) (s : State) : exec (.videoEngineFail k) s = execVideoEngineFail k s := rfl
@[simp] theorem exec_sqTailWrite (fn : Nat) (k : Nat) (tail : Word) (s : State) : exec (.sqTailWrite fn k tail) s = execSqTailWrite fn k tail s := rfl
@[simp] theorem exec_cqHeadWrite (fn : Nat) (k : Nat) (head : Word) (s : State) : exec (.cqHeadWrite fn k head) s = execCqHeadWrite fn k head s := rfl
@[simp] theorem exec_queuePairDisable (fn : Nat) (k : Nat) (s : State) : exec (.queuePairDisable fn k) s = execQueuePairDisable fn k s := rfl
@[simp] theorem exec_queuePairEnable (fn : Nat) (k : Nat) (s : State) : exec (.queuePairEnable fn k) s = execQueuePairEnable fn k s := rfl
@[simp] theorem exec_sqFetch (fn : Nat) (k : Nat) (x : SqEntry) (m : Sealed) (s : State) : exec (.sqFetch fn k x m) s = execSqFetch fn k x m s := rfl
@[simp] theorem exec_data (part : Nat) (plain : List Byte) (s : State) : exec (.data part plain) s = execData part plain s := rfl
@[simp] theorem exec_rxbuf (fn : Nat) (k : Nat) (x : SqEntry) (s : State) : exec (.rxbuf fn k x) s = execRxbuf fn k x s := rfl
@[simp] theorem exec_outboundEvent (fn : Nat) (k : Nat) (s : State) : exec (.outboundEvent fn k) s = execOutboundEvent fn k s := rfl
@[simp] theorem exec_msixCoalesce (fn : Nat) (k : Nat) (s : State) : exec (.msixCoalesce fn k) s = execMsixCoalesce fn k s := rfl
@[simp] theorem exec_functionLevelReset (fn : Nat) (s : State) : exec (.functionLevelReset fn) s = execFunctionLevelReset fn s := rfl
@[simp] theorem exec_perstNAssert (s : State) : exec (.perstNAssert) s = execPerstNAssert s := rfl
@[simp] theorem exec_perstNRelease (s : State) : exec (.perstNRelease) s = execPerstNRelease s := rfl
@[simp] theorem exec_bar2Sig (fn : Nat) (cl : Nat) (v : Word) (s : State) : exec (.bar2Sig fn cl v) s = execBar2Sig fn cl v s := rfl
@[simp] theorem exec_bar2Set (fn : Nat) (cl : Nat) (v : Word) (s : State) : exec (.bar2Set fn cl v) s = execBar2Set fn cl v s := rfl
@[simp] theorem exec_bar4Read (part : Nat) (off : Nat) (len : Nat) (s : State) : exec (.bar4Read part off len) s = execBar4Read part off len s := rfl
@[simp] theorem exec_bar4Write (part : Nat) (off : Nat) (bytes : List Byte) (s : State) : exec (.bar4Write part off bytes) s = execBar4Write part off bytes s := rfl
@[simp] theorem exec_roceSend (qpn : Nat) (m : Sealed) (s : State) : exec (.roceSend qpn m) s = execRoceSend qpn m s := rfl
@[simp] theorem exec_roceUnsupportedOp (qpn : Nat) (s : State) : exec (.roceUnsupportedOp qpn) s = execRoceUnsupportedOp qpn s := rfl
@[simp] theorem exec_rqpCreate (fn : Nat) (s : State) : exec (.rqpCreate fn) s = execRqpCreate fn s := rfl
@[simp] theorem exec_rqpDestroy (fn : Nat) (qpn : Nat) (s : State) : exec (.rqpDestroy fn qpn) s = execRqpDestroy fn qpn s := rfl
@[simp] theorem exec_sparePort (m : Mgmt) (role : Nat) (s : State) : exec (.sparePort m role) s = execSparePort m role s := rfl
@[simp] theorem exec_spareTakeoverDone (s : State) : exec (.spareTakeoverDone) s = execSpareTakeoverDone s := rfl
@[simp] theorem exec_houseFrame (port : Nat) (f : HouseFrame) (s : State) : exec (.houseFrame port f) s = execHouseFrame port f s := rfl
@[simp] theorem exec_keyPutPart (m : Mgmt) (key : BitVec 512) (s : State) : exec (.keyPutPart m key) s = execKeyPutPart m key s := rfl
@[simp] theorem exec_keyDropPart (m : Mgmt) (s : State) : exec (.keyDropPart m) s = execKeyDropPart m s := rfl
@[simp] theorem exec_keyPutJob (m : Mgmt) (job : DWord) (epoch : Word) (key : BitVec 256) (s : State) : exec (.keyPutJob m job epoch key) s = execKeyPutJob m job epoch key s := rfl
@[simp] theorem exec_keyDropJob (m : Mgmt) (job : DWord) (s : State) : exec (.keyDropJob m job) s = execKeyDropJob m job s := rfl
@[simp] theorem exec_jobKeyErase (job : DWord) (s : State) : exec (.jobKeyErase job) s = execJobKeyErase job s := rfl
@[simp] theorem exec_keyList (m : Mgmt) (start : Nat) (s : State) : exec (.keyList m start) s = execKeyList m start s := rfl
@[simp] theorem exec_aperture (m : Mgmt) (en : Bool) (s : State) : exec (.aperture m en) s = execAperture m en s := rfl
@[simp] theorem exec_perfConsent (m : Mgmt) (consent : Bool) (s : State) : exec (.perfConsent m consent) s = execPerfConsent m consent s := rfl
@[simp] theorem exec_acctGet (m : Mgmt) (period : Nat) (s : State) : exec (.acctGet m period) s = execAcctGet m period s := rfl
@[simp] theorem exec_claim (m : Mgmt) (s : State) : exec (.claim m) s = execClaim m s := rfl
@[simp] theorem exec_release (m : Mgmt) (s : State) : exec (.release m) s = execRelease m s := rfl
@[simp] theorem exec_partEnable (m : Mgmt) (part : Nat) (rootHash : Digest) (s : State) : exec (.partEnable m part rootHash) s = execPartEnable m part rootHash s := rfl
@[simp] theorem exec_partDisable (m : Mgmt) (part : Nat) (s : State) : exec (.partDisable m part) s = execPartDisable m part s := rfl
@[simp] theorem exec_grant (m : Mgmt) (part : Nat) (share : BitVec 4) (privVideo : Bool) (s : State) : exec (.grant m part share privVideo) s = execGrant m part share privVideo s := rfl
@[simp] theorem exec_keyPutShared (m : Mgmt) (slot : Nat) (key : BitVec 512) (s : State) : exec (.keyPutShared m slot key) s = execKeyPutShared m slot key s := rfl
@[simp] theorem exec_keyPutHouse (m : Mgmt) (key : BitVec 384) (s : State) : exec (.keyPutHouse m key) s = execKeyPutHouse m key s := rfl
@[simp] theorem exec_debugUnlock (m : Mgmt) (token : Option (DWord × Bool)) (s : State) : exec (.debugUnlock m token) s = execDebugUnlock m token s := rfl
@[simp] theorem exec_capSet (m : Mgmt) (watts : Nat) (s : State) : exec (.capSet m watts) s = execCapSet m watts s := rfl
@[simp] theorem exec_curtain (m : Mgmt) (close : Bool) (s : State) : exec (.curtain m close) s = execCurtain m close s := rfl
@[simp] theorem exec_curtainPolicy (m : Mgmt) (hold : Byte) (s : State) : exec (.curtainPolicy m hold) s = execCurtainPolicy m hold s := rfl
@[simp] theorem exec_acctResend (m : Mgmt) (period : Nat) (s : State) : exec (.acctResend m period) s = execAcctResend m period s := rfl
@[simp] theorem exec_getVersion (p : SpdmPort) (s : State) : exec (.getVersion p) s = execGetVersion p s := rfl
@[simp] theorem exec_getCapabilities (p : SpdmPort) (s : State) : exec (.getCapabilities p) s = execGetCapabilities p s := rfl
@[simp] theorem exec_negotiateAlgorithms (p : SpdmPort) (ok : Bool) (s : State) : exec (.negotiateAlgorithms p ok) s = execNegotiateAlgorithms p ok s := rfl
@[simp] theorem exec_getDigests (p : SpdmPort) (s : State) : exec (.getDigests p) s = execGetDigests p s := rfl
@[simp] theorem exec_getCertificate (p : SpdmPort) (s : State) : exec (.getCertificate p) s = execGetCertificate p s := rfl
@[simp] theorem exec_challenge (p : SpdmPort) (nonce : BitVec 256) (s : State) : exec (.challenge p nonce) s = execChallenge p nonce s := rfl
@[simp] theorem exec_getMeasurements (p : SpdmPort) (session : Option Nat) (index : Nat) (s : State) : exec (.getMeasurements p session index) s = execGetMeasurements p session index s := rfl
@[simp] theorem exec_keyExchange (p : SpdmPort) (s : State) : exec (.keyExchange p) s = execKeyExchange p s := rfl
@[simp] theorem exec_finish (session : Nat) (chainOk : Bool) (sigOk : Bool) (rootHash : Digest) (s : State) : exec (.finish session chainOk sigOk rootHash) s = execFinish session chainOk sigOk rootHash s := rfl
@[simp] theorem exec_spdmHeartbeat (session : Nat) (s : State) : exec (.spdmHeartbeat session) s = execSpdmHeartbeat session s := rfl
@[simp] theorem exec_keyUpdate (session : Nat) (s : State) : exec (.keyUpdate session) s = execKeyUpdate session s := rfl
@[simp] theorem exec_endSession (session : Nat) (s : State) : exec (.endSession session) s = execEndSession session s := rfl
@[simp] theorem exec_getEncapsulatedRequest (session : Nat) (s : State) : exec (.getEncapsulatedRequest session) s = execGetEncapsulatedRequest session s := rfl
@[simp] theorem exec_deliverEncapsulatedResponse (session : Nat) (chainOk : Bool) (s : State) : exec (.deliverEncapsulatedResponse session chainOk) s = execDeliverEncapsulatedResponse session chainOk s := rfl
@[simp] theorem exec_pairJoin (m : Mgmt) (s : State) : exec (.pairJoin m) s = execPairJoin m s := rfl
@[simp] theorem exec_pairSwap (m : Mgmt) (beat : DWord) (s : State) : exec (.pairSwap m beat) s = execPairSwap m beat s := rfl
@[simp] theorem exec_pairLeave (m : Mgmt) (s : State) : exec (.pairLeave m) s = execPairLeave m s := rfl
@[simp] theorem exec_pairRoll (m : Mgmt) (roll : Bool) (s : State) : exec (.pairRoll m roll) s = execPairRoll m roll s := rfl
@[simp] theorem exec_heartbeatSend (s : State) : exec (.heartbeatSend) s = execHeartbeatSend s := rfl
@[simp] theorem exec_heartbeat (onLink : Bool) (h : PairHdr) (b : HbBody) (s : State) : exec (.heartbeat onLink h b) s = execHeartbeat onLink h b s := rfl
@[simp] theorem exec_pathSilent (link : Bool) (s : State) : exec (.pathSilent link) s = execPathSilent link s := rfl
@[simp] theorem exec_order (h : PairHdr) (o : Order) (s : State) : exec (.order h o) s = execOrder h o s := rfl
@[simp] theorem exec_orderDeadline (shadow : Order) (s : State) : exec (.orderDeadline shadow) s = execOrderDeadline shadow s := rfl
@[simp] theorem exec_input (h : PairHdr) (job : DWord) (kind : Byte) (stream : Byte) (seq : DWord) (beat : DWord) (s : State) : exec (.input h job kind stream seq beat) s = execInput h job kind stream seq beat s := rfl
@[simp] theorem exec_verdict (h : PairHdr) (stepId : BitVec 16) (req : BitVec 16) (commit : Bool) (beat : DWord) (s : State) : exec (.verdict h stepId req commit beat) s = execVerdict h stepId req commit beat s := rfl
@[simp] theorem exec_bind (h : PairHdr) (beat : DWord) (frames : List (Nat × Nat)) (s : State) : exec (.bind h beat frames) s = execBind h beat frames s := rfl
@[simp] theorem exec_pairWalkon (h : PairHdr) (slot : Nat) (req : BitVec 14) (arg : BitVec 16) (beat : DWord) (s : State) : exec (.pairWalkon h slot req arg beat) s = execPairWalkon h slot req arg beat s := rfl
@[simp] theorem exec_digestSend (s : State) : exec (.digestSend) s = execDigestSend s := rfl
@[simp] theorem exec_digest (h : PairHdr) (b : DigestBody) (s : State) : exec (.digest h b) s = execDigest h b s := rfl
@[simp] theorem exec_fetch (h : PairHdr) (job : DWord) (kind : Byte) (seq : DWord) (s : State) : exec (.fetch h job kind seq) s = execFetch h job kind seq s := rfl
@[simp] theorem exec_state (h : PairHdr) (x : StateChunk) (s : State) : exec (.state h x) s = execState h x s := rfl
@[simp] theorem exec_resyncRound (s : State) : exec (.resyncRound) s = execResyncRound s := rfl
@[simp] theorem exec_config (h : PairHdr) (r : ConfigMsg) (s : State) : exec (.config h r) s = execConfig h r s := rfl
@[simp] theorem exec_swap (h : PairHdr) (beat : DWord) (s : State) : exec (.swap h beat) s = execSwap h beat s := rfl
@[simp] theorem exec_logRecordWrite (s : State) : exec (.logRecordWrite) s = execLogRecordWrite s := rfl
@[simp] theorem exec_faultLogIdxWrite (fn : Nat) (v : Word) (s : State) : exec (.faultLogIdxWrite fn v) s = execFaultLogIdxWrite fn v s := rfl
@[simp] theorem exec_watchdogReset (unit : UnitRef) (s : State) : exec (.watchdogReset unit) s = execWatchdogReset unit s := rfl
@[simp] theorem exec_smTakeover (s : State) : exec (.smTakeover) s = execSmTakeover s := rfl
@[simp] theorem exec_unitResetDone (unit : UnitRef) (pass : Bool) (s : State) : exec (.unitResetDone unit pass) s = execUnitResetDone unit pass s := rfl
@[simp] theorem exec_clusterSwitchUe (c : Nat) (s : State) : exec (.clusterSwitchUe c) s = execClusterSwitchUe c s := rfl
@[simp] theorem exec_clusterResetDone (c : Nat) (pass : Bool) (s : State) : exec (.clusterResetDone c pass) s = execClusterResetDone c pass s := rfl
@[simp] theorem exec_clusterResetTimeout (c : Nat) (s : State) : exec (.clusterResetTimeout c) s = execClusterResetTimeout c s := rfl
@[simp] theorem exec_partReset (m : Mgmt) (part : Nat) (s : State) : exec (.partReset m part) s = execPartReset m part s := rfl
@[simp] theorem exec_partitionDrainTimeout (part : Nat) (s : State) : exec (.partitionDrainTimeout part) s = execPartitionDrainTimeout part s := rfl
@[simp] theorem exec_deviceReset (m : Mgmt) (s : State) : exec (.deviceReset m) s = execDeviceReset m s := rfl
@[simp] theorem exec_darkClear (m : Mgmt) (s : State) : exec (.darkClear m) s = execDarkClear m s := rfl
@[simp] theorem exec_sampleCopy (m : Mgmt) (sampleNo : Nat) (addr : Nat) (s : State) : exec (.sampleCopy m sampleNo addr) s = execSampleCopy m sampleNo addr s := rfl
@[simp] theorem exec_bistSliceStart (x : Slice) (s : State) : exec (.bistSliceStart x) s = execBistSliceStart x s := rfl
@[simp] theorem exec_bistSliceEnd (unit : UnitRef) (pass : Bool) (durNs : Nat) (detail : Word) (s : State) : exec (.bistSliceEnd unit pass durNs detail) s = execBistSliceEnd unit pass durNs detail s := rfl
@[simp] theorem exec_bistSliceAbort (unit : UnitRef) (t : AbortTrigger) (s : State) : exec (.bistSliceAbort unit t) s = execBistSliceAbort unit t s := rfl
@[simp] theorem exec_bistResIdxWrite (fn : Nat) (v : Word) (s : State) : exec (.bistResIdxWrite fn v) s = execBistResIdxWrite fn v s := rfl
@[simp] theorem exec_standbyPowerOn (s : State) : exec (.standbyPowerOn) s = execStandbyPowerOn s := rfl
@[simp] theorem exec_slotIdSample (pins : BitVec 5) (s : State) : exec (.slotIdSample pins) s = execSlotIdSample pins s := rfl
@[simp] theorem exec_startSequence (r : StartResults) (s : State) : exec (.startSequence r) s = execStartSequence r s := rfl
@[simp] theorem exec_startRetry (s : State) : exec (.startRetry) s = execStartRetry s := rfl
@[simp] theorem exec_spareFitDone (unit : UnitRef) (pass : Bool) (s : State) : exec (.spareFitDone unit pass) s = execSpareFitDone unit pass s := rfl
@[simp] theorem exec_coldNext (m : Mgmt) (s : State) : exec (.coldNext m) s = execColdNext m s := rfl
@[simp] theorem exec_usbStickInsert (x : Stick) (s : State) : exec (.usbStickInsert x) s = execUsbStickInsert x s := rfl
@[simp] theorem exec_usbOvercurrent (s : State) : exec (.usbOvercurrent) s = execUsbOvercurrent s := rfl
@[simp] theorem exec_containerStaged (partsOk slotOk : Bool) (s : State) : exec (.containerStaged partsOk slotOk) s = execContainerStaged partsOk slotOk s := rfl
@[simp] theorem exec_updateActivate (m : Mgmt) (beat : DWord) (s : State) : exec (.updateActivate m beat) s = execUpdateActivate m beat s := rfl
@[simp] theorem exec_updateConfirm (m : Mgmt) (s : State) : exec (.updateConfirm m) s = execUpdateConfirm m s := rfl
@[simp] theorem exec_updateRevert (m : Mgmt) (s : State) : exec (.updateRevert m) s = execUpdateRevert m s := rfl
@[simp] theorem exec_trialWindowExpire (s : State) : exec (.trialWindowExpire) s = execTrialWindowExpire s := rfl
@[simp] theorem exec_railSample (us : Nat) (rails : List (Nat × Bool)) (s : State) : exec (.railSample us rails) s = execRailSample us rails s := rfl
@[simp] theorem exec_peakGuardStep (s : State) : exec (.peakGuardStep) s = execPeakGuardStep s := rfl
@[simp] theorem exec_sensorRead (x : Sensor) (tempC : Int) (s : State) : exec (.sensorRead x tempC) s = execSensorRead x tempC s := rfl
@[simp] theorem exec_airSensorRead (inlet : Int) (outlet : Int) (s : State) : exec (.airSensorRead inlet outlet) s = execAirSensorRead inlet outlet s := rfl
@[simp] theorem exec_shutdownRestart (s : State) : exec (.shutdownRestart) s = execShutdownRestart s := rfl
@[simp] theorem exec_scrubRead (granule : Nat) (s : State) : exec (.scrubRead granule) s = execScrubRead granule s := rfl
@[simp] theorem exec_refresh (stack : Nat) (s : State) : exec (.refresh stack) s = execRefresh stack s := rfl
@[simp] theorem exec_stackTempRead (stack : Nat) (tempC : Int) (s : State) : exec (.stackTempRead stack tempC) s = execStackTempRead stack tempC s := rfl
@[simp] theorem exec_headCountRefresh (port : Nat) (counts : List Nat) (s : State) : exec (.headCountRefresh port counts) s = execHeadCountRefresh port counts s := rfl
@[simp] theorem exec_hbmRetrainReq (fn : Nat) (v : Word) (s : State) : exec (.hbmRetrainReq fn v) s = execHbmRetrainReq fn v s := rfl
@[simp] theorem exec_migrationStart (stack : Nat) (s : State) : exec (.migrationStart stack) s = execMigrationStart stack s := rfl
@[simp] theorem exec_migrationSwitch (stack : Nat) (s : State) : exec (.migrationSwitch stack) s = execMigrationSwitch stack s := rfl
@[simp] theorem exec_retrainDone (stack : Nat) (pc : Nat) (ok : Bool) (s : State) : exec (.retrainDone stack pc ok) s = execRetrainDone stack pc ok s := rfl
@[simp] theorem exec_pwrEnLow (lowUs : Nat) (s : State) : exec (.pwrEnLow lowUs) s = execPwrEnLow lowUs s := rfl
@[simp] theorem exec_pwrEnHigh (s : State) : exec (.pwrEnHigh) s = execPwrEnHigh s := rfl
@[simp] theorem exec_bulkUndervoltage (s : State) : exec (.bulkUndervoltage) s = execBulkUndervoltage s := rfl
@[simp] theorem exec_inputRestored (s : State) : exec (.inputRestored) s = execInputRestored s := rfl
@[simp] theorem exec_standbyLoss (s : State) : exec (.standbyLoss) s = execStandbyLoss s := rfl
@[simp] theorem exec_registerWrite (fn : Nat) (addr : Nat) (wide : Bool) (v : DWord) (s : State) : exec (.registerWrite fn addr wide v) s = execRegisterWrite fn addr wide v s := rfl
@[simp] theorem exec_blockLock (fn : Nat) (addr : Nat) (s : State) : exec (.blockLock fn addr) s = execBlockLock fn addr s := rfl
@[simp] theorem exec_rcRead (fn : Nat) (addr : Nat) (s : State) : exec (.rcRead fn addr) s = execRcRead fn addr s := rfl
@[simp] theorem exec_loWordRead (fn : Nat) (addr : Nat) (s : State) : exec (.loWordRead fn addr) s = execLoWordRead fn addr s := rfl
@[simp] theorem exec_beatPeriodWrite (fn : Nat) (v : Word) (s : State) : exec (.beatPeriodWrite fn v) s = execBeatPeriodWrite fn v s := rfl
@[simp] theorem exec_beatFreezeWrite (fn : Nat) (v : Word) (s : State) : exec (.beatFreezeWrite fn v) s = execBeatFreezeWrite fn v s := rfl
@[simp] theorem exec_energyBillBeatsWrite (fn : Nat) (v : Word) (s : State) : exec (.energyBillBeatsWrite fn v) s = execEnergyBillBeatsWrite fn v s := rfl
@[simp] theorem exec_guaranteeWrite (fn : Nat) (part : Nat) (v : Word) (s : State) : exec (.guaranteeWrite fn part v) s = execGuaranteeWrite fn part v s := rfl
@[simp] theorem exec_serveLimitWrite (fn : Nat) (addr : Nat) (v : Word) (s : State) : exec (.serveLimitWrite fn addr v) s = execServeLimitWrite fn addr v s := rfl
@[simp] theorem exec_stagehandInstruction (sh : Nat) (w : Word) (s : State) : exec (.stagehandInstruction sh w) s = execStagehandInstruction sh w s := rfl
@[simp] theorem exec_partitionResetDone (part : Nat) (s : State) : exec (.partitionResetDone part) s = execPartitionResetDone part s := rfl
@[simp] theorem exec_resendRequest (setId : Word) (req : Nat) (step : Nat) (rank : Nat) (s : State) : exec (.resendRequest setId req step rank) s = execResendRequest setId req step rank s := rfl
@[simp] theorem exec_retrainDaysElapsed (stack : Nat) (pc : Nat) (s : State) : exec (.retrainDaysElapsed stack pc) s = execRetrainDaysElapsed stack pc s := rfl
@[simp] theorem exec_portLinkChange (port : Nat) (up : Bool) (failed : Bool) (s : State) : exec (.portLinkChange port up failed) s = execPortLinkChange port up failed s := rfl
@[simp] theorem exec_usbStickRemove (s : State) : exec (.usbStickRemove) s = execUsbStickRemove s := rfl
@[simp] theorem exec_rotWatchdog (s : State) : exec (.rotWatchdog) s = execRotWatchdog s := rfl
@[simp] theorem exec_p54OutOfRange (milliVolt : Nat) (s : State) : exec (.p54OutOfRange milliVolt) s = execP54OutOfRange milliVolt s := rfl
@[simp] theorem exec_mainRailExcursion (rail : Nat) (s : State) : exec (.mainRailExcursion rail) s = execMainRailExcursion rail s := rfl
@[simp] theorem exec_roceAck (qpn : Nat) (psn : BitVec 24) (nak : Bool) (s : State) : exec (.roceAck qpn psn nak) s = execRoceAck qpn psn nak s := rfl
@[simp] theorem exec_cnpReceived (qpn : Nat) (s : State) : exec (.cnpReceived qpn) s = execCnpReceived qpn s := rfl
@[simp] theorem exec_priorityFlowControl (port : Nat) (pause : Bool) (s : State) : exec (.priorityFlowControl port pause) s = execPriorityFlowControl port pause s := rfl

end Sys2Proof.Machine
end

