-- ==== Sys2Proof/Laws/Tab.lean ====
section
/-! SUPPORT. Laws of sparse tables: reading after a write, and that every operation keeps the canonical form. -/

namespace Sys2Proof.Machine

variable {α : Type}

/-! ### The canonical form -/

/-- Keys strictly rising. -/
def tabSorted (t : Tab α) : Prop := List.Pairwise (fun x y => x.1 < y.1) t

/-- The canonical form as two facts. -/
theorem tabWf_iff [DecidableEq α] (d : α) (t : Tab α) :
    tabWf d t = true ↔ tabSorted t ∧ ∀ e ∈ t, e.2 ≠ d := by
  unfold tabSorted
  induction t with
  | nil => simp [tabWf]
  | cons x t ih =>
    cases t with
    | nil => simp [tabWf]
    | cons y t =>
      obtain ⟨k, v⟩ := x
      obtain ⟨k', v'⟩ := y
      simp only [tabWf, Bool.and_eq_true, decide_eq_true_eq, ih, List.pairwise_cons, List.mem_cons, forall_eq_or_imp]
      constructor
      · rintro ⟨⟨h1, h2⟩, ⟨h3, h4⟩, h5, h6⟩
        exact ⟨⟨⟨h2, fun z hz => lt_trans h2 (h3 z hz)⟩, h3, h4⟩, h1, h5, h6⟩
      · rintro ⟨⟨⟨h2, _⟩, h3, h4⟩, h1, h5, h6⟩
        exact ⟨⟨h1, h2⟩, ⟨h3, h4⟩, h5, h6⟩

theorem tabWf_sorted [DecidableEq α] {d : α} {t : Tab α} (h : tabWf d t = true) : tabSorted t := ((tabWf_iff d t).1 h).1

@[simp] theorem tabWf_nil [DecidableEq α] (d : α) : tabWf d ([] : Tab α) = true := rfl

/-! ### Reading after a write -/

@[simp] theorem tabGet_nil (d : α) (a : Nat) : tabGet d [] a = d := rfl

theorem tabGet_del_self (d : α) (t : Tab α) (a : Nat) : tabGet d (tabDel t a) a = d := by
  induction t with
  | nil => rfl
  | cons x t ih =>
    obtain ⟨k, v⟩ := x
    by_cases h : a = k <;> simp [tabDel, tabGet, h]
    · subst h; exact ih
    · exact ih

theorem tabGet_del_of_ne (d : α) (t : Tab α) {a b : Nat} (h : b ≠ a) : tabGet d (tabDel t a) b = tabGet d t b := by
  induction t with
  | nil => rfl
  | cons x t ih =>
    obtain ⟨k, v⟩ := x
    by_cases hk : a = k
    · subst hk; simp [tabDel, tabGet, h, ih]
    · by_cases hb : b = k <;> simp [tabDel, tabGet, hk, hb]
      exact ih

theorem tabGet_ins_self (d : α) (t : Tab α) (a : Nat) (x : α) : tabGet d (tabIns t a x) a = x := by
  induction t with
  | nil => simp [tabIns, tabGet]
  | cons y t ih =>
    obtain ⟨k, v⟩ := y
    unfold tabIns
    split
    · simp [tabGet]
    · split
      · simp [tabGet]
      · rename_i h1 h2; simp [tabGet, h2, ih]

theorem tabGet_ins_of_ne (d : α) (t : Tab α) {a b : Nat} (x : α) (h : b ≠ a) :
    tabGet d (tabIns t a x) b = tabGet d t b := by
  induction t with
  | nil => simp [tabIns, tabGet, h]
  | cons y t ih =>
    obtain ⟨k, v⟩ := y
    unfold tabIns
    split
    · simp [tabGet, h]
    · split
      · rename_i h2; subst h2; simp [tabGet, h]
      · simp [tabGet, ih]

/-- A key reads what was written to it. -/
@[simp] theorem tabGet_set_self [DecidableEq α] (d : α) (t : Tab α) (a : Nat) (x : α) :
    tabGet d (tabSet d t a x) a = x := by
  unfold tabSet; split
  · rename_i h; rw [h, tabGet_del_self]
  · exact tabGet_ins_self d t a x

/-- A write leaves every other key alone. -/
theorem tabGet_set_of_ne [DecidableEq α] (d : α) (t : Tab α) {a b : Nat} (x : α) (h : b ≠ a) :
    tabGet d (tabSet d t a x) b = tabGet d t b := by
  unfold tabSet; split
  · exact tabGet_del_of_ne d t h
  · exact tabGet_ins_of_ne d t x h

/-- Reading after a write, at any key. -/
theorem tabGet_set [DecidableEq α] (d : α) (t : Tab α) (a b : Nat) (x : α) :
    tabGet d (tabSet d t a x) b = if b = a then x else tabGet d t b := by
  split
  · rename_i h; rw [h, tabGet_set_self]
  · rename_i h; exact tabGet_set_of_ne d t x h

@[simp] theorem tabGet_mod_self [DecidableEq α] (d : α) (t : Tab α) (a : Nat) (f : α → α) :
    tabGet d (tabMod d t a f) a = f (tabGet d t a) := by simp [tabMod]

theorem tabGet_mod_of_ne [DecidableEq α] (d : α) (t : Tab α) {a b : Nat} (f : α → α) (h : b ≠ a) :
    tabGet d (tabMod d t a f) b = tabGet d t b := tabGet_set_of_ne d t _ h

/-- Reading a written list. -/
theorem tabGet_write [DecidableEq α] (d : α) (xs : List α) (t : Tab α) (a b : Nat) :
    tabGet d (tabWrite d t a xs) b = if a ≤ b ∧ b < a + xs.length then xs.getD (b - a) d else tabGet d t b := by
  induction xs generalizing t a with
  | nil => simp [tabWrite]
  | cons x xs ih =>
    rw [tabWrite, ih, tabGet_set]
    by_cases h : b = a
    · subst h; simp
    · by_cases h2 : a + 1 ≤ b ∧ b < a + 1 + xs.length
      · have h3 : a ≤ b ∧ b < a + (x :: xs).length := by simp; omega
        rw [if_pos h2, if_pos h3]
        obtain ⟨n, rfl⟩ : ∃ n, b = a + 1 + n := ⟨b - (a + 1), by omega⟩
        have e1 : a + 1 + n - (a + 1) = n := by omega
        have e2 : a + 1 + n - a = n + 1 := by omega
        rw [e1, e2]; simp
      · have h3 : ¬(a ≤ b ∧ b < a + (x :: xs).length) := by simp; omega
        rw [if_neg h2, if_neg h3, if_neg h]

/-- A write of a list leaves every key outside it alone. -/
theorem tabGet_write_of_not_mem [DecidableEq α] (d : α) (xs : List α) (t : Tab α) {a b : Nat}
    (h : b < a ∨ a + xs.length ≤ b) : tabGet d (tabWrite d t a xs) b = tabGet d t b := by
  rw [tabGet_write, if_neg]; omega

/-- Reading back a written list. -/
theorem tabRead_write [DecidableEq α] (d : α) (t : Tab α) (a : Nat) (xs : List α) :
    tabRead d (tabWrite d t a xs) a xs.length = xs := by
  apply List.ext_getElem
  · simp [tabRead]
  · intro i h1 h2
    have h3 : i < xs.length := h2
    simp [tabRead, tabGet_write, h3, List.getD_eq_getElem?_getD]

/-- Reading a range that a write does not touch. -/
theorem tabRead_write_disjoint [DecidableEq α] (d : α) (t : Tab α) (a b n : Nat) (xs : List α)
    (h : b + n ≤ a ∨ a + xs.length ≤ b) : tabRead d (tabWrite d t a xs) b n = tabRead d t b n := by
  unfold tabRead
  apply List.map_congr_left
  intro i hi
  have hi := List.mem_range.1 hi
  exact tabGet_write_of_not_mem d xs t (by omega)

@[simp] theorem tabRead_length (d : α) (t : Tab α) (a n : Nat) : (tabRead d t a n).length = n := by simp [tabRead]

/-! ### The operations keep the canonical form -/

theorem mem_tabDel {t : Tab α} {a : Nat} {e : Nat × α} (h : e ∈ tabDel t a) : e ∈ t := by
  induction t with
  | nil => exact h
  | cons x t ih =>
    obtain ⟨k, v⟩ := x
    unfold tabDel at h
    split at h
    · exact List.mem_cons_of_mem _ (ih h)
    · rcases List.mem_cons.1 h with h | h
      · exact h ▸ List.mem_cons_self
      · exact List.mem_cons_of_mem _ (ih h)

theorem mem_tabIns {t : Tab α} {a : Nat} {x : α} {e : Nat × α} (h : e ∈ tabIns t a x) : e = (a, x) ∨ e ∈ t := by
  induction t with
  | nil => simpa [tabIns] using h
  | cons y t ih =>
    obtain ⟨k, v⟩ := y
    unfold tabIns at h
    split at h
    · simpa using h
    · split at h
      · rcases List.mem_cons.1 h with h | h
        · exact .inl h
        · exact .inr (List.mem_cons_of_mem _ h)
      · rcases List.mem_cons.1 h with h | h
        · exact .inr (h ▸ List.mem_cons_self)
        · exact (ih h).imp id (List.mem_cons_of_mem _)

theorem tabDel_sorted {t : Tab α} (a : Nat) (h : tabSorted t) : tabSorted (tabDel t a) := by
  induction t with
  | nil => exact h
  | cons x t ih =>
    obtain ⟨k, v⟩ := x
    have h' := List.pairwise_cons.1 h
    unfold tabDel
    split
    · exact ih h'.2
    · exact List.pairwise_cons.2 ⟨fun e he => h'.1 e (mem_tabDel he), ih h'.2⟩

theorem tabIns_sorted {t : Tab α} (a : Nat) (x : α) (h : tabSorted t) : tabSorted (tabIns t a x) := by
  induction t with
  | nil => exact List.pairwise_singleton _ _
  | cons y t ih =>
    obtain ⟨k, v⟩ := y
    have h' := List.pairwise_cons.1 h
    unfold tabIns
    split
    · rename_i hk
      refine List.pairwise_cons.2 ⟨fun e he => ?_, h⟩
      rcases List.mem_cons.1 he with he | he
      · exact he ▸ hk
      · exact lt_trans hk (h'.1 e he)
    · split
      · rename_i h2; exact List.pairwise_cons.2 ⟨fun e he => h2 ▸ h'.1 e he, h'.2⟩
      · refine List.pairwise_cons.2 ⟨fun e he => ?_, ih h'.2⟩
        rcases mem_tabIns he with he | he
        · subst he; simp; omega
        · exact h'.1 e he

/-- Writing one key keeps the canonical form. -/
theorem tabSet_wf [DecidableEq α] (d : α) (t : Tab α) (a : Nat) (x : α) (h : tabWf d t = true) :
    tabWf d (tabSet d t a x) = true := by
  rw [tabWf_iff] at h ⊢
  unfold tabSet
  split
  · exact ⟨tabDel_sorted a h.1, fun e he => h.2 e (mem_tabDel he)⟩
  · rename_i hx
    refine ⟨tabIns_sorted a x h.1, fun e he => ?_⟩
    rcases mem_tabIns he with he | he
    · exact he ▸ hx
    · exact h.2 e he

theorem tabMod_wf [DecidableEq α] (d : α) (t : Tab α) (a : Nat) (f : α → α) (h : tabWf d t = true) :
    tabWf d (tabMod d t a f) = true := tabSet_wf d t a _ h

theorem tabWrite_wf [DecidableEq α] (d : α) (xs : List α) (t : Tab α) (a : Nat) (h : tabWf d t = true) :
    tabWf d (tabWrite d t a xs) = true := by
  induction xs generalizing t a with
  | nil => exact h
  | cons x xs ih => exact ih _ _ (tabSet_wf d t a x h)

theorem tabFill_wf [DecidableEq α] (d : α) (t : Tab α) (a n : Nat) (x : α) (h : tabWf d t = true) :
    tabWf d (tabFill d t a n x) = true := tabWrite_wf d _ t a h

theorem tabFilterList_wf [DecidableEq α] (d : α) (t : Tab α) (p : Nat × α → Bool) (h : tabWf d t = true) :
    tabWf d (t.filter p) = true := by
  rw [tabWf_iff] at h ⊢
  exact ⟨List.Pairwise.filter p h.1, fun e he => h.2 e (List.mem_filter.1 he).1⟩

theorem tabClear_wf [DecidableEq α] (d : α) (t : Tab α) (a n : Nat) (h : tabWf d t = true) :
    tabWf d (tabClear t a n) = true := tabFilterList_wf d t _ h

theorem tabFilter_wf [DecidableEq α] (d : α) (t : Tab α) (p : Nat → α → Bool) (h : tabWf d t = true) :
    tabWf d (tabFilter p t) = true := tabFilterList_wf d t _ h

theorem tabMap_wf [DecidableEq α] (d : α) (f : Nat → α → α) (t : Tab α) (h : tabWf d t = true) :
    tabWf d (tabMap d f t) = true := by
  rw [tabWf_iff] at h ⊢
  refine ⟨List.Pairwise.filter _ ?_, fun e he => by simpa using (List.mem_filter.1 he).2⟩
  exact List.pairwise_map.2 h.1

/-- Two canonical tables that read the same everywhere are equal. -/
theorem tab_ext [DecidableEq α] (d : α) (t u : Tab α) (ht : tabWf d t = true) (hu : tabWf d u = true)
    (h : ∀ a, tabGet d t a = tabGet d u a) : t = u := by
  rw [tabWf_iff] at ht hu
  induction t generalizing u with
  | nil =>
    cases u with
    | nil => rfl
    | cons y u =>
      have := h y.1
      simp [tabGet] at this
      exact absurd this.symm (hu.2 y List.mem_cons_self)
  | cons x t ih =>
    have below : ∀ (w : Tab α) (k : Nat), (∀ e ∈ w, k < e.1) → ∀ a, a ≤ k → tabGet d w a = d := by
      intro w k hw a ha
      induction w with
      | nil => rfl
      | cons z w ihw =>
        have hz := hw z List.mem_cons_self
        have : a ≠ z.1 := by omega
        simp [tabGet, this]
        exact ihw fun e he => hw e (List.mem_cons_of_mem _ he)
    have hx := List.pairwise_cons.1 ht.1
    cases u with
    | nil =>
      have := h x.1
      simp [tabGet] at this
      exact absurd this (ht.2 x List.mem_cons_self)
    | cons y u =>
      have hy := List.pairwise_cons.1 hu.1
      have key : x.1 = y.1 := by
        rcases lt_trichotomy x.1 y.1 with hlt | heq | hgt
        · have h1 := h x.1
          have h2 : tabGet d (y :: u) x.1 = d := by
            have : x.1 ≠ y.1 := by omega
            simp [tabGet, this]
            exact below u y.1 hy.1 x.1 (by omega)
          rw [h2] at h1
          simp [tabGet] at h1
          exact absurd h1 (ht.2 x List.mem_cons_self)
        · exact heq
        · have h1 := h y.1
          have h2 : tabGet d (x :: t) y.1 = d := by
            have : y.1 ≠ x.1 := by omega
            simp [tabGet, this]
            exact below t x.1 hx.1 y.1 (by omega)
          rw [h2] at h1
          simp [tabGet] at h1
          exact absurd h1.symm (hu.2 y List.mem_cons_self)
      have val : x.2 = y.2 := by have := h x.1; simpa [tabGet, key] using this
      have tl : t = u := by
        refine ih u ⟨hx.2, fun e he => ht.2 e (List.mem_cons_of_mem _ he)⟩ ⟨hy.2, fun e he => hu.2 e (List.mem_cons_of_mem _ he)⟩ ?_
        intro a
        by_cases ha : a ≤ x.1
        · rw [below t x.1 hx.1 a ha, below u y.1 hy.1 a (by omega)]
        · have := h a
          have h1 : a ≠ x.1 := by omega
          have h2 : a ≠ y.1 := by omega
          simpa [tabGet, h1, h2] using this
      rw [tl]
      exact congrArg (· :: u) (Prod.ext key val)

end Sys2Proof.Machine
end

