-- ==== Sys2Proof/Laws/State.lean ====
section
/-! SUPPORT. Field lemmas of the shared updates: what each leaves alone, one lemma per field, and what reading a field that it
writes gives. -/

namespace Sys2Proof.Machine

open Sys2Proof

/-! ### setReg -/

@[simp] theorem setReg_pending (a : Nat) (w : Word) (s : State) : (setReg a w s).pending = s.pending := rfl
@[simp] theorem setReg_time (a : Nat) (w : Word) (s : State) : (setReg a w s).time = s.time := rfl
@[simp] theorem setReg_free (a : Nat) (w : Word) (s : State) : (setReg a w s).free = s.free := rfl
@[simp] theorem setReg_latch (a : Nat) (w : Word) (s : State) : (setReg a w s).latch = s.latch := rfl
@[simp] theorem setReg_pins (a : Nat) (w : Word) (s : State) : (setReg a w s).pins = s.pins := rfl
@[simp] theorem setReg_boot (a : Nat) (w : Word) (s : State) : (setReg a w s).boot = s.boot := rfl
@[simp] theorem setReg_beat (a : Nat) (w : Word) (s : State) : (setReg a w s).beat = s.beat := rfl
@[simp] theorem setReg_ro (a : Nat) (w : Word) (s : State) : (setReg a w s).ro = s.ro := rfl
@[simp] theorem setReg_energy (a : Nat) (w : Word) (s : State) : (setReg a w s).energy = s.energy := rfl
@[simp] theorem setReg_eng (a : Nat) (w : Word) (s : State) : (setReg a w s).eng = s.eng := rfl
@[simp] theorem setReg_sh (a : Nat) (w : Word) (s : State) : (setReg a w s).sh = s.sh := rfl
@[simp] theorem setReg_cue (a : Nat) (w : Word) (s : State) : (setReg a w s).cue = s.cue := rfl
@[simp] theorem setReg_cueGrant (a : Nat) (w : Word) (s : State) : (setReg a w s).cueGrant = s.cueGrant := rfl
@[simp] theorem setReg_flies (a : Nat) (w : Word) (s : State) : (setReg a w s).flies = s.flies := rfl
@[simp] theorem setReg_mem (a : Nat) (w : Word) (s : State) : (setReg a w s).mem = s.mem := rfl
@[simp] theorem setReg_hbm (a : Nat) (w : Word) (s : State) : (setReg a w s).hbm = s.hbm := rfl
@[simp] theorem setReg_serve (a : Nat) (w : Word) (s : State) : (setReg a w s).serve = s.serve := rfl
@[simp] theorem setReg_board (a : Nat) (w : Word) (s : State) : (setReg a w s).board = s.board := rfl
@[simp] theorem setReg_curtain (a : Nat) (w : Word) (s : State) : (setReg a w s).curtain = s.curtain := rfl
@[simp] theorem setReg_video (a : Nat) (w : Word) (s : State) : (setReg a w s).video = s.video := rfl
@[simp] theorem setReg_net (a : Nat) (w : Word) (s : State) : (setReg a w s).net = s.net := rfl
@[simp] theorem setReg_sec (a : Nat) (w : Word) (s : State) : (setReg a w s).sec = s.sec := rfl
@[simp] theorem setReg_pair (a : Nat) (w : Word) (s : State) : (setReg a w s).pair = s.pair := rfl
@[simp] theorem setReg_fault (a : Nat) (w : Word) (s : State) : (setReg a w s).fault = s.fault := rfl
@[simp] theorem setReg_bist (a : Nat) (w : Word) (s : State) : (setReg a w s).bist = s.bist := rfl
@[simp] theorem setReg_therm (a : Nat) (w : Word) (s : State) : (setReg a w s).therm = s.therm := rfl
@[simp] theorem setReg_upd (a : Nat) (w : Word) (s : State) : (setReg a w s).upd = s.upd := rfl
@[simp] theorem setReg_out (a : Nat) (w : Word) (s : State) : (setReg a w s).out = s.out := rfl

/-! ### emit -/

@[simp] theorem emit_pending (m : OutMsg) (s : State) : (emit m s).pending = s.pending := rfl
@[simp] theorem emit_time (m : OutMsg) (s : State) : (emit m s).time = s.time := rfl
@[simp] theorem emit_free (m : OutMsg) (s : State) : (emit m s).free = s.free := rfl
@[simp] theorem emit_regs (m : OutMsg) (s : State) : (emit m s).regs = s.regs := rfl
@[simp] theorem emit_latch (m : OutMsg) (s : State) : (emit m s).latch = s.latch := rfl
@[simp] theorem emit_pins (m : OutMsg) (s : State) : (emit m s).pins = s.pins := rfl
@[simp] theorem emit_boot (m : OutMsg) (s : State) : (emit m s).boot = s.boot := rfl
@[simp] theorem emit_beat (m : OutMsg) (s : State) : (emit m s).beat = s.beat := rfl
@[simp] theorem emit_ro (m : OutMsg) (s : State) : (emit m s).ro = s.ro := rfl
@[simp] theorem emit_energy (m : OutMsg) (s : State) : (emit m s).energy = s.energy := rfl
@[simp] theorem emit_eng (m : OutMsg) (s : State) : (emit m s).eng = s.eng := rfl
@[simp] theorem emit_sh (m : OutMsg) (s : State) : (emit m s).sh = s.sh := rfl
@[simp] theorem emit_cue (m : OutMsg) (s : State) : (emit m s).cue = s.cue := rfl
@[simp] theorem emit_cueGrant (m : OutMsg) (s : State) : (emit m s).cueGrant = s.cueGrant := rfl
@[simp] theorem emit_flies (m : OutMsg) (s : State) : (emit m s).flies = s.flies := rfl
@[simp] theorem emit_mem (m : OutMsg) (s : State) : (emit m s).mem = s.mem := rfl
@[simp] theorem emit_hbm (m : OutMsg) (s : State) : (emit m s).hbm = s.hbm := rfl
@[simp] theorem emit_serve (m : OutMsg) (s : State) : (emit m s).serve = s.serve := rfl
@[simp] theorem emit_board (m : OutMsg) (s : State) : (emit m s).board = s.board := rfl
@[simp] theorem emit_curtain (m : OutMsg) (s : State) : (emit m s).curtain = s.curtain := rfl
@[simp] theorem emit_video (m : OutMsg) (s : State) : (emit m s).video = s.video := rfl
@[simp] theorem emit_net (m : OutMsg) (s : State) : (emit m s).net = s.net := rfl
@[simp] theorem emit_sec (m : OutMsg) (s : State) : (emit m s).sec = s.sec := rfl
@[simp] theorem emit_pair (m : OutMsg) (s : State) : (emit m s).pair = s.pair := rfl
@[simp] theorem emit_fault (m : OutMsg) (s : State) : (emit m s).fault = s.fault := rfl
@[simp] theorem emit_bist (m : OutMsg) (s : State) : (emit m s).bist = s.bist := rfl
@[simp] theorem emit_therm (m : OutMsg) (s : State) : (emit m s).therm = s.therm := rfl
@[simp] theorem emit_upd (m : OutMsg) (s : State) : (emit m s).upd = s.upd := rfl

/-! ### setEng -/

@[simp] theorem setEng_pending (e : Nat) (x : Engine) (s : State) : (setEng e x s).pending = s.pending := rfl
@[simp] theorem setEng_time (e : Nat) (x : Engine) (s : State) : (setEng e x s).time = s.time := rfl
@[simp] theorem setEng_free (e : Nat) (x : Engine) (s : State) : (setEng e x s).free = s.free := rfl
@[simp] theorem setEng_regs (e : Nat) (x : Engine) (s : State) : (setEng e x s).regs = s.regs := rfl
@[simp] theorem setEng_latch (e : Nat) (x : Engine) (s : State) : (setEng e x s).latch = s.latch := rfl
@[simp] theorem setEng_pins (e : Nat) (x : Engine) (s : State) : (setEng e x s).pins = s.pins := rfl
@[simp] theorem setEng_boot (e : Nat) (x : Engine) (s : State) : (setEng e x s).boot = s.boot := rfl
@[simp] theorem setEng_beat (e : Nat) (x : Engine) (s : State) : (setEng e x s).beat = s.beat := rfl
@[simp] theorem setEng_ro (e : Nat) (x : Engine) (s : State) : (setEng e x s).ro = s.ro := rfl
@[simp] theorem setEng_energy (e : Nat) (x : Engine) (s : State) : (setEng e x s).energy = s.energy := rfl
@[simp] theorem setEng_sh (e : Nat) (x : Engine) (s : State) : (setEng e x s).sh = s.sh := rfl
@[simp] theorem setEng_cue (e : Nat) (x : Engine) (s : State) : (setEng e x s).cue = s.cue := rfl
@[simp] theorem setEng_cueGrant (e : Nat) (x : Engine) (s : State) : (setEng e x s).cueGrant = s.cueGrant := rfl
@[simp] theorem setEng_flies (e : Nat) (x : Engine) (s : State) : (setEng e x s).flies = s.flies := rfl
@[simp] theorem setEng_mem (e : Nat) (x : Engine) (s : State) : (setEng e x s).mem = s.mem := rfl
@[simp] theorem setEng_hbm (e : Nat) (x : Engine) (s : State) : (setEng e x s).hbm = s.hbm := rfl
@[simp] theorem setEng_serve (e : Nat) (x : Engine) (s : State) : (setEng e x s).serve = s.serve := rfl
@[simp] theorem setEng_board (e : Nat) (x : Engine) (s : State) : (setEng e x s).board = s.board := rfl
@[simp] theorem setEng_curtain (e : Nat) (x : Engine) (s : State) : (setEng e x s).curtain = s.curtain := rfl
@[simp] theorem setEng_video (e : Nat) (x : Engine) (s : State) : (setEng e x s).video = s.video := rfl
@[simp] theorem setEng_net (e : Nat) (x : Engine) (s : State) : (setEng e x s).net = s.net := rfl
@[simp] theorem setEng_sec (e : Nat) (x : Engine) (s : State) : (setEng e x s).sec = s.sec := rfl
@[simp] theorem setEng_pair (e : Nat) (x : Engine) (s : State) : (setEng e x s).pair = s.pair := rfl
@[simp] theorem setEng_fault (e : Nat) (x : Engine) (s : State) : (setEng e x s).fault = s.fault := rfl
@[simp] theorem setEng_bist (e : Nat) (x : Engine) (s : State) : (setEng e x s).bist = s.bist := rfl
@[simp] theorem setEng_therm (e : Nat) (x : Engine) (s : State) : (setEng e x s).therm = s.therm := rfl
@[simp] theorem setEng_upd (e : Nat) (x : Engine) (s : State) : (setEng e x s).upd = s.upd := rfl
@[simp] theorem setEng_out (e : Nat) (x : Engine) (s : State) : (setEng e x s).out = s.out := rfl

/-! ### setSh -/

@[simp] theorem setSh_pending (k : Nat) (h : Stagehand) (s : State) : (setSh k h s).pending = s.pending := rfl
@[simp] theorem setSh_time (k : Nat) (h : Stagehand) (s : State) : (setSh k h s).time = s.time := rfl
@[simp] theorem setSh_free (k : Nat) (h : Stagehand) (s : State) : (setSh k h s).free = s.free := rfl
@[simp] theorem setSh_regs (k : Nat) (h : Stagehand) (s : State) : (setSh k h s).regs = s.regs := rfl
@[simp] theorem setSh_latch (k : Nat) (h : Stagehand) (s : State) : (setSh k h s).latch = s.latch := rfl
@[simp] theorem setSh_pins (k : Nat) (h : Stagehand) (s : State) : (setSh k h s).pins = s.pins := rfl
@[simp] theorem setSh_boot (k : Nat) (h : Stagehand) (s : State) : (setSh k h s).boot = s.boot := rfl
@[simp] theorem setSh_beat (k : Nat) (h : Stagehand) (s : State) : (setSh k h s).beat = s.beat := rfl
@[simp] theorem setSh_ro (k : Nat) (h : Stagehand) (s : State) : (setSh k h s).ro = s.ro := rfl
@[simp] theorem setSh_energy (k : Nat) (h : Stagehand) (s : State) : (setSh k h s).energy = s.energy := rfl
@[simp] theorem setSh_eng (k : Nat) (h : Stagehand) (s : State) : (setSh k h s).eng = s.eng := rfl
@[simp] theorem setSh_cue (k : Nat) (h : Stagehand) (s : State) : (setSh k h s).cue = s.cue := rfl
@[simp] theorem setSh_cueGrant (k : Nat) (h : Stagehand) (s : State) : (setSh k h s).cueGrant = s.cueGrant := rfl
@[simp] theorem setSh_flies (k : Nat) (h : Stagehand) (s : State) : (setSh k h s).flies = s.flies := rfl
@[simp] theorem setSh_mem (k : Nat) (h : Stagehand) (s : State) : (setSh k h s).mem = s.mem := rfl
@[simp] theorem setSh_hbm (k : Nat) (h : Stagehand) (s : State) : (setSh k h s).hbm = s.hbm := rfl
@[simp] theorem setSh_serve (k : Nat) (h : Stagehand) (s : State) : (setSh k h s).serve = s.serve := rfl
@[simp] theorem setSh_board (k : Nat) (h : Stagehand) (s : State) : (setSh k h s).board = s.board := rfl
@[simp] theorem setSh_curtain (k : Nat) (h : Stagehand) (s : State) : (setSh k h s).curtain = s.curtain := rfl
@[simp] theorem setSh_video (k : Nat) (h : Stagehand) (s : State) : (setSh k h s).video = s.video := rfl
@[simp] theorem setSh_net (k : Nat) (h : Stagehand) (s : State) : (setSh k h s).net = s.net := rfl
@[simp] theorem setSh_sec (k : Nat) (h : Stagehand) (s : State) : (setSh k h s).sec = s.sec := rfl
@[simp] theorem setSh_pair (k : Nat) (h : Stagehand) (s : State) : (setSh k h s).pair = s.pair := rfl
@[simp] theorem setSh_fault (k : Nat) (h : Stagehand) (s : State) : (setSh k h s).fault = s.fault := rfl
@[simp] theorem setSh_bist (k : Nat) (h : Stagehand) (s : State) : (setSh k h s).bist = s.bist := rfl
@[simp] theorem setSh_therm (k : Nat) (h : Stagehand) (s : State) : (setSh k h s).therm = s.therm := rfl
@[simp] theorem setSh_upd (k : Nat) (h : Stagehand) (s : State) : (setSh k h s).upd = s.upd := rfl
@[simp] theorem setSh_out (k : Nat) (h : Stagehand) (s : State) : (setSh k h s).out = s.out := rfl

/-! ### setCue -/

@[simp] theorem setCue_pending (i : Nat) (x : CueLight) (s : State) : (setCue i x s).pending = s.pending := rfl
@[simp] theorem setCue_time (i : Nat) (x : CueLight) (s : State) : (setCue i x s).time = s.time := rfl
@[simp] theorem setCue_free (i : Nat) (x : CueLight) (s : State) : (setCue i x s).free = s.free := rfl
@[simp] theorem setCue_regs (i : Nat) (x : CueLight) (s : State) : (setCue i x s).regs = s.regs := rfl
@[simp] theorem setCue_latch (i : Nat) (x : CueLight) (s : State) : (setCue i x s).latch = s.latch := rfl
@[simp] theorem setCue_pins (i : Nat) (x : CueLight) (s : State) : (setCue i x s).pins = s.pins := rfl
@[simp] theorem setCue_boot (i : Nat) (x : CueLight) (s : State) : (setCue i x s).boot = s.boot := rfl
@[simp] theorem setCue_beat (i : Nat) (x : CueLight) (s : State) : (setCue i x s).beat = s.beat := rfl
@[simp] theorem setCue_ro (i : Nat) (x : CueLight) (s : State) : (setCue i x s).ro = s.ro := rfl
@[simp] theorem setCue_energy (i : Nat) (x : CueLight) (s : State) : (setCue i x s).energy = s.energy := rfl
@[simp] theorem setCue_eng (i : Nat) (x : CueLight) (s : State) : (setCue i x s).eng = s.eng := rfl
@[simp] theorem setCue_sh (i : Nat) (x : CueLight) (s : State) : (setCue i x s).sh = s.sh := rfl
@[simp] theorem setCue_cueGrant (i : Nat) (x : CueLight) (s : State) : (setCue i x s).cueGrant = s.cueGrant := rfl
@[simp] theorem setCue_flies (i : Nat) (x : CueLight) (s : State) : (setCue i x s).flies = s.flies := rfl
@[simp] theorem setCue_mem (i : Nat) (x : CueLight) (s : State) : (setCue i x s).mem = s.mem := rfl
@[simp] theorem setCue_hbm (i : Nat) (x : CueLight) (s : State) : (setCue i x s).hbm = s.hbm := rfl
@[simp] theorem setCue_serve (i : Nat) (x : CueLight) (s : State) : (setCue i x s).serve = s.serve := rfl
@[simp] theorem setCue_board (i : Nat) (x : CueLight) (s : State) : (setCue i x s).board = s.board := rfl
@[simp] theorem setCue_curtain (i : Nat) (x : CueLight) (s : State) : (setCue i x s).curtain = s.curtain := rfl
@[simp] theorem setCue_video (i : Nat) (x : CueLight) (s : State) : (setCue i x s).video = s.video := rfl
@[simp] theorem setCue_net (i : Nat) (x : CueLight) (s : State) : (setCue i x s).net = s.net := rfl
@[simp] theorem setCue_sec (i : Nat) (x : CueLight) (s : State) : (setCue i x s).sec = s.sec := rfl
@[simp] theorem setCue_pair (i : Nat) (x : CueLight) (s : State) : (setCue i x s).pair = s.pair := rfl
@[simp] theorem setCue_fault (i : Nat) (x : CueLight) (s : State) : (setCue i x s).fault = s.fault := rfl
@[simp] theorem setCue_bist (i : Nat) (x : CueLight) (s : State) : (setCue i x s).bist = s.bist := rfl
@[simp] theorem setCue_therm (i : Nat) (x : CueLight) (s : State) : (setCue i x s).therm = s.therm := rfl
@[simp] theorem setCue_upd (i : Nat) (x : CueLight) (s : State) : (setCue i x s).upd = s.upd := rfl
@[simp] theorem setCue_out (i : Nat) (x : CueLight) (s : State) : (setCue i x s).out = s.out := rfl

/-! ### setFlat -/

@[simp] theorem setFlat_pending (f : Nat) (x : Flat) (s : State) : (setFlat f x s).pending = s.pending := rfl
@[simp] theorem setFlat_time (f : Nat) (x : Flat) (s : State) : (setFlat f x s).time = s.time := rfl
@[simp] theorem setFlat_free (f : Nat) (x : Flat) (s : State) : (setFlat f x s).free = s.free := rfl
@[simp] theorem setFlat_regs (f : Nat) (x : Flat) (s : State) : (setFlat f x s).regs = s.regs := rfl
@[simp] theorem setFlat_latch (f : Nat) (x : Flat) (s : State) : (setFlat f x s).latch = s.latch := rfl
@[simp] theorem setFlat_pins (f : Nat) (x : Flat) (s : State) : (setFlat f x s).pins = s.pins := rfl
@[simp] theorem setFlat_boot (f : Nat) (x : Flat) (s : State) : (setFlat f x s).boot = s.boot := rfl
@[simp] theorem setFlat_beat (f : Nat) (x : Flat) (s : State) : (setFlat f x s).beat = s.beat := rfl
@[simp] theorem setFlat_ro (f : Nat) (x : Flat) (s : State) : (setFlat f x s).ro = s.ro := rfl
@[simp] theorem setFlat_energy (f : Nat) (x : Flat) (s : State) : (setFlat f x s).energy = s.energy := rfl
@[simp] theorem setFlat_eng (f : Nat) (x : Flat) (s : State) : (setFlat f x s).eng = s.eng := rfl
@[simp] theorem setFlat_sh (f : Nat) (x : Flat) (s : State) : (setFlat f x s).sh = s.sh := rfl
@[simp] theorem setFlat_cue (f : Nat) (x : Flat) (s : State) : (setFlat f x s).cue = s.cue := rfl
@[simp] theorem setFlat_cueGrant (f : Nat) (x : Flat) (s : State) : (setFlat f x s).cueGrant = s.cueGrant := rfl
@[simp] theorem setFlat_mem (f : Nat) (x : Flat) (s : State) : (setFlat f x s).mem = s.mem := rfl
@[simp] theorem setFlat_hbm (f : Nat) (x : Flat) (s : State) : (setFlat f x s).hbm = s.hbm := rfl
@[simp] theorem setFlat_serve (f : Nat) (x : Flat) (s : State) : (setFlat f x s).serve = s.serve := rfl
@[simp] theorem setFlat_board (f : Nat) (x : Flat) (s : State) : (setFlat f x s).board = s.board := rfl
@[simp] theorem setFlat_curtain (f : Nat) (x : Flat) (s : State) : (setFlat f x s).curtain = s.curtain := rfl
@[simp] theorem setFlat_video (f : Nat) (x : Flat) (s : State) : (setFlat f x s).video = s.video := rfl
@[simp] theorem setFlat_net (f : Nat) (x : Flat) (s : State) : (setFlat f x s).net = s.net := rfl
@[simp] theorem setFlat_sec (f : Nat) (x : Flat) (s : State) : (setFlat f x s).sec = s.sec := rfl
@[simp] theorem setFlat_pair (f : Nat) (x : Flat) (s : State) : (setFlat f x s).pair = s.pair := rfl
@[simp] theorem setFlat_fault (f : Nat) (x : Flat) (s : State) : (setFlat f x s).fault = s.fault := rfl
@[simp] theorem setFlat_bist (f : Nat) (x : Flat) (s : State) : (setFlat f x s).bist = s.bist := rfl
@[simp] theorem setFlat_therm (f : Nat) (x : Flat) (s : State) : (setFlat f x s).therm = s.therm := rfl
@[simp] theorem setFlat_upd (f : Nat) (x : Flat) (s : State) : (setFlat f x s).upd = s.upd := rfl
@[simp] theorem setFlat_out (f : Nat) (x : Flat) (s : State) : (setFlat f x s).out = s.out := rfl

/-! ### flWrite -/

@[simp] theorem flWrite_pending (c : EntryCtx) (a : Nat) (bs : List Byte) (s : State) : (flWrite c a bs s).pending = s.pending := rfl
@[simp] theorem flWrite_time (c : EntryCtx) (a : Nat) (bs : List Byte) (s : State) : (flWrite c a bs s).time = s.time := rfl
@[simp] theorem flWrite_free (c : EntryCtx) (a : Nat) (bs : List Byte) (s : State) : (flWrite c a bs s).free = s.free := rfl
@[simp] theorem flWrite_regs (c : EntryCtx) (a : Nat) (bs : List Byte) (s : State) : (flWrite c a bs s).regs = s.regs := rfl
@[simp] theorem flWrite_latch (c : EntryCtx) (a : Nat) (bs : List Byte) (s : State) : (flWrite c a bs s).latch = s.latch := rfl
@[simp] theorem flWrite_pins (c : EntryCtx) (a : Nat) (bs : List Byte) (s : State) : (flWrite c a bs s).pins = s.pins := rfl
@[simp] theorem flWrite_boot (c : EntryCtx) (a : Nat) (bs : List Byte) (s : State) : (flWrite c a bs s).boot = s.boot := rfl
@[simp] theorem flWrite_beat (c : EntryCtx) (a : Nat) (bs : List Byte) (s : State) : (flWrite c a bs s).beat = s.beat := rfl
@[simp] theorem flWrite_ro (c : EntryCtx) (a : Nat) (bs : List Byte) (s : State) : (flWrite c a bs s).ro = s.ro := rfl
@[simp] theorem flWrite_energy (c : EntryCtx) (a : Nat) (bs : List Byte) (s : State) : (flWrite c a bs s).energy = s.energy := rfl
@[simp] theorem flWrite_eng (c : EntryCtx) (a : Nat) (bs : List Byte) (s : State) : (flWrite c a bs s).eng = s.eng := rfl
@[simp] theorem flWrite_sh (c : EntryCtx) (a : Nat) (bs : List Byte) (s : State) : (flWrite c a bs s).sh = s.sh := rfl
@[simp] theorem flWrite_cue (c : EntryCtx) (a : Nat) (bs : List Byte) (s : State) : (flWrite c a bs s).cue = s.cue := rfl
@[simp] theorem flWrite_cueGrant (c : EntryCtx) (a : Nat) (bs : List Byte) (s : State) : (flWrite c a bs s).cueGrant = s.cueGrant := rfl
@[simp] theorem flWrite_mem (c : EntryCtx) (a : Nat) (bs : List Byte) (s : State) : (flWrite c a bs s).mem = s.mem := rfl
@[simp] theorem flWrite_hbm (c : EntryCtx) (a : Nat) (bs : List Byte) (s : State) : (flWrite c a bs s).hbm = s.hbm := rfl
@[simp] theorem flWrite_serve (c : EntryCtx) (a : Nat) (bs : List Byte) (s : State) : (flWrite c a bs s).serve = s.serve := rfl
@[simp] theorem flWrite_board (c : EntryCtx) (a : Nat) (bs : List Byte) (s : State) : (flWrite c a bs s).board = s.board := rfl
@[simp] theorem flWrite_curtain (c : EntryCtx) (a : Nat) (bs : List Byte) (s : State) : (flWrite c a bs s).curtain = s.curtain := rfl
@[simp] theorem flWrite_video (c : EntryCtx) (a : Nat) (bs : List Byte) (s : State) : (flWrite c a bs s).video = s.video := rfl
@[simp] theorem flWrite_net (c : EntryCtx) (a : Nat) (bs : List Byte) (s : State) : (flWrite c a bs s).net = s.net := rfl
@[simp] theorem flWrite_sec (c : EntryCtx) (a : Nat) (bs : List Byte) (s : State) : (flWrite c a bs s).sec = s.sec := rfl
@[simp] theorem flWrite_pair (c : EntryCtx) (a : Nat) (bs : List Byte) (s : State) : (flWrite c a bs s).pair = s.pair := rfl
@[simp] theorem flWrite_fault (c : EntryCtx) (a : Nat) (bs : List Byte) (s : State) : (flWrite c a bs s).fault = s.fault := rfl
@[simp] theorem flWrite_bist (c : EntryCtx) (a : Nat) (bs : List Byte) (s : State) : (flWrite c a bs s).bist = s.bist := rfl
@[simp] theorem flWrite_therm (c : EntryCtx) (a : Nat) (bs : List Byte) (s : State) : (flWrite c a bs s).therm = s.therm := rfl
@[simp] theorem flWrite_upd (c : EntryCtx) (a : Nat) (bs : List Byte) (s : State) : (flWrite c a bs s).upd = s.upd := rfl
@[simp] theorem flWrite_out (c : EntryCtx) (a : Nat) (bs : List Byte) (s : State) : (flWrite c a bs s).out = s.out := rfl

/-! ### modGroup -/

@[simp] theorem modGroup_pending (p k : Nat) (g : Group → Group) (s : State) : (modGroup p k g s).pending = s.pending := rfl
@[simp] theorem modGroup_time (p k : Nat) (g : Group → Group) (s : State) : (modGroup p k g s).time = s.time := rfl
@[simp] theorem modGroup_free (p k : Nat) (g : Group → Group) (s : State) : (modGroup p k g s).free = s.free := rfl
@[simp] theorem modGroup_regs (p k : Nat) (g : Group → Group) (s : State) : (modGroup p k g s).regs = s.regs := rfl
@[simp] theorem modGroup_latch (p k : Nat) (g : Group → Group) (s : State) : (modGroup p k g s).latch = s.latch := rfl
@[simp] theorem modGroup_pins (p k : Nat) (g : Group → Group) (s : State) : (modGroup p k g s).pins = s.pins := rfl
@[simp] theorem modGroup_boot (p k : Nat) (g : Group → Group) (s : State) : (modGroup p k g s).boot = s.boot := rfl
@[simp] theorem modGroup_beat (p k : Nat) (g : Group → Group) (s : State) : (modGroup p k g s).beat = s.beat := rfl
@[simp] theorem modGroup_ro (p k : Nat) (g : Group → Group) (s : State) : (modGroup p k g s).ro = s.ro := rfl
@[simp] theorem modGroup_energy (p k : Nat) (g : Group → Group) (s : State) : (modGroup p k g s).energy = s.energy := rfl
@[simp] theorem modGroup_eng (p k : Nat) (g : Group → Group) (s : State) : (modGroup p k g s).eng = s.eng := rfl
@[simp] theorem modGroup_sh (p k : Nat) (g : Group → Group) (s : State) : (modGroup p k g s).sh = s.sh := rfl
@[simp] theorem modGroup_cue (p k : Nat) (g : Group → Group) (s : State) : (modGroup p k g s).cue = s.cue := rfl
@[simp] theorem modGroup_cueGrant (p k : Nat) (g : Group → Group) (s : State) : (modGroup p k g s).cueGrant = s.cueGrant := rfl
@[simp] theorem modGroup_flies (p k : Nat) (g : Group → Group) (s : State) : (modGroup p k g s).flies = s.flies := rfl
@[simp] theorem modGroup_mem (p k : Nat) (g : Group → Group) (s : State) : (modGroup p k g s).mem = s.mem := rfl
@[simp] theorem modGroup_hbm (p k : Nat) (g : Group → Group) (s : State) : (modGroup p k g s).hbm = s.hbm := rfl
@[simp] theorem modGroup_board (p k : Nat) (g : Group → Group) (s : State) : (modGroup p k g s).board = s.board := rfl
@[simp] theorem modGroup_curtain (p k : Nat) (g : Group → Group) (s : State) : (modGroup p k g s).curtain = s.curtain := rfl
@[simp] theorem modGroup_video (p k : Nat) (g : Group → Group) (s : State) : (modGroup p k g s).video = s.video := rfl
@[simp] theorem modGroup_net (p k : Nat) (g : Group → Group) (s : State) : (modGroup p k g s).net = s.net := rfl
@[simp] theorem modGroup_sec (p k : Nat) (g : Group → Group) (s : State) : (modGroup p k g s).sec = s.sec := rfl
@[simp] theorem modGroup_pair (p k : Nat) (g : Group → Group) (s : State) : (modGroup p k g s).pair = s.pair := rfl
@[simp] theorem modGroup_fault (p k : Nat) (g : Group → Group) (s : State) : (modGroup p k g s).fault = s.fault := rfl
@[simp] theorem modGroup_bist (p k : Nat) (g : Group → Group) (s : State) : (modGroup p k g s).bist = s.bist := rfl
@[simp] theorem modGroup_therm (p k : Nat) (g : Group → Group) (s : State) : (modGroup p k g s).therm = s.therm := rfl
@[simp] theorem modGroup_upd (p k : Nat) (g : Group → Group) (s : State) : (modGroup p k g s).upd = s.upd := rfl
@[simp] theorem modGroup_out (p k : Nat) (g : Group → Group) (s : State) : (modGroup p k g s).out = s.out := rfl

/-! ### setEntry -/

@[simp] theorem setEntry_pending (i : Nat) (x : EntryStatus) (s : State) : (setEntry i x s).pending = s.pending := rfl
@[simp] theorem setEntry_time (i : Nat) (x : EntryStatus) (s : State) : (setEntry i x s).time = s.time := rfl
@[simp] theorem setEntry_free (i : Nat) (x : EntryStatus) (s : State) : (setEntry i x s).free = s.free := rfl
@[simp] theorem setEntry_regs (i : Nat) (x : EntryStatus) (s : State) : (setEntry i x s).regs = s.regs := rfl
@[simp] theorem setEntry_latch (i : Nat) (x : EntryStatus) (s : State) : (setEntry i x s).latch = s.latch := rfl
@[simp] theorem setEntry_pins (i : Nat) (x : EntryStatus) (s : State) : (setEntry i x s).pins = s.pins := rfl
@[simp] theorem setEntry_boot (i : Nat) (x : EntryStatus) (s : State) : (setEntry i x s).boot = s.boot := rfl
@[simp] theorem setEntry_beat (i : Nat) (x : EntryStatus) (s : State) : (setEntry i x s).beat = s.beat := rfl
@[simp] theorem setEntry_energy (i : Nat) (x : EntryStatus) (s : State) : (setEntry i x s).energy = s.energy := rfl
@[simp] theorem setEntry_eng (i : Nat) (x : EntryStatus) (s : State) : (setEntry i x s).eng = s.eng := rfl
@[simp] theorem setEntry_sh (i : Nat) (x : EntryStatus) (s : State) : (setEntry i x s).sh = s.sh := rfl
@[simp] theorem setEntry_cue (i : Nat) (x : EntryStatus) (s : State) : (setEntry i x s).cue = s.cue := rfl
@[simp] theorem setEntry_cueGrant (i : Nat) (x : EntryStatus) (s : State) : (setEntry i x s).cueGrant = s.cueGrant := rfl
@[simp] theorem setEntry_flies (i : Nat) (x : EntryStatus) (s : State) : (setEntry i x s).flies = s.flies := rfl
@[simp] theorem setEntry_mem (i : Nat) (x : EntryStatus) (s : State) : (setEntry i x s).mem = s.mem := rfl
@[simp] theorem setEntry_hbm (i : Nat) (x : EntryStatus) (s : State) : (setEntry i x s).hbm = s.hbm := rfl
@[simp] theorem setEntry_serve (i : Nat) (x : EntryStatus) (s : State) : (setEntry i x s).serve = s.serve := rfl
@[simp] theorem setEntry_board (i : Nat) (x : EntryStatus) (s : State) : (setEntry i x s).board = s.board := rfl
@[simp] theorem setEntry_curtain (i : Nat) (x : EntryStatus) (s : State) : (setEntry i x s).curtain = s.curtain := rfl
@[simp] theorem setEntry_video (i : Nat) (x : EntryStatus) (s : State) : (setEntry i x s).video = s.video := rfl
@[simp] theorem setEntry_net (i : Nat) (x : EntryStatus) (s : State) : (setEntry i x s).net = s.net := rfl
@[simp] theorem setEntry_sec (i : Nat) (x : EntryStatus) (s : State) : (setEntry i x s).sec = s.sec := rfl
@[simp] theorem setEntry_pair (i : Nat) (x : EntryStatus) (s : State) : (setEntry i x s).pair = s.pair := rfl
@[simp] theorem setEntry_fault (i : Nat) (x : EntryStatus) (s : State) : (setEntry i x s).fault = s.fault := rfl
@[simp] theorem setEntry_bist (i : Nat) (x : EntryStatus) (s : State) : (setEntry i x s).bist = s.bist := rfl
@[simp] theorem setEntry_therm (i : Nat) (x : EntryStatus) (s : State) : (setEntry i x s).therm = s.therm := rfl
@[simp] theorem setEntry_upd (i : Nat) (x : EntryStatus) (s : State) : (setEntry i x s).upd = s.upd := rfl
@[simp] theorem setEntry_out (i : Nat) (x : EntryStatus) (s : State) : (setEntry i x s).out = s.out := rfl

/-! ### drawn -/

@[simp] theorem drawn_pending (s : State) : (drawn s).pending = s.pending := rfl
@[simp] theorem drawn_time (s : State) : (drawn s).time = s.time := rfl
@[simp] theorem drawn_regs (s : State) : (drawn s).regs = s.regs := rfl
@[simp] theorem drawn_latch (s : State) : (drawn s).latch = s.latch := rfl
@[simp] theorem drawn_pins (s : State) : (drawn s).pins = s.pins := rfl
@[simp] theorem drawn_boot (s : State) : (drawn s).boot = s.boot := rfl
@[simp] theorem drawn_beat (s : State) : (drawn s).beat = s.beat := rfl
@[simp] theorem drawn_ro (s : State) : (drawn s).ro = s.ro := rfl
@[simp] theorem drawn_energy (s : State) : (drawn s).energy = s.energy := rfl
@[simp] theorem drawn_eng (s : State) : (drawn s).eng = s.eng := rfl
@[simp] theorem drawn_sh (s : State) : (drawn s).sh = s.sh := rfl
@[simp] theorem drawn_cue (s : State) : (drawn s).cue = s.cue := rfl
@[simp] theorem drawn_cueGrant (s : State) : (drawn s).cueGrant = s.cueGrant := rfl
@[simp] theorem drawn_flies (s : State) : (drawn s).flies = s.flies := rfl
@[simp] theorem drawn_mem (s : State) : (drawn s).mem = s.mem := rfl
@[simp] theorem drawn_hbm (s : State) : (drawn s).hbm = s.hbm := rfl
@[simp] theorem drawn_serve (s : State) : (drawn s).serve = s.serve := rfl
@[simp] theorem drawn_board (s : State) : (drawn s).board = s.board := rfl
@[simp] theorem drawn_curtain (s : State) : (drawn s).curtain = s.curtain := rfl
@[simp] theorem drawn_video (s : State) : (drawn s).video = s.video := rfl
@[simp] theorem drawn_net (s : State) : (drawn s).net = s.net := rfl
@[simp] theorem drawn_sec (s : State) : (drawn s).sec = s.sec := rfl
@[simp] theorem drawn_pair (s : State) : (drawn s).pair = s.pair := rfl
@[simp] theorem drawn_fault (s : State) : (drawn s).fault = s.fault := rfl
@[simp] theorem drawn_bist (s : State) : (drawn s).bist = s.bist := rfl
@[simp] theorem drawn_therm (s : State) : (drawn s).therm = s.therm := rfl
@[simp] theorem drawn_upd (s : State) : (drawn s).upd = s.upd := rfl
@[simp] theorem drawn_out (s : State) : (drawn s).out = s.out := rfl

/-! ### passUs -/

@[simp] theorem passUs_pending (n : Nat) (s : State) : (passUs n s).pending = s.pending := by unfold passUs; split <;> rfl
@[simp] theorem passUs_free (n : Nat) (s : State) : (passUs n s).free = s.free := by unfold passUs; split <;> rfl
@[simp] theorem passUs_regs (n : Nat) (s : State) : (passUs n s).regs = s.regs := by unfold passUs; split <;> rfl
@[simp] theorem passUs_latch (n : Nat) (s : State) : (passUs n s).latch = s.latch := by unfold passUs; split <;> rfl
@[simp] theorem passUs_pins (n : Nat) (s : State) : (passUs n s).pins = s.pins := by unfold passUs; split <;> rfl
@[simp] theorem passUs_boot (n : Nat) (s : State) : (passUs n s).boot = s.boot := by unfold passUs; split <;> rfl
@[simp] theorem passUs_ro (n : Nat) (s : State) : (passUs n s).ro = s.ro := by unfold passUs; split <;> rfl
@[simp] theorem passUs_energy (n : Nat) (s : State) : (passUs n s).energy = s.energy := by unfold passUs; split <;> rfl
@[simp] theorem passUs_eng (n : Nat) (s : State) : (passUs n s).eng = s.eng := by unfold passUs; split <;> rfl
@[simp] theorem passUs_sh (n : Nat) (s : State) : (passUs n s).sh = s.sh := by unfold passUs; split <;> rfl
@[simp] theorem passUs_cue (n : Nat) (s : State) : (passUs n s).cue = s.cue := by unfold passUs; split <;> rfl
@[simp] theorem passUs_cueGrant (n : Nat) (s : State) : (passUs n s).cueGrant = s.cueGrant := by unfold passUs; split <;> rfl
@[simp] theorem passUs_flies (n : Nat) (s : State) : (passUs n s).flies = s.flies := by unfold passUs; split <;> rfl
@[simp] theorem passUs_mem (n : Nat) (s : State) : (passUs n s).mem = s.mem := by unfold passUs; split <;> rfl
@[simp] theorem passUs_hbm (n : Nat) (s : State) : (passUs n s).hbm = s.hbm := by unfold passUs; split <;> rfl
@[simp] theorem passUs_serve (n : Nat) (s : State) : (passUs n s).serve = s.serve := by unfold passUs; split <;> rfl
@[simp] theorem passUs_board (n : Nat) (s : State) : (passUs n s).board = s.board := by unfold passUs; split <;> rfl
@[simp] theorem passUs_curtain (n : Nat) (s : State) : (passUs n s).curtain = s.curtain := by unfold passUs; split <;> rfl
@[simp] theorem passUs_video (n : Nat) (s : State) : (passUs n s).video = s.video := by unfold passUs; split <;> rfl
@[simp] theorem passUs_net (n : Nat) (s : State) : (passUs n s).net = s.net := by unfold passUs; split <;> rfl
@[simp] theorem passUs_sec (n : Nat) (s : State) : (passUs n s).sec = s.sec := by unfold passUs; split <;> rfl
@[simp] theorem passUs_pair (n : Nat) (s : State) : (passUs n s).pair = s.pair := by unfold passUs; split <;> rfl
@[simp] theorem passUs_fault (n : Nat) (s : State) : (passUs n s).fault = s.fault := by unfold passUs; split <;> rfl
@[simp] theorem passUs_bist (n : Nat) (s : State) : (passUs n s).bist = s.bist := by unfold passUs; split <;> rfl
@[simp] theorem passUs_therm (n : Nat) (s : State) : (passUs n s).therm = s.therm := by unfold passUs; split <;> rfl
@[simp] theorem passUs_upd (n : Nat) (s : State) : (passUs n s).upd = s.upd := by unfold passUs; split <;> rfl
@[simp] theorem passUs_out (n : Nat) (s : State) : (passUs n s).out = s.out := by unfold passUs; split <;> rfl

/-- Only the time and the phase of the running Beat move. -/
theorem passUs_frame (n : Nat) (s : State) : { passUs n s with time := s.time, beat := s.beat } = s := by
  unfold passUs; split <;> rfl

theorem passUs_beat (n : Nat) (s : State) : { (passUs n s).beat with phaseUs := s.beat.phaseUs } = s.beat := by
  unfold passUs; split <;> rfl

theorem le_passUs_time (n : Nat) (s : State) : s.time ≤ (passUs n s).time := by
  unfold passUs; split
  · exact Nat.le_add_right _ _
  · exact Nat.le_refl _

/-- What is to happen at a moment happens when time has reached it, or not at all. -/
theorem atTime_cases (t : Nat) (f : State → State) (s : State) :
    atTime t f s = s ∨ t ≤ (passTo t s).time ∧ atTime t f s = f (passTo t s) := by
  unfold atTime; split
  · exact .inr ⟨‹_›, rfl⟩
  · exact .inl rfl

/-! ### Reading what was written -/

@[simp] theorem regW_setReg_self (a : Nat) (w : Word) (s : State) : regW (setReg a w s) a = w := by
  simp [regW, setReg]

theorem regW_setReg_of_ne {a b : Nat} (w : Word) (s : State) (h : b ≠ a) : regW (setReg a w s) b = regW s b := by
  simp [regW, setReg, tabGet_set_of_ne _ _ _ h]

@[simp] theorem engOf_setEng_self (e : Nat) (x : Engine) (s : State) : engOf (setEng e x s) e = x := by
  simp [engOf, setEng]

theorem engOf_setEng_of_ne {e k : Nat} (x : Engine) (s : State) (h : k ≠ e) : engOf (setEng e x s) k = engOf s k := by
  simp [engOf, setEng, tabGet_set_of_ne _ _ _ h]

@[simp] theorem shOf_setSh_self (k : Nat) (h : Stagehand) (s : State) : shOf (setSh k h s) k = h := by
  simp [shOf, setSh]

theorem shOf_setSh_of_ne {k j : Nat} (x : Stagehand) (s : State) (h : j ≠ k) : shOf (setSh k x s) j = shOf s j := by
  simp [shOf, setSh, tabGet_set_of_ne _ _ _ h]

@[simp] theorem cueOf_setCue_self (i : Nat) (x : CueLight) (s : State) : cueOf (setCue i x s) i = x := by
  simp [cueOf, setCue]

theorem cueOf_setCue_of_ne {i j : Nat} (x : CueLight) (s : State) (h : j ≠ i) : cueOf (setCue i x s) j = cueOf s j := by
  simp [cueOf, setCue, tabGet_set_of_ne _ _ _ h]

@[simp] theorem flatOf_setFlat_self (f : Nat) (x : Flat) (s : State) : flatOf (setFlat f x s) f = x := by
  simp [flatOf, setFlat]

theorem flatOf_setFlat_of_ne {f g : Nat} (x : Flat) (s : State) (h : g ≠ f) : flatOf (setFlat f x s) g = flatOf s g := by
  simp [flatOf, setFlat, tabGet_set_of_ne _ _ _ h]

@[simp] theorem engOf_setReg (a : Nat) (w : Word) (s : State) (q : Nat) : engOf (setReg a w s) q = engOf s q := rfl
@[simp] theorem engOf_setSh (k : Nat) (h : Stagehand) (s : State) (q : Nat) : engOf (setSh k h s) q = engOf s q := rfl
@[simp] theorem engOf_setCue (i : Nat) (x : CueLight) (s : State) (q : Nat) : engOf (setCue i x s) q = engOf s q := rfl
@[simp] theorem engOf_setFlat (f : Nat) (x : Flat) (s : State) (q : Nat) : engOf (setFlat f x s) q = engOf s q := rfl
@[simp] theorem engOf_setEntry (i : Nat) (x : EntryStatus) (s : State) (q : Nat) : engOf (setEntry i x s) q = engOf s q := rfl
@[simp] theorem engOf_emit (m : OutMsg) (s : State) (q : Nat) : engOf (emit m s) q = engOf s q := rfl
@[simp] theorem shOf_setReg (a : Nat) (w : Word) (s : State) (q : Nat) : shOf (setReg a w s) q = shOf s q := rfl
@[simp] theorem shOf_setEng (e : Nat) (x : Engine) (s : State) (q : Nat) : shOf (setEng e x s) q = shOf s q := rfl
@[simp] theorem shOf_setCue (i : Nat) (x : CueLight) (s : State) (q : Nat) : shOf (setCue i x s) q = shOf s q := rfl
@[simp] theorem shOf_setFlat (f : Nat) (x : Flat) (s : State) (q : Nat) : shOf (setFlat f x s) q = shOf s q := rfl
@[simp] theorem shOf_emit (m : OutMsg) (s : State) (q : Nat) : shOf (emit m s) q = shOf s q := rfl
@[simp] theorem cueOf_setReg (a : Nat) (w : Word) (s : State) (q : Nat) : cueOf (setReg a w s) q = cueOf s q := rfl
@[simp] theorem cueOf_setEng (e : Nat) (x : Engine) (s : State) (q : Nat) : cueOf (setEng e x s) q = cueOf s q := rfl
@[simp] theorem cueOf_setSh (k : Nat) (h : Stagehand) (s : State) (q : Nat) : cueOf (setSh k h s) q = cueOf s q := rfl
@[simp] theorem cueOf_setFlat (f : Nat) (x : Flat) (s : State) (q : Nat) : cueOf (setFlat f x s) q = cueOf s q := rfl
@[simp] theorem cueOf_emit (m : OutMsg) (s : State) (q : Nat) : cueOf (emit m s) q = cueOf s q := rfl
@[simp] theorem regW_setEng (e : Nat) (x : Engine) (s : State) (q : Nat) : regW (setEng e x s) q = regW s q := rfl
@[simp] theorem regW_setSh (k : Nat) (h : Stagehand) (s : State) (q : Nat) : regW (setSh k h s) q = regW s q := rfl
@[simp] theorem regW_setCue (i : Nat) (x : CueLight) (s : State) (q : Nat) : regW (setCue i x s) q = regW s q := rfl
@[simp] theorem regW_setFlat (f : Nat) (x : Flat) (s : State) (q : Nat) : regW (setFlat f x s) q = regW s q := rfl
@[simp] theorem regW_emit (m : OutMsg) (s : State) (q : Nat) : regW (emit m s) q = regW s q := rfl

end Sys2Proof.Machine
end

