-- ==== Sys2Proof/Laws/Engine.lean ====
section
/-! SUPPORT. Laws of an engine's register files and of instruction issue. -/

namespace Sys2Proof.Machine

open Sys2Proof

/-! ### The register files (R107) -/

/-- A scalar register reads what was written to it; s0 discards writes. -/
theorem rdS_wrS (x : Engine) (r q : BitVec 5) (v : DWord) :
    rdS (wrS x r v) q = if q = r ∧ r ≠ 0 then v else rdS x q := by
  unfold rdS wrS
  by_cases hr : r = 0
  · subst hr; simp
  · by_cases hq : q = 0
    · subst hq
      have : ¬ ((0 : BitVec 5) = r ∧ r ≠ 0) := fun h => hr h.1.symm
      rw [if_pos rfl, if_neg this, if_pos rfl]
    · by_cases h : q = r
      · subst h; rw [if_neg hq, if_neg hq, if_pos ⟨rfl, hq⟩, tabGet_set_self]
      · have h' : q.toNat ≠ r.toNat := fun e => h (BitVec.eq_of_toNat_eq e)
        have : ¬ (q = r ∧ r ≠ 0) := fun k => h k.1
        rw [if_neg hq, if_neg hr, if_neg this, if_neg hq, tabGet_set_of_ne _ _ _ h']

/-- A predicate reads what was written to it; p0 reads all ones. -/
theorem rdP_wrP (x : Engine) (r q : Nat) (v : BitVec 128) :
    rdP (wrP x r v) q = if q = r ∧ r ≠ 0 then v else rdP x q := by
  unfold rdP wrP
  by_cases hr : r = 0
  · simp [hr]
  · by_cases hq : q = 0
    · subst hq; simp [hr, Ne.symm hr]
    · by_cases h : q = r
      · subst h; simp [hr]
      · simp [hr, hq, h, tabGet_set_of_ne _ _ _ h]

@[simp] theorem rdV_length (x : Engine) (r : Nat) : (rdV x r).length = 128 := by simp [rdV]

/-- A vector register reads what was written to it. -/
theorem rdV_wrV (x : Engine) (r q : Nat) (ls : List Word) (h : ls.length = 128) :
    rdV (wrV x r ls) q = if q = r then ls else rdV x q := by
  have ht : ls.take 128 = ls := by simp [h]
  unfold rdV wrV
  rw [ht]
  split
  · rename_i hq; subst hq
    have := tabRead_write (0#32) x.v (128 * q) ls
    rw [h] at this; exact this
  · rename_i hq
    exact tabRead_write_disjoint _ _ _ _ _ _ (by rw [h]; omega)

/-- LM reads what was stored, and every other byte as before. -/
theorem lm_lmWrite (x : Engine) (a b : Nat) (bs : List Byte) :
    tabGet 0#8 (lmWrite x a bs).lm b = if a ≤ b ∧ b < a + bs.length then bs.getD (b - a) 0 else tabGet 0#8 x.lm b :=
  tabGet_write 0#8 bs x.lm a b

@[simp] theorem advance_pc (x : Engine) : (advance x).pc = x.pc + 8#20 := rfl
@[simp] theorem wrS_pc (x : Engine) (r : BitVec 5) (v : DWord) : (wrS x r v).pc = x.pc := by unfold wrS; split <;> rfl
@[simp] theorem wrP_pc (x : Engine) (r : Nat) (v : BitVec 128) : (wrP x r v).pc = x.pc := by unfold wrP; split <;> rfl
@[simp] theorem wrV_pc (x : Engine) (r : Nat) (ls : List Word) : (wrV x r ls).pc = x.pc := rfl
@[simp] theorem lmWrite_pc (x : Engine) (a : Nat) (bs : List Byte) : (lmWrite x a bs).pc = x.pc := rfl

/-- A write of a scalar register changes that register file only. -/
theorem wrS_rest (x : Engine) (r : BitVec 5) (v : DWord) : { wrS x r v with s := x.s } = x := by unfold wrS; split <;> rfl
theorem wrP_rest (x : Engine) (r : Nat) (v : BitVec 128) : { wrP x r v with p := x.p } = x := by unfold wrP; split <;> rfl

/-! ### Issue (R131, R155, R156) -/

/-- What `issue` does when the next instruction of an engine issues. -/
theorem issue_eq {e : Nat} {s : State} {c : EntryCtx} (g : EntryCtx → Engine → IRes)
    (he : e < 36) (hr : (engOf s e).run = some c) (hp : (engOf s e).phase = .running) (hw : (engOf s e).wait = none)
    (hd : (engOf s e).deferred.any Deferred.reported = false) :
    issue e s g = match g c (engOf s e) with
      | .ok t => .next t
      | .exc cause a => .next (raiseExc e cause (engOf s e).pc.toNat a 0 [] s)
      | .stall => .next s := by
  simp only [issue, need, he, decide_true, if_true, hr, hp, hw, hd]
  cases g c (engOf s e) <;> simp

/-- A word that holds a reserved field value raises ILLEGAL; any other does what its meaning says. -/
theorem runEng_eq {e : Nat} {s : State} {c : EntryCtx} (major func : Nat) (f : Fields) (g : EntryCtx → Engine → IRes)
    (he : e < 36) (hr : (engOf s e).run = some c) (hp : (engOf s e).phase = .running) (hw : (engOf s e).wait = none)
    (hd : (engOf s e).deferred.any Deferred.reported = false) (hk : wordOk major func f = true) :
    runEng e major func f s g = match g c (engOf s e) with
      | .ok t => .next t
      | .exc cause a => .next (raiseExc e cause (engOf s e).pc.toNat a 0 [] s)
      | .stall => .next s := by
  unfold runEng
  rw [issue_eq _ he hr hp hw hd]
  simp only [hk, if_true]

theorem runReg_eq {e : Nat} {s : State} {c : EntryCtx} (major func : Nat) (f : Fields) (g : Engine → Engine)
    (he : e < 36) (hr : (engOf s e).run = some c) (hp : (engOf s e).phase = .running) (hw : (engOf s e).wait = none)
    (hd : (engOf s e).deferred.any Deferred.reported = false) (hk : wordOk major func f = true) :
    runReg e major func f s g = .next (setEng e (advance (g (engOf s e))) s) := by
  unfold runReg
  rw [runEng_eq major func f _ he hr hp hw hd hk]

/-- Check laws. -/
theorem chkLm_ok {x : Engine} {a n al : Nat} (h1 : a % al = 0) (h2 : a + n ≤ 0xC00000) (h3 : lmBusy x a n = false) :
    chkLm x a n al = .ok := by
  have : ¬ a + n > lmSize := by unfold lmSize; omega
  simp [chkLm, h1, this, h3]

theorem chkFl_ok {s : State} {c : EntryCtx} {a n al : Nat} (h1 : a % al = 0) (h2 : a + n ≤ flSize c)
    (h3 : flUnderTest s c a n = false) : chkFl s c a n al = .ok := by
  have : ¬ a + n > flSize c := by omega
  simp [chkFl, h1, this, h3]

@[simp] theorem Chk.run_ok (r : IRes) : Chk.ok.run r = r := rfl

end Sys2Proof.Machine
end

