-- ==== Sys2Proof/Laws/Memory.lean ====
section
/-! SUPPORT. The memory operations keep the canonical form of main memory and of the Flies. What changes neither is said once,
as `sameBytes`; what stores is said by `Memory.wf`. -/

namespace Sys2Proof.Machine

open Sys2Proof

/-- No byte of main memory or of the Flies has changed. -/
def sameBytes (s t : State) : Prop := t.mem.bytes = s.mem.bytes ∧ t.flies.mem = s.flies.mem

theorem sameBytes_refl (s : State) : sameBytes s s := ⟨rfl, rfl⟩

theorem sameBytes_trans {s t u : State} (h : sameBytes s t) (g : sameBytes t u) : sameBytes s u :=
  ⟨g.1.trans h.1, g.2.trans h.2⟩

theorem wf_of_sameBytes {s t : State} (h : sameBytes s t) (w : Memory.wf s = true) : Memory.wf t = true := by
  simp only [Memory.wf, h.1, h.2]; exact w

theorem sameBytes_foldl {β : Type} (f : State → β → State) (hf : ∀ t b, sameBytes t (f t b)) (xs : List β) (s : State) :
    sameBytes s (xs.foldl f s) := by
  induction xs generalizing s with
  | nil => exact sameBytes_refl s
  | cons x xs ih => exact sameBytes_trans (hf s x) (ih _)

theorem wf_foldl {β : Type} (f : State → β → State) (hf : ∀ t b, Memory.wf t = true → Memory.wf (f t b) = true) (xs : List β)
    (s : State) (h : Memory.wf s = true) : Memory.wf (xs.foldl f s) = true := by
  induction xs generalizing s with
  | nil => exact h
  | cons x xs ih => exact ih _ (hf s x h)

theorem wf_iff (s : State) : Memory.wf s = true ↔ tabWf 0#8 s.mem.bytes = true ∧ tabWf 0#8 s.flies.mem = true := by
  simp [Memory.wf]

theorem tabWf_foldl_set {α β : Type} [DecidableEq α] (d : α) (key : β → Nat) (val : β → α) (xs : List β) (t : Tab α)
    (h : tabWf d t = true) : tabWf d (xs.foldl (fun t e => tabSet d t (key e) (val e)) t) = true := by
  induction xs generalizing t with
  | nil => exact h
  | cons x xs ih => exact ih _ (tabSet_wf d t _ _ h)

theorem tabWf_foldl_clear {α : Type} [DecidableEq α] (d : α) (key : Nat → Nat) (n : Nat) (xs : List Nat) (t : Tab α)
    (h : tabWf d t = true) : tabWf d (xs.foldl (fun t f => tabClear t (key f) n) t) = true := by
  induction xs generalizing t with
  | nil => exact h
  | cons x xs ih => exact ih _ (tabClear_wf d t _ _ h)

/-- The memories after reset are in canonical form. -/
theorem reset_wf : Memory.wf State.reset = true := rfl

/-! ### What changes no byte -/

theorem sameBytes_setReg (a : Nat) (w : Word) (s : State) : sameBytes s (setReg a w s) := by simp [sameBytes]

theorem sameBytes_bump (a : Nat) (s : State) : sameBytes s (bump a s) := sameBytes_setReg _ _ s

theorem sameBytes_logEvent (v : FaultEvent) (s : State) : sameBytes s (logEvent v s) := by
  unfold logEvent
  split
  · simp [sameBytes]
  · exact sameBytes_trans (by simp [sameBytes]) (sameBytes_bump _ _)

theorem sameBytes_setQp (fn k : Nat) (q : QPair) (s : State) : sameBytes s (setQp fn k q s) := by simp [sameBytes, setQp]

theorem sameBytes_ringWrite (e : Nat) (st : Status) (p : Nat) (w : Bool) (n q r : Nat) (s : State) :
    sameBytes s (ringWrite e st p w n q r s) := by
  unfold ringWrite
  dsimp only
  exact ⟨rfl, rfl⟩

theorem sameBytes_dropResult (id : Nat) (s : State) : sameBytes s (dropResult id s) := by
  unfold dropResult
  split
  · exact sameBytes_refl s
  · exact sameBytes_trans (by simp [sameBytes, forgetResult]) (sameBytes_ringWrite _ _ _ _ _ _ _ _)

theorem sameBytes_dropAtPort (k : Nat) (ev : OutEvent) (s : State) : sameBytes s (dropAtPort k ev s) := by
  unfold dropAtPort
  split
  · exact sameBytes_trans (sameBytes_bump _ s) (sameBytes_dropResult _ _)
  · exact sameBytes_refl s

theorem sameBytes_queueEvent (fn k : Nat) (ev : OutEvent) (s : State) : sameBytes s (queueEvent fn k ev s) := by
  unfold queueEvent
  dsimp only
  split
  · exact sameBytes_setQp _ _ _ s
  · exact sameBytes_trans (sameBytes_setQp _ _ _ s) (sameBytes_dropAtPort _ _ _)

theorem sameBytes_setSlot (i : Nat) (x : Slot) (s : State) : sameBytes s (setSlot i x s) := by simp [sameBytes, setSlot]

theorem sameBytes_slotTo (i : Nat) (st : SlotState) (status : Status) (s : State) : sameBytes s (slotTo i st status s) := by
  unfold slotTo
  dsimp only
  split
  · exact sameBytes_setSlot _ _ s
  · split
    · exact sameBytes_trans (sameBytes_setSlot _ _ s) (sameBytes_queueEvent _ _ _ _)
    · exact sameBytes_setSlot _ _ s

theorem sameBytes_setReq (i : Nat) (r : Option Request) (s : State) : sameBytes s (setReq i r s) := by
  simp [sameBytes, setReq]

theorem sameBytes_bumpServe (p k : Nat) (s : State) : sameBytes s (bumpServe p k s) := by simp [sameBytes, bumpServe]

/-- A request that ends changes no byte. -/
theorem sameBytes_failRequest (i : Nat) (status : Status) (unit : BitVec 16) (s : State) :
    sameBytes s (failRequest i status unit s) := by
  have bumpIf : ∀ (p : Prop) [Decidable p] (a : Nat) (u : State), sameBytes u (if p then bump a u else u) := by
    intro p _ a u
    split
    · exact sameBytes_bump _ u
    · exact sameBytes_refl u
  unfold failRequest endRequest
  split
  · exact sameBytes_refl s
  · split
    · exact sameBytes_refl s
    · exact sameBytes_trans (sameBytes_trans (sameBytes_trans (sameBytes_trans (sameBytes_trans (sameBytes_setReq _ _ s)
        (sameBytes_ringWrite _ _ _ _ _ _ _ _)) (sameBytes_bumpServe _ _ _)) (bumpIf _ _ _)) (bumpIf _ _ _))
        (sameBytes_foldl _ (fun t k => sameBytes_slotTo k _ _ t) _ _)

theorem sameBytes_failRequests (p : Request → Bool) (status : Status) (unit : BitVec 16) (s : State) :
    sameBytes s (failRequests p status unit s) := sameBytes_foldl _ (fun t i => sameBytes_failRequest i _ _ t) _ _

theorem sameBytes_lowerFrame (f : Nat) (s : State) : sameBytes s (lowerFrame f s) := by
  unfold lowerFrame
  dsimp only
  split <;> simp [sameBytes, freeFrame, setFrame]

theorem sameBytes_relinkTree (part : Nat) (s : State) : sameBytes s (relinkTree part s) := by simp [sameBytes, relinkTree]

theorem sameBytes_dropNodes (part : Nat) (p : Nat → Node → Bool) (s : State) : sameBytes s (dropNodes part p s) := by
  unfold dropNodes
  dsimp only
  refine sameBytes_trans ?_ (sameBytes_relinkTree _ _)
  exact sameBytes_trans (by simp [sameBytes]) (sameBytes_foldl _ (fun t f => sameBytes_lowerFrame f t) _ _)

theorem sameBytes_poisonAction (f m : Nat) (s : State) : sameBytes s (poisonAction f m s) := by
  unfold poisonAction
  dsimp only
  split
  · simp [sameBytes]
  · refine sameBytes_trans ?_ (sameBytes_failRequests _ _ _ _)
    simp only [sameBytes]
    refine sameBytes_trans (sameBytes_foldl _ ?_ _ s) (sameBytes_foldl _ (fun t p => sameBytes_dropNodes p _ t) _ _)
    intro t e
    split
    · split
      · exact sameBytes_failRequest _ _ _ t
      · exact sameBytes_refl t
    · exact sameBytes_refl t

theorem sameBytes_countCe (m pc : Nat) (s : State) : sameBytes s (countCe m pc s) := by
  unfold countCe trigger
  dsimp only
  split
  · split <;> simp [sameBytes]
  · simp [sameBytes]

theorem sameBytes_parityDone (m : Nat) (s : State) : sameBytes s (parityDone m s) := by
  unfold parityDone
  dsimp only
  split <;> simp [sameBytes]

theorem sameBytes_stepBroken (part stepId unit : Nat) (fatal : Option Status) (s : State) :
    sameBytes s (stepBroken part stepId unit fatal s) := by simp [sameBytes, stepBroken, modGroup]

theorem sameBytes_poisonFound (c : MemCtx) (g : Nat) (s : State) : sameBytes s (poisonFound c g s) := by
  have brk : ∀ (p : Bool) (a b d : Nat) (o : Option Status) (u : State), sameBytes s u → sameBytes s (if p then u else stepBroken a b d o u) := by
    intro p a b d o u h
    split
    · exact h
    · exact sameBytes_trans h (sameBytes_stepBroken _ _ _ _ _)
  unfold poisonFound
  exact sameBytes_trans (brk _ _ _ _ _ _ (sameBytes_trans (by simp [sameBytes, drawn, bump, bumpBy]) (sameBytes_logEvent _ _)))
    (sameBytes_poisonAction _ _ _)

theorem sameBytes_granuleTaken (ecc : Ecc) (g : Nat) (s : State) : sameBytes s (granuleTaken ecc g s) := by
  have wrong : ∀ p : Bool, sameBytes s (if p then { s with mem := { s.mem with corrupt := tabSet false s.mem.corrupt g true } } else s) := by
    intro p
    split <;> simp [sameBytes]
  unfold granuleTaken
  dsimp only
  split
  · exact sameBytes_trans (sameBytes_trans (wrong _) (sameBytes_bump _ _)) (sameBytes_countCe _ _ _)
  · exact wrong _

/-- A read of a granule changes no byte, whatever it finds (R303, R304). -/
theorem sameBytes_readGranule (c : MemCtx) (g : Nat) (s : State) : sameBytes s (readGranule c g s).1 := by
  have done : sameBytes s (parityDone (paStack (64 * g)) { s with mem := { s.mem with flips := tabSet [] s.mem.flips g [] } }) :=
    sameBytes_trans (t := { s with mem := { s.mem with flips := tabSet [] s.mem.flips g [] } }) (by simp [sameBytes]) (sameBytes_parityDone _ _)
  have pick : ∀ (ecc : Ecc) (bad : Bool) (u : State), sameBytes s u →
      sameBytes s (if bad then (poisonFound c g u, true) else (granuleTaken ecc g u, false)).1 := by
    intro ecc bad u h
    split
    · exact sameBytes_trans h (sameBytes_poisonFound _ _ _)
    · exact sameBytes_trans h (sameBytes_granuleTaken _ _ _)
  exact pick _ _ _ done

theorem sameBytes_readGranules (c : MemCtx) (pa n : Nat) (s : State) : sameBytes s (readGranules c pa n s).1 := by
  unfold readGranules
  suffices ∀ (xs : List Nat) (r : State × Bool), sameBytes s r.1 → sameBytes s (xs.foldl (fun t i =>
      ((readGranule c (pa / 64 + i) t.1).1, t.2 || (readGranule c (pa / 64 + i) t.1).2)) r).1 from
    this _ (s, false) (sameBytes_refl s)
  intro xs
  induction xs with
  | nil => exact fun r h => h
  | cons x xs ih => exact fun r h => ih _ (sameBytes_trans h (sameBytes_readGranule _ _ _))

/-- A read of a device virtual range changes no byte. -/
theorem sameBytes_dvRead (c : MemCtx) (va n : Nat) (s : State) : sameBytes s (dvRead c va n s).st := by
  unfold dvRead
  split
  · exact ⟨rfl, rfl⟩
  · suffices ∀ (xs : List (Nat × Nat)) (r : DvRead), sameBytes s r.st → sameBytes s (xs.foldl (fun r p =>
        match walkFor r.st c false p.1 with
        | .ok pa =>
          let g := readGranules c pa p.2 r.st
          { r with st := g.1, bytes := r.bytes ++ physBytes g.1 pa p.2, poisoned := r.poisoned || g.2 }
        | _ => r) r).st from this _ _ (sameBytes_refl s)
    intro xs
    induction xs with
    | nil => exact fun r h => h
    | cons x xs ih =>
      intro r h
      refine ih _ ?_
      dsimp only
      split
      · exact sameBytes_trans h (sameBytes_readGranules _ _ _ _)
      · exact h

theorem sameBytes_markDirty (f : Nat) (s : State) : sameBytes s (markDirty f s) := by
  unfold markDirty; split <;> simp [sameBytes]

/-! ### What stores to main memory -/

theorem zeroFrame_wf (f slot : Nat) (s : State) (h : Memory.wf s = true) : Memory.wf (zeroFrame f slot s) = true := by
  unfold zeroFrame
  refine wf_of_sameBytes (sameBytes_markDirty _ _) ?_
  rw [wf_iff] at h ⊢
  exact ⟨tabClear_wf _ _ _ _ h.1, h.2⟩

theorem takeFrame_wf (f space count : Nat) (resv : Bool) (s : State) (h : Memory.wf s = true) :
    Memory.wf (takeFrame f space count resv s) = true := zeroFrame_wf f space s h

theorem physWrite_wf (pa : Nat) (bs : List Byte) (s : State) (h : Memory.wf s = true) :
    Memory.wf (physWrite pa bs s) = true := by
  unfold physWrite
  dsimp only
  split
  · rw [wf_iff] at h ⊢
    exact ⟨tabWrite_wf _ _ _ _ h.1, h.2⟩
  · have g := (wf_iff _).1 (wf_of_sameBytes (sameBytes_markDirty (pa / 65536) s) h)
    rw [wf_iff]
    exact ⟨tabWrite_wf _ _ _ _ g.1, g.2⟩

theorem mergeGranule_wf (c : MemCtx) (pa : Nat) (bs : List Byte) (s : State) (h : Memory.wf s = true) :
    Memory.wf (mergeGranule c pa bs s).1 = true := by
  unfold mergeGranule
  have g := wf_of_sameBytes (sameBytes_readGranule c (pa / 64) s) h
  dsimp only
  split
  · exact g
  · have k := (wf_iff _).1 (wf_of_sameBytes (sameBytes_markDirty (pa / 65536) _) g)
    rw [wf_iff]
    exact ⟨tabWrite_wf _ _ _ _ k.1, k.2⟩

theorem storePhys_wf (c : MemCtx) (pa : Nat) (bs : List Byte) (s : State) (h : Memory.wf s = true) :
    Memory.wf (storePhys c pa bs s).1 = true := by
  unfold storePhys
  have part : ∀ (a : Nat) (xs : List Byte) (r : State × Bool), Memory.wf r.1 = true → Memory.wf
      (if xs = [] then r else ((mergeGranule c a xs r.1).1, r.2 || (mergeGranule c a xs r.1).2)).1 = true := by
    intro a xs r hr
    split
    · exact hr
    · exact mergeGranule_wf _ _ _ _ hr
  dsimp only
  exact part _ _ _ (physWrite_wf _ _ _ (part _ _ _ h))

theorem storeExt_wf (part : Nat) (ext : List Nat) (p : Nat) (ts : List Word) (s : State) (h : Memory.wf s = true) :
    Memory.wf (storeExt part ext p ts s) = true := by
  unfold storeExt
  split
  · exact h
  · refine wf_foldl _ (fun t q ht => ?_) _ _ h
    split
    · exact storePhys_wf _ _ _ _ ht
    · exact ht

theorem sameBytes_noteUndo (c : MemCtx) (va pa n : Nat) (s : State) : sameBytes s (noteUndo c va pa n s) := by
  have put : ∀ (p : Bool) (u : State), sameBytes s u → sameBytes s (if p then s else u) := by
    intro p u h
    split
    · exact sameBytes_refl s
    · exact h
  unfold noteUndo
  exact put _ _ (by simp [sameBytes, modGroup])

theorem dvStore_wf (c : MemCtx) (va : Nat) (bs : List Byte) (s : State) (h : Memory.wf s = true) :
    Memory.wf (dvStore c va bs s) = true := by
  unfold dvStore dvStoreP
  suffices ∀ (xs : List (Nat × Nat)) (r : (State × Bool) × List Byte), Memory.wf r.1.1 = true → Memory.wf (xs.foldl (fun
      (r : (State × Bool) × List Byte) p => match walkFor r.1.1 c true p.1 with
      | .ok pa => let q := storePhys c pa (r.2.take p.2) (noteUndo c p.1 pa p.2 r.1.1); ((q.1, r.1.2 || q.2), r.2.drop p.2)
      | _ => (r.1, r.2.drop p.2)) r).1.1 = true from this _ ((s, false), bs) h
  intro xs
  induction xs with
  | nil => exact fun r h => h
  | cons x xs ih =>
    intro r hr
    refine ih _ ?_
    dsimp only
    split
    · exact storePhys_wf _ _ _ _ (wf_of_sameBytes (sameBytes_noteUndo _ _ _ _ _) hr)
    · exact hr

theorem sameBytes_dropCached (space lo hi : Nat) (s : State) : sameBytes s (dropCached space lo hi s) := by
  simp [sameBytes, dropCached]

theorem copyPage_wf (src dst : Nat) (s : State) (h : Memory.wf s = true) : Memory.wf (copyPage src dst s) = true := by
  unfold copyPage
  refine wf_of_sameBytes (sameBytes_markDirty _ _) ?_
  rw [wf_iff] at h ⊢
  exact ⟨tabWf_foldl_set _ _ _ _ _ (tabClear_wf _ _ _ _ h.1), h.2⟩

theorem sameBytes_ownEpoch (space lo hi : Nat) (s : State) : sameBytes s (ownEpoch space lo hi s) := by
  unfold ownEpoch raiseEpoch
  exact sameBytes_trans (sameBytes_trans (t := { s with mem := { s.mem with epochs := tabMod 0#32 s.mem.epochs space (· + 1) } })
    (by simp [sameBytes]) (sameBytes_dropCached _ _ _ _)) (sameBytes_bump _ _)

theorem sameBytes_setPt (space l va : Nat) (w : DWord) (s : State) : sameBytes s (setPt space l va w s) := by
  simp [sameBytes, setPt]

theorem sameBytes_setFrame (f : Nat) (x : Frame) (s : State) : sameBytes s (setFrame f x s) := by simp [sameBytes, setFrame]

theorem sameBytes_modJournal (part stepId : Nat) (f : Journal → Journal) (s : State) :
    sameBytes s (modJournal part stepId f s) := by simp [sameBytes, modJournal]

theorem sameBytes_renameFrame (a b : Nat) (s : State) : sameBytes s (renameFrame a b s) := by simp [sameBytes, renameFrame]

theorem cowCopy_wf (c : MemCtx) (va : Nat) (s : State) (h : Memory.wf s = true) : Memory.wf (cowCopy c va s) = true := by
  unfold cowCopy
  split
  · split
    · split
      · exact h
      · rename_i old _ _ _ f _ _
        refine wf_of_sameBytes (s := copyPage (leafFrame old) f (readGranules c (65536 * leafFrame old) 65536 s).1) ?_
          (copyPage_wf _ _ _ (wf_of_sameBytes (sameBytes_readGranules _ _ _ _) h))
        exact sameBytes_trans (sameBytes_trans (sameBytes_trans (sameBytes_trans (sameBytes_setFrame _ _ _)
          (sameBytes_setPt _ _ _ _ _)) (sameBytes_dropCached _ _ _ _)) (sameBytes_modJournal _ _ _ _)) (sameBytes_bump _ _)
    · exact h
  · exact h

theorem dvWrite_wf (c : MemCtx) (va : Nat) (bs : List Byte) (s : State) (h : Memory.wf s = true) :
    Memory.wf (dvWrite c va bs s).1 = true := by
  unfold dvWrite
  split
  · exact h
  · exact dvStore_wf _ _ _ _ (wf_foldl _ (fun t p ht => cowCopy_wf c p.1 t ht) _ _ h)

theorem reserveStep_wf (part stepId n : Nat) (s : State) (h : Memory.wf s = true) :
    Memory.wf (reserveStep part stepId n s) = true := by
  unfold reserveStep
  exact wf_of_sameBytes ⟨rfl, rfl⟩ (wf_foldl (fun t f => takeFrame f part 0 true t) (fun t f ht => takeFrame_wf f _ _ _ t ht) _ s h)

theorem moveFrame_wf (a b : Nat) (s : State) (h : Memory.wf s = true) : Memory.wf (moveFrame a b s) = true := by
  have g := (wf_iff _).1 h
  unfold moveFrame
  extract_lets m bs ps cs x t u pages
  have k : Memory.wf t = true := by
    clear_value bs ps cs
    exact (wf_iff _).2 ⟨tabClear_wf _ _ _ _ (tabWrite_wf _ _ _ _ g.1), g.2⟩
  clear_value t
  refine wf_of_sameBytes (sameBytes_foldl _ (fun t p => ?_) _ _) (wf_of_sameBytes (s := t) ?_ k)
  · exact sameBytes_ownEpoch _ _ _ _
  · exact sameBytes_trans (sameBytes_trans (sameBytes_setFrame _ _ _) (sameBytes_setFrame _ _ _)) (sameBytes_renameFrame _ _ _)

theorem sameBytes_placeTable (size : Nat) (s : State) : sameBytes s (placeTable size s).1 := by
  have fresh : ∀ o : Option Nat, sameBytes s (match o with
      | none => (s, 0)
      | some f => (ownHold f { s with mem := { s.mem with tableFrame := some (f, size) } }, 65536 * f)).1 := by
    intro o
    split
    · exact sameBytes_refl s
    · simp [sameBytes, ownHold, setFrame]
  unfold placeTable
  dsimp only
  split
  · split
    · simp [sameBytes]
    · exact fresh _
  · exact fresh _

theorem sameBytes_needTable (space level va : Nat) (s : State) : sameBytes s (needTable space level va s) := by
  have put : ∀ r : State × Nat, sameBytes s r.1 → sameBytes s
      { r.1 with mem := { r.1.mem with tables := tabSet 0 r.1.mem.tables (tableKey space level va) r.2 } } :=
    fun r h => sameBytes_trans h (by simp [sameBytes])
  unfold needTable
  split
  · exact sameBytes_refl s
  · refine put _ ?_
    split
    · unfold placeRoot
      split
      · simp [sameBytes, ownHold, setFrame]
      · exact sameBytes_refl s
    · exact sameBytes_placeTable _ s

theorem sameBytes_linkTable (space level va : Nat) (s : State) : sameBytes s (linkTable space level va s) := by
  unfold linkTable
  dsimp only
  split
  · exact sameBytes_needTable _ _ _ s
  · exact sameBytes_trans (sameBytes_needTable _ _ _ s) (sameBytes_setPt _ _ _ _ _)

theorem sameBytes_mapLeaf (space va : Nat) (w : DWord) (s : State) : sameBytes s (mapLeaf space va w s) := by
  unfold mapLeaf
  exact sameBytes_trans (sameBytes_trans (sameBytes_trans (sameBytes_trans (sameBytes_needTable _ _ _ s) (sameBytes_linkTable _ _ _ _))
    (sameBytes_linkTable _ _ _ _)) (sameBytes_linkTable _ _ _ _)) (sameBytes_setPt _ _ _ _ _)

/-- The bytes that a resynchronisation writes keep the form. -/
theorem storeFrame_wf (f : Nat) (bytes : List (Nat × Byte)) (s : State) (h : Memory.wf s = true) :
    Memory.wf (storeFrame f bytes s) = true := by
  refine wf_foldl _ (fun t e ht => ?_) _ _ h
  have g := (wf_iff _).1 ht
  exact (wf_iff _).2 ⟨tabSet_wf _ _ _ _ g.1, g.2⟩

/-- The frame that stands for one of the partner's: taking it keeps the form. -/
theorem frameFor_wf (part frame f : Nat) (s t : State) (h : Memory.wf s = true) (e : frameFor part frame s = some (f, t)) :
    Memory.wf t = true := by
  unfold frameFor at e
  split at e
  · cases e; exact h
  · rw [Option.map_eq_some_iff] at e
    obtain ⟨g, -, e⟩ := e
    cases e
    exact wf_of_sameBytes (s := takeFrame f part 0 false s) (by simp [sameBytes]) (takeFrame_wf _ _ _ _ _ h)

theorem stateLeaf_wf (part va frame : Nat) (leaf : Nat → DWord) (bytes : List (Nat × Byte)) (s : State) (h : Memory.wf s = true) :
    Memory.wf (stateLeaf part va frame leaf bytes s) = true := by
  unfold stateLeaf
  split
  · exact h
  · next f t e =>
    refine storeFrame_wf _ _ _ ?_
    have ht := frameFor_wf _ _ _ _ _ h e
    split
    · exact ht
    · exact wf_of_sameBytes (sameBytes_trans (t := raiseFrame f t) (by simp [sameBytes, raiseFrame, setFrame])
        (sameBytes_mapLeaf _ _ _ _)) ht

/-- A device reset leaves the stored bytes in canonical form, and empties the Flies (R694). -/
theorem resetMain_wf (s : State) (h : Memory.wf s = true) : Memory.wf (resetMain s) = true := by
  unfold resetMain
  exact (wf_iff _).2 ⟨((wf_iff _).1 h).1, rfl⟩

/-! ### What stores to the Flies -/

theorem flWrite_wf (c : EntryCtx) (a : Nat) (bs : List Byte) (s : State) (h : Memory.wf s = true) :
    Memory.wf (flWrite c a bs s) = true := by
  rw [wf_iff] at h ⊢
  exact ⟨h.1, tabWf_foldl_set 0#8 (fun p : Byte × Nat => flKey c (a + p.2)) Prod.fst _ _ h.2⟩

/-- What a read of the Flies finds leaves the stored bytes alone. -/
theorem sameBytes_eccWords (ctx : DWord) (o : Byte) (step : Option (Nat × Nat)) (words : List Nat) (s : State) :
    sameBytes s (eccWords ctx o step words s) := by
  unfold eccWords
  refine sameBytes_foldl _ (fun t w => ?_) _ _
  split
  · exact sameBytes_refl t
  · exact sameBytes_trans (t := { t with flies := { t.flies with latent := tabSet none t.flies.latent w none } })
      (by simp [sameBytes]) (sameBytes_bump _ _)
  · have found : ∀ (v : FaultEvent) (u : State), sameBytes t u → sameBytes t (logEvent v (drawn u)) := fun v u hu =>
      sameBytes_trans hu (sameBytes_trans (t := drawn u) (by simp [sameBytes, drawn]) (sameBytes_logEvent _ _))
    have marked : sameBytes t (bump 0x3000C (setFlat (w / 8192) { flatOf t (w / 8192) with pending := true } t)) :=
      sameBytes_trans (t := setFlat (w / 8192) { flatOf t (w / 8192) with pending := true } t)
        (by simp [sameBytes, setFlat]) (sameBytes_bump _ _)
    dsimp only
    split
    · exact sameBytes_trans (found _ _ marked) (sameBytes_stepBroken _ _ _ _ _)
    · exact found _ _ marked

theorem moveFlats_wf (src dst n : Nat) (s : State) (h : Memory.wf s = true) : Memory.wf (moveFlats src dst n s) = true := by
  have g := (wf_iff _).1 (wf_of_sameBytes
    (sameBytes_eccWords (noCtx 0) (originOf 5 true) none (badWords s (65536 * src) (65536 * n)) s) h)
  unfold moveFlats
  rw [wf_iff]
  dsimp only
  exact ⟨g.1, tabWf_foldl_set _ _ _ _ _ (tabClear_wf _ _ _ _ g.2)⟩

theorem sameBytes_setFlats (fs : List Nat) (g : State → Nat → Flat) (s : State) :
    sameBytes s (fs.foldl (fun t f => setFlat f (g t f) t) s) :=
    sameBytes_foldl _ (fun t f => by simp [sameBytes, setFlat]) _ _

theorem flatClearOp_wf (s : State) (h : Memory.wf s = true) : Memory.wf (flatClearOp s) = true := by
  unfold flatClearOp
  have g := (wf_iff _).1 (wf_of_sameBytes (sameBytes_setFlats ((List.range 128).filter fun f => (flatOf s f).clearing)
    (fun t f => { flatOf t f with clearing := false }) s) h)
  rw [wf_iff]
  exact ⟨g.1, tabWf_foldl_clear 0#8 (fun f => 65536 * f) 65536 _ _ g.2⟩

theorem clearPartFlats_wf (part : Nat) (s : State) (h : Memory.wf s = true) : Memory.wf (clearPartFlats part s) = true := by
  unfold clearPartFlats
  rw [wf_iff] at h ⊢
  dsimp only
  exact ⟨h.1, tabWf_foldl_clear 0#8 (fun f => 65536 * f) 65536 _ _ h.2⟩

theorem stageOrder_wf (o : Order) (s : State) (h : Memory.wf s = true) : Memory.wf (stageOrder o s) = true := by
  have g := (wf_iff _).1 h
  unfold stageOrder
  generalize (orderBytes o).take 393216 = bs
  exact (wf_iff _).2 ⟨g.1, tabWrite_wf _ _ _ _ g.2⟩

theorem beginFlatTest_wf (f : Nat) (s : State) (h : Memory.wf s = true) : Memory.wf (beginFlatTest f s) = true := by
  have g := (wf_iff _).1 h
  unfold beginFlatTest
  generalize tabRead 0#8 s.flies.mem (65536 * f) 65536 = bs
  exact (wf_iff _).2 ⟨g.1, tabWrite_wf _ _ _ _ g.2⟩

theorem wf_setFlat (f : Nat) (x : Flat) (s : State) : Memory.wf (setFlat f x s) = Memory.wf s := by
  simp [Memory.wf, setFlat]

theorem wf_flies (s : State) (m : Tab Byte) (d : Option Nat) (h : Memory.wf s = true) (k : tabWf 0#8 m = true) :
    Memory.wf { s with flies := { s.flies with mem := m, testCopy := d } } = true :=
  (wf_iff _).2 ⟨((wf_iff _).1 h).1, k⟩

theorem restoreFlat_wf (f : Nat) (s : State) (h : Memory.wf s = true) : Memory.wf (restoreFlat f s) = true := by
  unfold restoreFlat
  split
  · extract_lets src bytes
    clear_value bytes
    rw [wf_setFlat]
    exact wf_flies s _ none h (tabWrite_wf _ _ _ _ ((wf_iff _).1 h).2)
  · rw [wf_setFlat]; exact h

/-! ### Translation under an epoch (R338) -/

/-- An access that no earlier epoch has checked is translated by a walk. -/
@[simp] theorem walkFor_not_held (s : State) (c : MemCtx) (write : Bool) (va : Nat) (h : c.held = []) :
    walkFor s c write va = walk s c.part c.stepId write va := by
  simp [walkFor, heldLeaf, h]

end Sys2Proof.Machine
end

