-- ==== Sys2Proof/Machine/Router.lean ====
section
/-! DEFINITION. The computations that every model program makes alike: the router of the experts (R411 to R414), and the merge of an
attention pass that is split (R356). They are functions of the scores and of the partials alone (R291). -/

namespace Sys2Proof.Machine

open Sys2Proof

/-- The expert that a number names at a layer (R411): below the base model's shared experts one of those, and from there on the variant's
private experts of the layer, in table order. -/
def expertOf (v : Variant) (layer shared k : Nat) : Option Expert :=
  if k < shared then none else (v.experts.filter fun x => x.layer = layer)[k - shared]?

/-- A score in the order of R412: a NaN counts as −∞, and the zeros are equal. -/
def scoreKey (x : Word) : Int := if isNan32 x then ordKey f32NegInf else if x = 0x80000000#32 then ordKey f32Zero else ordKey x

/-- Puts an expert into its place by descending score; among equal scores the one that is there already, whose number is lower, stays ahead. -/
def placeExpert (e : Nat × Word) : List (Nat × Word) → List (Nat × Word)
  | [] => [e]
  | d :: ds => if scoreKey d.2 < scoreKey e.2 then e :: d :: ds else d :: placeExpert e ds

/-- The experts of a token row, in the order of choice (R412): the `k` of highest score, by number and score. -/
def chosenExperts (k : Nat) (scores : List Word) : List (Nat × Word) :=
  ((scores.zipIdx.map fun p => (p.2, p.1)).foldl (fun t e => placeExpert e t) []).take k

/-- The gates of the chosen experts, in the order of choice (R413). -/
def routerGates (chosen : List (Nat × Word)) : List (Nat × Word) :=
  let top := match chosen with | [] => f32NegInf | c :: _ => if isNan32 c.2 then f32NegInf else c.2
  let terms := chosen.map fun c => expRef (sub32 .nearest (if isNan32 c.2 then f32NegInf else c.2) top)
  let sum := treeSum .nearest terms
  (chosen.zip terms).map fun p => (p.1.1, div32 .nearest p.2 sum)

/-- Puts a gate into its place by ascending expert number. -/
def placeGate (g : Nat × Word) : List (Nat × Word) → List (Nat × Word)
  | [] => [g]
  | d :: ds => if g.1 < d.1 then g :: d :: ds else d :: placeGate g ds

/-- The order in which the experts' outputs are combined (R413): ascending expert number. -/
def combineOrder (gates : List (Nat × Word)) : List (Nat × Word) := gates.foldl (fun t g => placeGate g t) []

/-- The batch rows that one expert takes, in ascending order, of the experts that each row has chosen (R414). -/
def expertRows (rows : List (List Nat)) (k : Nat) : List Nat := (rows.zipIdx.filter fun r => r.1.contains k).map Prod.snd

/-! ### Merging partials (R356) -/

/-- One row's partial of a key range: its maximum, its LSE and its output. -/
structure Partial where
  m : Word
  lse : Word
  out : List Word

/-- The merge of one row's partials, in ascending key range: its maximum, its LSE and its output of `d` columns. -/
def mergePartials (d : Nat) (ps : List Partial) : Partial :=
  let mx := match ps with | [] => f32NegInf | p :: rest => rest.foldl (fun a q => max32 a q.m) p.m
  let w := ps.map fun p => if mx = f32NegInf then f32Zero else expRef (sub32 .nearest p.lse mx)
  let s := treeSum .nearest w
  let zero := cmp32 s f32Zero = some 0
  { m := mx
    lse := if zero then f32NegInf else add32 .nearest mx (logRef s)
    out := (List.range d).map fun c =>
      if zero then f32Zero else div32 .nearest (treeSum .nearest ((w.zip ps).map fun q => mul32 .nearest q.1 (q.2.out.getD c f32Zero))) s }

end Sys2Proof.Machine
end

