-- ==== Sys2Proof/Tests/Slice0.lean ====
section
/-! SUPPORT. The model's own tests: ill-formed commands are refused by the check of well-formedness; words of Isvex decode to
the instructions that they stand for; small effects computed by hand from the spec; and, for each statement with hypotheses, a
witness: a state and operands that meet them, clause by clause. -/

namespace Sys2Proof.Tests

open Sys2Proof Sys2Proof.Machine

-- One theorem at a time: each kernel evaluation takes a thread of its own otherwise.
set_option Elab.async false

/-! ### Small states -/

/-- A module that serves: supplies on, link up, Beat started. Its registers all read 0. -/
def up : State :=
  { State.reset with
    regs := []
    pins := { Pins.init with standby := true, regulators := true }
    boot := { Boot.init with mode := .serving }
    net := { Net.init with perst := true }
    beat := { Beat.init with started := true } }

/-- Operand fields. -/
def op (a b c d w : Nat) : Fields := ⟨BitVec.ofNat 5 a, BitVec.ofNat 5 b, BitVec.ofNat 5 c, BitVec.ofNat 5 d, BitVec.ofNat 32 w⟩

/-- An entry of P0 with one flat (flat 40) and a window of 4 Cue Lights from 8. -/
def ctx : EntryCtx :=
  { kind := 0, part := 0, index := 0, stepId := 1, req := 0, slot := none, prog := 0, progId := 0, argPtr := 0, seed := 0,
    flat0 := 40, cnt0 := 1, flat1 := 0, cnt1 := 0, clBase := 8, clCount := 4, clOk := true, sigs := [], beat := 0, startUs := 0,
    deadlineUs := 100, predUs := 10, predUj := 0, le := 0 }

/-- An engine that runs that entry, with its scalar registers. -/
def runs (s : Tab DWord) : Engine := { Engine.init with phase := .running, run := some ctx, s := s }

/-- Engine 0 is that engine, and P0's grant is Cue Lights 0 to 255. -/
def on (x : Engine) : State := { up with eng := [(0, x)], cueGrant := [(0, 0x00FFFFFF#32)] }

/-- Every state with that engine issues an instruction on it. -/
theorem on_issues (s : Tab DWord) : issues (on (runs s)) 0 ctx := ⟨by decide, rfl, rfl, rfl, rfl⟩

/-- What a next state holds. -/
def after {α : Type} (r : Res) (g : State → α) : Option α := match r with | .next t => some (g t) | _ => none

/-- A House frame. -/
def frame : HouseFrame := ⟨1, 1, 7, 1, 0, true, .telemetry⟩

/-! ### Well-formedness -/

theorem test_illFormed_units : (([.entryDispatch 36, .add 36 (op 0 0 0 0 0), .hang .entry 72, .xferComplete 36, .xferComplete 63,
    .xferFault 136, .cueWaitTimeout 136, .helperJobStart 72, .zshCtx 72 0, .stagehandInstruction 72 0, .samplerJobStart 4,
    .clusterSwitchUe 4, .frameDecodeStart 5, .portLinkChange 5 true false, .refresh 8, .retrainDaysElapsed 0 32,
    .watchdogReset ⟨.engine, 4, 0⟩, .watchdogReset ⟨.engine, 0, 9⟩, .watchdogReset ⟨.stagehand, 0, 18⟩,
    .watchdogReset ⟨.sampler, 0, 5⟩, .watchdogReset ⟨.flat, 0, 128⟩, .watchdogReset ⟨.stack, 0, 8⟩, .watchdogReset ⟨.video, 0, 5⟩,
    .watchdogReset ⟨.walker, 0, 3⟩, .watchdogReset ⟨.phy, 0, 8⟩, .watchdogReset ⟨.port, 0, 5⟩, .sensorRead (.engine 36) 0,
    .sensorRead (.shGroup 12) 0, .sensorRead (.video 5) 0, .sensorRead (.phy 8) 0, .mainRailExcursion 0, .mainRailExcursion 13] : List Instr).all
      fun i => !i.wf) = true := by decide

theorem test_illFormed_objects : (([.agePromote 8192, .walkonGo 128 0, .walkonDispatch 128, .windowOpen 4096, .walkonSetFree 4,
    .walkonDoorbell 9 0, .copyOnWrite ⟨8, 0, 0, 0, 0, 0⟩ 0, .cueWaitMet 65536, .flatTestRestore 128, .stepCommit 8 0,
    .epochComplete 9, .streamClosed 48, .bindReady 48, .encodeFrameStart 0 48, .sqTailWrite 0 16 0, .bar2Sig 0 65536 0,
    .bar4Read 8 0 0, .treeUpdate 8, .guaranteeWrite 0 8 0, .partitionResetDone 8, .scrubRead (2 ^ 32), .headCountRefresh 8 [],
    .resendRequest 0 8192 0 0, .houseFrame 5 frame] : List Instr).all fun i => !i.wf) = true := by decide

theorem test_wellFormed_bounds : (([.entryDispatch 35, .cueWaitTimeout 135, .hang .entry 71, .agePromote 8191, .walkonGo 127 0,
    .walkonDoorbell 8 0, .windowOpen 4095, .cueWaitMet 65535, .flatTestRestore 127, .epochComplete 8, .streamClosed 47,
    .watchdogReset ⟨.engine, 3, 8⟩, .watchdogReset ⟨.stagehand, 3, 17⟩, .mainRailExcursion 1, .mainRailExcursion 12] : List Instr).all fun i => i.wf) =
      true := by decide

/-! ### Words of Isvex, written out from R174 and the tables of the instruction reference -/

theorem test_word_add : isvexDecode 0 0x0400886000000000#64 = some (.add 0 (op 1 2 3 0 0)) := by decide
theorem test_word_sel : isvexDecode 0 0x0530886400000000#64 = some (.sel 0 (op 1 2 3 4 0)) := by decide
theorem test_word_addi : isvexDecode 3 0x08008800FFFFFFFF#64 = some (.addi 3 (op 1 2 0 0 0xFFFFFFFF)) := by decide
theorem test_word_dbnz : isvexDecode 0 0x0C908000FFFFFFF8#64 = some (.dbnz 0 (op 1 0 0 0 0xFFFFFFF8)) := by decide
theorem test_word_lmLdD : isvexDecode 0 0x2060880000000010#64 = some (.lmLdD 0 (op 1 2 0 0 0x10)) := by decide
theorem test_word_xferSt : isvexDecode 0 0x3010886080800003#64 = some (.xferSt 0 (op 1 2 3 0 0x80800003)) := by decide
theorem test_word_mxZero : isvexDecode 0 0x40100000000000FF#64 = some (.mxZero 0 (op 0 0 0 0 0xFF)) := by decide
theorem test_word_vfma : isvexDecode 0 0x5030886430000000#64 = some (.vfma 0 (op 1 2 3 4 0x30000000)) := by decide
/-- OPAIR 0, and OPAIR 1 with an odd OACC, which R214 does not allow. -/
theorem test_word_attnSmax : isvexDecode 0 0x60108800AC5FC000#64 = some (.attnSmax 0 (op 1 2 0 0 0xAC5FC000)) ∧
    isvexDecode 0 0x60108800AC7FC000#64 = none := by decide
theorem test_word_cueSig : isvexDecode 0 0x7000080000010002#64 = some (.cueSig 0 (op 0 2 0 0 0x00010002)) := by decide
theorem test_word_flyCas : isvexDecode 0 0x80E0886400000008#64 = some (.flyCas 0 (op 1 2 3 4 8)) := by decide
theorem test_word_sysTrap : isvexDecode 0 0x902000000000ABCD#64 = some (.sysTrap 0 (op 0 0 0 0 0xABCD)) := by decide
/-- A bit outside the fields of an instruction, and a class that no instruction has, decode to nothing (R174, R176). -/
theorem test_word_reserved : isvexDecode 0 0x0400886000000001#64 = none ∧ isvexDecode 0 0x1000000000000000#64 = none := by decide

/-! ### Effects computed by hand -/

/-- R185: a division by 0 gives all ones, and the remainder the dividend. -/
theorem test_divide_by_zero :
    after (execDivu 0 (op 3 1 2 0 0) (on (runs [(1, 7#64)]))) (fun t => rdS (engOf t 0) 3) = some 0xFFFFFFFFFFFFFFFF#64 ∧
    after (execRemu 0 (op 3 1 2 0 0) (on (runs [(1, 7#64)]))) (fun t => rdS (engOf t 0) 3) = some 7#64 := by decide +kernel

/-- −1 × −1 = 1, whose high half is 0; unsigned, the high half is 2^64 − 2. -/
theorem test_mulh_signs :
    after (execMulh 0 (op 3 1 1 0 0) (on (runs [(1, 0xFFFFFFFFFFFFFFFF#64)]))) (fun t => rdS (engOf t 0) 3) = some 0#64 ∧
    after (execMulhu 0 (op 3 1 1 0 0) (on (runs [(1, 0xFFFFFFFFFFFFFFFF#64)]))) (fun t => rdS (engOf t 0) 3) =
      some 0xFFFFFFFFFFFFFFFE#64 := by decide +kernel

/-- R107: s0 discards a write, and the pc still moves. -/
theorem test_s0_discards : after (execAddi 0 (op 0 0 0 0 5) (on (runs []))) (fun t => ((engOf t 0).s, (engOf t 0).pc)) =
    some ([], 8#20) := by decide +kernel

/-- A shift uses the low 6 bits of its count; movhi replaces the high half. -/
theorem test_shift_and_movhi :
    after (execSll 0 (op 3 1 2 0 0) (on (runs [(1, 1#64), (2, 65#64)]))) (fun t => rdS (engOf t 0) 3) = some 2#64 ∧
    after (execMovhi 0 (op 3 1 0 0 0x80000000) (on (runs [(1, 0xFFFFFFFF00000001#64)]))) (fun t => rdS (engOf t 0) 3) =
      some 0x8000000000000001#64 := by decide +kernel

/-- dbnz lowers its register first, and does not branch at 0. -/
theorem test_dbnz :
    after (execDbnz 0 (op 1 0 0 0 0x40) (on (runs [(1, 1#64)]))) (fun t => (rdS (engOf t 0) 1, (engOf t 0).pc)) = some (0#64, 8#20) ∧
    after (execDbnz 0 (op 1 0 0 0 0x40) (on (runs [(1, 2#64)]))) (fun t => (rdS (engOf t 0) 1, (engOf t 0).pc)) =
      some (1#64, 0x40#20) := by decide +kernel

/-- LM is little-endian (R4). -/
theorem test_lm_little_endian :
    after (execLmStW 0 (op 1 0 0 0 0x10) (on (runs [(1, 0x11223344#64)]))) (fun t => tabRead 0#8 (engOf t 0).lm 0x10 4) =
      some [0x44#8, 0x33#8, 0x22#8, 0x11#8] := by decide +kernel

/-- A load sign-extends; the last byte of LM can be read, and the byte after it raises LM_BOUND (3). -/
theorem test_lm_bounds :
    after (execLmLdB 0 (op 2 1 0 0 0) (on { runs [(1, 0xBFFFFF#64)] with lm := [(0xBFFFFF, 0x80#8)] }))
      (fun t => rdS (engOf t 0) 2) = some 0xFFFFFFFFFFFFFF80#64 ∧
    after (execLmLdB 0 (op 2 1 0 0 1) (on (runs [(1, 0xBFFFFF#64)]))) (fun t => (engOf t 0).excLast) = some 3#8 := by decide +kernel

/-- SIG saturates at 65,535 and sets OVF (R143); SET clears it. -/
theorem test_cue_saturates :
    after (execCueSig 0 (op 0 0 0 0 0x00020000) { on (runs []) with cue := [(8, ⟨65534, false⟩)] }) (fun t => cueOf t 8) =
      some ⟨65535, true⟩ ∧
    after (execCueSet 0 (op 0 0 0 0 0x00030000) { on (runs []) with cue := [(8, ⟨65535, true⟩)] }) (fun t => cueOf t 8) =
      some ⟨3, false⟩ := by decide +kernel

/-- A WAITD takes its target off the count, a WAIT does not (R141). -/
theorem test_cue_waits :
    after (execCueWaitd 0 (op 0 0 0 0 0x00020000) { on (runs []) with cue := [(8, ⟨5, false⟩)] }) (fun t => (cueOf t 8).count) = some 3 ∧
    after (execCueWait 0 (op 0 0 0 0 0x00020000) { on (runs []) with cue := [(8, ⟨5, false⟩)] }) (fun t => (cueOf t 8).count) = some 5 ∧
    after (execCueWait 0 (op 0 0 0 0 0x00060000) { on (runs []) with cue := [(8, ⟨5, false⟩)] })
      (fun t => ((engOf t 0).wait.isSome, (engOf t 0).pc)) = some (true, 0#20) := by decide +kernel

/-- fly.add returns the old value and stores the sum in flat 40 of the window (R113, R230). -/
theorem test_fly_add :
    after (execFlyAdd 0 (op 3 0 1 0 8) (on (runs [(1, 0x100#64)]))) (fun t => (rdS (engOf t 0) 3, tabGet 0#8 t.flies.mem (40 * 65536 + 9))) =
      some (0#64, 1#8) := by decide +kernel

/-- An address outside the window raises FL_BOUND (4); a word with a reserved field raises ILLEGAL (1). -/
theorem test_exceptions :
    after (execFlyLdD 0 (op 3 0 0 0 0x10000) (on (runs []))) (fun t => ((engOf t 0).excLast, (engOf t 0).phase)) =
      some (4#8, .draining) ∧
    after (execAdd 0 (op 3 0 0 1 0) (on (runs []))) (fun t => ((engOf t 0).excLast, (engOf t 0).phase)) = some (1#8, .draining) := by
  decide +kernel

/-- sys.trap raises TRAP (8) with its code in the record's address (R154). -/
theorem test_trap : after (execSysTrap 0 (op 0 0 0 0 0xBEEF) (on (runs []))) (fun t => t.fault.fifo.map fun v => (v.cause, v.addr)) =
    some [(8, 0xBEEF#64)] := by decide +kernel

/-- FP32: 1.0 + 2.0 = 3.0; 2^24 + 1.0 rounds to 2^24 (nearest, ties to even); the largest number plus itself is infinity. -/
theorem test_fp32_add : add32 .nearest 0x3F800000#32 0x40000000#32 = 0x40400000#32 ∧
    add32 .nearest 0x4B800000#32 0x3F800000#32 = 0x4B800000#32 ∧ add32 .nearest 0x7F7FFFFF#32 0x7F7FFFFF#32 = 0x7F800000#32 := by
  decide +kernel

/-- Double precision: 1.0 + 2.0 = 3.0 exactly; 1.0 + 2^−60 is 1.0, inexact (NX, bit 0). -/
theorem test_fp64_add : fpAdd 64 0 false (fpVal 64 0x3FF0000000000000) (fpVal 64 0x4000000000000000) = (0x4008000000000000, 0) ∧
    fpAdd 64 0 false (fpVal 64 0x3FF0000000000000) (fpVal 64 0x3C30000000000000) = (0x3FF0000000000000, 1) := by decide +kernel

/-- exp(0) = 1, log(1) = 0, 1/4 and 1/√4. -/
theorem test_functions : expRef 0#32 = 0x3F800000#32 ∧ logRef 0x3F800000#32 = 0#32 ∧ rcpRef 0x40800000#32 = 0x3E800000#32 ∧
    rsqrtRef 0x40800000#32 = 0x3F000000#32 := by decide +kernel

/-- Philox4x32-10 with counter and key 0: the published known answer. -/
theorem test_philox : philox (0, 0, 0, 0) 0 0 = (0x6627E8D5, 0xE169C58D, 0xBC57AC4C, 0x9B00DBD8) := by decide +kernel

/-- CRC-32C of "123456789": the published check value. -/
theorem test_crc : crc32c [0x31#8, 0x32#8, 0x33#8, 0x34#8, 0x35#8, 0x36#8, 0x37#8, 0x38#8, 0x39#8] = 0xE3069283 := by decide +kernel

/-- A write of a Call Board word that is no slot word 0 is only counted (R453). -/
theorem test_board_bad_write : after (exec (.callBoardBadWrite 5 1) up) (fun t => t.board.badWr) = some 1#8 := by decide +kernel

/-- BEAT_PERIOD takes 1,000 to 64,000 µs, and a value outside the range leaves it (R34, R875). -/
theorem test_beat_period :
    after (exec (.beatPeriodWrite 0 64000) up) (fun t => regF t 0x10004 15 0) = some 64000 ∧
    after (exec (.beatPeriodWrite 0 64001) up) (fun t => regF t 0x10004 15 0) = some 0 := by decide +kernel

/-- CURTAIN_N low for 100 ns closes the gates; 49 ns does not (R473). -/
theorem test_curtain : after (exec (.curtainNFall 100) up) gatesClosed = some true ∧
    after (exec (.curtainNFall 49) up) gatesClosed = some false := by decide +kernel

/-- A cap of 800 W is taken, 801 W is out of range (FW_BAD_ARG, 0x81). -/
theorem test_cap : after (exec (.capSet ⟨.session 0, 0, 9⟩ 800)
      { up with sec := { up.sec with sessions := [(0, some ⟨.mgmt, .established, .operator, 0, 0, 0, []⟩)] } })
      (fun t => t.energy.capPend) = some (some 800) := by decide +kernel

/-- The bulk under 40.0 V: PWR_GOOD falls and the main regulators turn off; engines hold nothing. -/
theorem test_bulk : after (exec .bulkUndervoltage (on (runs [(1, 7#64)]))) (fun t => (t.pins.regulators, t.eng)) = some (false, []) := by
  decide +kernel

/-- A step on an empty queue passes one microsecond; with a command in front it runs that command. -/
theorem test_step : after (step { up with pins := { Pins.init with standby := true } }) (fun t => t.time) = some 1 ∧
    after (step { up with pending := [.callBoardBadWrite 5 1, .perstNAssert] }) (fun t => (t.board.badWr, t.pending.length)) =
      some (1#8, 1) := by decide +kernel

/-! ### Witnesses: engines -/

theorem witness_StepRunsFrontCommand : ({ up with pending := [.theHalf] } : State).pending = .theHalf :: [] := rfl

theorem witness_ScalarRegisterResults : issues (on (runs [(1, 7#64)])) 0 ctx ∧
    (∀ func, func ≤ 0x12 → wordOk 1 func (op 3 1 2 0 0) = true) ∧ wordOk 1 0x13 (op 3 1 2 31 0) = true := ⟨on_issues _, by decide⟩

theorem witness_ScalarImmediateResults : issues (on (runs [(1, 7#64)])) 0 ctx ∧
    (∀ func, func ∈ [0, 2, 3, 4, 0xD, 0xE, 0x14] → wordOk 2 func (op 3 1 0 0 0xFFFFFFFF) = true) ∧
    (∀ func, func ∈ [5, 6, 7] → wordOk 2 func (op 3 1 0 0 63) = true) := ⟨on_issues _, by decide⟩

/-- Taken and not taken: s1 = −1, s2 = 1, s3 = 2. -/
theorem witness_BranchTargets :
    let x := runs [(1, 0xFFFFFFFFFFFFFFFF#64), (2, 1#64), (3, 2#64)]
    issues (on x) 0 ctx ∧ (∀ func, func ≤ 5 → wordOk 3 func (op 1 2 0 0 0xFFFFFFF8) = true) ∧ wordOk 3 8 (op 0 0 0 0 8) = true ∧
    wordOk 3 9 (op 2 0 0 0 8) = true ∧ rdS x 1 = rdS x 1 ∧ rdS x 1 ≠ rdS x 2 ∧ (rdS x 1).toInt < (rdS x 2).toInt ∧
    ¬ (rdS x 2).toInt < (rdS x 1).toInt ∧ (rdS x 2).toNat < (rdS x 1).toNat ∧ ¬ (rdS x 1).toNat < (rdS x 2).toNat ∧
    rdS x 3 - 1 ≠ 0 ∧ ¬ rdS x 2 - 1 ≠ 0 := ⟨on_issues _, by decide⟩

/-- At 0, and at the last place in LM for each size. -/
theorem witness_LmLoadResults :
    let x := runs [(1, 0xBFFFFF#64), (2, 0xBFFFFE#64), (3, 0xBFFFFC#64), (4, 0xBFFFF8#64), (5, 0xBFFFF0#64), (6, 0xBFFE00#64)]
    let last (r func n align : Nat) : Bool := wordOk 8 func (op 0 r 0 0 0) && effAddr x (op 0 r 0 0 0) % align = 0 &&
      effAddr x (op 0 r 0 0 0) + n = 0xC00000 && !lmBusy x (effAddr x (op 0 r 0 0 0)) n
    issues (on x) 0 ctx ∧ last 1 0 1 1 ∧ last 1 1 1 1 ∧ last 2 2 2 2 ∧ last 2 3 2 2 ∧ last 3 4 4 4 ∧ last 3 5 4 4 ∧ last 4 6 8 8 ∧
    last 6 0x10 512 64 ∧ last 3 0x12 4 4 ∧ last 5 0x14 16 16 := ⟨on_issues _, by decide⟩

theorem witness_LmStoreResults :
    let x := runs [(1, 0xBFFFFF#64), (2, 0xBFFFFE#64), (3, 0xBFFFFC#64), (4, 0xBFFFF8#64), (5, 0xBFFFF0#64), (6, 0xBFFE00#64),
      (7, 64#64), (8, 0xBFFFC0#64)]
    let last (r func n align : Nat) : Bool := wordOk 8 func (op 0 r 0 0 0) && effAddr x (op 0 r 0 0 0) % align = 0 &&
      effAddr x (op 0 r 0 0 0) + n = 0xC00000 && !lmBusy x (effAddr x (op 0 r 0 0 0)) n
    issues (on x) 0 ctx ∧ last 1 8 1 1 ∧ last 2 9 2 2 ∧ last 3 0xA 4 4 ∧ last 4 0xB 8 8 ∧ last 6 0x11 512 64 ∧ last 5 0x15 16 16 ∧
    -- lm.cpy and lm.fill: 64 bytes at 0xBFFFC0 from 0, and onto themselves; a whole LM of bytes
    wordOk 8 0x18 (op 8 0 7 0 0) = true ∧ wordOk 8 0x19 (op 8 0 7 0 0) = true ∧ (rdS x 7).toNat % 64 = 0 ∧ 64 ≤ (rdS x 7).toNat ∧
    (rdS x 8).toNat % 64 = 0 ∧ (rdS x 8).toNat + (rdS x 7).toNat ≤ 0xC00000 ∧ lmBusy x (rdS x 8).toNat (rdS x 7).toNat = false ∧
    0 + (rdS x 7).toNat ≤ (rdS x 8).toNat := ⟨on_issues _, by decide⟩

/-- The last places in a window of one flat. -/
theorem witness_FliesAccessResults :
    let x := runs [(1, 0xFFFC#64), (2, 0xFFF8#64), (3, 0xFE00#64)]
    let last (r func n : Nat) : Bool := wordOk 0x20 func (op 0 r 0 0 0) && effAddr x (op 0 r 0 0 0) % min n 64 = 0 &&
      effAddr x (op 0 r 0 0 0) + n = flSize ctx && !flUnderTest (on x) ctx (effAddr x (op 0 r 0 0 0)) n
    issues (on x) 0 ctx ∧ last 1 0 4 ∧ last 2 1 8 ∧ last 3 4 512 ∧ last 1 2 4 ∧ last 2 3 8 ∧ last 3 5 512 :=
  ⟨on_issues _, by decide⟩

theorem witness_FliesAtomicResults :
    let x := runs [(2, 0xFFF8#64)]
    issues (on x) 0 ctx ∧ (∀ func, func ∈ [8, 9, 0xA, 0xB, 0xC, 0xD] → wordOk 0x20 func (op 3 2 1 0 0) = true) ∧
    wordOk 0x20 0xE (op 3 2 1 4 0) = true ∧ effAddr x (op 3 2 1 0 0) % 8 = 0 ∧ effAddr x (op 3 2 1 0 0) + 8 = flSize ctx ∧
    flUnderTest (on x) ctx (effAddr x (op 3 2 1 0 0)) 8 = false := ⟨on_issues _, by decide⟩

/-- mx.mul of two 8-bit tiles of 128 by 128 in LM, and in the Flies; a whole tile and strided rows for mx.drain; rows of 512
bytes for mx.fill; row 127. -/
theorem witness_MatrixArrayResults :
    let x := runs [(1, 0x4000#64), (2, 128#64), (4, 512#64), (5, 127#64)]
    let s := on x
    let mulLm := op 0 1 2 0 0x663f800
    let mulFl := op 0 1 2 0 0x67bf800
    issues s 0 ctx ∧ wordOk 0x10 0 mulLm = true ∧ wordOk 0x10 0 mulFl = true ∧
    mulKOk 128 (imm mulLm 28 25) (imm mulLm 24 21) = true ∧ tileBytes 3 128 128 + tileBytes 3 128 128 ≤ 196608 ∧
    chkTile s ctx x false 0 (tileBytes 3 128 128) = .ok ∧ chkTile s ctx x false 0x4000 (tileBytes 3 128 128) = .ok ∧
    chkTile s ctx x true 0 (tileBytes 3 128 128) = .ok ∧ chkTile s ctx x true 0x4000 (tileBytes 3 128 128) = .ok ∧
    wordOk 0x10 1 (op 0 0 0 0 0xFF) = true ∧
    wordOk 0x10 2 (op 0 0 0 0 0x603f800) = true ∧ wordOk 0x10 2 (op 0 4 0 0 0x613f800) = true ∧ fmtMx 3 = false ∧
    rowBytes 3 ≤ 512 ∧ 128 * rowBytes 3 ≤ 196608 ∧ (∀ m, m < 128 → chkTile s ctx x true (m * 512) (rowBytes 3) = .ok) ∧
    wordOk 0x10 3 (op 0 4 0 0 0x3f800) = true ∧ wordOk 0x10 3 (op 0 0 0 0 0x13f800) = true ∧ 128 * 512 ≤ 196608 ∧
    (∀ m, m < 128 → chkTile s ctx x false (m * 512) 512 = .ok ∧ chkTile s ctx x true (m * 512) 512 = .ok) ∧
    wordOk 0x10 4 (op 15 5 0 0 0xE0000000) = true ∧ wordOk 0x10 5 (op 15 5 0 0 0xE0000000) = true ∧ (rdS x 5).toNat < 128 :=
  ⟨on_issues _, by decide⟩

theorem witness_VectorLaneResults : issues (on (runs [])) 0 ctx ∧
    (∀ func, func ∈ [0, 1, 2, 4, 5] → ∀ ty, ty < 3 → wordOk 0x14 func (op 15 14 13 0 (ty * 2 ^ 26 + 0xF0000000)) = true) ∧
    wordOk 0x14 3 (op 15 14 13 12 0xF0000000) = true ∧
    (∀ func, func ∈ [6, 7, 8, 9, 0xA] → ∀ ty, ty ∈ [1, 2] → wordOk 0x14 func (op 15 14 13 0 (ty * 2 ^ 26)) = true) ∧
    (∀ func, func ∈ [0x10, 0x11, 0x12, 0x13] → wordOk 0x14 func (op 15 14 0 0 0xF0000000) = true) ∧
    wordOk 0x14 0x19 (op 15 14 13 7 0xF8000000) = true ∧ wordOk 0x14 0x1A (op 15 31 0 0 0xF8000000) = true :=
  ⟨on_issues _, by decide⟩

theorem witness_VectorRowResults :
    let x := runs [(1, 127#64)]
    issues (on x) 0 ctx ∧ wordOk 0x14 0x18 (op 7 15 14 0 0xe2800000) = true ∧
    (∀ func, func ∈ [0x28, 0x29] → wordOk 0x14 func (op 7 6 5 0 0) = true) ∧ wordOk 0x14 0x2A (op 7 6 0 0 0) = true ∧
    wordOk 0x14 0x2B (op 7 31 0 0 0) = true ∧
    (∀ func, func ∈ [0x20, 0x21, 0x22] → ∀ ty, ty < 3 → wordOk 0x14 func (op 15 14 0 0 (ty * 2 ^ 26 + 0xE0000000)) = true) ∧
    wordOk 0x14 0x1B (op 31 15 1 0 0) = true ∧ (rdS x 1).toNat < 128 ∧ wordOk 0x14 0x1C (op 15 14 0 0 0xc00000) = true ∧
    wordOk 0x14 0x1D (op 15 14 0 0 0x2800000) = true ∧ wordOk 0x14 0x30 (op 15 14 13 0 0x08000000) = true :=
  ⟨on_issues _, by decide⟩

/-- 128 queries and 128 keys of 32 elements, with every pair allowed, with the bitmap of SUM 2, and with SUM 1; an accumulator
that is skipped (bit 5) and one that is not; O of 256 columns in the pair 2 and 3. -/
theorem witness_AttentionResults :
    let x : Engine := { runs [(1, 0x4000#64), (4, 0x8000000000010000#64), (5, 0x4000000000000000#64)] with skip := 0x20#8, smaxNq := 128, smaxFmt := 3 }
    let s := on x
    let score := op 0 1 2 0 0x61fff80
    issues s 0 ctx ∧ wordOk 0x18 0 score = true ∧ maskLegal (rdS x 0) = true ∧ maskSum (rdS x 0) ≠ 1 ∧ chkScore s ctx x score = .ok ∧
    wordOk 0x18 0 (op 0 1 2 4 0xe2ffff80) = true ∧ maskLegal (rdS x 4) = true ∧ maskSum (rdS x 4) = 2 ∧
    chkScore s ctx x (op 0 1 2 4 0x61fff80) = .ok ∧
    maskLegal (rdS x 5) = true ∧ maskSum (rdS x 5) = 1 ∧ wordOk 0x18 5 (op 0 1 2 0 0x61ffff8) = true ∧
    wordOk 0x18 1 (op 1 2 0 0 0xa87fc000) = true ∧ wordOk 0x18 1 (op 1 2 0 0 0x8ffc000) = true ∧
    bitAt x.skip 5 = true ∧ bitAt x.skip 0 = false ∧ wordOk 0x18 2 (op 0 0 0 0 0xa87ff000) = true ∧
    wordOk 0x18 2 (op 0 0 0 0 0x8fff000) = true ∧ chkLm x 0 (tileBytes 3 128 256) 64 = .ok ∧ x.smaxNq ≤ 128 ∧
    -- VFMT 3 after a smax of PFMT 3, which goes with it, and after one of PFMT 1, which does not
    imm (op 0 0 0 0 0x8fff000) 25 22 = 3 ∧ x.smaxFmt = 3 ∧ ({ x with smaxFmt := 1 } : Engine).smaxFmt = 1 ∧
    wordOk 0x18 3 (op 1 2 3 0 0x83fc000) = true := ⟨⟨by decide, rfl, rfl, rfl, rfl⟩, by decide⟩

/-- Cue Light 11, the last of the window (index 3), at its target, below it, and one short of saturation. -/
theorem witness_CueInstructionResults :
    let s (n : Nat) : State := { on (runs [(4, 100#64)]) with cue := [(11, ⟨n, false⟩)] }
    let ok (func : Nat) (f : Fields) : Prop := wordOk 0x1C func f = true ∧ ctx.clOk = true ∧ imm f 9 0 < ctx.clCount ∧
      cueGranted (s 5) ctx.part 11 = true
    issues (s 5) 0 ctx ∧ ok 0 (op 0 0 0 0 0x10003) ∧ (0 < 1) ∧ cueOf (s 65535) 11 = ⟨65535, false⟩ ∧
    ok 1 (op 0 0 0 4 0x50003) ∧ ok 2 (op 0 0 0 4 0x50003) ∧ ok 3 (op 0 0 0 0 0xffff0003) ∧
    ok 4 (op 1 0 0 0 0x3) ∧ ok 9 (op 0 0 0 4 0x57003) ∧ ok 0xA (op 0 0 0 4 0x57003) ∧
    5 ≤ (cueOf (s 5) 11).count ∧ waitdPending (s 5) 11 = false ∧ (cueOf (s 4) 11).count < 5 := by
  refine ⟨⟨by decide, rfl, rfl, rfl, rfl⟩, ?_⟩
  decide

/-- Stagehand 0 serves as LS0 for LE0, and the next one is a hole; a job without a Cue Light, and one with. -/
theorem witness_ControlAndSysResults :
    let h : Stagehand := { Stagehand.init with serv := ⟨some 0, false, false, false, false, none⟩ }
    let x : Engine := { runs [(1, 64#64)] with lm := [(68, 1#8), (70, 1#8)] }
    let s : State := { on x with sh := [(0, h)] }
    issues s 0 ctx ∧ wordOk 0 0 (op 0 0 0 0 0) = true ∧ wordOk 0 1 (op 0 0 0 0 0) = true ∧ x.deferred = [] ∧ x.xq = [] ∧ x.helpers = 0 ∧
    (∀ m, m < 8 → 0 < m → wordOk 0 2 (op 0 0 0 0 m) = true) ∧ (∀ code, code ≤ 8 → wordOk 0x24 0 (op 31 0 0 0 code) = true) ∧
    (∀ code, code ∈ [5, 6] → wordOk 0x24 1 (op 0 31 0 0 code) = true) ∧
    (engOf (on { x with xq := [⟨true, 0, 0, 1, 64, 0, 0, none, 0, 0, []⟩] }) 0).xq ≠ [] ∧ wordOk 0x24 2 (op 0 0 0 0 0xFFFF) = true ∧
    wordOk 0x24 3 (op 1 0 0 0 0) = true ∧ wordOk 0x24 3 (op 1 0 0 0 1) = true ∧
    leAt (tabRead 0#8 x.lm 0 64) 6 1 = 0 ∧ cueIndex s ctx (leAt (tabRead 0#8 x.lm 0 64) 4 2) = some 8 ∧ lmBusy x 0 64 = false ∧ lmBusy x 64 64 = false ∧
    leAt (tabRead 0#8 x.lm 64 64) 6 1 ≠ 0 ∧ cueIndex s ctx (leAt (tabRead 0#8 x.lm 64 64) 4 2) = some 9 ∧
    shSlot s 0 = some 0 ∧ shSlot s 1 = none ∧ (shOf s 0).queue.length < 8 := by
  refine ⟨⟨by decide, rfl, rfl, rfl, rfl⟩, ?_⟩
  decide

theorem witness_ReservedFieldsAreIllegal : isvexOf (.add 0 (op 3 0 0 1 0)) = some (0, 1, 0, op 3 0 0 1 0) ∧
    issues (on (runs [])) 0 ctx ∧ wordOk 1 0 (op 3 0 0 1 0) = false := ⟨rfl, on_issues _, by decide⟩

/-- Misaligned, and one past the end of LM, of a window of one flat, and of a window of 4 Cue Lights. -/
theorem witness_AccessExceptions :
    let x := runs [(1, 1#64), (2, 0xC00000#64), (3, 0x10000#64)]
    issues (on x) 0 ctx ∧ (∀ p, p ∈ [(0, 1), (1, 1), (2, 2), (3, 2), (4, 4), (5, 4), (6, 8), (8, 1), (9, 2), (0xA, 4), (0xB, 8), (0x10, 64),
      (0x11, 64), (0x12, 4), (0x14, 16), (0x15, 16)] → wordOk 8 p.1 (op 3 1 0 0 0) = true ∧ wordOk 8 p.1 (op 3 2 0 0 0) = true ∧
      (p.2 ≠ 1 → (rdS x 1).toNat % p.2 ≠ 0) ∧ (rdS x 2).toNat % p.2 = 0) ∧ 0xC00000 < (rdS x 2).toNat + 1 ∧
    (∀ p, p ∈ [(0, 4), (1, 8), (2, 4), (3, 8), (4, 64), (5, 64), (8, 8), (9, 8), (0xA, 8), (0xB, 8), (0xC, 8), (0xD, 8), (0xE, 8)] →
      wordOk 0x20 p.1 (op 3 1 0 0 0) = true ∧ wordOk 0x20 p.1 (op 3 3 0 0 0) = true ∧ (rdS x 1).toNat % p.2 ≠ 0 ∧
      (rdS x 3).toNat % p.2 = 0) ∧ (ctx.cnt0 + ctx.cnt1) * 65536 < (rdS x 3).toNat + 1 ∧
    (∀ p, p ∈ [(0, 0x10004), (1, 0x10004), (2, 0x10004), (3, 0x10004), (4, 4), (9, 0x10004), (0xA, 0x10004)] →
      wordOk 0x1C p.1 (op 0 0 0 0 p.2) = true) ∧ ctx.clCount ≤ imm (op 0 0 0 0 4) 9 0 := ⟨on_issues _, by decide⟩

theorem witness_NothingIssuesWhileAnEngineWaits : isvexOf (.add 35 (op 3 1 2 0 0)) = some (35, 1, 0, op 3 1 2 0 0) ∧
    (engOf up 35).run = none ∧ (engOf (on { runs [] with wait := some ⟨8, 1, false, none, none⟩ }) 0).wait.isSome = true ∧
    (engOf (on { runs [] with phase := .ending }) 0).phase ≠ .running := by decide

theorem witness_IsvexWordsRoundTrip : isvexOf (.sel 35 (op 31 30 29 28 0)) = some (35, 1, 0x13, op 31 30 29 28 0) ∧
    (isvexEncode (.sel 35 (op 31 30 29 28 0))).isSome = true ∧
    isvexDecode 35 0x053FFBBC00000000#64 = some (.sel 35 (op 31 30 29 28 0)) := by decide

/-- 64 bytes; 8 MiB; 2 rows of 64 bytes that end at the end of LM; with the last Cue Light of the window. -/
theorem witness_TransferIssue :
    let x := runs [(1, 64#64), (2, 0x800000#64), (3, 0xBFFFC0#64), (4, 0x400002#64), (5, 0xBFFF80#64)]
    issues (on x) 0 ctx ∧ (∀ func, func ≤ 1 → wordOk 0xC func (op 3 0 1 0 0) = true ∧ wordOk 0xC func (op 0 0 2 0 0x80800003) = true ∧
      wordOk 0xC func (op 5 0 1 4 0x80800003) = true) ∧ x.xq.length < 16 ∧ (rdS x 1).toNat % 64 = 0 ∧ (rdS x 2).toNat ≤ 8 * 2 ^ 20 ∧
    (rdS x 3).toNat + 64 = 0xC00000 ∧ (rdS x 4).toNat % 65536 = 2 ∧ (rdS x 4).toNat / 65536 % 2 ^ 24 = 64 ∧
    (rdS x 5).toNat + 64 + 64 = 0xC00000 ∧ ctx.clOk = true ∧ imm (op 5 0 1 4 0x80800003) 9 0 < ctx.clCount ∧
    cueGranted (on x) ctx.part (ctx.clBase + 3) = true := ⟨on_issues _, by decide⟩

/-! ### Witnesses: transfers, the Cue Light bank, helpers, entries and Walk-ons -/

/-- P0 is enabled and has its key. -/
def keyed : State := { up with sec := { up.sec with keys := [(0, some 2), (8, some 1)], enabled := [0] } }

/-- P0's page at 0x10000 is mapped to frame 100, readable and writable; its grant is Cue Lights 0 to 255. -/
def paged : State :=
  let s := mapLeaf 0 0x10000 (ptLeaf true true false false 0 100 0xFFFF) keyed
  { s with cueGrant := [(0, 0x00FFFFFF#32)] }

/-- A transfer of 64 bytes at the page's end. -/
def xfer (st : Bool) : Xfer := ⟨st, 0xBFFFC0, 0x1FFC0, 1, 64, 0, 0, some (8, 1), 0, 0, []⟩

/-- A job of the entry on a Stagehand, posted by engine 0. -/
def job : HelperJob := { image := 1, cl := some 8, inc := 1, args := [], eng := 0, ctx := ctx, pc := 0 }

/-- A load and a store of an engine, and a store of the last Stagehand. -/
theorem witness_TransferDelivery :
    let s (st : Bool) : State := { paged with eng := [(0, { runs [] with xq := [xfer st] })], sh :=
      [(71, { Stagehand.init with phase := .running, job := some job, xq := [{ xfer true with lm := 0 }] })] }
    (∀ st, xferQueue (s st) 0 = xfer st :: [] ∧ xferCtx (s st) 0 = some ctx ∧
      rangeFault (s st) (xferMem 0 ctx) st 0x1FFC0 64 = none) ∧ rangeCopies (s true) (xferMem 0 ctx) 0x1FFC0 64 = none ∧
    xferQueue (s true) 135 = [{ xfer true with lm := 0 }] ∧ xferCtx (s true) 135 = some ctx ∧
    rangeFault (s true) (xferMem 135 ctx) true 0x1FFC0 64 = none ∧ rangeCopies (s true) (xferMem 135 ctx) 0x1FFC0 64 = none ∧
    cleanMem (s true) ∧ cleanMem (s false) := by
  simp only [cleanMem]; decide

/-- A transfer from a page that is not mapped; a copy-on-write page of frame 100 and a step with frame 101 in reserve. -/
theorem witness_TransferFaultsAndCopies :
    let f : State := { on (runs []) with eng := [(0, { runs [] with xq := [xfer false] })] }
    let s : State := mapLeaf 0 0x10000 (ptLeaf true true true false 0 100 0xFFFF) keyed
    let s : State := setPt 0 3 0x10000 (ptLeaf true false true false 0 100 0xFFFF) s
    let s : State := { s with mem := { s.mem with journals := [⟨0, 1, [], [101]⟩] } }
    let a : Access := ⟨0, 1, 0, 0, 0, 0⟩
    issues f 0 ctx ∧ (engOf f 0).deferred = [] ∧ (engOf f 0).xq = xfer false :: [] ∧ cleanMem f ∧
    xferFaultAt f (xferMem 0 ctx) (xfer false) = some (0x1FFC0, 1) ∧ xferCopies f (xferMem 0 ctx) (xfer false) = false ∧
    a.part < 8 ∧ cleanMem s ∧ Memory.wf s = true ∧ walk s a.part a.stepId.toNat true 0x10000 = .copy (100 * 65536) ∧
    journalOf s a.part a.stepId.toNat = some ⟨0, 1, [], [101]⟩ ∧ leafAt s 0 0x10000 = some (ptLeaf true false true false 0 100 0xFFFF) := by
  refine ⟨⟨by decide, rfl, rfl, rfl, rfl⟩, ?_⟩
  simp only [cleanMem]; decide

/-- A wait whose count is reached, and one below its target with a timeout; on an engine and on a Stagehand; a saturation that
the bank reports; flat 127 under test. -/
theorem witness_CueBankAndFlatEvents :
    let w (take : Bool) (pd : Option Nat) : CueWait := ⟨65535, 5, take, pd, some 40⟩
    let s (n : Nat) (take : Bool) (pd : Option Nat) : State := { on (runs []) with
      eng := [(0, { runs [] with wait := some (w take pd) })], cue := [(65535, ⟨n, false⟩)],
      sh := [(71, { Stagehand.init with phase := .running, job := some job, wait := some (w false none), waitRd := 3 })] }
    let d : Deferred := ⟨false, 7, 16, 8, 0, []⟩
    let o : State := on { runs [] with deferred := [d] }
    let f : State := { up with flies := { up.flies with flats := [(127, { Flat.init with test := true })], testCopy := some 127 } }
    (engOf (s 5 false none) 0).wait = some (w false none) ∧ 5 ≤ (cueOf (s 5 false none) 65535).count ∧
    (shOf (s 5 false none) 71).wait = some (w false none) ∧ (engOf (s 5 true none) 0).wait = some (w true none) ∧
    (∀ u, u ∈ waitUnits → u ≠ 0 → ∀ v, v ∈ unitWait { s 5 true none with sh := [] } u → v.cl ≠ 65535) ∧
    (∀ k, k < 4 → samplerWait { s 5 true none with sh := [] } k 65535 = none) ∧ waitLate (s 5 true none) (w true none) = false ∧
    (s 4 false none).pins.standby = true ∧ 40 - (s 4 false none).time ≤ (s 4 false none).beat.period + 1 - (s 4 false none).beat.phaseUs ∧
    -- a count that is reached, in a wait whose timeout has passed
    waitLate { s 5 false none with time := 41 } (w false none) = true ∧
    (∀ pd, pd ∈ [none, some 7] → (engOf (s 4 false pd) 0).wait = some (w false pd)) ∧ (engOf (s 4 false none) 0).run = some ctx ∧
    (w false none).deadline = some 40 ∧ (cueOf (s 4 false none) 65535).count < 5 ∧
    issues o 0 ctx ∧ (engOf o 0).deferred = [d] ∧ d.cause = 7 ∧
    (flatOf f 127).test = true ∧ f.flies.testCopy = some 127 := by
  simp only [issues]; decide

/-- LS71 in slot 71 with a queued job; with the same and another partition before; a job that runs. -/
theorem witness_HelperJobs :
    let h (p : Option Nat) : Stagehand := { Stagehand.init with serv := ⟨some 1, false, false, false, false, p⟩, queue := [job] }
    let s (p : Option Nat) : State := { on (runs []) with sh := [(71, h p)] }
    let r : State := { on (runs []) with sh := [(71, { Stagehand.init with phase := .running, job := some job })] }
    (∀ p, p ∈ [none, some 0] → (shOf (s p) 71).queue = job :: [] ∧ (shOf (s p) 71).phase = .idle ∧ (shOf (s p) 71).job = none ∧
      (shOf (s p) 71).serv.role.isSome = true ∧ (shOf (s p) 71).serv.inReset = false ∧ (shOf (s p) 71).serv.selftest = false ∧
      (s p).fault.clReset.contains (71 / 18) = false) ∧
    runsJob r 71 job ∧ (shOf r 71).xq = [] ∧ jobAlive r job = true ∧ r.fault.fifo.length < 255 ∧ issues r 0 ctx ∧
    (engOf r 0).deferred = [] ∧ sameEntry ctx job.ctx = true := by
  simp only [issues, runsJob]; decide

/-- Stagehand 71 runs a job: x1 = 3 is the last index of its window, x2 = 5, x3 = 0xFFF8 is the last word of its flat. -/
def helper : State :=
  { on (runs []) with
    sh := [(71, { Stagehand.init with phase := .running, job := some job, x := [(1, 3#64), (2, 5#64), (3, 0xFFF8#64), (4, 0x80000#64)] })]
    cue := [(11, ⟨5, false⟩)] }

theorem helper_runs : runsJob helper 71 job := ⟨by decide, rfl, rfl, rfl⟩

theorem witness_XzshResults : runsJob helper 71 job ∧ cueIndex helper job.ctx (rdX (shOf helper 71) 1).toNat = some 11 ∧
    (rdX (shOf helper 71) 2).toNat ≤ (cueOf helper 11).count ∧ waitdPending helper 11 = false ∧ (rdX (shOf helper 71) 0).toNat = 0 ∧
    (cueOf { helper with cue := [] } 11).count < (rdX (shOf helper 71) 2).toNat ∧
    (rdX (shOf helper 71) 3).toNat % 8 = 0 ∧ (rdX (shOf helper 71) 3).toNat + 8 = flSize job.ctx ∧
    flUnderTest helper job.ctx (rdX (shOf helper 71) 3).toNat 8 = false ∧
    -- zsh.xfer with its descriptor past the end of local memory
    ¬ (rdX (shOf helper 71) 4).toNat + 32 ≤ 0x80000 :=
  ⟨helper_runs, by decide⟩

/-- A descriptor of zsh.xfer at 0 that is legal whichever its places are: each of its 8 words holds 64. -/
def describing (q : List Xfer) : State :=
  { helper with sh := [(71, { shOf helper 71 with lm := (List.range 8).map fun i => (4 * i, 0x40#8), x := [], xq := q })] }

theorem witness_XzshResults_xfer (q : List Xfer) :
    let s := describing q
    let x := zshXferOf s job (shOf s 71) (tabRead 0#8 (shOf s 71).lm 0 32) 0
    0 + 32 ≤ 0x80000 ∧ 0 < x.len ∧ x.len % 64 = 0 ∧ x.dv % 64 = 0 ∧ x.lm % 64 = 0 ∧ x.lm + x.len ≤ 0x80000 ∧ zshInc 0 = 0 := by
  have four : ∀ i, i < 8 → leAt (tabRead 0#8 (((List.range 8).map fun i => (4 * i, 0x40#8)) : Tab Byte) 0 32) (4 * i) 4 = 64 := by decide
  have eight : ∀ i, i < 4 → leAt (tabRead 0#8 (((List.range 8).map fun i => (4 * i, 0x40#8)) : Tab Byte) 0 32) (8 * i) 8 % 64 = 0 := by
    decide
  have none : ∀ i, i < 8 → leAt (leBytes 8 0) i 1 = 0 := by decide
  have len := four (Config.zshPlace 3 % 8) (Nat.mod_lt _ (by decide))
  have lm := four (Config.zshPlace 1 % 8) (Nat.mod_lt _ (by decide))
  intro s x
  have len : x.len = 64 := len
  have lm : x.lm = 64 := lm
  exact ⟨by decide, by omega, by omega, eight _ (Nat.mod_lt _ (by decide)), by omega, by omega, none _ (Nat.mod_lt _ (by decide))⟩

theorem witness_XzshResults_queue : (shOf (describing []) 71).xq.length < 16 ∧
    16 ≤ (shOf (describing (List.replicate 16 (xfer true))) 71).xq.length ∧ ∀ q, runsJob (describing q) 71 job :=
  ⟨by decide, by decide, fun _ => ⟨by decide, rfl, rfl, rfl⟩⟩

/-- The low 4 bits of the first element of vs1 are the format: 0xA is MXINT8, 0 is FP32. -/
theorem witness_XzshVectorResults :
    let s : State := { helper with sh := [(71, { shOf helper 71 with v := [(64 * 31, 0xA#8)] })] }
    runsJob s 71 job ∧ fmtMx (leAt (rdVb (shOf s 71) 31) 0 1 % 16) = true ∧ fmtMx (leAt (rdVb (shOf s 71) 30) 0 1 % 16) = false := by
  simp only [runsJob]; decide

/-- x4 + 0x7FFF8 is the last doubleword of the local memory, in machine mode and in user mode; x5 + 0 is misaligned. -/
theorem witness_StagehandInstructions :
    let h (m : Bool) : Stagehand := { shOf helper 71 with x := [(4, 0x7FFF8#64), (5, 1#64)], machine := m, csr := helperCsr [] }
    let s (m : Bool) : State := { helper with sh := [(71, h m)] }
    (∀ m, m ∈ [true, false] → runsJob (s m) 71 job ∧ (shOf (s m) 71).serv.inReset = false ∧ (shOf (s m) 71).serv.selftest = false ∧
      rvFetchOk (shOf (s m) 71) 4 = true ∧ rvFsOn (shOf (s m) 71) = true ∧ (shOf (s m) 71).resv = none ∧
      (∀ w, w ∈ [0, 1] → pmpAllows (shOf (s m) 71) (rvDataMachine (shOf (s m) 71)) w 0x7FFF8 8 = true) ∧
      (rdX (shOf (s m) 71) 4).toNat % 8 = 0 ∧ (rdX (shOf (s m) 71) 4).toNat + 8 = 0x80000 ∧ (rdX (shOf (s m) 71) 5).toNat % 8 ≠ 0) ∧
    (shOf (s false) 71).machine = false := by
  simp only [runsJob]; decide +kernel

/-- A WORK entry of P0 for LE0 with its argument block at 0x10000, and a SELFTEST entry. -/
def work : Entry := ⟨0x0000F00000000000#64, 0x0001000000010000#64, 0, 0, 0, 10, 0x0000000000000064#64, 0⟩
def selftest : Entry := { work with w0 := 0x4000000000000000#64 }

/-- A Running Order with one entry, on a paged state in which engine 0 serves LE0. -/
def ordered (e : Entry) (x : Engine) : State :=
  { paged with
    eng := [(0, { x with serv := { x.serv with role := some 0 } })]
    ro := { paged.ro with running := some { emptyOrder with entries := [e] } } }

theorem witness_EntryDispatch :
    let last (p : Option Nat) : Engine := { Engine.init with serv := { UnitServ.init with lastPart := p } }
    let o (e : Entry) : Order := { emptyOrder with entries := [e] }
    (∀ e, e ∈ [work, selftest] → ∀ p, p ∈ [none, some 0] → (engOf (ordered e (last p)) 0).serv.role = some 0 ∧
      (ordered e (last p)).ro.running = some (o e) ∧ engineIdle (ordered e (last p)) 0 = true ∧
      nextEntry (ordered e (last p)) (o e) 0 0 = some (0, e) ∧ cleanMem (ordered e (last p))) ∧
    eKind selftest = 4 ∧ eKind work ≠ 4 ∧ ePart work = 0 ∧ eArg work = 0x10000 ∧
    rangeFault (ordered work (last (some 0))) (entryMem (entryCtx (ordered work (last (some 0))) (o work) work 0) (unitCode (engRef 0)) 0)
      false (eArg work) 256 = none ∧
    -- the last engine slot clears with an entry, or without one; the last Stagehand slot clears
    (∀ r, r ∈ [none, some { ctx with argPtr := 0x10000 }] →
      (engOf { paged with eng := [(35, { Engine.init with phase := .clearing, run := r })] } (9 * 3 + 8)).phase = .clearing ∧
      cleanMem { paged with eng := [(35, { Engine.init with phase := .clearing, run := r })] }) ∧
    ctx.slot = none ∧ rangeFault paged (entryMem { ctx with argPtr := 0x10000 } (unitCode (engRef 35)) 0) false 0x10000 256 = none ∧
    (shOf { up with sh := [(71, { Stagehand.init with phase := .clearing })] } (18 * 3 + 17)).phase = .clearing := by
  simp only [cleanMem]; and_intros <;> decide +kernel

/-- Each way in which an entry ends; the period is 10,000 µs, the deadline 100 µs and FAULT_HANG_GRACE 0. -/
theorem witness_EntryEnd :
    let x (p : UnitPhase) : Engine := { runs [] with phase := p }
    (∀ p, p ∈ [UnitPhase.running, .ending, .clearing, .draining] → (engOf (on (x p)) 0).run = some ctx ∧ (engOf (on (x p)) 0).phase = p ∧
      (engOf (on (x p)) 0).xq = [] ∧ (engOf (on (x p)) 0).helpers = 0 ∧ (engOf (on (x p)) 0).deferred = [] ∧
      (engOf (on (x p)) 0).cut = false ∧ cleanMem (on (x p))) ∧ hangDeadline (on (x .running)) ctx < (on (x .running)).beat.period := by
  simp only [cleanMem]; decide

/-- A write of slot 127: with GO 0, to a free slot, and to a busy one; a doorbell of the physical function and of P7's. -/
theorem witness_WalkonRequests :
    let s (st : SlotState) (p : Option Nat) : State := { up with board := { up.board with slots := [(127, { Slot.init with state := st, reg := p })] } }
    let free : DWord := 0x0000027F00000000#64
    let go : DWord := 0x0000027F80000000#64
    (∀ st, st ∈ [SlotState.idle, .pending] → ∀ p, p ∈ [none, some 7] → (s st p).pins.standby = true ∧ linkUp (s st p) = true) ∧
    bitAt (0x7FFFFFFF#32 : Word) 31 = false ∧ bitAt (0x80000000#32 : Word) 31 = true ∧ (slotOf (s .pending none) 127).state = .pending ∧
    (slotOf (s .idle none) 127).state = .idle ∧ bitAt (go.truncate 32 : Word) 31 = true ∧ bitAt (free.truncate 32 : Word) 31 = false ∧
    fld free 38 32 = 127 ∧ fld free 43 40 = 2 ∧ fld free 63 44 = 0 ∧
    fld go 38 32 = 127 ∧ fld go 43 40 = 2 ∧ fld go 63 44 = 0 ∧ (slotOf (s .idle none) 127).reg = none ∧
    (slotOf (s .idle (some 7)) 127).reg = some (8 - 1) := by decide

/-- A WINDOW entry of P0 on LE0 from 0 to 100 µs. -/
def window : Entry := { work with w0 := 0x1000000000000000#64, w1 := 0x0001000000000000#64 }

theorem witness_WalkonWindows :
    let s (p : Option Nat) : State := ordered window { Engine.init with serv := { UnitServ.init with lastPart := p } }
    let slot : Slot := { Slot.init with state := .pending, reg := some 0, predUs := 100 }
    let d : State := { s (some 0) with
      board := { up.board with slots := [(127, slot)] }, ro := { (s (some 0)).ro with opened := [0] } }
    let c : State := { up with flies := { up.flies with sets := [(3, ⟨some 5, true⟩)] } }
    let r : State := { up with board := { up.board with slots := [(127, { slot with state := .idle, pages := 2 })] } }
    (∀ p, p ∈ [none, some 0] → (runEntries (s p)).find? (fun q => q.1 = 0) = some (0, window) ∧ engSlot (s p) (eTarget window) = some 0 ∧
      isQueued (s p) 0 = true ∧ (s p).beat.cutsDone = true ∧ eEarliest window ≤ (s p).beat.phaseUs ∧
      (s p).beat.phaseUs < eDeadline window ∧ engineIdle (s p) 0 = true ∧ (s p).ro.opened.contains 0 = false) ∧ eKind window = 1 ∧
    (slotOf d 127).state = .pending ∧ (slotOf d 127).reg = some 0 ∧ follows d = false ∧ pickWindow d (slotOf d 127) = some (0, window) ∧
    engSlot d (eTarget window) = some 0 ∧ engineIdle d 0 = true ∧ d.fault.fwPoison = false ∧
    d.serve.groups.all (fun g => !g.plan.reqs.contains (slotOf d 127).req) = true ∧
    (tabGet WalkonSet.init c.flies.sets 3).clearing = true ∧ (slotOf r 127).reg = some 0 ∧ (slotOf r 127).state ≠ .running := by
  and_intros <;> decide +kernel

theorem witness_WalkonWindows_refill : ∀ n, journalOf up 0 n = none := fun _ => rfl


/-! ### Witnesses: Samplers, requests, images, memory commands, variants -/

/-- A request of P0 at its start. -/
def req : Request :=
  { jobId := 7, state := .prefill, status := 0, part := 0, prio := 0, age := 0, cuts := 0, carry := none, retry := false, promoted := false,
    insert := false, countFull := false, spread := none, pausePending := false, variant := 63, ncand := 1, topK := 1, temp := 0,
    topP := 0x3F800000, pres := 0, freq := 0, rep := 0x3F800000, window := 0, failUnit := 0, len := 0, logLen := 3, maxNew := 8,
    emitted := 0, pending := 0, seed := 1, outSeq := 0, prefixTokens := 0, admitBeat := 0, lastBeat := 0,
    stop := List.replicate 4 0xFFFFFFFF, distinct := 0, lastNode := none, route := .internal, log := [], counts := [], ext := [],
    cancelled := false, failAtEnd := none, revoked := [], stepNo := 0, spreadEdges := none, contribIn := [], contribOut := [],
    gathered := [], avoid := [], walked := false, treeQ := [], treeDue := [] }

/-- A state with that request at the last index. -/
def asks (r : Request) (s : State) : State := { s with serve := { s.serve with reqs := [(8191, some r)] } }

/-- Frame 100 holds bytes from an offset on; 0 bytes are not listed. -/
def filled (off : Nat) (bs : List Byte) (s : State) : State :=
  { s with mem := { s.mem with bytes := (bs.zipIdx.filter fun e => e.1 ≠ 0#8).map fun e => (6553600 + off + e.2, e.1) } }

/-- A command of P0 with its INLINE bytes. -/
def cmd (opcode argLen obj : Nat) (bs : List Byte) : Cmd :=
  { part := 0, route := .pcie 0 0 5, job := 7, seq := 1, opcode := BitVec.ofNat 16 opcode, tag := 9,
    argLen := BitVec.ofNat 32 argLen, obj := BitVec.ofNat 64 obj, beat := 0, inline := bs ++ List.replicate (28 - bs.length) 0#8,
    resvOk := true, crcOk := true }

/-- A Sampler job of P0 with one row: its logits at 0x10040, its row map at 0x10000, its result at the page's last 8 bytes. -/
def sjob : SamplerJob :=
  { cluster := 3, stepId := 1, part := 0, nrows := 1, waitCl := 65535, waitCnt := 2, doneCl := 65535, doneInc := 1, flat0 := 1,
    flat1 := 2, flat2 := 3, walkon := false, logits := 0x10040, rowStride := 8, vocab := 2, rowmap := 0x10000, outAddr := 0x1FFF8,
    beatKey := 0, resvOk := true, crcOk := true }

/-- The last Sampler has that job; its row is of request 8191, and its result word holds a drawn token 0. -/
def sampling (j : SamplerJob) (p : JobPhase) : State :=
  let s := asks req (filled 0 [0xFF#8, 0x1F#8] paged)
  { s with mem := { s.mem with bytes := s.mem.bytes ++ [(6619132, 1#8)] }, serve := { s.serve with samplers := [(3, ⟨some 3, [⟨j, p, 0⟩], false⟩)] }, cue := [(65535, ⟨2, false⟩)] }

theorem witness_SamplerJobs :
    (∀ w, w ∈ [true, false] → let j := { sjob with walkon := w }; let s := sampling j .waiting
      let q := tabGet Sampler.init s.serve.samplers 3
      q.phys.isSome = true ∧ q.inReset = false ∧ s.fault.clReset.contains 3 = false ∧
      q.queue.any (fun y => y.phase = .running) = false ∧ s.beat.cutsDone = true ∧ samplerTested s q = false ∧
      (q.queue.find? fun y => y.job.walkon && jobReady s y).or (q.queue.find? (jobReady s)) = some ⟨j, .waiting, 0⟩) ∧
    (let s := sampling sjob .running
      let m := samplerMem sjob 0xFFFF
      (tabGet Sampler.init s.serve.samplers 3).queue.find? (fun y => y.phase = .running) = some ⟨sjob, .running, 0⟩ ∧
      sjob.crcOk = true ∧ sjob.resvOk = true ∧ sjob.nrows = 1 ∧ cleanMem s ∧ (dvRead m sjob.rowmap 8 s).fault = none ∧
      BitVec.ofNat 64 (leNat ((dvRead m sjob.rowmap 8 s).bytes)) = 0x1FFF#64 ∧ fld 0x1FFF#64 19 16 = 0 ∧
      reqOf s (fld 0x1FFF#64 15 0) = some req ∧ req.part = sjob.part ∧
      (dvRead (samplerMem sjob (fld 0x1FFF#64 15 0)) sjob.logits (4 * sjob.vocab) s).fault = none ∧
      rangeFault s m true sjob.outAddr 8 = none ∧ rangeCopies s m sjob.outAddr 8 = none) := by
  simp only [cleanMem]; and_intros <;> decide +kernel

/-- A job whose wait the bank serves, and one whose wait it has served. -/
theorem witness_SamplerJobs_waits :
    let s := sampling sjob .waiting
    let g := sampling sjob .granted
    samplerWait s 3 65535 = some ⟨sjob, .waiting, 0⟩ ∧ (∀ i, i < 4 → i ≠ 3 → samplerWait s i 65535 = none) ∧
    (∀ u, u ∈ waitUnits → ∀ v, v ∈ unitWait s u → v.cl ≠ 65535) ∧
    ((tabGet Sampler.init g.serve.samplers 3).queue.find? fun y => y.phase = .granted) = some ⟨sjob, .granted, 0⟩ ∧
    jobReady g ⟨sjob, .granted, 0⟩ = true := by
  simp only []; and_intros <;> decide +kernel

/-- A group of P0's step 1 with the last request. -/
def group : Group :=
  { plan := { stepId := 1, part := 0, reqs := [8191], ntok := [3], fresh := [], copies := 0, train := false, retry := false, slot := none }
    status := .active, beat := 0, fatal := none, unit := 0xFFFF, led := false, awaiting := false, draining := 0, startUs := none, undo := [] }

/-- Without a Sampler job, and with one that has drawn token 0. -/
theorem witness_StepCommitAndAging :
    let s (q : List QJob) : State := { sampling sjob .complete with serve := { (sampling sjob .complete).serve with
      groups := [group], samplers := [(3, ⟨some 3, q, false⟩)] } }
    let m : MemCtx := { partMem 0 5 true with stepId := 1, ctx := packCtx 1 0xFFFF 0xFFF 0xFF 0 }
    (∀ q, q ∈ [[], [⟨sjob, .complete, 0⟩]] → findGroup (s q) 0 (1#16).toNat = some group ∧ groupComplete (s q) group = true ∧
      Sys2Proof.Machine.runs (s q) = true ∧ group.awaiting = false ∧ stepCancelled (s q) group = false ∧ needsVerdict (s q) group = false ∧ cleanMem (s q) ∧
      (stepRows m (stepJobs (s q) 0 1) (s q)).2.2 = false ∧ group.plan.reqs.Nodup ∧ group.plan.reqs[0]? = some 8191 ∧
      reqOf (s q) 8191 = some req ∧ req.state.live = true) ∧
    (rowsOf (stepRows m (stepJobs (s [⟨sjob, .complete, 0⟩]) 0 1) (s [⟨sjob, .complete, 0⟩])).2.1 8191).1 ≠ [] ∧
    fld (regW (s []) 0x1000C) 27 24 ≤ req.cuts ∧ req.state ≠ .paused ∧ fld (regW (s []) 0x1000C) 23 16 ≤ req.age := by
  simp only [cleanMem]; and_intros <;> decide +kernel

/-- Set 9 of two modules, of which this one is rank 1, with TIMEOUT_BEATS 0 (2). -/
def spreadSet : SpreadSet := ⟨0, ⟨9, 2, 1, 2, 0, List.replicate 8 0, true⟩, false⟩

def spreadReq : Request := { req with spread := some 9, spreadEdges := some 2 }

/-- A request that has run on it for two edges, in a state with its step is in progress or not. -/
def spreading (r : Request) (run : Bool) : State :=
  let s := asks r (ordered work (runs []))
  { s with serve := { s.serve with sets := [(9, some spreadSet)], groups := if run then [group] else [] } }

/-- A contribution, or an ABORT, of rank 0 for step 0 or 1, layer 2. -/
def spreadMsg (step : Nat) : Sealed :=
  ⟨7, 0, 1, 6, 0, 0, 0, 16, 0, true, 64, true, leBytes 4 9 ++ leBytes 2 8191 ++ leBytes 2 2 ++ leBytes 4 step ++ leBytes 4 0⟩

theorem witness_HeadSpread :
    reqOf (spreading spreadReq true) 8191 = some spreadReq ∧ spreadOf (spreading spreadReq true) spreadReq = some spreadSet ∧ spreadReq.state.live = true ∧
    timeoutBeats spreadSet.desc ≤ 2 ∧ contribMissing spreadSet.desc spreadReq = true ∧ otherRanks spreadSet.desc ≠ [] ∧
    runEntries (spreading spreadReq true) = [(0, work)] ∧ isQueued (spreading spreadReq true) 0 = true ∧ eKind work ≠ 4 ∧ eKind work ≠ 1 ∧
    ((spreading spreadReq true).serve.groups.any fun g => g.status = .active && g.plan.reqs.contains 8191 && g.plan.part = ePart work &&
      g.plan.stepId.toNat = eStep work) = true ∧
    (∀ n, n ∈ [0, 1] → ∀ b, b ∈ [true, false] →
      (spreadTarget (spreading spreadReq b) (spreadMsg n).jobId (spreadMsg n).plain).map (fun q => (q.1.step, q.2)) =
        some (spreadReq.stepNo + n, spreadReq)) ∧
    stepRunning (spreading spreadReq true) 8191 = true ∧ stepRunning (spreading spreadReq false) 8191 = false ∧
    0 < spreadSet.desc.nmod.toNat ∧ 0 ≠ spreadSet.desc.rank.toNat := by and_intros <;> decide +kernel

/-- A variant of P0, and the state in which it is resident as variant 63. -/
def vrec : VariantRec := ⟨0x544E5256, 2, 1, 2, 1024, 0, 0x10000, 0, 0, 0, 32768, true, true⟩
def variant : Variant := ⟨0, vrec, [], none, 0, [], false, false⟩
def resident : State :=
  { paged with serve := { paged.serve with variants := [(63, some variant)], walkers := 1 }, regs := [(0x90200, 1#32)],
               sec := { paged.sec with jobs := [(7, ⟨0, 0, 0, none, 0, 0, false, false⟩)] } }

/-- A prompt of 32,760 tokens would end past MAX_CTX; one of 4 bytes at the page's end is accepted. -/
theorem witness_RequestAdmission :
    let d (n a : Nat) : ReqDesc := ⟨7, 63, 1, 0, BitVec.ofNat 32 n, BitVec.ofNat 64 a, 8, 0, 0x3F800000, 1, 0, 0, 0, 0x3F800000, 1,
      List.replicate 4 0xFFFFFFFF, true, true⟩
    accepted (cmd 1 128 0 []) 1 128 [] resident ∧ keyHeld resident 0 = true ∧ admitCheck resident 0 (d 1 0x1FFFC) = none ∧
    freeIndex resident = some 0 ∧ readable 0 0x1FFFC (4 * 1) resident ∧ admitCheck resident 0 (d 32761 0x10000) = some 0x88 ∧
    (let r := { req with state := .admitted }
     reqOf (asks r resident) 8191 = some r ∧ r.state = .admitted ∧ r.walked = false ∧ (asks r resident).serve.walkers ≠ 0 ∧
     stepBusy (asks r resident) 8191 = false) := by
  simp only [accepted, readable, cleanMem]; and_intros <;> decide +kernel

/-- Each state of a request, with its step running or not; APPEND of one token from the page's end. -/
theorem witness_RequestCommands :
    let r (st : ReqState) : Request := { req with state := st }
    let s (st : ReqState) (b : Bool) : State := asks (r st) { resident with serve := { resident.serve with
      groups := if b then [group] else [] } }
    let bs := leBytes 8 0x1FFFC ++ leBytes 4 1
    let a := cmd 5 0 8191 bs
    (∀ st, st ∈ [ReqState.admitted, .prefill, .decode, .paused, .done, .failed] → ∀ b, b ∈ [true, false] →
      stepRunning (s st b) 8191 = b ∧
      ∀ q, q ∈ [(2, [], []), (3, [], []), (4, [], []), (5, [(32, 8), (40, 4)], bs), (6, [], [])] →
        names (cmd q.1 0 8191 q.2.2) (r st) (s st b) ∧ accepted (cmd q.1 0 8191 q.2.2) q.1 0 q.2.1 (s st b)) ∧
    variantOf (s .paused false) (r .paused) = some variant ∧ inl a 40 4 = 1 ∧
    (r .paused).logLen + inl a 40 4 + (r .paused).maxNew - (r .paused).emitted ≤ variant.desc.maxCtx.toNat ∧
    readable 0 (inl a 32 8) (4 * inl a 40 4) (s .paused false) := by
  simp only [names, accepted, readable, cleanMem]; and_intros <;> decide +kernel


/-- An image with one word: `sys`-end, or a word of a class that no instruction has. -/
def imageOf (w : Nat) : List Byte :=
  let h := leBytes 4 0x58565349 ++ leBytes 2 3 ++ leBytes 2 1 ++ leBytes 4 1 ++ leBytes 4 77 ++ leBytes 4 0 ++ leBytes 4 0 ++
    List.replicate 36 0#8
  h ++ leBytes 4 (crc32c (h ++ leBytes 8 w)) ++ leBytes 8 w

/-- The last 72 bytes but 56 of P0's page hold it. -/
def coded (w : Nat) : State := filled 0xFF80 (imageOf w) paged

/-- An image of P0, of a slot program. -/
def image : Image := ⟨0, true, false, 77, 0, 0, 0, [0x0010000000000000#64], false⟩

/-- A mask object of one tile: uniform, its table at offset 64, no bitmap. -/
def maskOf : List Byte :=
  let h := leBytes 4 0x4B53414D ++ leBytes 2 1 ++ leBytes 2 1 ++ leBytes 4 0 ++ leBytes 4 64 ++ leBytes 4 128 ++ List.replicate 40 0#8
  h ++ leBytes 4 (crc32c (h ++ leBytes 4 0x40000000)) ++ leBytes 4 0x40000000

def mask : Mask := ⟨0, 1, 1, [0x40000000#32], [], false⟩

/-- A good image and one whose only word is undefined; the image and the mask out of use and in use. -/
theorem witness_ImagesAndMasks :
    let c := cmd 0x10 0 0 (leBytes 8 0x1FF80 ++ leBytes 4 72)
    let bs (w : Nat) := bytesAt (coded w) 0 0x1FF80 72
    let u := cmd 0x11 0 0xF00000000000 []
    let v := cmd 0x19 0 (maskBase 0) []
    let run (b : Bool) : State := { up with
      serve := { up.serve with images := [(0, some image)], masks := [(0, some mask)] },
      ro := { up.ro with running := if b then some { emptyOrder with entries := [{ work with w2 := 0xF00000000000#64 }] } else none } }
    let m : State := filled 0x80 maskOf paged
    let h := maskHead (bytesAt m 0 0x10080 64)
    accepted c 0x10 0 [(32, 8), (40, 4)] (coded 0x0010000000000000) ∧
    accepted c 0x10 0 [(32, 8), (40, 4)] (coded 0x1000000000000000) ∧ keyHeld (coded 0x0010000000000000) 0 = true ∧
    readable 0 0x1FF80 72 (coded 0x0010000000000000) ∧ readable 0 0x1FF80 72 (coded 0x1000000000000000) ∧
    inl c 32 8 % 64 = 0 ∧ 64 ≤ inl c 40 4 ∧ image.part = u.part ∧ image.unloading = false ∧ mask.part = v.part ∧
    (0x10080 : Nat) % 64 = 0 ∧ 0x10080 + h.tbl + 4 * h.nqt * h.nkt ≤ 2 ^ 47 ∧ 0x10080 + h.bmp + 2048 * h.nbmp ≤ 2 ^ 47 ∧
    imageCheck (bs 0x0010000000000000) (guarOf (coded 0x0010000000000000) 0) = none ∧
    imageCheck (bs 0x1000000000000000) (guarOf (coded 0x1000000000000000) 0) = some (2, 0) ∧
    (∀ b, b ∈ [true, false] → accepted u 0x11 0 [] (run b) ∧ imageAt (run b) u.obj.toNat = some (0, image) ∧
      (run b).serve.owed = [] ∧ imageUsed (run b) 0 = b ∧ accepted v 0x19 0 [] (run b) ∧ maskAt v.obj.toNat = some 0 ∧
      tabGet none (run b).serve.masks 0 = some mask ∧ maskUsed (run b) 0 = b) ∧
    accepted (cmd 0x18 0 0x10080 []) 0x18 0 [] m ∧ keyHeld m 0 = true ∧ readable 0 0x10080 64 m ∧ h.ok = true ∧
    h.nqt = 1 ∧ h.nkt = 1 ∧ h.tbl = 64 ∧ h.bmp = 128 ∧ h.nbmp = 0 ∧ readable 0 (0x10080 + 64) 4 m ∧ readable 0 (0x10080 + 128) 0 m ∧
    leAt (bytesAt m 0 0x10080 64) 60 4 = crc32c ((bytesAt m 0 0x10080 64).take 60 ++ bytesAt m 0 (0x10080 + 64) 4 ++
      bytesAt m 0 (0x10080 + 128) 0) ∧
    (maskTiles 1 (bytesAt m 0 (0x10080 + 64) 4)).all (tileOk 0) = true ∧ tabFree m.serve.masks (2 ^ 15) = some 0 := by
  simp only [accepted, readable, cleanMem]; and_intros <;> decide +kernel

/-- The 64 bytes of a Sampler job that are all 0 but for their CRC. -/
def jobBytes : List Byte := List.replicate 60 0#8 ++ leBytes 4 (crc32c (List.replicate 60 0#8))

/-- Slot 127 free, or P0's own; with a job template at 0x10080, and without; the argument template is at 0x10100. -/
theorem witness_WalkonRegistration :
    let c (t : Nat) := cmd 0x12 0 0xF00000000000 (leBytes 8 t ++ leBytes 8 0x10100 ++ leBytes 2 127 ++ leBytes 2 0 ++ leBytes 4 2)
    let s (p : Option Nat) : State := { filled 0x80 jobBytes paged with serve := { up.serve with images := [(0, some image)] },
                                                                         board := { up.board with slots := [(127, { Slot.init with reg := p })] } }
    let u := cmd 0x13 0 127 []
    (∀ p, p ∈ [none, some 0] → ∀ t, t ∈ [0, 0x10080] → accepted (c t) 0x12 0 [(32, 8), (40, 8), (48, 2), (52, 4)] (s p) ∧
      imageAt (s p) (c t).obj.toNat = some (0, image) ∧ inl (c t) 48 2 = 127 ∧ (slotOf (s p) 127).reg = p ∧
      inl (c t) 40 8 = 0x10100 ∧ inl (c t) 32 8 = t ∧ readable 0 0x10100 256 (s p) ∧
      framesCover (unregSlot 127 (s p)) (inl (c t) 52 4) = true) ∧
    image.part = 0 ∧ image.unloading = false ∧ image.walkon = true ∧ image.flMin ≤ 196608 ∧ readable 0 0x10080 64 (s none) ∧
    (parseJob 0 (bytesAt (s none) 0 0x10080 64)).resvOk = true ∧ (parseJob 0 (bytesAt (s none) 0 0x10080 64)).crcOk = true ∧
    accepted u 0x13 0 [] (s (some 0)) ∧ u.obj.toNat = 127 := by
  simp only [accepted, readable, cleanMem]; decide +kernel

/-- Two pages below 2^47; the page at 0x10000 is mapped. -/
theorem witness_MemoryMapping :
    let c (o a n : Nat) := cmd o 0 0 (leBytes 8 a ++ leBytes 8 n ++ if o = 0x21 then [] else [3#8])
    let e (o : EpochOp) : EpochCmd := ⟨0, 0x10000, 65536, o, replyOf (c 0x21 0x10000 65536) 0 0 0 0⟩
    let q (o : EpochOp) : State := { paged with mem := { paged.mem with epochQ := [e o] } }
    let full : State := { paged with mem := { paged.mem with epochQ := List.replicate 5 (e .unmap) } }
    accepted (c 0x20 (2 ^ 47 - 131072) 131072) 0x20 0 [(32, 8), (40, 8), (48, 1)] paged ∧ keyHeld paged 0 = true ∧
    inl (c 0x20 (2 ^ 47 - 131072) 131072) 48 1 < 4 ∧ inl (c 0x20 (2 ^ 47 - 131072) 131072) 32 8 = 2 ^ 47 - 131072 ∧
    inl (c 0x20 (2 ^ 47 - 131072) 131072) 40 8 = 131072 ∧ rangeOk (2 ^ 47 - 131072) 131072 = true ∧
    rangeTaken paged 0 (2 ^ 47 - 131072) 131072 = false ∧ framesCover paged 2 = true ∧
    accepted (c 0x21 0x10000 65536) 0x21 0 [(32, 8), (40, 8)] paged ∧ accepted (c 0x21 0x10000 65536) 0x21 0 [(32, 8), (40, 8)] full ∧
    rangeOk 0x10000 65536 = true ∧ paged.mem.epochQ = [] ∧ 5 ≤ full.mem.epochQ.length ∧
    accepted (c 0x22 0x10000 65536) 0x22 0 [(32, 8), (40, 8), (48, 1)] paged ∧ tabWf 0#64 paged.mem.pt = true ∧
    leafAt paged 0 0x10000 = some (ptLeaf true true false false 0 100 0xFFFF) ∧
    oldAccess (q .unmap) 0 = false ∧ (q .unmap).mem.epochQ = [e .unmap] ∧ (q (.protect true false)).mem.epochQ = [e (.protect true false)] ∧ (e .unmap).space < 9 ∧
    (let s := setPt 0 3 0x10000 (setFld (ptLeaf true true false false 0 100 0xFFFF) 63 63 0) (q .unmap)
     s.mem.epochQ = [e .unmap] ∧ tabWf 0#64 s.mem.pt = true ∧ bitAt (ptOf s 0 3 0x10000) 63 = false) := by
  simp only [accepted]; and_intros <;> decide +kernel

/-- The experts' bytes are 0, so that each has 0 weight bytes; variant 63 is free, and in use by nobody. -/
theorem witness_VariantsTreesAndSets :
    let f : State := { paged with serve := { paged.serve with variants := (List.range 63).map fun i => (i, some variant) } }
    let c := cmd 0x28 64 0 []
    let u := cmd 0x29 0 63 []
    let p := { cmd 0x2A 0 63 (leBytes 8 0x20000) with beat := 5 }
    let t := cmd 0x40 0 63 (leBytes 8 0 ++ leBytes 4 1)
    let r := { req with treeQ := [1] }
    accepted c 0x28 64 [] f ∧ keyHeld f 0 = true ∧ variantRecOk vrec = true ∧ readable 0 vrec.expertTbl.toNat (32 * 2) f ∧
    expertsOk 2 (bytesAt f 0 0x10000 64) = true ∧
    poolBytes f + sumNat ((parseExperts 2 (bytesAt f 0 0x10000 64)).map Expert.weightBytes) ≤ fld (regW f 0x90010) 15 0 * 2 ^ 20 ∧
    tabFree f.serve.variants 64 = some 63 ∧
    tabGet none resident.serve.variants 63 = some variant ∧ accepted u 0x29 0 [] resident ∧ resident.serve.owed = [] ∧
    variantUsed resident 63 = false ∧ accepted p 0x2A 0 [(32, 8)] resident ∧ (effectBeat resident).toNat < p.beat.toNat ∧
    readable 0 (inl p 32 8) (sumNat (variant.experts.map Expert.weightBytes)) resident ∧
    accepted t 0x40 0 [(32, 8), (40, 4)] resident ∧ inl t 40 4 ≠ 0 ∧ accepted (cmd 0x30 0 0 []) 0x30 0 [] up ∧
    reqOf (asks r up) 8191 = some r ∧ r.treeQ ≠ [] ∧
    accepted (cmd 0x38 48 0 []) 0x38 48 [] up ∧ spreadRecOk spreadSet.desc = true ∧ tabGet none up.serve.sets 9 = none ∧
    (∀ b, b ∈ [true, false] → accepted (cmd 0x39 0 9 []) 0x39 0 [] (spreading spreadReq b)) ∧
    tabGet none (spreading spreadReq true).serve.sets (cmd 0x39 0 9 []).obj.toNat = some spreadSet ∧
    (liveWhere (spreading spreadReq true) fun r => r.spread = some 9) ≠ [] ∧
    (liveWhere (spreading req true) fun r => r.spread = some 9) = [] := by
  simp only [accepted, readable, cleanMem]; and_intros <;> decide +kernel


/-! ### Witnesses: the host interface, the ports, the Call Board, registers and keys -/

/-- The last queue pair of P7's function: 16 SQ entries, 32 CQ entries, vector 3; P7's job 7 has a key. -/
def queued (q : QPair) : State :=
  { paged with regs := [(qpAddr 8 15 0x10, 0x0228C000#32)], net := { up.net with qps := [(qpKey 8 15, q)] },
               sec := { paged.sec with jobs := [(7, ⟨7, 0, 0, none, 0, 0, false, false⟩)] } }

/-- A queue pair with an entry to fetch. -/
def qpair : QPair := { QPair.init with en := true, sqHead := 15, sqTail := 0, cqTail := 30, cqHead := 5, rx := [(1, 64), (2, 64)] }

/-- A sealed message of job 7 with 16 bytes. -/
def msg (k : Nat) (tag : Bool) : Sealed := ⟨7, 0, 1, BitVec.ofNat 8 k, 0, 0, 1, 16, 0, true, 64, tag, leBytes 8 0x1FFF8 ++ leBytes 8 1⟩

/-- Indices at each side of the two depths; an entry that posts a buffer, one with a good and a bad message, and a misaligned one. -/
theorem witness_SubmissionQueues :
    let s := queued qpair
    let x (k a : Nat) : SqEntry := ⟨BitVec.ofNat 8 k, 6, 64, BitVec.ofNat 64 a, true⟩
    linkUp s = true ∧ (qpOf s 8 15).en = true ∧ (qpOf s 8 15).err = false ∧ sqDepth s 8 15 = 16 ∧ cqDepth s 8 15 = 32 ∧
    fld (0x0000000F#32) 11 0 = 15 ∧ fld (0x00000010#32) 11 0 = 16 ∧ fld (0x0000001F#32) 11 0 = 31 ∧ fld (0x00000020#32) 11 0 = 32 ∧
    linkUp (queued QPair.init) = true ∧ (qpOf (queued QPair.init) 8 15).en = false ∧ sqReady s 8 15 = true ∧
    sqEntryOk (x 5 0) = true ∧ (x 5 0).kind = 5 ∧ s.beat.started = true ∧ sqEntryOk (x 1 0) = true ∧ (x 1 0).kind ≠ 5 ∧
    sqEntryOk (x 5 32) = false ∧
    sealCheck s (qpPart s 8 15) (sqEntryOk (x 1 0) && (x 1 0).kind = (msg 1 true).kind) (x 1 0).length.toNat (msg 1 true) = none ∧
    sealCheck s (qpPart s 8 15) (sqEntryOk (x 1 0) && (x 1 0).kind = (msg 1 false).kind) (x 1 0).length.toNat (msg 1 false) =
      some (2, 0x81) ∧
    sealCheck s (qpPart s 8 15) (sqEntryOk (x 5 32) && (x 5 32).kind = (msg 5 true).kind) 64 (msg 5 true) = some (0, 0x81) ∧
    follows s = false ∧ leads s = false ∧ 8 ≤ (msg 3 true).plain.length ∧
    writable (partMem 0 4 false) (leAt (msg 3 true).plain 0 8) ((msg 3 true).plain.length - 8) s := by
  simp only [writable, cleanMem]; and_intros <;> decide +kernel

/-- Each event at each side of the tail's wrap; dropped events; a queue pair that is not enabled; a pending signal. -/
theorem witness_CompletionQueues :
    let r : Reply := replyOf { cmd 1 0 0 [] with route := .pcie 8 15 5 } 0 0 0 0
    let e : List OutEvent := [.error 0x81 5 7 1, .walkon 127 0 3, .reply r 5]
    (∀ v, v ∈ e → ∀ t, t ∈ [30, 31] → let s := queued { qpair with wait := [v], cqTail := t }
      (qpOf s 8 15).en = true ∧ (qpOf s 8 15).err = false ∧ (qpOf s 8 15).drops.all (· = 0) = true ∧
      (t + 1) % cqDepth s 8 15 ≠ (qpOf s 8 15).cqHead ∧ (qpOf s 8 15).wait = v :: []) ∧
    sealEpoch (queued qpair) r.job r.made = some 0 ∧ rxSpan 80 (qpOf (queued qpair) 8 15).rx = some 2 ∧
    (let s := queued { qpair with drops := [1, 0, 0, 65535] }
     (qpOf s 8 15).en = true ∧ (qpOf s 8 15).err = false ∧ (qpOf s 8 15).drops = [1, 0, 0, 65535] ∧
     ((qpOf s 8 15).cqTail + 1) % cqDepth s 8 15 ≠ (qpOf s 8 15).cqHead) ∧
    (let s := queued { qpair with en := false, wait := [.error 0x81 5 7 1] }
     (qpOf s 8 15).en = false ∧ (qpOf s 8 15).wait = .error 0x81 5 7 1 :: []) ∧
    (let s := queued { qpair with unsignalled := 1 }
     0 < (qpOf s 8 15).unsignalled ∧ reaches s ((qpOf s 8 15).oldestUs + fld (regW s (qpAddr 8 15 0x14)) 31 16)) := by
  simp only [reaches]; decide +kernel

/-- The last Cue Light of P0's grant and the first beyond it; the page's last bytes and the first beyond it; aperture on and off. -/
theorem witness_FunctionResetAndBars :
    let s : State := { paged with regs := [(0xB1420, 1#32)] }
    linkUp s = true ∧ cueGranted s (1 - 1) 255 = true ∧ fld (0x0000FFFF#32) 15 0 ≠ 0 ∧ cueGranted s (1 - 1) 256 = false ∧
    bitAt (regW s (0xB1420 + 0x1000 * 0)) 0 = true ∧ cleanMem s ∧ rangeFault s (partMem 0 4 false) false 0x1FFFC 4 = none ∧
    (rangeFault s (partMem 0 4 false) false 0x1FFFC 5).isSome = true ∧ ¬ bitAt (regW s (0xB1420 + 0x1000 * 1)) 0 = true ∧
    writable (partMem 0 4 false) 0x1FFFC [1#8, 2#8, 3#8, 4#8].length s ∧
    (rangeFault s (partMem 0 4 false) true 0x1FFFC [1#8, 2#8, 3#8, 4#8, 5#8].length).isSome = true := by
  simp only [writable, cleanMem]; decide +kernel

/-- The last queue pair number, of role 3 on port 3, with a message of job 7. -/
def ported (n : Nat) : State :=
  let s := queued qpair
  let q : Rqp := ⟨[], 3, 7, 5, 0, 2, [], List.replicate n (.result 0), [0, 0, 0, 0], 0, true⟩
  { s with net := { s.net with ports := [(3, ⟨some 3, true, false, false, false⟩)], rqps := [(2 ^ 24 - 1, some q)] } }

theorem witness_EthernetPorts :
    let q (n : Nat) : Rqp := ⟨[], 3, 7, 5, 0, 2, [], List.replicate n (.result 0), [0, 0, 0, 0], 0, true⟩
    (∀ n, n ∈ [127, 128] → rqpOf (ported n) (2 ^ 24 - 1) = some (q n) ∧ roceReceives (ported n) (q n) = true ∧
      (ported n).beat.started = true ∧ (q n).wait.length = n) ∧
    (∀ k, k ∈ [1, 4, 0x21, 0x22] → sealCheck (ported 127) (q 127).part true 64 (msg k true) = none) ∧
    sealCheck (ported 127) (q 127).part true 64 (msg 0x22 false) = some (2, 0x81) ∧
    follows (ported 127) = false ∧ leads (ported 127) = false ∧
    (∀ p : Nat, p ∈ [2, 4] → psnInFlight (q 0) (BitVec.ofNat 24 p) = true) ∧ psnInFlight (q 0) 5 = false ∧
    roceSends (ported 0) { q 0 with stopped := false, sent := [(3, ⟨.internal, 7, [], [], [], 64⟩)] } = true ∧
    up.net.rqps.length < 1024 ∧ rqpCtxOk (rqpCtx up) = true ∧
    (let s := { ported 0 with net := { (ported 0).net with busy := true, takeover := some 3 } }
     s.net.busy = true ∧ s.net.takeover = some 3 ∧ (portOf s 3).role = some 3 ∧
     rqpOf s (2 ^ 24 - 1) = some (q 0) ∧ (q 0).role = 3) := by
  simp only []; and_intros <;> decide +kernel

/-- A result of P0. -/
def result (st : ResultState) (n : Option Nat) : Result :=
  { id := 4, part := 0, job := 7, req := 8191, outSeq := 0, ntok := 1, tokens := [0], status := 0, beat := 0, slot := none,
    route := .internal, kind := 0x12, stream := 0, size := 2 ^ 24, bytes := [], state := st, heldEdges := n }

/-- The result, behind gates that a pin closes, or a rehearsal, or nothing, under a policy. -/
def gated (r : Result) (pin reh : Bool) (pol : BitVec 8) : State :=
  { up with curtain := { up.curtain with results := [r], pinLow := pin, rehearsal := reh, policy := pol } }

theorem witness_CallBoardAndCurtain :
    let r := result .queued none
    let h := result .held (some 64)
    up.pins.standby = true ∧ isSlotWord 0x0FF = false ∧ isSlotWord 0x1FF = false ∧ isSlotWord 0x200 = false ∧
    (gated h true true 0).curtain.pinLow = true ∧
    (let s := gated h true true 0; gatesClosed { s with curtain := { s.curtain with pinLow := false } } = true) ∧
    (let s := gated h true false 0; gatesClosed { s with curtain := { s.curtain with pinLow := false } } = false) ∧
    (∀ pin, pin ∈ [true, false] → ∀ reh, reh ∈ [true, false] → ∀ pol, pol ∈ [0, 1] →
      let s := gated r pin reh (BitVec.ofNat 8 pol)
      resultOf s 4 = some r ∧ r.state = .queued ∧ atGate s r = true ∧ gatesClosed s = (pin || reh) ∧ s.curtain.rehearsal = reh ∧
      Sys2Proof.Machine.runs s = true ∧
      bitAt s.curtain.policy r.part = decide (pol = 1) ∧ heldBytes s r.part + r.size ≤ 2 ^ 24) ∧
    resultOf (gated (result .sending none) false false 0) 4 = some (result .sending none) ∧
    resultOf (gated h true false 1) 4 = some h ∧ h.state = .held ∧ h.heldEdges = some 64 := by
  simp only []; and_intros <;> decide +kernel

theorem witness_SuppliesAndPins :
    up.pins.standby = true ∧ State.reset.pins.standby = false ∧ mainUp up = true ∧
    { up with pins := { up.pins with regulators := false } }.pins.regulators = false := by decide

/-- Unlocked and locked registers; a guarantee that fits and one that does not; a limit that fits and one that does not. -/
theorem witness_RegisterAccesses :
    let k : State := { up with regs := [(lockReg 0x10004, 0x80000000#32), (0x90200, 1#32), (0x90240, 1#32)],
                               sec := { up.sec with enabled := [0, 1] } }
    linkUp up = true ∧ linkUp k = true ∧ lockRegs ≠ [] ∧
    locked up 0x10004 = false ∧ locked k 0x10004 = true ∧ locked up 0x10008 = false ∧ locked up 0x20010 = false ∧
    fld (1000#32) 15 0 = 1000 ∧ fld (64000#32) 15 0 = 64000 ∧ fld (100#32) 15 0 = 100 ∧ fld (32000#32) 15 0 = 32000 ∧
    fld (64001#32) 15 0 = 64001 ∧ locked k (0x30200 + 0x20 * 7) = false ∧ locked k 0x30200 = false ∧
    guarReg k 0 < fld (4#32) 7 0 ∧ partEnabled k 0 = true ∧ guarFits k 0 (fld (100#32) 7 0) = true ∧
    (let s : State := { k with regs := [(0x30220, 100#32)] }
     locked s 0x30200 = false ∧ guarReg s 0 < fld (100#32) 7 0 ∧ partEnabled s 0 = true ∧ guarFits s 0 (fld (100#32) 7 0) = false) ∧
    locked k (0x90200 + 0x40 * 0) = false ∧ limitSum k 0 13 0 (fld (8191#32) 13 0) = 8192 ∧
    limitSum k 0 13 0 (fld (8192#32) 13 0) = 8193 ∧ regF k 0x90200 13 0 < 8192 := by
  simp only []; and_intros <;> decide +kernel

/-- Session 0 in a role, of a module that is not Dark. -/
def session (r : Role) (s : State) : State :=
  { s with sec := { s.sec with sessions := [(0, some ⟨.mgmt, .established, r, 0, 0, 0, []⟩)] } }
def by0 (target : Nat) : Mgmt := ⟨.session 0, BitVec.ofNat 8 target, 3⟩

/-- P7 with and without its key; its job with a key of epoch 4, and without; the tables of keys full and not. -/
theorem witness_TenantKeys :
    let s (keys : Tab (Option Nat)) (en : List Nat) (jobs : List (DWord × JobKey)) : State :=
      let t := session (.tenant 7) up
      { t with sec := { t.sec with keys := keys, enabled := en, jobs := jobs } }
    let k (drop cut : Bool) : JobKey := ⟨7, 4, 0, none, 0, 0, drop, cut⟩
    let job : DWord := 0x0007000000000001#64
    (∀ keys, keys ∈ [[], [(7, some 1)]] → ∀ en, en ∈ [[], [7]] → commands (by0 7) (.tenant 7) (s keys en []) ∧
      mainUp (s keys en []) = true ∧ partEnabled (s keys en []) 7 = en.contains 7 ∧ keyHeld (s keys en []) 7 = !keys.isEmpty) ∧
    (by0 7).target.toNat = 7 ∧ (by0 7).src ≠ .house ∧ (1#512).truncate 256 ≠ (((1#512) >>> 256).truncate 256 : BitVec 256) ∧
    jobIdOk 7 (job + 0x0001000000000000#64) = false ∧ jobIdOk 7 job = true ∧
    commands (by0 7) (.tenant 7) (s [] [] [(job, k false false)]) ∧ jobKey (s [] [] [(job, k false false)]) job = some (k false false) ∧
    (4#32).toNat ≤ (k false false).newest.toNat ∧ (k false false).newest.toNat < (5#32).toNat ∧ (k false false).dropping = false ∧
    jobKey (s [] [] []) job = none ∧ (s [] [] []).sec.jobs.length < 4096 ∧ (jobsOf (s [] [] []) 7).length < jobMax (s [] [] []) 7 ∧
    (let t : State := { s [] [] [] with upd := { up.upd with settings := [(0x1001E4, 0)] } }
     commands (by0 7) (.tenant 7) t ∧ jobKey t job = none ∧ jobMax t 7 ≤ (jobsOf t 7).length) ∧
    jobKey (s [] [] [(job, k true true)]) job = some (k true true) ∧
    (s [] [] [(job, k true true)]).curtain.results.all (fun r => r.job ≠ job) = true := by
  simp only [commands]; and_intros <;> decide +kernel


/-! ### Witnesses: management, SPDM, pairing, power and temperature -/

/-- A billing record. -/
def bill : BillRecord := ⟨0, 0, 0, List.replicate 8 1000, List.replicate 8 2, 0, 0, 0, false, false⟩

/-- A tenant's session and the verifier's; an operator's before and after P7's guarantee fits; a nonce that is held. -/
theorem witness_TenantAndOperatorCommands :
    let s (r : Role) : State := let t := session r up
      { t with energy := { up.energy with records := [bill] }, sec := { t.sec with house := true } }
    let g : State := { s .operator with regs := [(0x30200 + 0x20 * 7, 129#32)] }
    let n : State := { up with sec := { up.sec with sessions := [(0, some ⟨.mgmt, .established, .operator, 0, 0, 0, [5]⟩)] } }
    commands (by0 7) (.tenant 7) (s (.tenant 7)) ∧ (by0 7).target.toNat = 7 ∧ billOf (s (.tenant 7)) 0 = some bill ∧
    billOf (s (.tenant 7)) 1 = none ∧ commands (by0 0xFF) .verifier (s .verifier) ∧ activeClaim (s .verifier) = none ∧
    (s .verifier).sec.claims.length < 4 ∧ commands (by0 0xFF) .operator (s .operator) ∧ (s .operator).sec.debugOpen = false ∧
    partEnabled (s .operator) 7 = false ∧ guarFits (s .operator) 7 (guarReg (s .operator) 7) = true ∧
    commands (by0 0xFF) .operator g ∧ g.sec.debugOpen = false ∧ partEnabled g 7 = false ∧ guarFits g 7 (guarReg g 7) = false ∧
    (let e : State := { s .operator with sec := { (s .operator).sec with enabled := [7] } }
     commands (by0 0xFF) .operator e ∧ partEnabled e 7 = true) ∧
    mainUp (s .operator) = true ∧ keyHeld (s .operator) 10 = false ∧ keyHeld (s .operator) 13 = false ∧
    commands (by0 0xFF) .operator n ∧ (noncesOf n (by0 0xFF)).contains 5 = true ∧
    (s .operator).pins.standby = true ∧ mgmtRole (s .operator) (by0 0xFF) = some .operator ∧ (s .operator).sec.house = true ∧
    mgmtRole (s .operator) ⟨.house, 0xFF, 3⟩ = some .operator ∧ billOf (s .operator) 0 = some bill ∧ (by0 0xFF).src ≠ .house := by
  simp only [commands]; and_intros <;> decide +kernel

/-- House frames with and without a House key; each phase of the last session; 16 sessions and fewer. -/
theorem witness_CabinetAndSpdm :
    let o := session .operator up
    let k (b : Bool) : State := { up with sec := { up.sec with house := b } }
    let x (p : SessionPhase) : Session := ⟨.mgmt, p, .verifier, 0, 0, 0, []⟩
    let s (n : Nat) (p : SessionPhase) : State :=
      let t : Tab (Option Session) := (List.range n).map fun i => (i, some (x p))
      { up with sec := { up.sec with spdmVersion := true, spdmCaps := true, spdmAlgs := true, sessions := t } }
    commands (by0 0xFF) .operator o ∧ (∀ w, w ∈ [200, 800] → 200 ≤ w ∧ w ≤ 800) ∧ o.net.takeover = none ∧
    houseBad (k true) frame = false ∧ houseBad (k true) { frame with icvOk := false } = true ∧ houseBad (k false) frame = true ∧
    houseBad (k false) { frame with cls := 6 } = false ∧ houseBad (k true) { frame with cls := 8 } = false ∧
    houseBad (k true) { frame with version := 2 } = false ∧ (k true).sec.house = true ∧ (k true).pins.standby = true ∧
    (s 15 .established).sec.spdmVersion = true ∧ (s 15 .established).sec.spdmCaps = true ∧ (s 15 .established).sec.spdmAlgs = true ∧
    freeSession (s 15 .established) = some 15 ∧ freeSession (s 16 .established) = none ∧
    (∀ p, p ∈ [SessionPhase.keyExchange, .encapsulated, .chain, .established] →
      sessionOf (s 16 p) 15 = some (x p) ∧ (x p).phase = p) := by
  simp only [commands]; and_intros <;> decide +kernel

/-- A module of a pair in a mode. -/
def paired (m : PairMode) : State := { up with pair := { up.pair with mode := m } }

def hdr (ok : Bool) : PairHdr := ⟨1, 0, 1, 0, ok⟩

/-- An order without steps for the next Beat, its header sealed by its CRC. -/
def nextOrder : Order :=
  let h : RoHeader := { emptyOrder.hdr with beatNo := 1, periodUs := 10000 }
  { emptyOrder with hdr := { h with crc := BitVec.ofNat 32 (crc32c (headerBytes h)) } }

theorem witness_PairMessages :
    let d : BeatDigests := ⟨0, 1, 2⟩
    let own : State := { up with pair := { up.pair with own := [d] } }
    let u (half : Bool) (late : Nat) : State := { paired .understudy with
      beat := { up.beat with halfPassed := half }, pair := { (paired .understudy).pair with ordersLate := late } }
    let g (m : PairMode) (w : Bool) : State := { paired m with serve := { up.serve with groups := [{ group with led := true, awaiting := w }] } }
    let r : State := let t := mapLeaf 0 0x10000 (ptLeaf true true false false 0 100 0xFFFF) (paired .resync)
      { t with pair := { t.pair with frameMap := [(9, some 100)] } }
    let w (reg : Option Nat) : State := { paired .lead with
      sec := { up.sec with enabled := [0] }, board := { up.board with slots := [(127, { Slot.init with reg := reg })] } }
    up.beat.started = true ∧ ({ up with sec := { up.sec with house := true } } : State).sec.house = true ∧
    own.pair.own = d :: [] ∧ own.sec.house = false ∧ pairOk up (hdr false) = false ∧ pairOk up { hdr true with lseq := 0 } = false ∧
    takesOrder (u false 0) = true ∧ takesOrder (u true 0) = true ∧ takesOrder (u true 1) = true ∧
    pairOk (u true 0) (hdr true) = true ∧ pairOk (u false 0) (hdr true) = true ∧ (u true 0).ro.frozen = none ∧
    (u true 0).fault.fwPoison = false ∧ nextOrder.steps = [] ∧
    headerOk nextOrder (nextNum (u true 0)).toNat (nextPeriod (u true 0)) = true ∧ (u true 0).pair.ordersLate = 0 ∧
    1 ≤ (u true 1).pair.ordersLate ∧ follows (u true 0) = true ∧ (u true 0).pair.inputs = [] ∧ (u true 0).pair.held = [] ∧
    leads (paired .lead) = true ∧ pairOk (paired .lead) (hdr true) = true ∧
    (∀ m, m ∈ [.lead, .understudy] → ∀ b, b ∈ [true, false] → pairOk (g m b) (hdr true) = true ∧
      verdictGroup (g m b) 1 0xFFFF = some { group with led := true, awaiting := b }) ∧
    verdictGroup (u true 0) 1 0xFFFF = none ∧ verdictGroup (paired .lead) 1 0xFFFF = none ∧ follows (paired .lead) = false ∧
    (∀ reg, reg ∈ [none, some 0] → leads (w reg) = true ∧ pairOk (w reg) (hdr true) = true ∧ (slotOf (w reg) 127).state = .idle) ∧
    (walkonCheck (w none) 127 8191).isNone = false ∧ pairOk r (hdr true) = true ∧ r.pair.mode = .resync ∧
    tabGet none r.pair.frameMap 9 = some 100 ∧ cleanMem (u true 0) ∧ joinCheck r ≠ none ∧
    (leafAt r 0 (65536 * 1)).isSome = true ∧ leafAt r 0 (65536 * 2) = none ∧ bitAt (ptLeaf true true false false 0 9 0xFFFF) 63 = true ∧
    nextOrder.entries.all (fun e => eKind e = 1 || eKind e = 4) = true ∧
    (∀ n, n ∈ [0, 1] → let v : State := { up with pair := { up.pair with dirty := [100] }, regs := [(0xC0008, BitVec.ofNat 32 n)] }
      decide (v.pair.dirty.length ≤ regF v 0xC0008 7 0) = decide (n = 1)) ∧ (leafAt r (hdr true).part.toNat 0x10000).isSome = true ∧
    rehearsalNeeded (paired .resync) = false ∧
    rehearsalNeeded { paired .resync with pair := { (paired .resync).pair with darkSince := true } } = true ∧
    (let v : State := { up with pair := { up.pair with resync := .rounds 3, serving := true } }
     v.pair.resync = .rounds 3 ∧ v.pair.serving = true) := by
  simp only [cleanMem]; and_intros <;> decide +kernel

theorem configAgrees_self (roll : Bool) (c : ConfigRec) : configAgrees roll c c = true := by simp [configAgrees]

/-- A module in SOLO or RESYNC whose partner has sent its own configuration record and the rest of what R633 asks of it. -/
def joining (m : PairMode) (f : JoinFacts) : State :=
  let t := session .operator { up with regs := [(0x10000, 1#32)] }
  let t : State := { t with sec := { t.sec with house := true } }
  { t with pair := { t.pair with mode := m, darkSince := true, partnerCfg := some (ownConfig t), partnerFacts := some f } }

theorem joining_agrees (m : PairMode) (f : JoinFacts) :
    configAgrees (rollSet (joining m f)) (ownConfig (joining m f)) (ownConfig (joining m f)) = true ∧
      (joining m f).pair.partnerCfg = some (ownConfig (joining m f)) := ⟨configAgrees_self _ _, rfl⟩

/-- Every condition of R633 holds; the partner has no House key; its lead is too short. -/
theorem witness_PairJoin :
    let f : JoinFacts := ⟨true, [], [8], 500, none⟩
    let s := joining .solo f
    commands (by0 0xFF) .operator s ∧ s.pair.mode = .solo ∧ s.pair.partnerFacts = some f ∧ s.sec.house = true ∧ f.house = true ∧
    (∀ k, k ∈ f.keys → keyHeld s k = true) ∧ (∀ n, n < 8 →
      (f.bindings.find? fun b => b.1 = n).map Prod.snd = if partEnabled s n then tabGet none s.sec.bindings n else none) ∧
    250 ≤ freezeLead s ∧ 250 ≤ f.lead ∧ regF s 0x10000 1 0 = 1 ∧ ¬ ({ f with house := false } : JoinFacts).house = true ∧
    ¬ 250 ≤ ({ f with lead := 249 } : JoinFacts).lead := by
  simp only [commands]; and_intros <;> decide +kernel

theorem witness_PairMessages_final : let s := joining .resync ⟨true, [], [8], 500, none⟩
    joinCheck s = none ∧ rehearsalNeeded s = true ∧ s.pair.mode = .resync ∧ pairOk s (hdr true) = true := by
  refine ⟨?_, by decide +kernel, rfl, by decide +kernel⟩
  have a := joining_agrees .resync ⟨true, [], [8], 500, none⟩
  have b : (joining .resync ⟨true, [], [8], 500, none⟩).pair.partnerFacts = some ⟨true, [], [8], 500, none⟩ := rfl
  unfold joinCheck; rw [a.2, b]; dsimp only; rw [a.1]; decide +kernel

/-- A follower whose partner's settings agree with its own, and differ. -/
theorem witness_PairStates_config : let s := paired .understudy
    follows s = true ∧ configAgrees (rollSet s) (ownConfig s) (ownConfig s) = true ∧
    configAgrees (rollSet s) { ownConfig s with settings := (ownConfig s).settings + 1 } (ownConfig s) = false := by
  refine ⟨by decide, configAgrees_self _ _, ?_⟩
  have h : ∀ x : Digest, x + 1 ≠ x := fun x hx => by
    have := congrArg BitVec.toNat hx; simp [BitVec.toNat_add] at this; omega
  simp [configAgrees, h]

/-- Each mode; a path that falls silent with the other alive and silent; digests that agree and differ. -/
theorem witness_PairStates :
    let o (m : PairMode) : State := session .operator (paired m)
    let modes : List PairMode := [.solo, .lead, .understudy, .resync, .rehearsal, .stoodDown]
    let p (m : PairMode) (a b : Bool) : State :=
      { paired m with pair := { (paired m).pair with linkSilent := a, mgmtSilent := b } }
    let q (m : PairMode) : State := { paired m with pair := { (paired m).pair with own := [⟨3, 1, 2⟩] } }
    let b (st : Nat) : HbBody := ⟨st, 0, true, false, false, 0, 0, 0, 0, 0, 0, 0⟩
    let split : State := { paired .solo with pair := { (paired .solo).pair with split := true }, pins := { up.pins with slotId := 2 } }
    (∀ m, m ∈ modes → commands (by0 0xFF) .operator (o m) ∧ (o m).pair.mode = m ∧ pairOk (paired m) (hdr true) = true) ∧
    (o .solo).sec.house = false ∧ (effectBeat (o .lead)).toNat < (5#64 : DWord).toNat ∧
    (1#64 : DWord).toNat ≤ (effectBeat (o .lead)).toNat ∧ follows (o .understudy) = true ∧ follows (o .rehearsal) = true ∧
    (∀ m, m ∈ modes → ∀ other, other ∈ [true, false] → (p m false other).pair.linkSilent = false ∧
      (p m other false).pair.mgmtSilent = false ∧ (p m false other).pair.mgmtSilent = other ∧ (p m false other).fault.fwPoison = false ∧
      (p m false other).serve.groups.all (fun g => !g.awaiting) = true) ∧
    (b 5).state = 5 ∧ split.pair.mode = .solo ∧ split.pair.split = true ∧ pairOk split (hdr true) = true ∧
    splitLoses split (hdr true) { b 1 with tookOver := false } = true ∧
    (let v : State := { paired .solo with pair := { (paired .solo).pair with serving := true } }
     v.pair.mode = .solo ∧ v.pair.serving = true ∧ (b 2).state = 2) ∧
    (paired .lead).serve.groups.all (fun g => !g.awaiting) = true ∧ split.serve.groups.all (fun g => !g.awaiting) = true ∧
    (∀ m, m ∈ [.resync, .stoodDown] → Sys2Proof.Machine.runs (paired m) = false) ∧
    (∀ m, m ∈ modes → pairOk (q m) (hdr true) = true ∧ (q m).pair.partnerDigests.all (fun x => x.beat ≠ 3) = true ∧
      (q m).pair.own.find? (fun x => x.beat = 3) = some ⟨3, 1, 2⟩ ∧ (q m).pair.selfOwn = .none) := by
  simp only [commands]; and_intros <;> decide +kernel

/-- The last 1,000 samples at 880.1 W and at 850 W; a unit above its threshold; the last PHY; inlets at 45 and 46 °C. -/
theorem witness_PowerAndTemperature :
    let s (p : Nat) (on : Bool) : State := { up with therm := { up.therm with recent := List.replicate 1000 p, guardOn := on } }
    let h : State := { up with therm := { up.therm with hot := [sensorKey (.phy 7)] } }
    let d (c : Int) : State := { up with therm := { up.therm with shutdown := true, inlet := c } }
    mainUp (s 8801 false) = true ∧ [((8801 : Nat), true)].length ≤ 14 ∧ (List.replicate 14 ((1 : Nat), false)).length ≤ 14 ∧
    (10 = 10 ∨ 10 = up.beat.period % 10) ∧ ¬ (0 < 5 ∧ (5 = 10 ∨ 5 = up.beat.period % 10)) ∧ reaches (s 8501 true) ((s 8501 true).therm.lastGuardUs + 100) ∧ (s 8801 false).therm.guardOn = false ∧
    after (exec (.railSample 10 [(8801, true)]) (s 8801 false)) (fun t => guardAbove t 880) = some true ∧
    after (exec (.railSample 10 [(8800, true)]) (s 8800 false)) (fun t => guardAbove t 880) = some false ∧ stepOf (s 8801 false) 35 < 8 ∧
    (s 8501 true).therm.guardOn = true ∧ guardAbove (s 8501 true) 850 = true ∧ guardAbove (s 8500 true) 850 = false ∧
    sensorName (.engine 35) = true ∧ sensorName (.phy 7) = true ∧ up.therm.excluded.contains 35 = false ∧
    up.therm.excluded.contains (70 + 7) = false ∧ mayStepDown up 35 = true ∧ stepOf up 35 ≠ 8 ∧ unitLimit up 35 < 109 ∧
    mainUp h = true ∧ h.therm.hot.contains (sensorKey (.phy 7)) = true ∧
    reaches { d 45 with time := 60000000 } ((d 45).therm.shutAtUs + 60000000) ∧ (d 45).therm.shutdown = true ∧ (d 45).pins.standby = true ∧ (d 45).therm.inlet ≤ 45 ∧ 45 < (d 46).therm.inlet := by
  simp only [reaches]; and_intros <;> decide +kernel


/-! ### Witnesses: update, start, self-test, stacks, resets, video, the Beat -/

/-- A stick with a file, behind a hub or not. Which signatures verify is opaque, so that no file here passes checks 5 to 8. -/
def stick (hub : Bool) (f : Option (List Byte)) : Stick := ⟨true, hub, 512, true, true, 0, f⟩

/-- Bundle slots in states: slot 0 runs. -/
def bundles (run : BundleState) (other : Bundle) (tl : Bool) : State :=
  let t := session .operator up
  { t with upd := { up.upd with slots := [{ Bundle.init with state := run }, other], trialLive := tl } }

/-- A staged bundle with nothing new, one with a new RoT part that may not go live, and none; the running bundle on trial. -/
theorem witness_FirmwareUpdate :
    let same : Bundle := { Bundle.init with state := .staged }
    let new : Bundle := { same with kinds := [2], digests := [5], live := [false] }
    let busy : State := { up with upd := { up.upd with copying := true, container := some [] } }
    stickRefused up = false ∧ stickCheck up (stick true (some [])) = 1 ∧ stickCheck up (stick false none) = 1 ∧
    -- a container in the slot whose file names no part: what is copied decides checks 8 and 9
    stickRefused busy = true ∧ busy.upd.container = some [] ∧ busy.upd.copying = true ∧ autoActivates busy = false ∧ partEntries [] = [] ∧
    commands (by0 0xFF) .operator (bundles .confirmed .init false) ∧ stagedSlot (bundles .confirmed .init false) = none ∧
    commands (by0 0xFF) .operator (bundles .confirmed same false) ∧ stagedSlot (bundles .confirmed same false) = some 1 ∧
    liveBundle (bundles .confirmed same false) = true ∧ (bundles .confirmed same false).beat.started = true ∧
    firstAfterFreeze (bundles .confirmed same false) = 1 ∧ stagedSlot { bundles .confirmed same false with beat := { up.beat with num := 4 } } ≠ none ∧
    liveBundle { bundles .confirmed same false with beat := { up.beat with num := 4 } } = true ∧
    (1#64 : DWord) < firstAfterFreeze { bundles .confirmed same false with beat := { up.beat with num := 4 } } ∧
    stagedSlot (bundles .confirmed new false) ≠ none ∧ liveBundle (bundles .confirmed new false) = false ∧
    (bundles .confirmed new false).pair.mode = .solo ∧ (bundles .confirmed new false).pins.regulators = true ∧
    onTrial (bundles .confirmed same false) = false ∧ onTrial (bundles .trial same false) = true ∧
    onTrial (bundles .trial same true) = true ∧ (bundles .trial same true).upd.trialLive = true ∧
    (bundles .trial same true).beat.started = true ∧ (bundles .trial same false).upd.trialLive = false ∧
    (bundles .trial same false).pins.regulators = true ∧ up.pins.standby = true ∧ onTrial up = false ∧
    (∀ live, live ∈ [true, false] → let s := bundles .trial same live
      reaches s (s.upd.trialEndUs.getD s.time) ∧
      let t : State := { s with upd := { s.upd with trialEndUs := some (s.time + 100) } }
      onTrial t = true ∧ reaches t (t.upd.trialEndUs.getD t.time)) := by
  simp only [commands, reaches]; and_intros <;> decide +kernel

/-- What a start finds. -/
def found (slots : List (Option Nat)) (none_ : Bool) : StartResults :=
  { slotCheck := slots, failDie := [], smPairsFail := 0, failTrain := [], failCheck := [], holdRows := [], failMarch := [],
    failBcast := [], bcastNone := none_, failKat := [], stackTemps := [], storeValid := [], coefs := [], shIdleUw := [], durationMs := 4,
    abandoned := none }

/-- The main domain is off and may start. -/
def off : State := { up with boot := Boot.init, pins := ⟨true, true, true, false, true, true, 0, true⟩ }

/-- A slice of the last engine. -/
def lastEngine : UnitRef := ⟨.engine, 3, 8⟩
def slice (planned : Bool) : Slice := ⟨1, 0, lastEngine, planned, 200, 0⟩
def spareEngine : Engine := { Engine.init with serv := { UnitServ.init with spare := true } }

theorem witness_StartAndSelfTest :
    let failed : State := { up with boot := { up.boot with failed := true } }
    let f : Fitting := ⟨lastEngine, 7, false⟩
    let fit : State := { up with boot := { up.boot with fitting := [f] } }
    let roleEngine : Engine := { Engine.init with serv := { UnitServ.init with role := some 31 } }
    let test (e : Entry) (g : Engine) : State := { ordered e Engine.init with eng := [(35, g)], regs := [(0xE0000, 2#32)],
                                                                              bist := { up.bist with credits := [(3, 200000000)], queue := [0] }, ro := { up.ro with running := some { emptyOrder with entries := [e], plans := [⟨0, 0, false, [], 0, 0, [1#8, 0#8, 0#8, 31#8]⟩] } } }
    let e : Entry := { selftest with w5 := 200#64 }
    let r : Running := ⟨slice false, 0, 0, 3⟩
    let z : State := { up with bist := { up.bist with running := [⟨slice true, 0, 0, 3⟩], aborts := [(slice true, 15)] } }
    let run (again : Bool) : State := { up with eng := [(35, { spareEngine with serv := { spareEngine.serv with selftest := true } })],
                                                bist := { up.bist with running := [r], recheck := if again then [(slice false, 0)] else [] } }
    let rec_ : BistRecord := ⟨0, 0, 0, 1, 0, 0, 0, 0, 0, 0⟩
    mayStart off = true ∧ bootChoice off (found [some 1, some 1] false) = none ∧ bootChoice off (found [none, none] false) = some 0 ∧
    bootChoice off (found [some 1, none] false) = some 1 ∧
    failed.pins.standby = true ∧ failed.boot.failed = true ∧ failed.fault.dark = false ∧
    commands (by0 0xFF) .operator (session .operator up) ∧ fittingOf fit f.unit = some f ∧
    sliceReady (test e spareEngine) (slice false) = true ∧ (test e spareEngine).beat.started = true ∧
    sliceReady (test e roleEngine) (slice true) = true ∧ (test e roleEngine).beat.started = true ∧
    plannedEntry (test e roleEngine) (slice true) = some e ∧ ePredUs e ≤ 200 ∧
    (∀ b, b ∈ [true, false] → runningOn (run b) lastEngine = some r ∧
      unitDoubted (run b) r.x.unit = b) ∧ abortDue { run false with beat := { up.beat with num := 1 } } r .edge = true ∧
    durationOk 1 200000 = true ∧ durationOk 1 200001 = false ∧ durationOk 3 200001 = true ∧
    -- the 16th abort of a planned slice in a row
    abortDue { z with beat := { up.beat with num := 1 } } ⟨slice true, 0, 0, 3⟩ .edge = true ∧ abortsOf z (slice true) = 15 ∧
    reaches { failed with time := 10000000 } (failed.boot.failedAtUs + 10000000) ∧
    ({ found [some 1, some 1] false with abandoned := some true } : StartResults).abandoned = some true ∧
    (let s : State := { up with bist := { up.bist with ring := [(255, some rec_)] } }
     linkUp s = true ∧ tabGet none s.bist.ring (fld (0x000000FF#32) 7 0) = some rec_) := by
  simp only [commands, reaches]; and_intros <;> decide +kernel

theorem measure_boot (i : Nat) (d : Digest) (s : State) : (measure i d s).boot = s.boot := by
  unfold Machine.measure; split <;> rfl

theorem verified_boot (s : State) (h : s.upd.running = 0) : (verified 0 s).boot = s.boot := by
  simp [verified, h, measureBundle, measure_boot, modBundle]

/-- A start whose broadcast reaches no receiver fails at step 11, and one that finds nothing wrong does not fail. -/
theorem witness_StartAndSelfTest_fails (v : State) (h : v.boot = Boot.init) :
    startFails v (found [none, none] true) (startPlan v (found [none, none] true)) = some 11 ∧
    startFails v (found [none, none] false) (startPlan v (found [none, none] false)) = none := by
  simp only [startFails, startPlan, inventory, coldStart, firstFit, h, Boot.init, Bool.true_or, if_true]; decide +kernel

theorem witness_StartAndSelfTest_off : (verified 0 (passUs 4000 off)).boot = Boot.init := verified_boot _ rfl

/-- Stack 7, whose last pseudo-channel serves logical channel 0. -/
def stacked (spares : List Nat) (g : Option Migration) : State :=
  { up with hbm := { up.hbm with hbmStacks := [(7, { Stack.init with map := [(0, some 31)], spares := spares, migration := g, training := [30] })],
                                 trigQ := [(7, 31)] } }

/-- The last granule without an error, and with one that the code corrects; the last of the pool with one that it does not. -/
theorem witness_StackUpkeep :
    let s (g : Nat) (v : List Nat) : State := { up with mem := { up.mem with flips := [(g, v)] } }
    let late : State := { stacked [5] (some ⟨0, 31, 5, 0⟩) with time := 80000 }
    let bad : State := { up with hbm := { up.hbm with hbmStacks := [(paStack (64 * (1024 * poolFrames - 1)), { Stack.init with parity := 4 })] } }
    let g : Migration := ⟨0, 31, 5, 0⟩
    mainUp up = true ∧ frameIn up ((1024 * frameCount - 1) / 1024) = true ∧ up.fault.fwPoison = false ∧
    tabGet false up.mem.poison (1024 * frameCount - 1) = false ∧ tabGet [] up.mem.flips (1024 * frameCount - 1) = [] ∧
    (tabGet [] (s (1024 * frameCount - 1) [522]).mem.flips (1024 * frameCount - 1)).length = 1 ∧
    tabGet [] (s (1024 * poolFrames - 1) [0, 522]).mem.flips (1024 * poolFrames - 1) = [0, 522] ∧ (1024 * poolFrames - 1) / 1024 < poolFrames ∧
    3 < (stackOf bad (paStack (64 * (1024 * poolFrames - 1)))).parity ∧
    (stackOf late 7).migration = some ⟨0, 31, 5, 0⟩ ∧ channelRows ≤ copiedRows late ⟨0, 31, 5, 0⟩ ∧
    copiedRows (stacked [5] (some ⟨0, 31, 5, 0⟩)) ⟨0, 31, 5, 0⟩ < channelRows ∧
    (stackOf (stacked [] none) 7).map.any (fun e => e.2 = some 31) = true ∧ (stackOf (stacked [] none) 7).migration = none ∧
    (regF (stacked [] none) 0x80000 15 8 : Int) < 99 - tabGet 0 (stackOf (stacked [] none) 7).tempTrain 31 ∧
    linkUp (stacked [] none) = true ∧ bitAt (0x800000FF#32 : Word) 31 = true ∧ fld (0x800000FF#32) 7 5 = 7 ∧ fld (0x800000FF#32) 4 0 = 31 ∧
    (∀ l, l ∈ [[5], []] → mainUp (stacked l none) = true ∧ nextTrigger (stacked l none) = some (7, 31) ∧
      (stackOf (stacked l none) 7).map.find? (fun e => e.2 = some 31) = some (0, some 31) ∧ (stackOf (stacked l none) 7).spares = l) ∧
    (stackOf (stacked [5] (some g)) 7).migration = some g ∧ (stackOf (stacked [] none) 7).training.contains 30 = true := by
  simp only []; and_intros <;> decide +kernel

/-- A fault event. -/
def event : FaultEvent := ⟨0, 0, 2, 1, 1, 0, 0, 0, 0, 0, 0, 0, 0, []⟩

/-- The last engine, reset no times and three times; a cluster likewise; each end of a partition's reset. -/
theorem witness_FaultsAndResets :
    let u (rst : Bool) (n : Nat) : State := { up with
      eng := [(35, { spareEngine with serv := { spareEngine.serv with inReset := rst } })],
      fault := { up.fault with unitWin := List.replicate n (0, lastEngine) } }
    let c (rst : List Nat) (n : Nat) : State := { up with fault := { up.fault with clReset := rst, clusterWin := List.replicate n (0, 3) } }
    let rc : LogRecord := ⟨0, event, 0, []⟩
    let log : State := { up with fault := { up.fault with fifo := [event], log := [(4095, some rc)] } }
    let a : PendAction := ⟨7, .keyDrop, true, true, .session 0, 1⟩
    let p (l : List PendAction) : State := { up with fault := { up.fault with partReset := [7] }, sec := { up.sec with acts := l } }
    let o (en : List Nat) (dark : Bool) : State := let t := session .operator up
      { t with sec := { t.sec with enabled := en }, fault := { t.fault with dark := dark } }
    let x : Sample := ⟨3, 0, ⟨.stagehand, 0, 0⟩, 0, 0, [], [], [], false⟩
    let v : State := let t := session (.tenant 0) (mapLeaf 0 0x20000 (ptLeaf true true false false 0 101 0xFFFF) paged)
      { t with fault := { t.fault with samples := [x] } }
    log.pins.standby = true ∧ log.fault.fifo = event :: [] ∧ linkUp log = true ∧
    tabGet none log.fault.log (fld (0x00000FFF#32) 11 0) = some rc ∧
    unitProbed (u false 0) lastEngine = true ∧ unitInReset (u true 2) lastEngine = true ∧ unitResets (u true 2) lastEngine < 3 ∧
    unitInReset (u true 3) lastEngine = true ∧ 3 ≤ unitResets (u true 3) lastEngine ∧
    up.beat.started = true ∧ up.fault.clOut.contains 3 = false ∧ up.fault.clReset.contains 3 = false ∧
    unitFitted (u false 0) ⟨.engine, 3, 8⟩ = true ∧ (c [3] 2).fault.clReset.contains 3 = true ∧ clusterResets (c [3] 2) 3 < 3 ∧
    3 ≤ clusterResets (c [3] 3) 3 ∧ 2 ≤ up.boot.smPairs ∧ ({ up.boot with smPairs := 1 } : Boot).smPairs < 2 ∧
    (p []).fault.partReset.contains 7 = true ∧ (p []).sec.acts.filter (fun a => a.part = 7 && a.running) = [] ∧
    (p [a]).sec.acts.filter (fun a => a.part = 7 && a.running) = [a] ∧ a.act = .keyDrop ∧
    (∀ en, en ∈ [[], [7]] → commands (by0 0xFF) .operator (o en false) ∧ partEnabled (o en false) 7 = en.contains 7) ∧
    (o [] true).pins.standby = true ∧ mgmtRole (o [] true) (by0 0xFF) = some .operator ∧ (o [] true).fault.dark = true ∧
    stagedSlot (o [] true) = none ∧ commands (by0 0) (.tenant 0) v ∧
    v.fault.samples.find? (fun y => y.no = 3 && y.part = 0) = some x ∧ cleanMem v ∧
    generalOk v 0 0x10000 (sampleSize x.unit) = true ∧ generalOk v 0 0x20000 (sampleSize x.unit) = false := by
  simp only [commands, cleanMem]; and_intros <;> decide +kernel

/-- A stream's open descriptor: one patch of 16 × 16, its tiles from 0x10000; KIND 0 decodes, 2 encodes. -/
def openOf (k : Nat) : OpenDesc :=
  ⟨47, BitVec.ofNat 8 k, 0, 3, 16, 16, 1000000, 1, 0, 0, if k = 2 then 0 else 16, if k = 2 then 0 else 16, 0x10000, 0, 4096, 0, 0, 0, 0, 7, 254, 255,
    true, true⟩

/-- The last stream, open. -/
def stream (k : Nat) (st : StreamState) : Stream :=
  { Stream.init with state := st, desc := some (openOf k), group := 47, lastNo := some 9, good := some ⟨9, 0, 2, 0, false⟩ }
def filming (x : Stream) (v : VEngine) : State :=
  { asks req paged with video := { up.video with streams := [(47, x)], engines := [(4, v)], groups := [] }, cue := [(254, ⟨1, false⟩)] }
def idleVideo : VEngine := ⟨true, true, false, false, none, none, none⟩

theorem witness_VideoStreams_commands :
    let s (k : Nat) (st : StreamState) : State := filming (stream k st) idleVideo
    let g := cmd 0x102 0 47 ([47#8] ++ List.replicate 7 0xFF#8)
    let a := cmd 0x103 0 47 (leBytes 2 8191 ++ [1#8])
    (∀ k, k ∈ [0, 2] → accepted (cmd 0x100 64 0 []) 0x100 64 [] (filming Stream.init idleVideo) ∧
      openCheck (filming Stream.init idleVideo) 0 (openOf k) = none ∧ (openOf k).stream.toNat < 48 ∧
      ∀ st, st ∈ [StreamState.waitKey, .running, .draining] → streamOf (s k st) 47 = stream k st ∧ (stream k st).state ≠ .closed ∧
        (stream k st).kind = k ∧
        ∀ o, o ∈ [0x101, 0x104, 0x105] → accepted (cmd o 0 47 []) o 0 [] (s k st)) ∧
    accepted g 0x102 0 [(32, 28)] (s 0 .running) ∧ groupSetCheck (s 0 .running) g = none ∧
    accepted a 0x103 0 [(32, 2), (34, 1)] (s 0 .running) ∧ inl a 34 1 = 1 ∧ (stream 0 .running).isDecode = true ∧
    (stream 0 .running).group = a.obj.toNat ∧ reqOf (s 0 .running) (inl a 32 2) = some req ∧ req.part = a.part ∧
    drained (s 0 .draining) 47 = true := by
  simp only [accepted]; and_intros <;> decide +kernel

/-- Access units that follow and do not; a frame that waits, and one that an engine has decoded into buffer 0. -/
theorem witness_VideoStreams_frames :
    let au (n : Nat) : AccessUnit := ⟨0, 7, 47, 1, BitVec.ofNat 32 n, 0, 100⟩
    let s : State := filming (stream 0 .running) idleVideo
    let f : PendFrame := ⟨10, 0, 100, 0⟩
    let x : Stream := { stream 0 .running with frames := [f] }
    let w : State := filming x idleVideo
    let v : State := filming (stream 0 .running) { idleVideo with stream := some 47, frame := some f }
    let r (b : Bool) : Decoded := ⟨b, true, false, false, 8, some (1, false), [], [], []⟩
    (streamOf s 47).desc = some (openOf 0) ∧ (streamOf s 47).isDecode = true ∧ (streamOf s 47).state ≠ .draining ∧
    (streamOf s 47).gather = 0 ∧ (openOf 0).jobId = (au 10).job ∧ (streamOf s 47).part = (au 10).part ∧
    (streamOf s 47).lastNo = some 9 ∧ 9 < (au 10).frameNo.toNat ∧ (au 9).frameNo.toNat ≤ 9 ∧ bitAt (au 10).flags 0 = true ∧
    nextFrame w = some (47, x, f) ∧ vengIdle (vengOf w 4) = true ∧ (vengOf v 4).stream = some 47 ∧ (vengOf v 4).frame = some f ∧
    (streamOf v 47).isDecode = true ∧ (r false).good = false ∧ v.fault.fwPoison = false ∧ (r true).good = true ∧
    (streamOf v 47).state = .running ∧ (streamOf v 47).freeBuf = some 0 ∧
    writable (videoMem 0) ((openOf 0).tileBase.toNat + 0 * tilePitch (openOf 0)) (tileBytesOf (openOf 0) (r true)).length v := by
  simp only [writable, cleanMem]; and_intros <;> decide +kernel

theorem witness_VideoStreams_noPending : ∀ g, (groupRec (filming (stream 0 .running) idleVideo) g).pendingSet = none := fun _ => rfl

/-- Binding alone and behind a Lead; a record that awaits its Cue Light; an encode stream; engines that fail with and without a spare. -/
theorem witness_VideoStreams_events :
    let s : State := filming (stream 0 .running) idleVideo
    let u : State := { s with pair := { s.pair with mode := .understudy } }
    let e : State := filming (stream 2 .running) idleVideo
    let b (skip : Nat) : State := filming { stream 2 .running with skip := skip } { idleVideo with stream := some 47, frame := some ⟨0, 0, 0, 0⟩ }
    let a : State := filming { stream 2 .running with redo := true } idleVideo
    let n : State := { s with video := { s.video with groups := [(47, { VGroup.init with unready := some 1 })] } }
    cleanMem s ∧ (streamOf s 47).isDecode = true ∧ (streamOf s 47).state ≠ .draining ∧ (streamOf s 47).group < 48 ∧
    s.beat.started = true ∧ follows s = false ∧ cleanMem u ∧ pairOk u (hdr true) = true ∧ follows u = true ∧
    [(47, 9)].find? (fun q => q.1 = 47) = some (47, 9) ∧ heldFrame (streamOf u 47) 9 = some ⟨9, 0, 2, 0, false⟩ ∧
    (groupRec n 47).unready = some 1 ∧ (streamOf n 47).desc = some (openOf 0) ∧
    (streamOf e 47).desc = some (openOf 2) ∧ (streamOf e 47).kind = 2 ∧ (streamOf e 47).state = .running ∧ cleanMem e ∧
    vengIdle (vengOf e 4) = true ∧ 1 ≤ (cueOf e (openOf 2).readyCl.toNat).count ∧ (openOf 2).readyCl ≠ (openOf 2).recCl ∧
    (List.range 5).all (fun j => (vengOf e j).stream ≠ some 47) = true ∧ (streamOf e 47).redo = false ∧
    vengIdle (vengOf a 4) = true ∧ (List.range 5).all (fun j => (vengOf a j).stream ≠ some 47) = true ∧ (streamOf a 47).redo = true ∧
    (∀ n, n ∈ [0, 1] → (vengOf (b n) 4).stream = some 47 ∧ (vengOf (b n) 4).frame.isSome = true ∧ (streamOf (b n) 47).skip = n ∧
      (vengOf (b n) 4).failed = false ∧ (vengOf (b n) 4).inService = true ∧ (streamOf (b n) 47).desc = some (openOf 2) ∧
      (streamOf (b n) 47).kind = 2) ∧ s.video.bindDone = false ∧
    (vengOf s 4).failed = false ∧ (vengOf s 4).inService = true ∧ spareVideo s = some 4 := by
  simp only [cleanMem]; and_intros <;> decide +kernel

/-- A Beat that runs, with or without its parts done. -/
def beating (half cuts clears : Bool) : State :=
  { up with beat := { up.beat with halfPassed := half, cutsDone := cuts, clearsDone := clears } }

theorem witness_BeatAndOrders :
    let o : State := { up with ro := { up.ro with published := some nextOrder } }
    let z : State := { up with ro := { up.ro with published := some emptyOrder } }
    let q (half : Bool) (r : Option Order) : State := let t := beating half true true
      { t with ro := { t.ro with frozen := r }, energy := { up.energy with closed := true }, video := { up.video with bindDone := true } }
    let cut : State := { beating true false false with
      eng := [(35, { runs [] with cut := true })], ro := { up.ro with running := some { emptyOrder with entries := [work] } } }
    let l (num last : Nat) : State := { up with
      beat := { up.beat with num := BitVec.ofNat 64 num }, energy := { up.energy with closed := false, billLast := BitVec.ofNat 64 last } }
    let c (w : Nat) : State := { up with regs := [(0x10000, BitVec.ofNat 32 w)] }
    let m (k : PtpKind) : PtpMsg := ⟨0, 0, true, false, k, 1000000, 999000⟩
    let p : State := { c 2 with net := { up.net with ports := [(0, ⟨some 0, true, false, false, true⟩)] } }
    let waits : State := { p with beat := { (c 2).beat with ptpSync := some (5, 6, 0) } }
    let lost (w : Nat) : State := let t := c w
      { t with beat := { t.beat with locked := true, missed := 3, ptpOffsetNs := -1001 } }
    up.pending = [] ∧ up.pins.standby = true ∧ up.beat.started = true ∧ freezesOwn up = true ∧
    (∀ s, s ∈ [up, o, z] → s.beat.started = true ∧ s.beat.halfPassed = false ∧ freezesOwn s = true ∧ s.pair.resync = .off ∧
      cleanMem s) ∧ nextOrder.steps = [] ∧ up.ro.published = none ∧
    headerOk nextOrder (o.beat.num + 1).toNat (nextPeriod o) = true ∧ headerOk emptyOrder (z.beat.num + 1).toNat (nextPeriod z) = false ∧
    (∀ r, r ∈ [none, some nextOrder] → (q true r).beat.started = true ∧ (q true r).beat.cutsDone = true ∧
      (q true r).beat.clearsDone = true ∧ (q true r).energy.closed = true ∧ (q true r).beat.halfPassed = true ∧
      (q true r).video.bindDone = true ∧ (q true r).pair.resync = .off ∧ (q true r).ro.frozen = r) ∧
    cut.beat.started = true ∧ cut.beat.cutsDone = false ∧ (engOf cut 35).cut = true ∧ runEntries cut = [(0, work)] ∧
    statusAt cut 0 ≠ .voided ∧ (flatOf cut 127).pending = false ∧ (flatOf cut 127).retired = false ∧
    (beating true true false).beat.cutsDone = true ∧ (beating true true false).beat.clearsDone = false ∧
    (∀ n, n ∈ [4, 5] → (l n 4).energy.closed = false ∧ (l n 4).energy.endingBeat ≤ (l n 4).energy.billLast) ∧
    (l 4 4).beat.num ≤ (l 4 4).energy.billLast ∧ (l 5 4).energy.billLast < (l 5 4).beat.num ∧
    regF (c 1) 0x10000 1 0 = 1 ∧ (c 1).beat.started = true ∧ ((-900 : Int)).natAbs ≤ 900 ∧ 900 < ((901 : Int)).natAbs ∧
    (∀ k, k ∈ [PtpKind.sync, .delayResp, .other] → ptpTaken p (m k) = true ∧ ptpTaken waits (m k) = true) ∧
    ptpTaken p { m .sync with peerDelay := true } = false ∧ p.beat.ptpSync = none ∧ waits.beat.ptpSync = some (5, 6, 0) ∧ (∀ w, w ∈ [1, 33, 2, 34] → sourceLost (lost w) = true) ∧ regF (lost 33) 0x10000 5 5 = 1 ∧
    regF (lost 1) 0x10000 5 5 = 0 ∧
    (let s : State := { up with boot := { up.boot with mode := .starting } }
     s.beat.started = true ∧ s.boot.mode = .starting ∧ s.boot.ready = false ∧ s.beat.locked = false ∧
     reaches { s with time := 10000000 } (s.boot.step16Us + 10000000)) ∧
    -- the phase before the end, the end itself, and an edge of the pin 500 ns late
    up.beat.phaseUs < endPhase up ∧ up.beat.phaseUs ≤ up.beat.period ∧
    endPhase { up with beat := { up.beat with phaseUs := 10000 } } ≤ 10000 ∧
    (let s : State := { c 1 with beat := { (c 1).beat with locked := true, edgeSeen := true, pinNs := 500 } }
     s.beat.locked = true ∧ s.beat.holdover = false ∧ regF s 0x10000 1 0 = 1 ∧ s.beat.edgeSeen = true ∧ s.beat.pinNs.natAbs ≤ 1000) ∧
    ({ up.beat with beatOut := true } : Beat).beatOut = true := by
  simp only [reaches, cleanMem]; and_intros <;> decide +kernel

theorem witness_MemoryStaysCanonical : Memory.wf up = true ∧ step up = .next (idleOp up) := ⟨by decide, rfl⟩

end Sys2Proof.Tests
end

section
/-! SUPPORT. Bit fields of words and stored register fields: what a field reads after a write. -/

namespace Sys2Proof.Machine

open Sys2Proof

/-! ### Bit fields -/

/-- A bit of a word after one field is replaced. -/
theorem getLsbD_setFld {n : Nat} (x : BitVec n) {hi lo : Nat} (v i : Nat) (h : lo ≤ hi) (hn : hi < n) :
    (setFld x hi lo v).getLsbD i = if lo ≤ i ∧ i ≤ hi then v.testBit (i - lo) else x.getLsbD i := by
  simp only [setFld, BitVec.getLsbD_or, BitVec.getLsbD_and, BitVec.getLsbD_not, BitVec.getLsbD_ofNat,
    Nat.testBit_shiftLeft, Nat.testBit_two_pow_sub_one, Nat.testBit_mod_two_pow]
  by_cases hin : i < n
  · by_cases hlo : lo ≤ i
    · by_cases hhi : i ≤ hi
      · have : i - lo < hi + 1 - lo := by omega
        simp [hin, hlo, hhi, this]
      · have : ¬ i - lo < hi + 1 - lo := by omega
        simp [hin, hlo, hhi, this]
    · simp [hin, hlo]
  · have : ¬ i ≤ hi := by omega
    simp [hin, this, BitVec.getLsbD_of_ge x i (by omega)]

theorem testBit_fld {n : Nat} (x : BitVec n) (hi lo i : Nat) :
    (fld x hi lo).testBit i = (decide (i < hi + 1 - lo) && x.getLsbD (lo + i)) := by
  simp [fld, nfld, Nat.testBit_mod_two_pow, Nat.testBit_shiftRight, BitVec.getLsbD]

theorem fld_lt {n : Nat} (x : BitVec n) (hi lo : Nat) : fld x hi lo < 2 ^ (hi + 1 - lo) :=
  Nat.mod_lt _ (by positivity)

/-- A field reads what was written to it, when the value fits. -/
theorem fld_setFld_self {n : Nat} (x : BitVec n) {hi lo v : Nat} (h : lo ≤ hi) (hn : hi < n)
    (hv : v < 2 ^ (hi + 1 - lo)) : fld (setFld x hi lo v) hi lo = v := by
  apply Nat.eq_of_testBit_eq
  intro i
  rw [testBit_fld, getLsbD_setFld _ _ _ h hn]
  by_cases hi' : i < hi + 1 - lo
  · have : lo + i ≤ hi := by omega
    simp [hi', this]
  · have hlt : v < 2 ^ i := lt_of_lt_of_le hv (Nat.pow_le_pow_right (by norm_num) (by omega))
    simp [hi', Nat.testBit_lt_two_pow hlt]

@[simp] theorem fld_word (v : Word) : fld v 31 0 = v.toNat := by
  simp only [fld, nfld, Nat.shiftRight_zero]
  exact Nat.mod_eq_of_lt v.isLt

/-- A field that is the whole word replaces it. -/
@[simp] theorem setFld_word (w : Word) (v : Nat) : setFld w 31 0 v = BitVec.ofNat 32 v := by
  apply BitVec.eq_of_getLsbD_eq
  intro i hi
  rw [getLsbD_setFld _ _ _ (by norm_num) (by norm_num), BitVec.getLsbD_ofNat]
  have : i ≤ 31 := by omega
  simp [this, hi]

/-- A field of one bit is the bit. -/
theorem fld_bit_eq_one_iff {n : Nat} (x : BitVec n) (i : Nat) : fld x i i = 1 ↔ bitAt x i = true := by
  have hbit : (fld x i i).testBit 0 = bitAt x i := by rw [testBit_fld]; simp [bitAt]
  have hlt : fld x i i < 2 := by simpa using fld_lt x i i
  rw [← hbit, Nat.testBit_zero, decide_eq_true_iff]
  omega

/-! ### Stored register fields -/

/-- A register write stores its word, leaves every other register and changes nothing else. -/
theorem setReg_result (a : Nat) (w : Word) (s : State) :
    regW (setReg a w s) a = w ∧ (∀ b, b ≠ a → regW (setReg a w s) b = regW s b) ∧ { setReg a w s with regs := s.regs } = s :=
  ⟨regW_setReg_self a w s, fun _ hb => regW_setReg_of_ne w s hb, rfl⟩

theorem regF_setRegF_self (a : Nat) {hi lo v : Nat} (s : State) (h : lo ≤ hi) (hn : hi < 32)
    (hv : v < 2 ^ (hi + 1 - lo)) : regF (setRegF a hi lo v s) a hi lo = v := by
  rw [regF, setRegF, regW_setReg_self, fld_setFld_self _ h hn hv]

theorem regF_setRegF_of_ne {a b : Nat} (hi lo v i j : Nat) (s : State) (h : b ≠ a) :
    regF (setRegF a hi lo v s) b i j = regF s b i j := by
  rw [regF, setRegF, regW_setReg_of_ne _ _ h, regF]

end Sys2Proof.Machine
end

section
/-! SUPPORT. What the accesses to BAR0 do, one equation per operation, and the statements about them. -/

namespace Sys2Proof.Machine

open Sys2Proof

/-! ### Accesses over an open link -/

theorem bar0_of_linkUp {fn a : Nat} {s : State} (t : State) (hl : linkUp s = true) (hf : fn ≤ 8) (ha : a < 0x4000000) :
    bar0 fn a s t = .next t := by
  have : ¬ a ≥ 0x4000000 := by omega
  simp [bar0, need, hf, hl, this]

theorem locked_eq_bitAt (s : State) (a : Nat) : locked s a = bitAt (regW s (lockReg a)) 31 := by
  rw [Bool.eq_iff_iff, locked, decide_eq_true_iff, regF, fld_bit_eq_one_iff]

/-! ### Plain writes (R6) -/

/-- Through the physical function, a register whose one field is the whole word takes the value, unless the field is RWL and its block
is locked. -/
theorem plainWrite_wholeWord {a : Nat} {f : RegField} (hf : fieldsAt a = [f]) (hhi : f.hi = 31) (hlo : f.lo = 0)
    (hmin : f.vmin = 0) (hmax : f.vmax = 0xFFFFFFFF) (hacc : f.acc = .rw ∨ f.acc = .rwl) (v : Word) (s : State) :
    plainWrite 0 a v s = setReg a (if f.acc = .rwl ∧ locked s a = true then regW s a else v) s := by
  have hv : v.toNat ≤ 0xFFFFFFFF := by have := v.isLt; omega
  have hw : writeField 0 a v (locked s a) (regW s a) f = if f.acc = .rwl ∧ locked s a = true then regW s a else v := by
    rcases hacc with h | h <;> cases hlk : locked s a <;>
      simp [writeField, vfReadOnly, h, hhi, hlo, hmin, hmax, hv]
  rw [plainWrite, hf, List.foldl_cons, List.foldl_nil, hw]

theorem fieldsAt_rqpCtx : ∀ k, k < 8 → fieldsAt (0xB0100 + 4 * k) = [fldN 0xB0100 8 4 31 0 .rw 0 0 0xFFFFFFFF] := by decide

theorem writeOp_rqpCtx {k : Nat} (hk : k < 8) (v : Word) (s : State) :
    writeOp 0 (0xB0100 + 4 * k) v s = setReg (0xB0100 + 4 * k) v s := by
  have hplain : writeOp 0 (0xB0100 + 4 * k) v s = plainWrite 0 (0xB0100 + 4 * k) v s := by
    interval_cases k <;> rfl
  rw [hplain, plainWrite_wholeWord (fieldsAt_rqpCtx k hk) rfl rfl rfl rfl (.inl rfl)]
  simp [fldN]

theorem writeOp_ptpOffset (v : Word) (s : State) :
    writeOp 0 0x10020 v s = setReg 0x10020 (if bitAt (regW s 0x10000) 31 then regW s 0x10020 else v) s := by
  have hf : fieldsAt 0x10020 = [fld1 0x10020 31 0 .rwl 0] := by decide
  have hplain : writeOp 0 0x10020 v s = plainWrite 0 0x10020 v s := rfl
  rw [hplain, plainWrite_wholeWord hf rfl rfl rfl rfl (.inr rfl), locked_eq_bitAt]
  simp [fld1, lockReg]

/-! ### Locks (R9) -/

theorem bitAt_setFld_bit (w : Word) {i j : Nat} (hj : j < 32) :
    bitAt (setFld w j j 1) i = if i = j then true else bitAt w i := by
  rw [bitAt, getLsbD_setFld _ _ _ le_rfl hj]
  by_cases h : i = j
  · simp [h]
  · have : ¬ (j ≤ i ∧ i ≤ j) := by omega
    simp [h, this, bitAt]

theorem lockRegs_lt : ∀ a ∈ lockRegs, a < 0x4000000 := by decide

/-! ### Reads (R6, R872) -/

theorem fieldsAt_beatRc : ∀ k, k < 5 → fieldsAt (0x10040 + 4 * k) = [rcs 0x10040 5 4] := by decide

/-- A register that is one RC counter is 0 after it is cleared. -/
theorem clearRc_counter {a base count stride : Nat} (hf : fieldsAt a = [rcs base count stride]) (s : State) :
    clearRc a s = setReg a 0 s := by
  simp [clearRc, hf, rcs]

theorem readOp_beatRc {k : Nat} (hk : k < 5) (s : State) : readOp 0 (0x10040 + 4 * k) s =
    setReg (0x10040 + 4 * k) 0 (emit (.read ((readWord s 0 (0x10040 + 4 * k)).zeroExtend 64)) s) := by
  have hlo : isLo (0x10040 + 4 * k) = false := by interval_cases k <;> rfl
  have hal : (0x10040 + 4 * k) % 4 = 0 := by omega
  have hrc : (fieldsAt (0x10040 + 4 * k)).any (fun f => f.acc = .rc) = true := by rw [fieldsAt_beatRc k hk]; rfl
  simp only [readOp, hlo, hal, hrc, ← clearRc_counter (fieldsAt_beatRc k hk)]
  simp [sees]

theorem fieldsAt_beatNum : fieldsAt 0x10010 = [] ∧ fieldsAt 0x10014 = [] := by decide

theorem liveWord_beatNumLo (s : State) : liveWord s 0 0x10010 = s.beat.num.truncate 32 := by
  simp [liveWord, storedBits, fieldsAt_beatNum, mirrorBits, beatReg]

theorem liveWord_beatNumHi (s : State) : liveWord s 0 0x10014 = (s.beat.num >>> 32).truncate 32 := by
  simp [liveWord, storedBits, fieldsAt_beatNum, mirrorBits, beatReg]

theorem readWord_beatNumLo (s : State) : readWord s 0 0x10010 = s.beat.num.truncate 32 := by
  rw [← liveWord_beatNumLo]; rfl

/-- The HI word of BEAT_NUM reads what its latch holds. -/
theorem readWord_beatNumHi (s : State) :
    readWord s 0 0x10014 = (tabGet none s.latch (latchKey 0 0x10014)).getD (liveWord s 0 0x10014) := rfl

theorem readOp_beatNumLo (s : State) : readOp 0 0x10010 s =
    latchHi 0 0x10010 (emit (.read ((s.beat.num.truncate 32 : Word).zeroExtend 64)) s) := by
  rw [← readWord_beatNumLo]
  simp only [readOp, fieldsAt_beatNum]
  rfl

theorem readWord_beatNumHi_latched (s : State) : readWord (latchHi 0 0x10010 s) 0 0x10014 = (s.beat.num >>> 32).truncate 32 := by
  rw [readWord_beatNumHi, latchHi, tabGet_set_self, Option.getD_some, liveWord_beatNumHi]

/-! ### The period, the lead and the billing period (R34, R46, R99) -/

theorem periodOp_of_unlocked {v : Word} {s : State} (hl : locked s 0x10004 = false) (h1 : 1000 ≤ fld v 15 0) (h2 : fld v 15 0 ≤ 64000) :
    periodOp 0 v s = setRegF 0x10004 15 0 (fld v 15 0) { s with beat := { s.beat with periodPend := some (fld v 15 0) } } := by
  simp [periodOp, hl, Nat.not_lt.2 h1, Nat.not_lt.2 h2]

theorem periodOp_refused {v : Word} {s : State} (h : locked s 0x10004 = true ∨ fld v 15 0 < 1000 ∨ 64000 < fld v 15 0) :
    periodOp 0 v s = s := by
  have : (locked s 0x10004 || fld v 15 0 < 1000 || fld v 15 0 > 64000) = true := by simpa [or_assoc] using h
  simp only [periodOp, ne_eq, not_true_eq_false, decide_false, Bool.false_or, this, if_true]

theorem freezeLeadOp_of_unlocked {v : Word} {s : State} (hl : locked s 0x10008 = false) (h1 : 100 ≤ fld v 15 0)
    (h2 : fld v 15 0 ≤ 32000) :
    freezeLeadOp 0 v s = setRegF 0x10008 15 0 (fld v 15 0) { s with beat := { s.beat with leadPend := some (fld v 15 0) } } := by
  simp [freezeLeadOp, hl, Nat.not_lt.2 h1, Nat.not_lt.2 h2]

theorem billBeatsOp_of_unlocked {v : Word} {s : State} (hl : locked s 0x20010 = false) : billBeatsOp 0 v s = setReg 0x20010 v s := by
  simp [billBeatsOp, hl]

/-! ### Guarantees and limits (R245, R448) -/

/-- A guarantee that the pool of flats does not carry, and that is a raise (R245). -/
def guaranteeRefused (s : State) (p g : Nat) : Prop := guarReg s p < g ∧ partEnabled s p = true ∧ guarFits s p g = false

/-- A limit on requests that the request table does not carry, and that is a raise (R448). -/
def reqMaxRefused (s : State) (p x : Nat) : Prop :=
  partEnabled s p = true ∧ 8192 < limitSum s 0 13 p x ∧ regF s (0x90200 + 0x40 * p) 13 0 < x

/-- A write that is either refused, which sets an error bit elsewhere, or taken by its field. -/
theorem guardedField_result {refused : Prop} [Decidable refused] {a e hi j x : Nat} {s t : State} (hae : a ≠ e) (hhi : hi < 32)
    (hj : j < 32) (hx : x < 2 ^ (hi + 1)) (hr : refused → t = setRegF e j j 1 s) (ht : ¬ refused → t = setRegF a hi 0 x s) :
    regF t a hi 0 = (if refused then regF s a hi 0 else x) ∧ (refused → regF t e j j = 1) ∧ { t with regs := s.regs } = s := by
  by_cases h : refused
  · rw [hr h, if_pos h, regF_setRegF_of_ne _ _ _ _ _ _ hae]
    exact ⟨rfl, fun _ => regF_setRegF_self _ _ le_rfl hj (by simp), rfl⟩
  · rw [ht h, if_neg h, regF_setRegF_self _ _ hi.zero_le hhi hx]
    exact ⟨rfl, fun h' => absurd h' h, rfl⟩

theorem guaranteeOp_refused {p : Nat} {v : Word} {s : State} (hl : locked s (0x30200 + 0x20 * p) = false)
    (h1 : 4 ≤ fld v 7 0) (h2 : fld v 7 0 ≤ 100) (hr : guaranteeRefused s p (fld v 7 0)) :
    guaranteeOp 0 p v s = setRegF (0x30208 + 0x20 * p) 0 0 1 s := by
  obtain ⟨hraise, hen, hfit⟩ := hr
  have ha : 0x30208 + 0x20 * p = 0x30200 + 0x20 * p + 8 := by omega
  simp [guaranteeOp, hl, Nat.not_lt.2 h1, Nat.not_lt.2 h2, hraise, hen, hfit, ha]

theorem guaranteeOp_taken {p : Nat} {v : Word} {s : State} (hl : locked s (0x30200 + 0x20 * p) = false)
    (h1 : 4 ≤ fld v 7 0) (h2 : fld v 7 0 ≤ 100) (hr : ¬ guaranteeRefused s p (fld v 7 0)) :
    guaranteeOp 0 p v s = setRegF (0x30200 + 0x20 * p) 7 0 (fld v 7 0) s := by
  have hr' : (decide (fld v 7 0 > guarReg s p) && partEnabled s p && !guarFits s p (fld v 7 0)) = false := by
    simpa [guaranteeRefused, and_imp] using hr
  simp [guaranteeOp, hl, Nat.not_lt.2 h1, Nat.not_lt.2 h2, hr']

theorem limitOp_reqMax_refused {p : Nat} {v : Word} {s : State} (hl : locked s (0x90200 + 0x40 * p) = false)
    (h : fld v 13 0 ≤ 8192) (hr : reqMaxRefused s p (fld v 13 0)) : limitOp 0 p 0 v s = setRegF 0x90004 31 31 1 s := by
  obtain ⟨hen, hsum, hraise⟩ := hr
  simp [limitOp, hl, Nat.not_lt.2 h, hen, hsum, hraise]

theorem limitOp_reqMax_taken {p : Nat} {v : Word} {s : State} (hl : locked s (0x90200 + 0x40 * p) = false)
    (h : fld v 13 0 ≤ 8192) (hr : ¬ reqMaxRefused s p (fld v 13 0)) :
    limitOp 0 p 0 v s = setRegF (0x90200 + 0x40 * p) 13 0 (fld v 13 0) s := by
  have hr' : (partEnabled s p && decide (limitSum s 0 13 p (fld v 13 0) > 8192) &&
      decide (fld v 13 0 > regF s (0x90200 + 0x40 * p) 13 0)) = false := by
    simpa [reqMaxRefused, and_imp] using hr
  simp [limitOp, hl, Nat.not_lt.2 h, hr']

theorem sliceAt_reqMax {p : Nat} (hp : p < 8) : sliceAt (0x90200 + 0x40 * p) 0x90200 8 0x40 = some (p, 0) := by
  simp [sliceAt, hp]

/-! ### The commands -/

theorem registerWrite_rqpCtx {k : Nat} (hk : k < 8) (v : DWord) (s : State) (hl : linkUp s = true) :
    leadsTo (exec (.registerWrite 0 (0xB0100 + 4 * k) false v) s) fun t => regW t (0xB0100 + 4 * k) = v.truncate 32 ∧
      (∀ a, a ≠ 0xB0100 + 4 * k → regW t a = regW s a) ∧ { t with regs := s.regs } = s := by
  refine ⟨setReg (0xB0100 + 4 * k) (v.truncate 32) s, ?_, setReg_result _ _ s⟩
  rw [exec_registerWrite, execRegisterWrite, bar0_of_linkUp _ hl (by norm_num) (by omega), if_neg Bool.false_ne_true, writeOp_rqpCtx hk]

theorem registerWrite_ptpOffset (v : DWord) (s : State) (hl : linkUp s = true) :
    leadsTo (exec (.registerWrite 0 0x10020 false v) s) fun t =>
      regW t 0x10020 = (if bitAt (regW s 0x10000) 31 then regW s 0x10020 else v.truncate 32) ∧
      (∀ a, a ≠ 0x10020 → regW t a = regW s a) ∧ { t with regs := s.regs } = s := by
  refine ⟨setReg 0x10020 _ s, ?_, setReg_result _ _ s⟩
  rw [exec_registerWrite, execRegisterWrite, bar0_of_linkUp _ hl (by norm_num) (by norm_num), if_neg Bool.false_ne_true, writeOp_ptpOffset]

theorem blockLock_sets {a : Nat} (ha : lockRegs.contains a = true) (s : State) (hl : linkUp s = true) :
    leadsTo (exec (.blockLock 0 a) s) fun t =>
      bitAt (regW t a) 31 = true ∧ (∀ i, i < 31 → bitAt (regW t a) i = bitAt (regW s a) i) ∧
      (∀ b, b ≠ a → regW t b = regW s b) ∧ { t with regs := s.regs } = s := by
  have hlt := lockRegs_lt a (List.contains_iff_mem.1 ha)
  obtain ⟨hself, hothers, hframe⟩ := setReg_result a (setFld (regW s a) 31 31 1) s
  refine ⟨setRegF a 31 31 1 s, ?_, ?_, fun i hi => ?_, hothers, hframe⟩
  · rw [exec_blockLock, execBlockLock, bar0_of_linkUp _ hl (by norm_num) hlt, ha]; rfl
  · rw [setRegF, hself, bitAt_setFld_bit _ (by norm_num), if_pos rfl]
  · rw [setRegF, hself, bitAt_setFld_bit _ (by norm_num), if_neg (by omega)]

theorem rcRead_clears {k : Nat} (hk : k < 5) (s : State) (hl : linkUp s = true) :
    leadsTo (exec (.rcRead 0 (0x10040 + 4 * k)) s) fun t =>
      regW t (0x10040 + 4 * k) = 0 ∧ (∀ b, b ≠ 0x10040 + 4 * k → regW t b = regW s b) ∧
      t.out = .read ((readWord s 0 (0x10040 + 4 * k)).zeroExtend 64) :: s.out ∧ { t with regs := s.regs, out := s.out } = s := by
  refine ⟨readOp 0 (0x10040 + 4 * k) s, ?_, ?_⟩
  · rw [exec_rcRead, execRcRead, bar0_of_linkUp _ hl (by norm_num) (by omega)]
  rw [readOp_beatRc hk]
  exact ⟨regW_setReg_self _ _ _, fun b hb => regW_setReg_of_ne _ _ hb, rfl, rfl⟩

theorem loWordRead_latches (s : State) (hl : linkUp s = true) :
    leadsTo (exec (.loWordRead 0 0x10010) s) fun t =>
      t.out = .read ((s.beat.num.truncate 32 : Word).zeroExtend 64) :: s.out ∧
      readWord t 0 0x10014 = (s.beat.num >>> 32).truncate 32 ∧ keepsUnits s t ∧ t.beat = s.beat := by
  refine ⟨readOp 0 0x10010 s, ?_, ?_⟩
  · rw [exec_loWordRead, execLoWordRead, bar0_of_linkUp _ hl (by norm_num) (by norm_num)]
  rw [readOp_beatNumLo]
  exact ⟨rfl, readWord_beatNumHi_latched _, ⟨rfl, rfl, rfl, rfl, rfl⟩, rfl⟩

theorem exec_beatPeriodWrite_of_linkUp {s : State} (v : Word) (hl : linkUp s = true) :
    exec (.beatPeriodWrite 0 v) s = .next (periodOp 0 v s) := by
  rw [exec_beatPeriodWrite, execBeatPeriodWrite, bar0_of_linkUp _ hl (by norm_num) (by norm_num)]

theorem beatPeriodWrite_pends {v : Word} {s : State} (hl : linkUp s = true) (hu : locked s 0x10004 = false)
    (h1 : 1000 ≤ fld v 15 0) (h2 : fld v 15 0 ≤ 64000) :
    leadsTo (exec (.beatPeriodWrite 0 v) s) fun t => regF t 0x10004 15 0 = fld v 15 0 ∧
      t.beat = { s.beat with periodPend := some (fld v 15 0) } ∧ keepsUnits s t := by
  refine ⟨_, exec_beatPeriodWrite_of_linkUp v hl, ?_⟩
  rw [periodOp_of_unlocked hu h1 h2]
  exact ⟨regF_setRegF_self _ _ (by norm_num) (by norm_num) (fld_lt v 15 0), rfl, rfl, rfl, rfl, rfl, rfl⟩

theorem beatFreezeWrite_pends {v : Word} {s : State} (hl : linkUp s = true) (hu : locked s 0x10008 = false)
    (h1 : 100 ≤ fld v 15 0) (h2 : fld v 15 0 ≤ 32000) :
    leadsTo (exec (.beatFreezeWrite 0 v) s) fun t => regF t 0x10008 15 0 = fld v 15 0 ∧
      t.beat = { s.beat with leadPend := some (fld v 15 0) } ∧ keepsUnits s t := by
  refine ⟨setRegF 0x10008 15 0 (fld v 15 0) { s with beat := { s.beat with leadPend := some (fld v 15 0) } }, ?_,
    regF_setRegF_self _ _ (by norm_num) (by norm_num) (fld_lt v 15 0), rfl, rfl, rfl, rfl, rfl, rfl⟩
  rw [exec_beatFreezeWrite, execBeatFreezeWrite, bar0_of_linkUp _ hl (by norm_num) (by norm_num), freezeLeadOp_of_unlocked hu h1 h2]

theorem energyBillBeatsWrite_takes {v : Word} {s : State} (hl : linkUp s = true) (hu : locked s 0x20010 = false) :
    exec (.energyBillBeatsWrite 0 v) s = .next (setReg 0x20010 v s) := by
  rw [exec_energyBillBeatsWrite, execEnergyBillBeatsWrite, bar0_of_linkUp _ hl (by norm_num) (by norm_num), billBeatsOp_of_unlocked hu]

theorem exec_guaranteeWrite_of_linkUp {p : Nat} {s : State} (v : Word) (hp : p < 8) (hl : linkUp s = true) :
    exec (.guaranteeWrite 0 p v) s = .next (guaranteeOp 0 p v s) := by
  rw [exec_guaranteeWrite, execGuaranteeWrite, bar0_of_linkUp _ hl (by norm_num) (by omega)]
  simp [need, hp]

theorem guaranteeWrite_guarded {p : Nat} {v : Word} {s : State} (hp : p < 8) (hl : linkUp s = true)
    (hu : locked s (0x30200 + 0x20 * p) = false) (h1 : 4 ≤ fld v 7 0) (h2 : fld v 7 0 ≤ 100) :
    leadsTo (exec (.guaranteeWrite 0 p v) s) fun t =>
      let refused := guarReg s p < fld v 7 0 ∧ partEnabled s p = true ∧ guarFits s p (fld v 7 0) = false
      regF t (0x30200 + 0x20 * p) 7 0 = (if refused then regF s (0x30200 + 0x20 * p) 7 0 else fld v 7 0) ∧
      (refused → regF t (0x30208 + 0x20 * p) 0 0 = 1) ∧ { t with regs := s.regs } = s := by
  refine ⟨_, exec_guaranteeWrite_of_linkUp v hp hl, ?_⟩
  exact guardedField_result (by omega) (by norm_num) (by norm_num) (fld_lt v 7 0) (guaranteeOp_refused hu h1 h2)
    (guaranteeOp_taken hu h1 h2)

theorem exec_serveLimitWrite_reqMax {p : Nat} {s : State} (v : Word) (hp : p < 8) (hl : linkUp s = true) :
    exec (.serveLimitWrite 0 (0x90200 + 0x40 * p) v) s = .next (limitOp 0 p 0 v s) := by
  rw [exec_serveLimitWrite, execServeLimitWrite, bar0_of_linkUp _ hl (by norm_num) (by omega)]
  simp only [sliceAt_reqMax hp]

theorem serveLimitWrite_guarded {p : Nat} {v : Word} {s : State} (hp : p < 8) (hl : linkUp s = true)
    (hu : locked s (0x90200 + 0x40 * p) = false) (h : fld v 13 0 ≤ 8192) :
    leadsTo (exec (.serveLimitWrite 0 (0x90200 + 0x40 * p) v) s) fun t =>
      let refused := partEnabled s p = true ∧ 8192 < limitSum s 0 13 p (fld v 13 0) ∧ regF s (0x90200 + 0x40 * p) 13 0 < fld v 13 0
      regF t (0x90200 + 0x40 * p) 13 0 = (if refused then regF s (0x90200 + 0x40 * p) 13 0 else fld v 13 0) ∧
      (refused → regF t 0x90004 31 31 = 1) ∧ { t with regs := s.regs } = s := by
  refine ⟨_, exec_serveLimitWrite_reqMax v hp hl, ?_⟩
  exact guardedField_result (by omega) (by norm_num) (by norm_num) (fld_lt v 13 0) (limitOp_reqMax_refused hu h)
    (limitOp_reqMax_taken hu h)

/-- Settles O46: over an open link each command is one operation, and the equation of that operation gives what the registers
then read. -/
theorem registerAccesses : Obligations.RegisterAccesses := by
  unfold Obligations.RegisterAccesses
  refine ⟨fun k v s hk hl => registerWrite_rqpCtx hk v s hl, registerWrite_ptpOffset, fun a s ha hl => blockLock_sets ha s hl,
    fun k s hk hl => rcRead_clears hk s hl, loWordRead_latches, fun v s hl => ⟨?_, ?_, ?_, ?_⟩, ?_, ?_⟩
  · exact beatPeriodWrite_pends hl
  · exact fun h => by rw [exec_beatPeriodWrite_of_linkUp v hl, periodOp_refused h]
  · exact beatFreezeWrite_pends hl
  · exact energyBillBeatsWrite_takes hl
  · exact fun p v s hp hl hu h1 h2 => guaranteeWrite_guarded hp hl hu h1 h2
  · exact fun p v s hp hl hu h => serveLimitWrite_guarded hp hl hu h

end Sys2Proof.Machine
end

section
/-! SUPPORT. The state after reset: its register file, and the statement about it. -/

namespace Sys2Proof.Machine

open Sys2Proof

/-- Reading after a fold of writes: a key that the fold writes holds its value, every other key what it held. -/
theorem tabGet_foldl_set {α : Type} [DecidableEq α] (d : α) (f : Nat → α) (ks : List Nat) (t : Tab α) (a : Nat) :
    tabGet d (ks.foldl (fun t k => tabSet d t k (f k)) t) a = if a ∈ ks then f a else tabGet d t a := by
  induction ks generalizing t with
  | nil => simp
  | cons k ks ih =>
    rw [List.foldl_cons, ih, tabGet_set]
    by_cases hk : a = k
    · simp [hk]
    · simp [hk]

theorem regW_reset (a : Nat) : regW State.reset a = tabGet 0#32 regsReset a := by rw [regW, State.reset]

/-- A register of a row with a reset value holds, at reset, the reset values of its fields. -/
theorem regW_reset_of_field {r : RegField} {a : Nat} (hr : r ∈ regFields) (ha : a ∈ r.resetAddrs) :
    regW State.reset a = resetWord a := by
  rw [regW_reset, regsReset, tabGet_foldl_set, if_pos (List.mem_flatMap.2 ⟨r, hr, ha⟩)]

theorem regF_reset_beatPeriod : regF State.reset 0x10004 15 0 = 10000 := by
  rw [regF, regW_reset_of_field (r := fldR 0x10004 15 0 .rwl 0x2710 1000 64000) (by decide) (by decide)]
  decide

theorem regF_reset_beatFreeze : regF State.reset 0x10008 15 0 = 500 := by
  rw [regF, regW_reset_of_field (r := fldR 0x10008 15 0 .rwl 0x1F4 100 32000) (by decide) (by decide)]
  decide

theorem regF_reset_guarantee : regF State.reset 0x30200 7 0 = 4 := by
  rw [regF, regW_reset_of_field (r := fldN 0x30200 8 0x20 7 0 .rwl 4 4 100) (by decide) (by decide)]
  decide

theorem keyHeld_reset (k : Nat) : keyHeld State.reset k = decide (k = 8) := by
  by_cases hk : k = 8
  · simp [hk, keyHeld, State.reset, Sec.init, tabGet]
  · simp [hk, keyHeld, State.reset, Sec.init, tabGet]

/-- Settles O59: the tables of units, requests and Cue Lights list nothing, and the register file is built row by row. -/
theorem resetState : Obligations.ResetState := by
  unfold Obligations.ResetState
  exact ⟨rfl, rfl, regW_reset, regF_reset_beatPeriod, regF_reset_beatFreeze, regF_reset_guarantee, fun _ => rfl, fun _ => rfl,
    fun _ => rfl, keyHeld_reset, fun _ => rfl, rfl, rfl, rfl, rfl⟩

end Sys2Proof.Machine
end

section
/-! SUPPORT. Reads of main memory that holds no error: the translation of a page, and the bytes that a read of a range finds. -/

namespace Sys2Proof.Machine

open Sys2Proof

/-! ### Translation within a page (R319, R323) -/

/-- The translation of an address `j` bytes on, within the same page. -/
def Walk.plus (w : Walk) (j : Nat) : Walk :=
  match w with
  | .fault k => .fault k
  | .ok pa => .ok (pa + j)
  | .copy pa => .copy (pa + j)

theorem permCheck_add (s : State) (part stepId : Nat) (write : Bool) (w : DWord) (pa j : Nat) :
    permCheck s part stepId write w (pa + j) = (permCheck s part stepId write w pa).plus j := by
  unfold permCheck
  extract_lets kv wr
  repeat' split
  all_goals rfl

/-- A read is never answered with a copy (R326). -/
theorem permCheck_read_ne_copy (s : State) (part stepId : Nat) (w : DWord) (pa q : Nat) :
    permCheck s part stepId false w pa ≠ .copy q := by
  simp only [permCheck, Bool.not_false, if_true]
  split <;> simp

/-- The index of a walk at any level is that of the page. -/
theorem ptOf_add (s : State) (space level : Nat) {va j : Nat} (h : va % 65536 + j < 65536) :
    ptOf s space level (va + j) = ptOf s space level va := by
  have hkey : ptKey space level (va + j) = ptKey space level va := by
    unfold ptKey
    split_ifs <;> omega
  rw [ptOf, hkey, ptOf]

theorem leafWalk_add (s : State) (part stepId : Nat) (write : Bool) (w : DWord) (level : Nat) {va j : Nat}
    (h : va % 65536 + j < 65536) :
    leafWalk s part stepId write w level (va + j) = (leafWalk s part stepId write w level va).plus j := by
  unfold leafWalk
  extract_lets pa' pa
  have hpa : pa' = pa + j := by
    simp only [pa', pa]
    split <;> omega
  have hframe : (pa + j) / 65536 = pa / 65536 := by
    simp only [pa]
    split <;> omega
  rw [hpa, hframe, permCheck_add]
  repeat' split
  all_goals rfl

/-- A walk of a page gives its addresses one after another. -/
theorem walk_add (s : State) (part stepId : Nat) (write : Bool) {va j : Nat} (h : va % 65536 + j < 65536) :
    walk s part stepId write (va + j) = (walk s part stepId write va).plus j := by
  have hhole : (va + j ≥ 2 ^ 48 || (0xA00000000000 ≤ va + j && va + j < 0xF00000000000)) =
      (va ≥ 2 ^ 48 || (0xA00000000000 ≤ va && va < 0xF00000000000)) := by
    rw [Bool.eq_iff_iff]
    simp only [Bool.or_eq_true, Bool.and_eq_true, decide_eq_true_eq]
    omega
  unfold walk
  simp only [hhole, ptOf_add _ _ _ h, leafWalk_add _ _ _ _ _ _ h]
  repeat' split
  all_goals rfl

theorem walk_read_ne_copy (s : State) (part stepId va q : Nat) : walk s part stepId false va ≠ .copy q := by
  have hleaf : ∀ w level, leafWalk s part stepId false w level va ≠ .copy q := by
    intro w level
    unfold leafWalk
    dsimp only
    repeat' split
    all_goals simp [permCheck_read_ne_copy]
  unfold walk
  dsimp only
  repeat' split
  all_goals simp [hleaf]

/-! ### Granules without errors (R303, R304) -/

theorem parity_of_clean {s : State} (h : cleanMem s) (m : Nat) : (tabGet Stack.init s.hbm.hbmStacks m).parity = 0 := by
  obtain ⟨-, -, -, -, hpar⟩ := h
  generalize s.hbm.hbmStacks = t at hpar
  induction t with
  | nil => rfl
  | cons e t ih =>
    obtain ⟨hhead, htail⟩ := List.forall_mem_cons.1 hpar
    unfold tabGet
    split
    · exact hhead
    · exact ih htail

/-- A read of a granule without errors finds nothing and changes nothing. -/
theorem readGranule_of_clean {s : State} (h : cleanMem s) (c : MemCtx) (g : Nat) : readGranule c g s = (s, false) := by
  have hpar := parity_of_clean h (paStack (64 * g))
  obtain ⟨hpoison, hflips, -, -, -⟩ := h
  have hgood : tabGet false s.mem.poison g = false := by rw [hpoison]; rfl
  have hget : tabGet [] s.mem.flips g = [] := by rw [hflips]; rfl
  have hset : tabSet [] s.mem.flips g [] = s.mem.flips := by rw [hflips]; rfl
  have hecc : hammingDecode [] = .clean := rfl
  simp [readGranule, hget, hset, hecc, hgood, parityDone, parityFails, hpar, granuleTaken]

theorem readGranules_of_clean {s : State} (h : cleanMem s) (c : MemCtx) (pa n : Nat) : readGranules c pa n s = (s, false) := by
  unfold readGranules
  refine List.foldlRecOn (motive := fun r => r = (s, false)) _ _ rfl fun r hr i _ => ?_
  subst hr
  simp [readGranule_of_clean h]

theorem physBytes_of_clean {s : State} (h : cleanMem s) (pa n : Nat) :
    physBytes s pa n = (List.range n).map fun i => memByte s (pa + i) := by
  obtain ⟨hpoison, -, hcorrupt, -, -⟩ := h
  simp [physBytes, memByte, hpoison, hcorrupt]

/-! ### Reads of a device virtual range (R323) -/

/-- The byte that a read of partition memory finds at an address: that of main memory at the end of its walk. -/
def dvByte (s : State) (part stepId va : Nat) : Byte :=
  match walk s part stepId false va with
  | .ok pa => memByte s pa
  | _ => 0

theorem dvByte_of_walk {s : State} {part stepId va pa : Nat} (h : walk s part stepId false va = .ok pa) :
    dvByte s part stepId va = memByte s pa := by rw [dvByte, h]

/-- The bytes that a read of partition memory finds in a range. -/
def dvBytes (s : State) (part stepId va n : Nat) : List Byte := (List.range n).map fun a => dvByte s part stepId (va + a)

@[simp] theorem dvBytes_length (s : State) (part stepId va n : Nat) : (dvBytes s part stepId va n).length = n := by
  simp [dvBytes]

theorem dvBytes_getD (s : State) (part stepId va : Nat) {n a : Nat} (h : a < n) :
    (dvBytes s part stepId va n).getD a 0 = dvByte s part stepId (va + a) := by
  simp [dvBytes, List.getD_eq_getElem?_getD, h]

theorem dvBytes_add (s : State) (part stepId va m n : Nat) :
    dvBytes s part stepId va (m + n) = dvBytes s part stepId va m ++ dvBytes s part stepId (va + m) n := by
  simp [dvBytes, List.range_add, Function.comp_def, Nat.add_assoc]

/-- The bytes of a range within a page lie one after another. -/
theorem dvBytes_within_page {s : State} {part stepId va pa n : Nat} (h : walk s part stepId false va = .ok pa)
    (hn : va % 65536 + n ≤ 65536) : dvBytes s part stepId va n = (List.range n).map fun a => memByte s (pa + a) := by
  refine List.map_congr_left fun a ha => dvByte_of_walk ?_
  have := List.mem_range.1 ha
  rw [walk_add s part stepId false (by omega), h, Walk.plus]

/-- A read that has found bytes, and no error. -/
def readOf (s : State) (bs : List Byte) : DvRead := { st := s, bytes := bs, fault := none, poisoned := false }

/-- What `dvRead` does with one piece of its range. -/
def dvReadPiece (c : MemCtx) (r : DvRead) (p : Nat × Nat) : DvRead :=
  match walkFor r.st c false p.1 with
  | .ok pa =>
    let g := readGranules c pa p.2 r.st
    { r with st := g.1, bytes := r.bytes ++ physBytes g.1 pa p.2, poisoned := r.poisoned || g.2 }
  | _ => r

theorem dvRead_of_rangeFault_none {c : MemCtx} {va n : Nat} {s : State} (h : rangeFault s c false va n = none) :
    dvRead c va n s = (pagePieces va n).foldl (dvReadPiece c) (readOf s []) := by
  unfold dvRead
  rw [h]
  rfl

theorem dvReadPiece_of_clean {c : MemCtx} {s : State} {va n : Nat} (bs : List Byte) (hclean : cleanMem s) (hheld : c.held = [])
    (hn : va % 65536 + n ≤ 65536) (hwalk : ∀ k, walkFor s c false va ≠ .fault k) :
    dvReadPiece c (readOf s bs) (va, n) = readOf s (bs ++ dvBytes s c.part c.stepId va n) := by
  rw [walkFor_not_held s c false va hheld] at hwalk
  simp only [dvReadPiece, readOf, walkFor_not_held s c false va hheld]
  cases hw : walk s c.part c.stepId false va with
  | fault k => exact absurd hw (hwalk k)
  | copy q => exact absurd hw (walk_read_ne_copy s c.part c.stepId va q)
  | ok pa => simp [readGranules_of_clean hclean, physBytes_of_clean hclean, dvBytes_within_page hw hn]

/-- The pieces of a range give its bytes, when there are pieces enough. -/
theorem foldl_dvReadPiece_of_clean {c : MemCtx} {s : State} (hclean : cleanMem s) (hheld : c.held = []) (fuel va n : Nat)
    (bs : List Byte) (hn : n ≤ 65536 * fuel - va % 65536) (hwalk : ∀ p ∈ pieces fuel va n, ∀ k, walkFor s c false p.1 ≠ .fault k) :
    (pieces fuel va n).foldl (dvReadPiece c) (readOf s bs) = readOf s (bs ++ dvBytes s c.part c.stepId va n) := by
  induction fuel generalizing va n bs with
  | zero =>
    obtain rfl : n = 0 := by omega
    simp [pieces, dvBytes]
  | succ fuel ih =>
    by_cases h0 : n = 0
    · simp [pieces, h0, dvBytes]
    set k := min n (65536 - va % 65536) with hk
    have hpieces : pieces (fuel + 1) va n = (va, k) :: pieces fuel (va + k) (n - k) := by rw [pieces, if_neg h0]
    rw [hpieces] at hwalk ⊢
    obtain ⟨hhead, htail⟩ := List.forall_mem_cons.1 hwalk
    have hsplit : n = k + (n - k) := by omega
    rw [List.foldl_cons, dvReadPiece_of_clean bs hclean hheld (by omega) hhead, ih _ _ _ (by omega) htail, List.append_assoc,
      ← dvBytes_add, ← hsplit]

/-- A read of a range whose pages do not fault changes nothing and gives the bytes of main memory. -/
theorem dvRead_of_clean {c : MemCtx} {va n : Nat} {s : State} (hclean : cleanMem s) (hheld : c.held = [])
    (hfault : rangeFault s c false va n = none) : dvRead c va n s = readOf s (dvBytes s c.part c.stepId va n) := by
  have hwalk : ∀ p ∈ pagePieces va n, ∀ k, walkFor s c false p.1 ≠ .fault k := by
    intro p hp k hk
    have := List.findSome?_eq_none_iff.1 hfault p hp
    simp [hk] at this
  have hlen : n ≤ 65536 * (n / 65536 + 2) - va % 65536 := by omega
  rw [dvRead_of_rangeFault_none hfault, pagePieces, foldl_dvReadPiece_of_clean hclean hheld _ _ _ _ hlen hwalk, List.nil_append]

end Sys2Proof.Machine
end

section
/-! SUPPORT. The start of an entry's run: what the updates on its way leave alone, and what the engine then holds. -/

namespace Sys2Proof.Machine

open Sys2Proof

/-! ### Updates of the serving tables alone -/

/-- Nothing but the serving tables has changed. -/
def onlyServe (s t : State) : Prop := ∃ v, t = { s with serve := v }

theorem onlyServe_refl (s : State) : onlyServe s s := ⟨s.serve, rfl⟩

theorem onlyServe_trans {s t u : State} (h : onlyServe s t) (g : onlyServe t u) : onlyServe s u := by
  obtain ⟨v, rfl⟩ := h
  obtain ⟨w, rfl⟩ := g
  exact ⟨w, rfl⟩

theorem onlyServe_modGroup (part stepId : Nat) (f : Group → Group) (s : State) : onlyServe s (modGroup part stepId f s) := ⟨_, rfl⟩

theorem onlyServe_stepBroken (part stepId unit : Nat) (fatal : Option Status) (s : State) :
    onlyServe s (stepBroken part stepId unit fatal s) := onlyServe_modGroup _ _ _ _

theorem onlyServe_modReqs (f : Request → Request) (is : List Nat) (s : State) :
    onlyServe s (is.foldl (fun t i => modReq i f t) s) := by
  refine List.foldlRecOn (motive := onlyServe s) _ _ (onlyServe_refl s) fun t ht i _ => onlyServe_trans ht ?_
  unfold modReq
  split
  · exact onlyServe_refl t
  · exact ⟨_, rfl⟩

theorem onlyServe_noteRevoked (part stepId va : Nat) (s : State) : onlyServe s (noteRevoked part stepId va s) := by
  unfold noteRevoked
  split
  · exact onlyServe_refl s
  · exact onlyServe_modReqs _ _ s

theorem onlyServe_beginStep (part stepId : Nat) (s : State) : onlyServe s (beginStep part stepId s) := by
  unfold beginStep
  split
  · exact onlyServe_refl s
  · exact onlyServe_trans (onlyServe_modGroup _ _ _ s) (onlyServe_modReqs _ _ _)

/-! ### Look-ups of the translation caches (R321) -/

/-- Translation caches have been looked up: they and the counters have changed, and no register that a walk reads. -/
def lookedUp (s t : State) : Prop :=
  (∀ part slot, shareGranted t part slot = shareGranted s part slot) ∧
    ∃ regs tc upper free, t = { s with regs := regs, mem := { s.mem with tc := tc, upper := upper }, free := free }

theorem lookedUp_refl (s : State) : lookedUp s s := ⟨fun _ _ => rfl, s.regs, s.mem.tc, s.mem.upper, s.free, rfl⟩

theorem lookedUp_trans {s t u : State} (h : lookedUp s t) (g : lookedUp t u) : lookedUp s u := by
  obtain ⟨hshare, _, _, _, _, rfl⟩ := h
  obtain ⟨gshare, _, _, _, _, rfl⟩ := g
  exact ⟨fun part slot => (gshare part slot).trans (hshare part slot), _, _, _, _, rfl⟩

theorem shareGranted_bump {a : Nat} (h : a < 0x70108) (s : State) (part slot : Nat) :
    shareGranted (bump a s) part slot = shareGranted s part slot := by
  rw [shareGranted, bump, bumpBy, regW_setReg_of_ne _ _ (by omega), shareGranted]

theorem lookedUp_tcLookup {cluster : Nat} (h : cluster < 4) (part va : Nat) (s : State) : lookedUp s (tcLookup cluster part va s) := by
  unfold tcLookup
  extract_lets t k ways s' ok pick tc upper
  split
  · exact ⟨shareGranted_bump (by omega) s, _, _, _, _, rfl⟩
  · exact ⟨shareGranted_bump (a := 0x70084 + 8 * cluster) (by omega) s, _, _, _, _, rfl⟩

/-- The look-ups for the argument block of an entry. -/
def blockLookups (e : Nat) (c : EntryCtx) (s : State) : State :=
  (pagePieces c.argPtr 256).foldl (fun q p => tcLookup (e / 9) c.part p.1 q) s

theorem lookedUp_blockLookups {e : Nat} (he : e < 36) (c : EntryCtx) (s : State) : lookedUp s (blockLookups e c s) :=
  List.foldlRecOn (motive := lookedUp s) _ _ (lookedUp_refl s) fun t ht p _ =>
    lookedUp_trans ht (lookedUp_tcLookup (by omega) c.part p.1 t)

theorem walk_of_lookedUp {s t : State} (h : lookedUp s t) (part stepId : Nat) (write : Bool) (va : Nat) :
    walk t part stepId write va = walk s part stepId write va := by
  obtain ⟨hshare, hrest⟩ := h
  have hread : (∀ space level, ptOf t space level va = ptOf s space level va) ∧ (∀ f, frameIn t f = frameIn s f) ∧
      (∀ k, keyHeld t k = keyHeld s k) ∧ journalOf t part stepId = journalOf s part stepId := by
    obtain ⟨_, _, _, _, rfl⟩ := hrest
    exact ⟨fun _ _ => rfl, fun _ => rfl, fun _ => rfl, rfl⟩
  obtain ⟨hpt, hframe, hkey, hjournal⟩ := hread
  have howner : ∀ k, ownerOk t part k = ownerOk s part k := fun k => by simp only [ownerOk, hshare]
  have hpointer : ∀ w level, pointerFault t part w level = pointerFault s part w level := fun w level => by
    simp only [pointerFault, hframe, howner]
  have hperm : ∀ w pa, permCheck t part stepId write w pa = permCheck s part stepId write w pa := fun w pa => by
    simp only [permCheck, hjournal]
  have hleaf : ∀ w level, leafWalk t part stepId write w level va = leafWalk s part stepId write w level va := fun w level => by
    simp only [leafWalk, hframe, howner, hkey, hperm]
  simp only [walk, hpt, hpointer, hleaf]

theorem cleanMem_of_lookedUp {s t : State} (h : lookedUp s t) (hclean : cleanMem s) : cleanMem t := by
  obtain ⟨-, _, _, _, _, rfl⟩ := h
  exact hclean

theorem rangeFault_of_lookedUp {s t : State} (h : lookedUp s t) {c : MemCtx} (hheld : c.held = []) (write : Bool) (va n : Nat) :
    rangeFault t c write va n = rangeFault s c write va n := by
  simp only [rangeFault, walkFor_not_held _ c _ _ hheld, walk_of_lookedUp h]

theorem dvBytes_of_lookedUp {s t : State} (h : lookedUp s t) (part stepId va n : Nat) :
    dvBytes t part stepId va n = dvBytes s part stepId va n := by
  have hmem : ∀ a, memByte t a = memByte s a := by
    obtain ⟨-, _, _, _, _, rfl⟩ := h
    exact fun _ => rfl
  simp only [dvBytes, dvByte, walk_of_lookedUp h, hmem]

/-! ### What a start leaves alone -/

/-- No engine but `e`, no byte, frame or page table of main memory and nothing of the Flies has changed, and no reset is due that was not. -/
def keepsBut (e : Nat) (s t : State) : Prop :=
  (∀ k, k ≠ e → engOf t k = engOf s k) ∧ { t.mem with tc := s.mem.tc, upper := s.mem.upper } = s.mem ∧ t.flies = s.flies ∧
    t.fault.fwPoison = s.fault.fwPoison

theorem keepsBut_trans {e : Nat} {s t u : State} (h : keepsBut e s t) (g : keepsBut e t u) : keepsBut e s u := by
  obtain ⟨heng, hmem, hfl, hfw⟩ := h
  obtain ⟨geng, gmem, gfl, gfw⟩ := g
  refine ⟨fun k hk => (geng k hk).trans (heng k hk), ?_, gfl.trans hfl, gfw.trans hfw⟩
  exact (congrArg (fun m : Mem => { m with tc := s.mem.tc, upper := s.mem.upper }) gmem).trans hmem

theorem keepsBut_of_onlyServe {e : Nat} {s t : State} (h : onlyServe s t) : keepsBut e s t := by
  obtain ⟨_, rfl⟩ := h
  exact ⟨fun _ _ => rfl, rfl, rfl, rfl⟩

theorem keepsBut_of_lookedUp {e : Nat} {s t : State} (h : lookedUp s t) : keepsBut e s t := by
  obtain ⟨-, _, _, _, _, rfl⟩ := h
  exact ⟨fun _ _ => rfl, rfl, rfl, rfl⟩

theorem keepsBut_setEng (e : Nat) (x : Engine) (s : State) : keepsBut e s (setEng e x s) :=
  ⟨fun _ hk => engOf_setEng_of_ne x s hk, rfl, rfl, rfl⟩

theorem keepsBut_setEntry (e i : Nat) (x : EntryStatus) (s : State) : keepsBut e s (setEntry i x s) :=
  ⟨fun _ _ => rfl, rfl, rfl, rfl⟩

theorem keepsBut_bump (e a : Nat) (s : State) : keepsBut e s (bump a s) := ⟨fun _ _ => rfl, rfl, rfl, rfl⟩

theorem keepsBut_logEvent (e : Nat) (v : FaultEvent) (s : State) : keepsBut e s (logEvent v s) := by
  unfold logEvent
  split
  · exact ⟨fun _ _ => rfl, rfl, rfl, rfl⟩
  · exact ⟨fun _ _ => rfl, rfl, rfl, rfl⟩

theorem keepsBut_refl (e : Nat) (s : State) : keepsBut e s s := ⟨fun _ _ => rfl, rfl, rfl, rfl⟩

theorem keepsBut_abandonEntry (e : Nat) (ev : FaultEvent) (s : State) : keepsBut e s (abandonEntry e ev s) := by
  unfold abandonEntry
  dsimp only
  split
  · exact keepsBut_refl e s
  · refine keepsBut_trans ?_ (keepsBut_logEvent e _ _)
    refine keepsBut_trans ?_ (keepsBut_of_onlyServe (onlyServe_trans (onlyServe_stepBroken _ _ _ _ _) (onlyServe_modGroup _ _ _ _)))
    split
    · exact keepsBut_trans (keepsBut_setEng e _ s) (keepsBut_setEntry e _ _ _)
    · exact keepsBut_setEng e _ s

theorem keepsBut_raiseExc (e cause pc addr : Nat) (status : Status) (detail : List Nat) (s : State) :
    keepsBut e s (raiseExc e cause pc addr status detail s) :=
  keepsBut_trans (keepsBut_trans (keepsBut_setEng e _ s) (keepsBut_bump e _ _)) (keepsBut_abandonEntry e _ _)

theorem settle_of_fwPoison_false {s : State} (h : s.fault.fwPoison = false) : settle s = s := by
  simp [settle, h]

/-! ### The start (R117 to R121) -/

/-- The context of a run whose argument block is known: its Cue Light window and its seed (R117, R120). -/
def blockCtx (s : State) (c : EntryCtx) (bs : List Byte) : EntryCtx :=
  { c with clBase := leAt bs 12 2, clCount := leAt bs 14 2, seed := BitVec.ofNat 64 (leAt bs 16 8),
           clOk := clFits (leAt bs 12 2) (leAt bs 14 2) (match imageAt s c.prog with | some (_, i) => i.clMax | none => 0) }

/-- An engine that begins to run, with its argument block in LM 0 to 255. -/
def begun (s : State) (c : EntryCtx) (bs : List Byte) (x : Engine) : Engine :=
  { x with run := some (blockCtx s c bs), phase := .running, lm := tabWrite 0#8 x.lm 0 bs }

@[simp] theorem begun_lm (s : State) (c : EntryCtx) (bs : List Byte) (x : Engine) :
    (begun s c bs x).lm = tabWrite 0#8 x.lm 0 bs := rfl

/-- Where the argument block of an entry is read (R117). -/
def blockMem (e : Nat) (c : EntryCtx) : MemCtx := entryMem c (unitCode (engRef e)) 0

/-- The argument block of an entry, as main memory holds it. -/
def entryBlock (s : State) (c : EntryCtx) : List Byte := dvBytes s c.part c.stepId c.argPtr 256

@[simp] theorem entryBlock_length (s : State) (c : EntryCtx) : (entryBlock s c).length = 256 := dvBytes_length _ _ _ _ _

theorem startEntry_of_slot {e : Nat} {c : EntryCtx} {s : State} (hrun : (engOf s e).run = some c) (hslot : c.slot ≠ none) :
    startEntry e s = setEng e (begun s c (tabRead 0#8 (engOf s e).lm 0 256) (engOf s e)) s := by
  simp only [startEntry, hrun, Option.isSome_iff_ne_none.2 hslot, if_true]
  rfl

/-- The block of an entry whose block can be read lies in LM when its first instruction can issue. -/
theorem startEntry_of_block {e : Nat} {c : EntryCtx} {s : State} (he : e < 36) (hrun : (engOf s e).run = some c)
    (hslot : c.slot = none) (hclean : cleanMem s) (hblock : rangeFault s (blockMem e c) false c.argPtr 256 = none) :
    startEntry e s = setEng e (begun (blockLookups e c s) c (entryBlock s c) (engOf s e)) (blockLookups e c s) := by
  have hlook := lookedUp_blockLookups he c s
  have hread : dvRead (blockMem e c) c.argPtr 256 (blockLookups e c s) = readOf (blockLookups e c s) (entryBlock s c) := by
    rw [dvRead_of_clean (cleanMem_of_lookedUp hlook hclean) rfl ((rangeFault_of_lookedUp hlook rfl false _ _).trans hblock),
      dvBytes_of_lookedUp hlook]
    rfl
  have heng : engOf (blockLookups e c s) e = engOf s e := by
    obtain ⟨-, _, _, _, _, h⟩ := hlook
    rw [h]; rfl
  rw [← heng]
  rw [blockMem, blockLookups] at hread
  have hnone : c.slot.isSome = false := by rw [hslot]; rfl
  simp only [startEntry, hrun, hnone, Bool.false_eq_true, if_false, hread]
  rfl

/-- A block that cannot be read raises XFER_FAULT at pc 0 (R118), once the serving tables have taken the fault. -/
theorem startEntry_of_fault {e : Nat} {c : EntryCtx} {s : State} {va sub : Nat} (he : e < 36) (hrun : (engOf s e).run = some c)
    (hslot : c.slot = none) (hblock : rangeFault s (blockMem e c) false c.argPtr 256 = some (va, sub)) :
    ∃ t, onlyServe (bump 0x70040 (blockLookups e c s)) t ∧ startEntry e s = raiseExc e 9 0 va 0 [sub] t := by
  have hfault := (rangeFault_of_lookedUp (lookedUp_blockLookups he c s) rfl false _ _).trans hblock
  rw [blockMem, blockLookups] at hfault
  have hnone : c.slot.isSome = false := by rw [hslot]; rfl
  simp only [startEntry, hrun, hnone, Bool.false_eq_true, if_false, dvRead, hfault]
  cases faultFatal sub with
  | none => exact ⟨noteRevoked c.part c.stepId va _, onlyServe_noteRevoked _ _ _ _, rfl⟩
  | some st => exact ⟨stepBroken c.part c.stepId 0xFFFF (some st) _, onlyServe_stepBroken _ _ _ _ _, rfl⟩

theorem keepsBut_startEntry {e : Nat} {s : State} (he : e < 36) (hclean : cleanMem s) : keepsBut e s (startEntry e s) := by
  cases hrun : (engOf s e).run with
  | none =>
    have hnone : startEntry e s = s := by simp only [startEntry, hrun]
    rw [hnone]
    exact keepsBut_refl e s
  | some c =>
    by_cases hslot : c.slot = none
    · have hlook : keepsBut e s (blockLookups e c s) := keepsBut_of_lookedUp (lookedUp_blockLookups he c s)
      cases hblock : rangeFault s (blockMem e c) false c.argPtr 256 with
      | none =>
        rw [startEntry_of_block he hrun hslot hclean hblock]
        exact keepsBut_trans hlook (keepsBut_setEng e _ _)
      | some q =>
        obtain ⟨t, hserve, ht⟩ := startEntry_of_fault he hrun hslot hblock
        rw [ht]
        exact keepsBut_trans (keepsBut_trans hlook (keepsBut_bump e _ _))
          (keepsBut_trans (keepsBut_of_onlyServe hserve) (keepsBut_raiseExc e _ _ _ _ _ t))
    · rw [startEntry_of_slot hrun hslot]
      exact keepsBut_setEng e _ s

/-- A start on clean memory leaves no reset due. -/
theorem settle_startEntry {e : Nat} {s : State} (he : e < 36) (hclean : cleanMem s) : settle (startEntry e s) = startEntry e s := by
  obtain ⟨-, -, -, hfw⟩ := keepsBut_startEntry he hclean
  obtain ⟨-, -, -, hno, -⟩ := hclean
  exact settle_of_fwPoison_false (hfw.trans hno)

/-- The engine of a started entry; no entry's status changes. -/
theorem startEntry_result {e : Nat} {c : EntryCtx} {s : State} (he : e < 36) (hrun : (engOf s e).run = some c)
    (hslot : c.slot = none) (hclean : cleanMem s) (hblock : rangeFault s (blockMem e c) false c.argPtr 256 = none) :
    (∃ u, engOf (startEntry e s) e = begun u c (entryBlock s c) (engOf s e)) ∧
      ∀ i, statusAt (startEntry e s) i = statusAt s i := by
  rw [startEntry_of_block he hrun hslot hclean hblock]
  refine ⟨⟨blockLookups e c s, engOf_setEng_self e _ _⟩, fun i => ?_⟩
  obtain ⟨-, _, _, _, _, hlook⟩ := lookedUp_blockLookups he c s
  rw [hlook]
  rfl

/-! ### What the engine then holds -/

/-- Outside the block, LM is as it was. -/
theorem begun_lm_above (u s : State) (c : EntryCtx) (x : Engine) {a : Nat} (h : 256 ≤ a) :
    tabGet 0#8 (begun u c (entryBlock s c) x).lm a = tabGet 0#8 x.lm a := by
  rw [begun_lm]
  exact tabGet_write_of_not_mem 0#8 _ _ (.inr (by rw [entryBlock_length]; omega))

/-- The block lies in LM 0 to 255. -/
theorem begun_lm_block (u : State) {s : State} {c : EntryCtx} (x : Engine) {a pa : Nat} (h : a < 256)
    (hw : walk s c.part c.stepId false (c.argPtr + a) = .ok pa) :
    tabGet 0#8 (begun u c (entryBlock s c) x).lm a = memByte s pa := by
  have hin : 0 ≤ a ∧ a < 0 + (entryBlock s c).length := by rw [entryBlock_length]; omega
  rw [begun_lm, tabGet_write, if_pos hin, Nat.sub_zero, entryBlock, ← dvByte_of_walk hw]
  exact dvBytes_getD s _ _ _ h

/-- A field of bytes that have been written to a table's start. -/
theorem leAt_eq_tabRead_write {bs : List Byte} (t : Tab Byte) {off len : Nat} (h : off + len ≤ bs.length) :
    leAt bs off len = leNat (tabRead 0#8 (tabWrite 0#8 t 0 bs) off len) := by
  have hslice : slice bs off len = tabRead 0#8 (tabWrite 0#8 t 0 bs) off len := by
    apply List.ext_getElem
    · simp [slice]
    · intro i hi _
      have hlen : i < len := by simpa [slice, h] using hi
      have hin : off + i < bs.length := by omega
      have hdrop : i < bs.length - off := by omega
      simp [slice, tabRead, tabGet_write, hin, hlen, hdrop]
  rw [leAt, hslice]

end Sys2Proof.Machine
end

section
/-! SUPPORT. Dispatch and the clear of R26, and the statement about them. -/

namespace Sys2Proof.Machine

open Sys2Proof

/-! ### Dispatch (R57, R108) -/

/-- An engine with its registers at their values at dispatch (R108). -/
def dispatched (x : Engine) (c : EntryCtx) (phase : UnitPhase) : Engine :=
  { Engine.init with
    serv := x.serv, lm := x.lm, excLast := x.excLast, freeCnt := x.freeCnt, run := some c, phase := phase,
    s := tabSet 0#64 [] 1 (BitVec.ofNat 64 c.argPtr) }

theorem giveEntry_of_same {e : Nat} {c : EntryCtx} {s : State} (h : (engOf s e).serv.lastPart = some c.part) :
    giveEntry e c s = startEntry e (setEng e (dispatched (engOf s e) c .running) s) := by
  simp [giveEntry, h, dispatched]

theorem giveEntry_of_other {e : Nat} {c : EntryCtx} {s : State} (h : (engOf s e).serv.lastPart ≠ some c.part) :
    giveEntry e c s = setEng e (dispatched (engOf s e) c .clearing) s := by
  simp [giveEntry, h, dispatched]

/-- The state in which an engine is given an entry: the entry runs, and its step has begun. -/
def entryBegun (e i : Nat) (x : Entry) (s : State) : State := beginStep (ePart x) (eStep x) (setEntry i (.running e) s)

theorem entryBegun_eq (e i : Nat) (x : Entry) (s : State) : ∃ v, entryBegun e i x s = { setEntry i (.running e) s with serve := v } :=
  onlyServe_beginStep _ _ _

theorem keepsBut_entryBegun (e i : Nat) (x : Entry) (s : State) : keepsBut e s (entryBegun e i x s) :=
  keepsBut_trans (keepsBut_setEntry e i _ s) (keepsBut_of_onlyServe (onlyServe_beginStep _ _ _))

@[simp] theorem engOf_entryBegun (e i k : Nat) (x : Entry) (s : State) : engOf (entryBegun e i x s) k = engOf s k := by
  obtain ⟨_, h⟩ := entryBegun_eq e i x s
  rw [h]; rfl

theorem statusAt_setEntry_self (i : Nat) (x : EntryStatus) (s : State) : statusAt (setEntry i x s) i = x := tabGet_set_self _ _ _ _

theorem statusAt_entryBegun (e i : Nat) (x : Entry) (s : State) : statusAt (entryBegun e i x s) i = .running e := by
  obtain ⟨_, h⟩ := entryBegun_eq e i x s
  rw [h]
  exact statusAt_setEntry_self i _ s

/-- An engine that has just been dispatched, in the state in which its start reads the argument block. -/
def entryGiven (e i : Nat) (x : Entry) (c : EntryCtx) (s : State) : State :=
  setEng e (dispatched (engOf s e) c .running) (entryBegun e i x s)

theorem engOf_entryGiven (e i : Nat) (x : Entry) (c : EntryCtx) (s : State) :
    engOf (entryGiven e i x c s) e = dispatched (engOf s e) c .running := engOf_setEng_self _ _ _

/-- Main memory reads as before the dispatch. -/
theorem entryGiven_reads (e i : Nat) (x : Entry) (c : EntryCtx) (s : State) :
    (cleanMem s → cleanMem (entryGiven e i x c s)) ∧
      (∀ m write va n, rangeFault (entryGiven e i x c s) m write va n = rangeFault s m write va n) ∧
      entryBlock (entryGiven e i x c s) c = entryBlock s c := by
  obtain ⟨_, h⟩ := entryBegun_eq e i x s
  rw [entryGiven, h]
  exact ⟨id, fun _ _ _ _ => rfl, rfl⟩

theorem entryDispatch_selftest {e le i : Nat} {o : Order} {x : Entry} {s : State} (he : e < 36)
    (hrole : (engOf s e).serv.role = some le) (ho : s.ro.running = some o) (hidle : engineIdle s e = true)
    (hnext : nextEntry s o e le = some (i, x)) (hkind : eKind x = 4) :
    exec (.entryDispatch e) s =
      .next { setEntry i (.running e) s with bist := { s.bist with queue := s.bist.queue ++ [i] } } := by
  simp only [exec_entryDispatch, execEntryDispatch, need, he, hrole, ho, hidle, hnext, hkind]
  rfl

theorem entryDispatch_gives {e le i : Nat} {o : Order} {x : Entry} {s : State} (he : e < 36)
    (hrole : (engOf s e).serv.role = some le) (ho : s.ro.running = some o) (hidle : engineIdle s e = true)
    (hnext : nextEntry s o e le = some (i, x)) (hkind : eKind x ≠ 4) :
    exec (.entryDispatch e) s = .next (settle (giveEntry e (entryCtx s o x le) (entryBegun e i x s))) := by
  simp only [exec_entryDispatch, execEntryDispatch, need, he, hrole, ho, hidle, hnext, hkind]
  rfl

/-- On another partition the clear of R26 comes first. -/
theorem entryDispatch_of_other {e le i : Nat} {o : Order} {x : Entry} {s : State} (he : e < 36)
    (hrole : (engOf s e).serv.role = some le) (ho : s.ro.running = some o) (hidle : engineIdle s e = true)
    (hnext : nextEntry s o e le = some (i, x)) (hclean : cleanMem s) (hkind : eKind x ≠ 4)
    (hpart : (engOf s e).serv.lastPart ≠ some (ePart x)) :
    exec (.entryDispatch e) s =
      .next (setEng e (dispatched (engOf s e) (entryCtx s o x le) .clearing) (entryBegun e i x s)) := by
  obtain ⟨-, -, -, hfw⟩ := keepsBut_entryBegun e i x s
  obtain ⟨-, -, -, hno, -⟩ := hclean
  have hother : (engOf (entryBegun e i x s) e).serv.lastPart ≠ some (entryCtx s o x le).part := by
    rw [engOf_entryBegun]; exact hpart
  rw [entryDispatch_gives he hrole ho hidle hnext hkind, giveEntry_of_other hother, engOf_entryBegun,
    settle_of_fwPoison_false]
  exact hfw.trans hno

/-- On the partition of its last entry the engine starts at once. -/
theorem entryDispatch_of_same {e le i : Nat} {o : Order} {x : Entry} {s : State} (he : e < 36)
    (hrole : (engOf s e).serv.role = some le) (ho : s.ro.running = some o) (hidle : engineIdle s e = true)
    (hnext : nextEntry s o e le = some (i, x)) (hclean : cleanMem s) (hkind : eKind x ≠ 4)
    (hpart : (engOf s e).serv.lastPart = some (ePart x)) :
    exec (.entryDispatch e) s = .next (startEntry e (entryGiven e i x (entryCtx s o x le) s)) := by
  have hsame : (engOf (entryBegun e i x s) e).serv.lastPart = some (entryCtx s o x le).part := by
    rw [engOf_entryBegun]; exact hpart
  obtain ⟨hgiven, -, -⟩ := entryGiven_reads e i x (entryCtx s o x le) s
  rw [entryDispatch_gives he hrole ho hidle hnext hkind, giveEntry_of_same hsame, engOf_entryBegun]
  exact congrArg _ (settle_startEntry he (hgiven hclean))

/-- The registers of an engine whose entry has begun are those of R108. -/
theorem begun_dispatched_regs (u : State) (c : EntryCtx) (bs : List Byte) (x : Engine) :
    let y := begun u c bs (dispatched x c .running)
    y.phase = .running ∧ y.pc = 0 ∧ rdS y 1 = BitVec.ofNat 64 c.argPtr ∧ (∀ r, r ≠ 1 → rdS y r = 0) ∧ y.round = 0 ∧ y.flags = 0 := by
  refine ⟨rfl, rfl, tabGet_set_self _ _ _ _, fun r hr => ?_, rfl, rfl⟩
  have hne : r.toNat ≠ 1 := fun h => hr (BitVec.eq_of_toNat_eq h)
  unfold rdS
  split
  · rfl
  · exact tabGet_set_of_ne _ _ _ hne

/-- The Cue Light window of a run is that which its argument block gives (R120). -/
theorem blockCtx_window (u : State) (s : State) (c : EntryCtx) (x : Engine) :
    (blockCtx u c (entryBlock s c)).clBase = leNat (tabRead 0#8 (begun u c (entryBlock s c) x).lm 12 2) ∧
      (blockCtx u c (entryBlock s c)).clCount = leNat (tabRead 0#8 (begun u c (entryBlock s c) x).lm 14 2) := by
  rw [begun_lm]
  exact ⟨leAt_eq_tabRead_write x.lm (by rw [entryBlock_length]; omega), leAt_eq_tabRead_write x.lm (by rw [entryBlock_length]; omega)⟩

theorem entryDispatch_started {e le i : Nat} {o : Order} {x : Entry} {s : State} (he : e < 36) (hclean : cleanMem s)
    (hblock : rangeFault s (blockMem e (entryCtx s o x le)) false (eArg x) 256 = none) :
    let y := engOf s e
    let t := startEntry e (entryGiven e i x (entryCtx s o x le) s)
    statusAt t i = .running e ∧ (engOf t e).phase = .running ∧ (engOf t e).pc = 0 ∧ rdS (engOf t e) 1 = BitVec.ofNat 64 (eArg x) ∧
      (∀ r, r ≠ 1 → rdS (engOf t e) r = 0) ∧ (engOf t e).round = 0 ∧ (engOf t e).flags = 0 ∧
      (∃ d, (engOf t e).run = some d ∧ d.index = eIndex x ∧ d.part = ePart x ∧ d.stepId = eStep x ∧
        d.clBase = leNat (tabRead 0#8 (engOf t e).lm 12 2) ∧ d.clCount = leNat (tabRead 0#8 (engOf t e).lm 14 2)) ∧
      (∀ a, 256 ≤ a → tabGet 0#8 (engOf t e).lm a = tabGet 0#8 y.lm a) ∧
      (∀ a pa, a < 256 → walk s (ePart x) (eStep x) false (eArg x + a) = .ok pa → tabGet 0#8 (engOf t e).lm a = memByte s pa) := by
  intro y t
  have hgiven := engOf_entryGiven e i x (entryCtx s o x le) s
  obtain ⟨hcleanGiven, hfaultGiven, hblockGiven⟩ := entryGiven_reads e i x (entryCtx s o x le) s
  obtain ⟨⟨u, heng⟩, hstatus⟩ := startEntry_result he (by rw [hgiven]; rfl) rfl (hcleanGiven hclean) ((hfaultGiven _ _ _ _).trans hblock)
  rw [hgiven, hblockGiven] at heng
  obtain ⟨hphase, hpc, harg, hzero, hround, hflags⟩ := begun_dispatched_regs u (entryCtx s o x le) (entryBlock s (entryCtx s o x le)) y
  obtain ⟨hbase, hcount⟩ := blockCtx_window u s (entryCtx s o x le) (dispatched y (entryCtx s o x le) .running)
  rw [heng]
  exact ⟨(hstatus i).trans (statusAt_entryBegun e i x s), hphase, hpc, harg, hzero, hround, hflags,
    ⟨_, rfl, rfl, rfl, rfl, hbase, hcount⟩, fun a ha => begun_lm_above u s _ _ ha, fun a pa ha hw => begun_lm_block u _ ha hw⟩

/-- Either of the starts leaves every other engine and main memory alone. -/
theorem entryDispatch_keeps {e i : Nat} {x : Entry} {c : EntryCtx} {s : State} (he : e < 36) (hclean : cleanMem s) :
    keepsBut e s (startEntry e (entryGiven e i x c s)) := by
  obtain ⟨hgiven, -, -⟩ := entryGiven_reads e i x c s
  exact keepsBut_trans (keepsBut_trans (keepsBut_entryBegun e i x s) (keepsBut_setEng e _ _)) (keepsBut_startEntry he (hgiven hclean))

/-! ### The clear (R26, R27) -/

/-- An engine after its clear: every byte of LM is 0, but the argument block that a Walk-on's entry finds there. -/
def cleared (x : Engine) : Engine :=
  { x with lm := tabWrite 0#8 [] 0 (if (x.run.bind (·.slot)).isSome then tabRead 0#8 x.lm 0 256 else []) }

theorem partitionClearDone_idle {cl slot : Nat} {s : State} (hcl : cl < 4) (hslot : slot < 9)
    (hphase : (engOf s (9 * cl + slot)).phase = .clearing) (hrun : (engOf s (9 * cl + slot)).run = none) :
    exec (.partitionClearDone ⟨.engine, cl, slot⟩) s = .next (setEng (9 * cl + slot) { Engine.init with
      serv := (engOf s (9 * cl + slot)).serv, excLast := (engOf s (9 * cl + slot)).excLast,
      freeCnt := (engOf s (9 * cl + slot)).freeCnt } s) := by
  simp [execPartitionClearDone, need, hcl, hslot, hphase, hrun]

theorem partitionClearDone_starts {cl slot : Nat} {c : EntryCtx} {s : State} (hcl : cl < 4) (hslot : slot < 9)
    (hphase : (engOf s (9 * cl + slot)).phase = .clearing) (hrun : (engOf s (9 * cl + slot)).run = some c) (hclean : cleanMem s) :
    exec (.partitionClearDone ⟨.engine, cl, slot⟩) s =
      .next (startEntry (9 * cl + slot) (setEng (9 * cl + slot) (cleared (engOf s (9 * cl + slot))) s)) := by
  have he : 9 * cl + slot < 36 := by omega
  rw [← settle_startEntry (s := setEng _ _ s) he hclean]
  simp [execPartitionClearDone, need, hcl, hslot, hphase, hrun, cleared]

theorem partitionClearDone_started {e : Nat} {c : EntryCtx} {s : State} (he : e < 36) (hrun : (engOf s e).run = some c)
    (hslot : c.slot = none) (hclean : cleanMem s) (hblock : rangeFault s (blockMem e c) false c.argPtr 256 = none) :
    let t := startEntry e (setEng e (cleared (engOf s e)) s)
    (engOf t e).phase = .running ∧ (∀ a, 256 ≤ a → tabGet 0#8 (engOf t e).lm a = 0) ∧
      (∀ a pa, a < 256 → walk s c.part c.stepId false (c.argPtr + a) = .ok pa → tabGet 0#8 (engOf t e).lm a = memByte s pa) := by
  intro t
  have heng : engOf (setEng e (cleared (engOf s e)) s) e = cleared (engOf s e) := engOf_setEng_self _ _ _
  obtain ⟨⟨u, hstart⟩, -⟩ := startEntry_result (s := setEng e (cleared (engOf s e)) s) he (by rw [heng]; exact hrun) hslot hclean hblock
  have hzero : (cleared (engOf s e)).lm = [] := by simp [cleared, hrun, hslot, tabWrite]
  rw [hstart, heng]
  refine ⟨rfl, fun a ha => ?_, fun a pa ha hw => begun_lm_block u (s := setEng e (cleared (engOf s e)) s) _ ha hw⟩
  rw [begun_lm_above _ _ _ _ ha, hzero]
  rfl

theorem partitionClearDone_stagehand {cl slot : Nat} {s : State} (hcl : cl < 4) (hslot : slot < 18)
    (hphase : (shOf s (18 * cl + slot)).phase = .clearing) :
    exec (.partitionClearDone ⟨.stagehand, cl, slot⟩) s = .next (setSh (18 * cl + slot)
      { shOf s (18 * cl + slot) with x := [], f := [], v := [], csr := helperCsr [], resv := none, zshtmo := 0, lm := [], phase := .running } s) := by
  simp [execPartitionClearDone, need, hcl, hslot, hphase]

theorem shResult_setSh (k : Nat) (y : Stagehand) (s : State) : shResult k y s (setSh k y s) :=
  ⟨shOf_setSh_self k y s, fun _ hn => shOf_setSh_of_ne y s hn, rfl⟩

/-- Settles O27: a SELFTEST entry is handed over, an entry of another partition waits for its clear, and every other start is
`startEntry`, whose block the read of clean memory gives. -/
theorem entryDispatch : Obligations.EntryDispatch := by
  unfold Obligations.EntryDispatch
  refine ⟨fun e le i o x s he hrole ho hidle hnext hclean => ?_, fun cl slot s hcl hslot hphase hclean => ?_,
    fun cl slot s hcl hslot hphase => ⟨_, partitionClearDone_stagehand hcl hslot hphase, shResult_setSh _ _ s⟩⟩
  · by_cases hkind : eKind x = 4
    · exact ⟨_, entryDispatch_selftest he hrole ho hidle hnext hkind, fun _ _ => rfl, rfl, rfl,
        fun _ => ⟨statusAt_setEntry_self i _ s, rfl, rfl⟩, fun h => absurd hkind h.1, fun h => absurd hkind h.1⟩
    by_cases hpart : (engOf s e).serv.lastPart = some (ePart x)
    · obtain ⟨hothers, hmem, hflies, -⟩ := entryDispatch_keeps (i := i) (x := x) (c := entryCtx s o x le) he hclean
      exact ⟨_, entryDispatch_of_same he hrole ho hidle hnext hclean hkind hpart, hothers, hmem, hflies, fun h => absurd h hkind,
        fun h => absurd hpart h.2, fun h => entryDispatch_started he hclean h.2.2⟩
    · obtain ⟨hothers, hmem, hflies, -⟩ := keepsBut_trans (keepsBut_entryBegun e i x s) (keepsBut_setEng e _ _)
      exact ⟨_, entryDispatch_of_other he hrole ho hidle hnext hclean hkind hpart, hothers, hmem, hflies, fun h => absurd h hkind,
        fun _ => ⟨statusAt_entryBegun e i x s, engOf_setEng_self _ _ _⟩, fun h => absurd h.2.1 hpart⟩
  · have he : 9 * cl + slot < 36 := by omega
    cases hrun : (engOf s (9 * cl + slot)).run with
    | none =>
      exact ⟨_, partitionClearDone_idle hcl hslot hphase hrun, fun _ hk => engOf_setEng_of_ne _ s hk, rfl,
        fun _ => engOf_setEng_self _ _ s, fun c hc => absurd (hc.symm.trans hrun) (Option.some_ne_none c)⟩
    | some c =>
      obtain ⟨hothers, hmem, -, -⟩ := keepsBut_trans (keepsBut_setEng (9 * cl + slot) (cleared (engOf s (9 * cl + slot))) s)
        (keepsBut_startEntry he hclean)
      refine ⟨_, partitionClearDone_starts hcl hslot hphase hrun hclean, hothers, hmem,
        fun h => absurd (hrun.symm.trans h) (Option.some_ne_none c), fun d hd hnone hblock => ?_⟩
      obtain rfl := Option.some.inj (hrun.symm.trans hd)
      exact partitionClearDone_started he hrun hnone hclean hblock

end Sys2Proof.Machine
end

section
/-! SUPPORT. What serving leaves alone: the rest of the state behind the operations on requests, replies, results, commit groups and
records, and behind the accesses to main memory. -/

namespace Sys2Proof.Machine

open Sys2Proof

/-! ### The rest of the state -/

/-- The counters of commits and of unit resets, and those of each engine's exceptions: no operation on requests raises them. -/
def ownCounter (a : Nat) : Bool := a = 0x90040 || a = 0xD0040 || (0x50000 ≤ a && a < 0x60000 && a % 0x400 = 8)

/-- The state without what operations on requests, replies, results, groups and records change. -/
def unserved (s : State) : State × (Nat → Word) :=
  ({ s with
      regs := [], free := 0, serve := .init, out := []
      mem := { Mem.init with bytes := s.mem.bytes, poison := s.mem.poison, flips := s.mem.flips, corrupt := s.mem.corrupt }
      board := { s.board with slots := [], ring := [], ringHead := 0, dropped := 0 }
      curtain := { s.curtain with results := [], nextId := 0 }
      net := { s.net with qps := [], rqps := [], msix := [] }
      pair := { s.pair with records := [], lseqTx := 0, dirty := [] }
      fault := { s.fault with fifo := [], lost := [] } },
    fun a => if ownCounter a then regW s a else 0)

/-- The state without what these change, nor the end of a step: where the entries of the running Beat stand. -/
def unended (s : State) : State × (Nat → Word) :=
  ({ (unserved s).1 with ro := { s.ro with status := [] } }, (unserved s).2)

/-- The state without what these and the accesses to main memory change. -/
def unstored (s : State) : State × (Nat → Word) :=
  ({ (unended s).1 with mem := .init, hbm := .init, fault := { (unended s).1.fault with fwPoison := false } }, (unended s).2)

theorem unended_of_unserved {s t : State} (h : unserved t = unserved s) : unended t = unended s := by
  have hro : t.ro = s.ro := congrArg (fun v => v.1.ro) h
  rw [unended, unended, h, hro]

theorem unstored_of_unended {s t : State} (h : unended t = unended s) : unstored t = unstored s := by rw [unstored, unstored, h]

theorem unstored_of_unserved {s t : State} (h : unserved t = unserved s) : unstored t = unstored s :=
  unstored_of_unended (unended_of_unserved h)

theorem regW_of_unstored {s t : State} (h : unstored t = unstored s) {a : Nat} (ha : ownCounter a = true) : regW t a = regW s a := by
  simpa [unstored, unended, unserved, ha] using congrFun (congrArg Prod.snd h) a

section
variable {s t : State}

theorem eng_of_unstored (h : unstored t = unstored s) : t.eng = s.eng := congrArg (fun v => v.1.eng) h
theorem sh_of_unstored (h : unstored t = unstored s) : t.sh = s.sh := congrArg (fun v => v.1.sh) h
theorem cue_of_unstored (h : unstored t = unstored s) : t.cue = s.cue := congrArg (fun v => v.1.cue) h
theorem flies_of_unstored (h : unstored t = unstored s) : t.flies = s.flies := congrArg (fun v => v.1.flies) h
theorem sec_of_unstored (h : unstored t = unstored s) : t.sec = s.sec := congrArg (fun v => v.1.sec) h
theorem houseRx_of_unstored (h : unstored t = unstored s) : t.net.houseRx = s.net.houseRx := congrArg (fun v => v.1.net.houseRx) h
theorem ro_of_unserved (h : unserved t = unserved s) : t.ro = s.ro := congrArg (fun v => v.1.ro) h
theorem bytes_of_unended (h : unended t = unended s) : t.mem.bytes = s.mem.bytes := congrArg (fun v => v.1.mem.bytes) h
theorem fwPoison_of_unended (h : unended t = unended s) : t.fault.fwPoison = s.fault.fwPoison := congrArg (fun v => v.1.fault.fwPoison) h

end

theorem engOf_of_unstored {s t : State} (h : unstored t = unstored s) (e : Nat) : engOf t e = engOf s e := by
  rw [engOf, engOf, eng_of_unstored h]

/-- What serving and the ends of steps change keeps the memory free of errors. -/
theorem cleanMem_of_unended {s t : State} (h : unended t = unended s) (hs : cleanMem s) : cleanMem t := by
  have hp : t.mem.poison = s.mem.poison := congrArg (fun v => v.1.mem.poison) h
  have hf : t.mem.flips = s.mem.flips := congrArg (fun v => v.1.mem.flips) h
  have hc : t.mem.corrupt = s.mem.corrupt := congrArg (fun v => v.1.mem.corrupt) h
  have hh : t.hbm = s.hbm := congrArg (fun v => v.1.hbm) h
  rw [cleanMem, hp, hf, hc, fwPoison_of_unended h, hh]
  exact hs

theorem unserved_foldl {α : Type} (f : State → α → State) (hf : ∀ t a, unserved (f t a) = unserved t) (xs : List α) (s : State) :
    unserved (xs.foldl f s) = unserved s := by
  induction xs generalizing s with
  | nil => rfl
  | cons x xs ih => rw [List.foldl_cons, ih, hf]

theorem unended_foldl {α : Type} (f : State → α → State) (hf : ∀ t a, unended (f t a) = unended t) (xs : List α) (s : State) :
    unended (xs.foldl f s) = unended s := by
  induction xs generalizing s with
  | nil => rfl
  | cons x xs ih => rw [List.foldl_cons, ih, hf]

theorem unstored_foldl {α : Type} (f : State → α → State) (hf : ∀ t a, unstored (f t a) = unstored t) (xs : List α) (s : State) :
    unstored (xs.foldl f s) = unstored s := by
  induction xs generalizing s with
  | nil => rfl
  | cons x xs ih => rw [List.foldl_cons, ih, hf]

theorem unserved_ite {p : Prop} [Decidable p] {s t u : State} (ht : unserved t = unserved s) (hu : unserved u = unserved s) :
    unserved (if p then t else u) = unserved s := by split <;> assumption

/-! ### Registers, records and the results' way out -/

theorem unserved_setReg {a : Nat} (ha : ownCounter a = false) (w : Word) (s : State) : unserved (setReg a w s) = unserved s := by
  refine Prod.ext rfl (funext fun b => ?_)
  by_cases hb : ownCounter b = true
  · have : b ≠ a := fun h => by simp [h, ha] at hb
    simp [unserved, hb, regW_setReg_of_ne w s this]
  · simp [unserved, hb]

theorem unserved_bump {a : Nat} (ha : ownCounter a = false) (s : State) : unserved (bump a s) = unserved s := unserved_setReg ha _ s

section
variable (s : State)

theorem unserved_withServe (v : Serve) : unserved { s with serve := v } = unserved s := rfl
theorem unserved_withBoard (slots : Tab Slot) (ring : Tab Word) (head : Word) (n : BitVec 16) :
    unserved { s with board := { s.board with slots := slots, ring := ring, ringHead := head, dropped := n } } = unserved s := rfl
theorem unserved_withNet (qps : Tab QPair) (rqps : Tab (Option Rqp)) (msix : Tab Bool) :
    unserved { s with net := { s.net with qps := qps, rqps := rqps, msix := msix } } = unserved s := rfl
theorem unserved_withPair (rs : List (DWord × List Byte)) (n : DWord) (fs : List Nat) :
    unserved { s with pair := { s.pair with records := rs, lseqTx := n, dirty := fs } } = unserved s := rfl
theorem unended_withStatus (t : Tab EntryStatus) : unended { s with ro := { s.ro with status := t } } = unended s := rfl
theorem unserved_withMem (m : Mem) : unserved { s with mem := { m with
    bytes := s.mem.bytes, poison := s.mem.poison, flips := s.mem.flips, corrupt := s.mem.corrupt } } = unserved s := rfl

end

@[simp] theorem unserved_drawn (s : State) : unserved (drawn s) = unserved s := rfl
@[simp] theorem unserved_emit (m : OutMsg) (s : State) : unserved (emit m s) = unserved s := rfl
@[simp] theorem unserved_setQp (fn k : Nat) (q : QPair) (s : State) : unserved (setQp fn k q s) = unserved s := unserved_withNet s _ _ _
@[simp] theorem unserved_setRqp (q : Nat) (x : Option Rqp) (s : State) : unserved (setRqp q x s) = unserved s := unserved_withNet s _ _ _
@[simp] theorem unserved_setSlot (i : Nat) (x : Slot) (s : State) : unserved (setSlot i x s) = unserved s := unserved_withBoard s _ _ _ _
@[simp] theorem unserved_setReq (i : Nat) (r : Option Request) (s : State) : unserved (setReq i r s) = unserved s := unserved_withServe s _
@[simp] theorem unended_setEntry (i : Nat) (x : EntryStatus) (s : State) : unended (setEntry i x s) = unended s := unended_withStatus s _
@[simp] theorem unserved_bumpServe (p k : Nat) (s : State) : unserved (bumpServe p k s) = unserved s := unserved_withServe s _
@[simp] theorem unserved_setFrame (f : Nat) (x : Frame) (s : State) : unserved (setFrame f x s) = unserved s := unserved_withMem s (setFrame f x s).mem
@[simp] theorem unserved_setPt (space level va : Nat) (w : DWord) (s : State) : unserved (setPt space level va w s) = unserved s := unserved_withMem s (setPt space level va w s).mem
@[simp] theorem unserved_dropCached (space lo hi : Nat) (s : State) : unserved (dropCached space lo hi s) = unserved s := unserved_withMem s (dropCached space lo hi s).mem
@[simp] theorem unserved_addRecord (b j : DWord) (k st q : Nat) (bs : List Byte) (s : State) :
    unserved (addRecord b j k st q bs s) = unserved s := unserved_withPair s _ _ _
@[simp] theorem unserved_ringWrite (e : Nat) (st : Status) (p : Nat) (w : Bool) (n q r : Nat) (s : State) :
    unserved (ringWrite e st p w n q r s) = unserved s := unserved_withBoard s _ _ _ _
@[simp] theorem unserved_modGroup (part step : Nat) (f : Group → Group) (s : State) :
    unserved (modGroup part step f s) = unserved s := unserved_withServe s _
@[simp] theorem unserved_stepBroken (part step unit : Nat) (fatal : Option Status) (s : State) :
    unserved (stepBroken part step unit fatal s) = unserved s := unserved_withServe s _
@[simp] theorem unserved_dropStepJobs (part step : Nat) (s : State) : unserved (dropStepJobs part step s) = unserved s := unserved_withServe s _
@[simp] theorem unserved_sendPair (kind part : Nat) (body : List Byte) (s : State) : unserved (sendPair kind part body s) = unserved s := unserved_withPair s _ _ _
@[simp] theorem unserved_sendFields (kind part : Nat) (xs : List Nat) (s : State) : unserved (sendFields kind part xs s) = unserved s := unserved_sendPair _ _ _ s

@[simp] theorem unserved_logEvent (v : FaultEvent) (s : State) : unserved (logEvent v s) = unserved s := by
  rw [logEvent]
  exact unserved_ite rfl (unserved_bump (a := 0xD0054) rfl _)

@[simp] theorem unserved_sendVerdict (g : Group) (b : Bool) (s : State) : unserved (sendVerdict g b s) = unserved s :=
  unserved_ite (unserved_sendFields _ _ _ s) rfl

@[simp] theorem unserved_dropResult (id : Nat) (s : State) : unserved (dropResult id s) = unserved s := by
  rw [dropResult]
  split
  · rfl
  · rw [unserved_ringWrite]
    rfl

theorem ownCounter_resDropCnt (slice : Nat) : ownCounter (resDropCnt slice) = false := by
  rw [resDropCnt, Bool.eq_false_iff]
  intro h
  simp [ownCounter] at h
  omega

@[simp] theorem unserved_dropAtPort (slice : Nat) (ev : OutEvent) (s : State) : unserved (dropAtPort slice ev s) = unserved s := by
  cases ev with
  | result id => exact (unserved_dropResult id _).trans (unserved_bump (ownCounter_resDropCnt slice) s)
  | _ => rfl

@[simp] theorem unserved_queueEvent (fn k : Nat) (ev : OutEvent) (s : State) : unserved (queueEvent fn k ev s) = unserved s :=
  unserved_ite rfl (unserved_dropAtPort _ _ _)

@[simp] theorem unserved_queueRoce (q : Nat) (ev : OutEvent) (s : State) : unserved (queueRoce q ev s) = unserved s := by
  rw [queueRoce]
  split
  · exact unserved_dropAtPort _ _ _
  · exact unserved_ite rfl (unserved_dropAtPort _ _ _)

@[simp] theorem unserved_sendEvent (r : Route) (ev : OutEvent) (s : State) : unserved (sendEvent r ev s) = unserved s := by
  cases r with
  | pcie fn k cid => exact unserved_queueEvent _ _ _ s
  | roce q => exact unserved_queueRoce _ _ s
  | internal => rfl

@[simp] theorem unserved_slotTo (i : Nat) (st : SlotState) (status : Status) (s : State) : unserved (slotTo i st status s) = unserved s := by
  simp only [slotTo]
  split
  · rfl
  · exact unserved_ite (unserved_queueEvent _ _ _ _) rfl

/-! ### The end of a request -/

theorem ownCounter_flowCnt (p : Nat) : ownCounter (0x3020C + 0x20 * p) = false := by
  rw [Bool.eq_false_iff]
  intro h
  simp [ownCounter] at h
  omega

@[simp] theorem unserved_endRequest (i : Nat) (done : Bool) (status : Status) (unit : BitVec 16) (s : State) :
    unserved (endRequest i done status unit s) = unserved s := by
  simp only [endRequest]
  split
  · rfl
  · refine unserved_ite rfl ?_
    rw [unserved_foldl _ fun t k => unserved_slotTo k _ _ t]
    refine (unserved_ite (unserved_bump (a := 0x90048) rfl _) rfl).trans
      ((unserved_ite (unserved_bump (ownCounter_flowCnt _) _) rfl).trans ?_)
    rw [unserved_bumpServe, unserved_ringWrite, unserved_setReq]

@[simp] theorem unserved_failRequests (p : Request → Bool) (status : Status) (unit : BitVec 16) (s : State) :
    unserved (failRequests p status unit s) = unserved s := unserved_foldl _ (fun t i => unserved_endRequest i _ _ _ t) _ _

@[simp] theorem unserved_settlePause (i : Nat) (s : State) : unserved (settlePause i s) = unserved s := by
  rw [settlePause]
  split
  · rfl
  · exact unserved_ite rfl rfl

/-! ### Frames, journals and trees -/

@[simp] theorem unserved_lowerFrame (f : Nat) (s : State) : unserved (lowerFrame f s) = unserved s := unserved_ite rfl rfl

@[simp] theorem unserved_dropNodes (part : Nat) (p : Nat → Node → Bool) (s : State) : unserved (dropNodes part p s) = unserved s :=
  unserved_foldl _ (fun t f => unserved_lowerFrame f t) _ _

@[simp] theorem unserved_dropJournal (part step : Nat) (s : State) : unserved (dropJournal part step s) = unserved s := by
  rw [dropJournal]
  split
  · rfl
  · exact unserved_foldl (fun t f => freeFrame f t) (fun _ _ => rfl) _ s

@[simp] theorem unserved_journalRollback (part step : Nat) (s : State) : unserved (journalRollback part step s) = unserved s := by
  rw [journalRollback]
  split
  · rfl
  · rw [unserved_dropJournal, bumpBy, unserved_setReg (a := 0x70048) rfl]
    refine unserved_foldl _ (fun t e => ?_) _ s
    rw [unserved_dropCached, freeFrame, unserved_setFrame, unserved_setPt]

@[simp] theorem unserved_journalCommit (part step : Nat) (s : State) : unserved (journalCommit part step s) = unserved s := by
  rw [journalCommit]
  split
  · rfl
  · rw [unserved_dropJournal]
    refine unserved_foldl _ (fun t e => ?_) _ s
    have hpt := unserved_setPt part 3 e.va (ptOf t part 3 e.va ||| 0xFFFF#64) t
    exact unserved_ite hpt ((unserved_lowerFrame _ _).trans hpt)

/-! ### Steps that do not commit -/

@[simp] theorem unserved_logVoid (part step req index le unit : Nat) (s : State) :
    unserved (logVoid part step req index le unit s) = unserved s := by
  rw [logVoid, unserved_bump (a := 0x10050) rfl, unserved_logEvent, unserved_drawn]

theorem unended_ite {p : Prop} [Decidable p] {s t u : State} (ht : unended t = unended s) (hu : unended u = unended s) :
    unended (if p then t else u) = unended s := by split <;> assumption

@[simp] theorem unended_voidEntry (i : Nat) (e : Entry) (s : State) : unended (voidEntry i e s) = unended s := by
  rw [voidEntry, unended_setEntry, unended_of_unserved (unserved_logVoid _ _ _ _ _ _ s)]

@[simp] theorem unended_voidWhere (p : Nat → Entry → Bool) (s : State) : unended (voidWhere p s) = unended s := by
  refine unended_foldl _ (fun t q => ?_) _ s
  split
  · rw [unended_of_unserved (unserved_stepBroken _ _ _ _ _), unended_voidEntry]
  · rfl

/-- A group off the groups in flight, with its jobs, before its entries are voided. -/
def ungrouped (g : Group) (s : State) : State :=
  let s := dropStepJobs g.plan.part g.plan.stepId.toNat (sendVerdict g false s)
  { s with serve := { s.serve with groups := s.serve.groups.filter fun x => x ≠ g } }

/-- The entries of a group that have not started are voided without a record. -/
def voidGroup (g : Group) (t : State) (q : Nat × Entry) : State :=
  if isQueued t q.1 && ePart q.2 = g.plan.part && eStep q.2 = g.plan.stepId.toNat && eKind q.2 ≠ 4 && eKind q.2 ≠ 1
  then setEntry q.1 .voided t else t

theorem dropGroup_eq (g : Group) (s : State) : dropGroup g s = if g.beat = (ungrouped g s).beat.num then
    (runEntries (ungrouped g s)).foldl (voidGroup g) (ungrouped g s) else ungrouped g s := rfl

@[simp] theorem unserved_ungrouped (g : Group) (s : State) : unserved (ungrouped g s) = unserved s := by
  have : unserved (dropStepJobs g.plan.part g.plan.stepId.toNat (sendVerdict g false s)) = unserved s := by
    rw [unserved_dropStepJobs, unserved_sendVerdict]
  exact this

@[simp] theorem unended_dropGroup (g : Group) (s : State) : unended (dropGroup g s) = unended s := by
  rw [dropGroup_eq, ← unended_of_unserved (unserved_ungrouped g s)]
  exact unended_ite (unended_foldl _ (fun t q => unended_ite (unended_setEntry _ _ t) rfl) _ _) rfl

@[simp] theorem unserved_failOne (g : Group) (i : Nat) (s : State) : unserved (failOne g i s) = unserved s := by
  simp only [failOne]
  split
  · rfl
  · refine unserved_ite rfl (unserved_ite (unserved_endRequest _ _ _ _ s) ?_)
    split
    · exact unserved_endRequest _ _ _ _ s
    · refine unserved_ite (unserved_endRequest _ _ _ _ s) ?_
      rw [unserved_settlePause, unserved_foldl _ fun t k => unserved_slotTo k _ _ t, unserved_bump (a := 0x90044) rfl]
      rfl

@[simp] theorem unended_failStep (g : Group) (s : State) : unended (failStep g s) = unended s := by
  rw [failStep, unended_of_unserved (unserved_foldl _ (fun t i => unserved_failOne g i t) _ _), unended_dropGroup,
    unended_of_unserved (unserved_journalRollback _ _ s)]

@[simp] theorem unended_resolveStep (part step : Nat) (s : State) : unended (resolveStep part step s) = unended s := by
  rw [resolveStep]
  split
  · rfl
  · exact unended_ite (unended_failStep _ s) rfl

@[simp] theorem unended_resolveSteps (s : State) : unended (resolveSteps s) = unended s :=
  unended_foldl _ (fun t _ => unended_resolveStep _ _ t) _ s

/-! ### Entries that have started -/

theorem statusAt_setEntry_of_ne {i k : Nat} (x : EntryStatus) (s : State) (h : i ≠ k) : statusAt (setEntry k x s) i = statusAt s i :=
  tabGet_set_of_ne EntryStatus.queued s.ro.status x h

theorem statusAt_foldl_voidGroup {g : Group} {i : Nat} (qs : List (Nat × Entry)) (s : State) (h : statusAt s i ≠ .queued) :
    statusAt (qs.foldl (voidGroup g) s) i = statusAt s i := by
  induction qs generalizing s with
  | nil => rfl
  | cons q qs ih =>
    have hq : statusAt (voidGroup g s q) i = statusAt s i := by
      rw [voidGroup]
      split
      · next hcond =>
        simp only [Bool.and_eq_true, isQueued, decide_eq_true_eq] at hcond
        have hne : i ≠ q.1 := fun hi => h (hi ▸ hcond.1.1.1.1)
        exact statusAt_setEntry_of_ne _ s hne
      · rfl
    rw [List.foldl_cons, ih _ (hq ▸ h), hq]

/-- An entry that has started stays as it stands when a step ends without a commit. -/
theorem statusAt_resolveStep (part step : Nat) {i : Nat} {s : State} (h : statusAt s i ≠ .queued) :
    statusAt (resolveStep part step s) i = statusAt s i := by
  have hgroup (g : Group) (t : State) (ht : statusAt t i ≠ .queued) : statusAt (dropGroup g t) i = statusAt t i := by
    have hu : statusAt (ungrouped g t) i = statusAt t i := by rw [statusAt, ro_of_unserved (unserved_ungrouped g t), statusAt]
    rw [dropGroup_eq]
    split
    · rw [statusAt_foldl_voidGroup _ _ (hu ▸ ht), hu]
    · exact hu
  rw [resolveStep]
  split
  · rfl
  · split
    · next g _ _ =>
      have hj : statusAt (journalRollback g.plan.part g.plan.stepId.toNat s) i = statusAt s i := by
        rw [statusAt, ro_of_unserved (unserved_journalRollback _ _ s), statusAt]
      rw [failStep, statusAt, ro_of_unserved (unserved_foldl _ (fun t i => unserved_failOne g i t) _ _), ← statusAt, hgroup g _ (hj ▸ h), hj]
    · rfl

/-! ### Messages to the members of a head-spread set -/

@[simp] theorem unserved_roceOut (qpn : Nat) (q : Rqp) (kind stream : Nat) (job seq beat : DWord) (plain : List Byte) (size : Nat)
    (s : State) : unserved (roceOut qpn q kind stream job seq beat plain size s) = unserved s := by
  rw [roceOut]
  split <;> rfl

@[simp] theorem unserved_drainRoce (qpn fuel : Nat) (s : State) : unserved (drainRoce qpn fuel s) = unserved s := by
  induction fuel generalizing s with
  | zero => rfl
  | succ fuel ih =>
    rw [drainRoce]
    split
    · rfl
    · refine unserved_ite rfl ?_
      split <;> simp [ih]

@[simp] theorem unserved_sendMember (x : SpreadRec) (k kind : Nat) (job seq : DWord) (plain : List Byte) (s : State) :
    unserved (sendMember x k kind job seq plain s) = unserved s := by simp [sendMember]

@[simp] theorem unserved_contribute (x : SpreadRec) (req layer : Nat) (bytes : List Byte) (s : State) :
    unserved (contribute x req layer bytes s) = unserved s := by
  simp only [contribute]
  split
  · rfl
  · refine unserved_ite rfl ?_
    rw [toMembers, unserved_foldl _ fun t k => unserved_sendMember _ _ _ _ _ _ t, unserved_setReq]

@[simp] theorem unserved_entryContribs (reqs : List Nat) (s : State) : unserved (entryContribs reqs s) = unserved s := by
  refine unserved_foldl _ (fun t i => ?_) _ s
  split
  · rfl
  · split
    · rfl
    · exact unserved_ite (unserved_contribute _ _ _ _ _) rfl

end Sys2Proof.Machine
end

section
/-! SUPPORT. What reads and writes of main memory leave alone, whatever errors they meet. -/

namespace Sys2Proof.Machine

open Sys2Proof

theorem unstored_ite {p : Prop} [Decidable p] {s t u : State} (ht : unstored t = unstored s) (hu : unstored u = unstored s) :
    unstored (if p then t else u) = unstored s := by split <;> assumption

section
variable (s : State)

theorem unstored_withMem (m : Mem) : unstored { s with mem := m } = unstored s := rfl
theorem unstored_withHbm (h : Hbm) : unstored { s with hbm := h } = unstored s := rfl
theorem unstored_withServe (v : Serve) : unstored { s with serve := v } = unstored s := rfl
theorem unstored_withDirty (fs : List Nat) : unstored { s with pair := { s.pair with dirty := fs } } = unstored s := rfl
theorem unstored_withFwPoison (b : Bool) : unstored { s with fault := { s.fault with fwPoison := b } } = unstored s := rfl

end

@[simp] theorem unstored_drawn (s : State) : unstored (drawn s) = unstored s := rfl
@[simp] theorem unstored_modGroup (part step : Nat) (f : Group → Group) (s : State) : unstored (modGroup part step f s) = unstored s := rfl
@[simp] theorem unstored_stepBroken (part step unit : Nat) (fatal : Option Status) (s : State) :
    unstored (stepBroken part step unit fatal s) = unstored s := rfl

theorem unstored_bump {a : Nat} (ha : ownCounter a = false) (s : State) : unstored (bump a s) = unstored s :=
  unstored_of_unserved (unserved_bump ha s)

@[simp] theorem unstored_logEvent (v : FaultEvent) (s : State) : unstored (logEvent v s) = unstored s :=
  unstored_of_unserved (unserved_logEvent v s)

@[simp] theorem unstored_endRequest (i : Nat) (done : Bool) (status : Status) (unit : BitVec 16) (s : State) :
    unstored (endRequest i done status unit s) = unstored s := unstored_of_unserved (unserved_endRequest _ _ _ _ s)

@[simp] theorem unstored_resolveStep (part step : Nat) (s : State) : unstored (resolveStep part step s) = unstored s :=
  unstored_of_unended (unended_resolveStep _ _ s)

@[simp] theorem unstored_resolveSteps (s : State) : unstored (resolveSteps s) = unstored s :=
  unstored_of_unended (unended_resolveSteps s)

@[simp] theorem unstored_voidWhere (p : Nat → Entry → Bool) (s : State) : unstored (voidWhere p s) = unstored s :=
  unstored_of_unended (unended_voidWhere p s)

/-! ### Errors of granules (R302 to R304) -/

@[simp] theorem unstored_poisonAction (f m : Nat) (s : State) : unstored (poisonAction f m s) = unstored s := by
  rw [poisonAction]
  split
  · exact unstored_withFwPoison s true
  · rw [unstored_of_unserved (unserved_failRequests _ _ _ _), unstored_withServe,
      unstored_of_unserved (unserved_foldl _ (fun t p => unserved_dropNodes p _ t) _ _), unstored_foldl]
    intro t q
    split
    · exact unstored_ite (unstored_endRequest _ _ _ _ t) rfl
    · rfl

@[simp] theorem unstored_trigger (m pc : Nat) (s : State) : unstored (trigger m pc s) = unstored s :=
  unstored_ite (unstored_withHbm s _) rfl

@[simp] theorem unstored_countCe (m pc : Nat) (s : State) : unstored (countCe m pc s) = unstored s :=
  unstored_ite ((unstored_trigger m pc _).trans (unstored_withHbm s _)) (unstored_withHbm s _)

@[simp] theorem unstored_parityDone (m : Nat) (s : State) : unstored (parityDone m s) = unstored s :=
  unstored_ite rfl (unstored_withHbm s _)

theorem ownCounter_errorCnt {k : Nat} (hk : k = 8 ∨ k = 12) (m : Nat) : ownCounter (0x80100 + k + 0x80 * m) = false := by
  rw [Bool.eq_false_iff]
  intro h
  simp [ownCounter] at h
  omega

@[simp] theorem unstored_poisonFound (c : MemCtx) (g : Nat) (s : State) : unstored (poisonFound c g s) = unstored s := by
  rw [poisonFound, unstored_poisonAction]
  have hcnt := unstored_bump (ownCounter_errorCnt (.inr rfl) (paStack (64 * g)))
    { s with mem := { s.mem with poison := tabSet false s.mem.poison g true } }
  split
  · rw [unstored_logEvent, unstored_drawn]
    exact hcnt
  · rw [unstored_stepBroken, unstored_logEvent, unstored_drawn]
    exact hcnt

@[simp] theorem unstored_granuleTaken (ecc : Ecc) (g : Nat) (s : State) : unstored (granuleTaken ecc g s) = unstored s := by
  have hwrong (p : Bool) : unstored (if p then { s with mem := { s.mem with corrupt := tabSet false s.mem.corrupt g true } } else s) =
      unstored s := unstored_ite (unstored_withMem s _) rfl
  rw [granuleTaken]
  refine unstored_ite ?_ (hwrong _)
  rw [unstored_countCe]
  exact (unstored_bump (ownCounter_errorCnt (.inl rfl) (paStack (64 * g))) _).trans (hwrong _)

@[simp] theorem unstored_readGranule (c : MemCtx) (g : Nat) (s : State) : unstored (readGranule c g s).1 = unstored s := by
  have hpar : unstored (parityDone (paStack (64 * g)) { s with mem := { s.mem with flips := tabSet [] s.mem.flips g [] } }) = unstored s :=
    (unstored_parityDone _ _).trans (unstored_withMem s _)
  rw [readGranule]
  split
  · rw [unstored_poisonFound, hpar]
  · rw [unstored_granuleTaken, hpar]

@[simp] theorem unstored_readGranules (c : MemCtx) (pa n : Nat) (s : State) : unstored (readGranules c pa n s).1 = unstored s := by
  rw [readGranules]
  generalize List.range ((pa + n + 63) / 64 - pa / 64) = is
  suffices h : ∀ (r : State × Bool), unstored (is.foldl (fun t i =>
      let r := readGranule c (pa / 64 + i) t.1
      (r.1, t.2 || r.2)) r).1 = unstored r.1 from h (s, false)
  induction is with
  | nil => exact fun _ => rfl
  | cons i is ih => exact fun r => (ih _).trans (unstored_readGranule _ _ _)

/-! ### Writes -/

@[simp] theorem unstored_markDirty (f : Nat) (s : State) : unstored (markDirty f s) = unstored s :=
  unstored_ite (unstored_withDirty s _) rfl

@[simp] theorem unstored_physWrite (pa : Nat) (bs : List Byte) (s : State) : unstored (physWrite pa bs s) = unstored s :=
  (unstored_withMem _ _).trans (unstored_ite rfl (unstored_markDirty _ s))

@[simp] theorem unstored_mergeGranule (c : MemCtx) (pa : Nat) (bs : List Byte) (s : State) :
    unstored (mergeGranule c pa bs s).1 = unstored s := by
  rw [mergeGranule]
  split
  · exact unstored_readGranule _ _ s
  · rw [unstored_withMem, unstored_markDirty, unstored_readGranule]

/-- A part of a store: the merge of a granule that is written in part. -/
def storePart (c : MemCtx) (a : Nat) (xs : List Byte) (r : State × Bool) : State × Bool :=
  if xs = [] then r else ((mergeGranule c a xs r.1).1, r.2 || (mergeGranule c a xs r.1).2)

theorem unstored_storePart (c : MemCtx) (a : Nat) (xs : List Byte) (r : State × Bool) :
    unstored (storePart c a xs r).1 = unstored r.1 := by
  rw [storePart]
  split
  · rfl
  · exact unstored_mergeGranule _ _ _ _

/-- A store is a part, whole granules and a part. -/
theorem storePhys_eq (c : MemCtx) (pa : Nat) (bs : List Byte) (s : State) :
    let head := if pa % 64 = 0 then 0 else min (64 - pa % 64) bs.length
    let mid := (bs.length - head) / 64 * 64
    let r := storePart c pa (bs.take head) (s, false)
    storePhys c pa bs s = storePart c (pa + head + mid) (bs.drop (head + mid))
      (physWrite (pa + head) ((bs.drop head).take mid) r.1, r.2) := rfl

@[simp] theorem unstored_storePhys (c : MemCtx) (pa : Nat) (bs : List Byte) (s : State) : unstored (storePhys c pa bs s).1 = unstored s := by
  rw [storePhys_eq, unstored_storePart, unstored_physWrite, unstored_storePart]

@[simp] theorem unstored_noteUndo (c : MemCtx) (va pa n : Nat) (s : State) : unstored (noteUndo c va pa n s) = unstored s := by
  rw [noteUndo]
  split
  all_goals exact unstored_ite rfl (unstored_modGroup _ _ _ s)

/-- One page of a store. -/
def dvStorePiece (c : MemCtx) (r : (State × Bool) × List Byte) (p : Nat × Nat) : (State × Bool) × List Byte :=
  match walkFor r.1.1 c true p.1 with
  | .ok pa =>
    let q := storePhys c pa (r.2.take p.2) (noteUndo c p.1 pa p.2 r.1.1)
    ((q.1, r.1.2 || q.2), r.2.drop p.2)
  | _ => (r.1, r.2.drop p.2)

theorem unstored_dvStorePiece (c : MemCtx) (r : (State × Bool) × List Byte) (p : Nat × Nat) :
    unstored (dvStorePiece c r p).1.1 = unstored r.1.1 := by
  rw [dvStorePiece]
  split
  · rw [unstored_storePhys, unstored_noteUndo]
  · rfl

@[simp] theorem unstored_dvStore (c : MemCtx) (va : Nat) (bs : List Byte) (s : State) : unstored (dvStore c va bs s) = unstored s := by
  have hfold : ∀ (ps : List (Nat × Nat)) (r : (State × Bool) × List Byte),
      unstored (ps.foldl (dvStorePiece c) r).1.1 = unstored r.1.1 := by
    intro ps
    induction ps with
    | nil => exact fun _ => rfl
    | cons p ps ih => exact fun r => (ih _).trans (unstored_dvStorePiece c r p)
  exact hfold (pagePieces va bs.length) ((s, false), bs)

/-! ### Reads, look-ups and drains -/

@[simp] theorem unstored_dvRead (c : MemCtx) (va n : Nat) (s : State) : unstored (dvRead c va n s).st = unstored s := by
  cases hf : rangeFault s c false va n with
  | some e => simp only [dvRead, hf]; exact unstored_bump (a := 0x70040) rfl s
  | none =>
    have hpiece (r : DvRead) (p : Nat × Nat) : unstored (dvReadPiece c r p).st = unstored r.st := by
      rw [dvReadPiece]
      split
      · exact unstored_readGranules _ _ _ _
      · rfl
    have hfold : ∀ (ps : List (Nat × Nat)) (r : DvRead), unstored (ps.foldl (dvReadPiece c) r).st = unstored r.st := by
      intro ps
      induction ps with
      | nil => exact fun _ => rfl
      | cons p ps ih => exact fun r => (ih _).trans (hpiece r p)
    rw [dvRead_of_rangeFault_none hf]
    exact hfold _ _

@[simp] theorem unstored_acceptStores (u : Nat) (c : EntryCtx) (n : Nat) (ts : List Xfer) (s : State) :
    unstored (acceptStores u c n ts s) = unstored s := by
  induction ts generalizing n s with
  | nil => rfl
  | cons t ts ih =>
    rw [acceptStores]
    have hrows : ∀ (rs : List (Nat × Nat × Nat)) (s : State), unstored (rs.foldl (fun q r =>
        dvStore { xferMem u c with held := t.held } r.1 (unitLmRead q u r.2.1 r.2.2) q) s) = unstored s :=
      unstored_foldl _ fun q r => unstored_dvStore _ _ _ q
    exact unstored_ite (hrows _ s) ((ih _ _).trans (hrows _ s))

@[simp] theorem unstored_drainXfers (u : Nat) (s : State) : unstored (drainXfers u s) = unstored s := by
  rw [drainXfers]
  split
  · rfl
  · exact unstored_ite rfl ((unstored_drawn _).trans (unstored_acceptStores _ _ _ _ s))

end Sys2Proof.Machine
end

section
/-! SUPPORT. The ends of an entry: its signals, its hang, its drain and the reset of its engine, and the statement about them. -/

namespace Sys2Proof.Machine

open Sys2Proof

/-! ### What an engine gives back (R26, R98, R259) -/

/-- An engine whose entry `c` has ended. -/
def ended (x : Engine) (c : EntryCtx) : Engine :=
  { x with
    phase := .idle, run := none, xq := [], wait := none, deferred := [], helpers := 0, cut := false, uncleared := false
    serv := { x.serv with
      lastPart := if x.phase = .clearing || (x.phase = .draining && x.uncleared) then none else some c.part } }

/-- An engine has been given back; the charge of its run, its helper jobs and its window follow. -/
theorem endRun_eq {e : Nat} {c : EntryCtx} {s : State} (h : (engOf s e).run = some c) :
    endRun e s = leaveWindow c (dropHelpers c (if (engOf s e).cut then setEng e (ended (engOf s e) c) s
      else chargeRun e c (setEng e (ended (engOf s e) c) s))) := by
  unfold endRun
  dsimp only
  split
  · next hnone => simp [h] at hnone
  · next d hd =>
    obtain rfl : d = c := by simpa [h] using hd.symm
    rfl

/-- What follows the end of a run changes Stagehands, the energy account, the occupied windows and the Walk-on sets alone. -/
theorem leaveWindow_frame (c : EntryCtx) (s : State) : ∃ occ sets, leaveWindow c s =
    { s with ro := { s.ro with occupied := occ }, flies := { s.flies with sets := sets } } := by
  unfold leaveWindow
  split
  · exact ⟨s.ro.occupied, s.flies.sets, rfl⟩
  · exact ⟨_, _, rfl⟩

theorem endRun_frame {e : Nat} {c : EntryCtx} {s : State} (h : (engOf s e).run = some c) : ∃ sh ran occ sets,
    endRun e s = { setEng e (ended (engOf s e) c) s with
      sh := sh, energy := { s.energy with ran := ran }, ro := { s.ro with occupied := occ }, flies := { s.flies with sets := sets } } := by
  rw [endRun_eq h]
  obtain ⟨occ, sets, hw⟩ := leaveWindow_frame c (dropHelpers c (if (engOf s e).cut then setEng e (ended (engOf s e) c) s
    else chargeRun e c (setEng e (ended (engOf s e) c) s)))
  rw [hw]
  cases (engOf s e).cut
  · exact ⟨_, _, occ, sets, rfl⟩
  · exact ⟨_, s.energy.ran, occ, sets, rfl⟩

theorem engOf_endRun_self {e : Nat} {c : EntryCtx} {s : State} (h : (engOf s e).run = some c) :
    engOf (endRun e s) e = ended (engOf s e) c := by
  obtain ⟨sh, ran, occ, sets, hend⟩ := endRun_frame h
  rw [hend]
  exact engOf_setEng_self e (ended (engOf s e) c) s

theorem engOf_endRun_of_ne {e k : Nat} {c : EntryCtx} {s : State} (h : (engOf s e).run = some c) (hk : k ≠ e) :
    engOf (endRun e s) k = engOf s k := by
  obtain ⟨sh, ran, occ, sets, hend⟩ := endRun_frame h
  rw [hend]
  exact engOf_setEng_of_ne (ended (engOf s e) c) s hk

/-! ### Retirement (R139, R59) -/

/-- A signal adds to its Cue Light, and writes a record where it saturates. -/
theorem unserved_cueSigHw (i n : Nat) (ctx : DWord) (o : Byte) (s : State) :
    unserved (cueSigHw i n ctx o s) = unserved (setCue i (lightAfter (cueOf s i) n) s) := by
  have hadd : unserved (cueAdd i n s) = unserved (setCue i (lightAfter (cueOf s i) n) s) := by
    by_cases h : 65535 < (cueOf s i).count + n
    · simp only [cueAdd, cueSaturates, lightAfter, h, decide_true, if_true]
      exact unserved_bump (a := 0x40040) rfl _
    · simp [cueAdd, cueSaturates, lightAfter, h]
  simp only [cueSigHw]
  refine (unserved_ite ?_ hadd)
  rw [unserved_logEvent, unserved_drawn, hadd]

/-- A Cue Light after the signals of an entry. -/
def lit (sigs : List (Nat × Nat)) (i : Nat) (q : CueLight) : CueLight :=
  sigs.foldl (fun q p => if p.1 = i ∧ p.2 ≠ 0 then lightAfter q p.2 else q) q

/-- One signal of an entry that ends. -/
def signal (c : EntryCtx) (t : State) (p : Nat × Nat) : State := if p.2 = 0 then t else cueSigHw p.1 p.2 (ctxOf c) (originOf 0 false) t

theorem cueOf_signal (c : EntryCtx) (s : State) (p : Nat × Nat) (i : Nat) :
    cueOf (signal c s p) i = if p.1 = i ∧ p.2 ≠ 0 then lightAfter (cueOf s i) p.2 else cueOf s i := by
  by_cases h0 : p.2 = 0
  · simp [signal, h0]
  have hcue : (signal c s p).cue = (setCue p.1 (lightAfter (cueOf s p.1) p.2) s).cue := by
    rw [signal, if_neg h0]
    exact cue_of_unstored (unstored_of_unserved (unserved_cueSigHw _ _ _ _ s))
  rw [cueOf, hcue, ← cueOf]
  by_cases hi : p.1 = i
  · rw [hi, cueOf_setCue_self, if_pos ⟨rfl, h0⟩]
  · rw [cueOf_setCue_of_ne _ _ (Ne.symm hi), if_neg (fun h => hi h.1)]

theorem cueOf_signals (c : EntryCtx) (sigs : List (Nat × Nat)) (s : State) (i : Nat) :
    cueOf (sigs.foldl (signal c) s) i = lit sigs i (cueOf s i) := by
  induction sigs generalizing s with
  | nil => rfl
  | cons p sigs ih => rw [List.foldl_cons, ih, cueOf_signal, lit, lit, List.foldl_cons]

theorem signals_keep (c : EntryCtx) (sigs : List (Nat × Nat)) (s : State) :
    (sigs.foldl (signal c) s).eng = s.eng ∧ (sigs.foldl (signal c) s).ro = s.ro := by
  induction sigs generalizing s with
  | nil => exact ⟨rfl, rfl⟩
  | cons p sigs ih =>
    obtain ⟨heng, hro⟩ := ih (signal c s p)
    have hp : (signal c s p).eng = s.eng ∧ (signal c s p).ro = s.ro := by
      rw [signal]
      split
      · exact ⟨rfl, rfl⟩
      · have h := unserved_cueSigHw p.1 p.2 (ctxOf c) (originOf 0 false) s
        exact ⟨(eng_of_unstored (unstored_of_unserved h)).trans rfl, (ro_of_unserved h).trans rfl⟩
    exact ⟨heng.trans hp.1, hro.trans hp.2⟩

/-- The least slack of the Beat's entries, at the end of one (R642). -/
def slackNoted (c : EntryCtx) (s : State) : State :=
  if c.kind = 0 && c.slot.isNone then
    { s with pair := { s.pair with slackRun := min s.pair.slackRun (c.deadlineUs - s.beat.phaseUs) } } else s

/-- The signals of an entry have been added. -/
def signalsAdded (c : EntryCtx) (s : State) : State := c.sigs.foldl (signal c) (slackNoted c s)

/-- An entry has retired and has sent its contributions. -/
def retiredEntry (e : Nat) (c : EntryCtx) (s : State) : State :=
  let s := if c.slot.isNone then setEntry c.index .retired s else s
  let s := if c.slot.isNone then entryContribs (stepReqs s c.part c.stepId) s else s
  bump (0x5000C + 0x400 * e) s

theorem retire_eq (e : Nat) (c : EntryCtx) (s : State) : retire e c s = endRun e (retiredEntry e c (signalsAdded c s)) := rfl

theorem ownCounter_entryCnt (e : Nat) : ownCounter (0x5000C + 0x400 * e) = false := by
  rw [Bool.eq_false_iff]
  intro h
  simp [ownCounter] at h
  omega

theorem unended_retiredEntry (e : Nat) (c : EntryCtx) (s : State) : unended (retiredEntry e c s) = unended s := by
  have hset : unended (if c.slot.isNone then setEntry c.index .retired s else s) = unended s :=
    unended_ite (unended_setEntry _ _ s) rfl
  rw [retiredEntry, unended_of_unserved (unserved_bump (ownCounter_entryCnt e) _)]
  exact unended_ite ((unended_of_unserved (unserved_entryContribs _ _)).trans hset) hset

theorem statusAt_retiredEntry (e : Nat) {c : EntryCtx} (s : State) (h : c.slot = none) :
    statusAt (retiredEntry e c s) c.index = .retired := by
  have hro : (retiredEntry e c s).ro = (setEntry c.index .retired s).ro := by
    rw [retiredEntry, ro_of_unserved (unserved_bump (ownCounter_entryCnt e) _)]
    simp only [h, Option.isNone_none, if_true]
    exact ro_of_unserved (unserved_entryContribs _ _)
  rw [statusAt, hro, ← statusAt, statusAt_setEntry_self]

/-- An entry that has met R139 retires: its engine is idle, its signals are added, and it stands as retired. -/
theorem retire_result {e : Nat} {c : EntryCtx} {s : State} (hrun : (engOf s e).run = some c) :
    engOf (retire e c s) e = ended (engOf s e) c ∧ (∀ k, k ≠ e → engOf (retire e c s) k = engOf s k) ∧
      (c.slot = none → statusAt (retire e c s) c.index = .retired) ∧ ∀ i, cueOf (retire e c s) i = lit c.sigs i (cueOf s i) := by
  have hslack : (slackNoted c s).eng = s.eng ∧ (slackNoted c s).cue = s.cue := by
    unfold slackNoted
    split <;> exact ⟨rfl, rfl⟩
  set u := retiredEntry e c (signalsAdded c s) with hu
  have hstored : unstored u = unstored (signalsAdded c s) := unstored_of_unended (unended_retiredEntry e c _)
  have heng (k : Nat) : engOf u k = engOf s k := by
    rw [engOf, eng_of_unstored hstored, signalsAdded, (signals_keep c _ _).1, hslack.1, engOf]
  have hcue (i : Nat) : cueOf u i = lit c.sigs i (cueOf s i) := by
    rw [cueOf, cue_of_unstored hstored, ← cueOf, signalsAdded, cueOf_signals, cueOf, hslack.2, cueOf]
  have hrun' : (engOf u e).run = some c := by rw [heng, hrun]
  obtain ⟨sh, ran, occ, sets, hend⟩ := endRun_frame hrun'
  rw [retire_eq, ← hu]
  refine ⟨?_, fun k hk => ?_, fun hslot => ?_, fun i => ?_⟩
  · rw [engOf_endRun_self hrun', heng]
  · rw [engOf_endRun_of_ne hrun' hk, heng]
  · rw [hend]
    exact statusAt_retiredEntry e _ hslot
  · rw [hend]
    exact hcue i

theorem entryRetire_result {e : Nat} {c : EntryCtx} {s : State} (he : e < 36) (hrun : (engOf s e).run = some c)
    (hphase : (engOf s e).phase = .ending) (hxq : (engOf s e).xq = []) (hhelp : (engOf s e).helpers = 0)
    (hdef : (engOf s e).deferred = []) : leadsTo (exec (.entryRetire e) s) fun t =>
      engOf t e = ended (engOf s e) c ∧ (∀ k, k ≠ e → engOf t k = engOf s k) ∧ (c.slot = none → statusAt t c.index = .retired) ∧
      ∀ i, cueOf t i = lit c.sigs i (cueOf s i) := by
  obtain ⟨hself, hother, hstatus, hcue⟩ := retire_result hrun
  refine ⟨resolveStep c.part c.stepId (retire e c s), ?_, ?_, fun k hk => ?_, fun hslot => ?_, fun i => ?_⟩
  · simp [execEntryRetire, need, he, hrun, hphase, hxq, hhelp, hdef]
  · rw [engOf_of_unstored (unstored_resolveStep _ _ _), hself]
  · rw [engOf_of_unstored (unstored_resolveStep _ _ _), hother k hk]
  · rw [statusAt_resolveStep _ _ (by simp [hstatus hslot]), hstatus hslot]
  · rw [cueOf, cue_of_unstored (unstored_resolveStep _ _ _), ← cueOf, hcue]

/-! ### Hangs (R674, R675) -/

/-- An engine whose entry is abandoned: its transfers drain (R157). -/
def drainingEngine (x : Engine) : Engine :=
  { x with phase := .draining, wait := none, deferred := [], uncleared := decide (x.phase = .clearing) }

/-- An abandoned entry, before its record. -/
def abandonedEntry (e : Nat) (c : EntryCtx) (s : State) : State :=
  let s' := setEng e (drainingEngine (engOf s e)) s
  let s' := if c.slot.isNone then setEntry c.index .faulted s' else s'
  modGroup c.part c.stepId (fun g => { g with draining := g.draining + 1 }) (stepBroken c.part c.stepId (unitCode (engRef e)) none s')

theorem abandonEntry_eq {e : Nat} {c : EntryCtx} (ev : FaultEvent) {s : State} (h : (engOf s e).run = some c) :
    abandonEntry e ev s = logEvent { ev with ctx := ctxOf c, unit := unitCode (engRef e) } (abandonedEntry e c s) := by
  unfold abandonEntry
  dsimp only
  split
  · next hnone => simp [h] at hnone
  · next d hd =>
    obtain rfl : d = c := by simpa [h] using hd.symm
    rfl

/-- An abandoned entry changes its engine, its status and its group alone. -/
theorem abandonedEntry_frame (e : Nat) (c : EntryCtx) (s : State) : ∃ v r, abandonedEntry e c s =
    { setEng e (drainingEngine (engOf s e)) s with serve := v, ro := r } := by
  unfold abandonedEntry
  dsimp only
  split <;> exact ⟨_, _, rfl⟩

/-- A record enters the log when it has room; nothing but the log and its count of lost records changes. -/
theorem logEvent_frame (v : FaultEvent) (s : State) : ∃ f n r, logEvent v s = { s with
    fault := { s.fault with fifo := f, lost := n }, regs := r } ∧ (s.fault.fifo.length < 256 → f = s.fault.fifo ++ [v]) ∧
    ∀ a, a ≠ 0xD0054 → tabGet 0#32 r a = regW s a := by
  rw [logEvent]
  split
  · exact ⟨_, _, _, rfl, fun _ => rfl, fun _ _ => rfl⟩
  · next h => exact ⟨_, _, _, rfl, fun hlen => absurd hlen h, fun a ha => regW_setReg_of_ne _ _ ha⟩

/-- The engine of an abandoned entry drains; a record is written when the log has room. -/
theorem abandonEntry_result {e : Nat} {c : EntryCtx} (ev : FaultEvent) {s : State} (h : (engOf s e).run = some c) :
    let t := abandonEntry e ev s
    engOf t e = drainingEngine (engOf s e) ∧ (∀ k, k ≠ e → engOf t k = engOf s k) ∧ t.mem = s.mem ∧ t.flies = s.flies ∧ t.cue = s.cue ∧
      (∀ a, a ≠ 0xD0054 → regW t a = regW s a) ∧
      (s.fault.fifo.length < 256 → t.fault.fifo = s.fault.fifo ++ [{ ev with ctx := ctxOf c, unit := unitCode (engRef e) }]) := by
  obtain ⟨v, r, hu⟩ := abandonedEntry_frame e c s
  obtain ⟨f, n, w, hlog, hfifo, hreg⟩ := logEvent_frame { ev with ctx := ctxOf c, unit := unitCode (engRef e) } (abandonedEntry e c s)
  rw [abandonEntry_eq ev h, hlog]
  rw [hu] at hfifo hreg ⊢
  exact ⟨engOf_setEng_self e _ s, fun k hk => engOf_setEng_of_ne _ s hk, rfl, rfl, rfl, hreg, hfifo⟩

theorem hangEntry_result {e : Nat} {c : EntryCtx} {s : State} (he : e < 36) (hrun : (engOf s e).run = some c)
    (hphase : (engOf s e).phase = .running ∨ (engOf s e).phase = .ending ∨ (engOf s e).phase = .clearing)
    (hdue : hangDeadline s c < s.beat.period) : leadsTo (exec (.hang .entry e) s) fun t =>
      engOf t e = drainingEngine (engOf s e) ∧ (∀ k, k ≠ e → engOf t k = engOf s k) ∧ t.mem = s.mem ∧ t.flies = s.flies ∧ t.cue = s.cue ∧
      regW t 0xD004C = regW s 0xD004C + 1 ∧
      (s.fault.fifo.length < 256 → ∃ v, t.fault.fifo = s.fault.fifo ++ [v] ∧ v.cls = 2 ∧ v.cause = 1 ∧ v.ctx = ctxOf c ∧
        v.unit = unitCode (engRef e)) := by
  set s₁ := passPhase (hangDeadline s c) s with hs₁
  have hkeep : s₁.eng = s.eng ∧ s₁.mem = s.mem ∧ s₁.flies = s.flies ∧ s₁.cue = s.cue ∧ s₁.regs = s.regs ∧ s₁.fault = s.fault := by
    simp [hs₁, passPhase]
  obtain ⟨heng, hmem, hflies, hcue, hregs, hfault⟩ := hkeep
  have hengOf (k : Nat) : engOf s₁ k = engOf s k := by rw [engOf, engOf, heng]
  have hregW (a : Nat) : regW s₁ a = regW s a := by rw [regW, regW, hregs]
  have hrun₁ : (engOf s₁ e).run = some c := by rw [hengOf, hrun]
  set ev : FaultEvent := { evBase s₁ 2 1 0 with origin := originOf 0 false, pc := (engOf s e).pc.toNat }
  obtain ⟨hself, hother, hm, hfl, hc, hreg, hfifo⟩ := abandonEntry_result ev hrun₁
  have hp : ((engOf s e).phase = .running || (engOf s e).phase = .ending || (engOf s e).phase = .clearing) = true := by
    simpa [or_assoc] using hphase
  refine ⟨bump 0xD004C (abandonEntry e ev s₁), ?_, hself.trans (by rw [hengOf]), fun k hk => (hother k hk).trans (hengOf k),
    hm.trans hmem, hfl.trans hflies, hc.trans hcue, ?_, fun hlen => ?_⟩
  · simp only [exec_hang, execHang, need, he, decide_true, if_true, hrun, hp, hdue, Bool.and_self]
    rfl
  · rw [bump, bumpBy, regW_setReg_self, hreg _ (by decide), hregW]
    rfl
  · rw [← hfault] at hlen ⊢
    exact ⟨_, hfifo hlen, rfl, rfl, rfl, rfl⟩

/-! ### Stores to memory without errors -/

theorem cleanMem_ite {p : Prop} [Decidable p] {t u : State} (ht : cleanMem t) (hu : cleanMem u) : cleanMem (if p then t else u) := by
  split <;> assumption

theorem cleanMem_physWrite {s : State} (h : cleanMem s) (pa : Nat) (bs : List Byte) : cleanMem (physWrite pa bs s) := by
  obtain ⟨hp, hf, hc, hfw, hpar⟩ := h
  have hm : ∀ u : State, u = (if bs = [] then s else markDirty (pa / 65536) s) → u.mem = s.mem ∧ u.fault = s.fault ∧ u.hbm = s.hbm := by
    rintro u rfl
    unfold markDirty
    split
    · exact ⟨rfl, rfl, rfl⟩
    · split <;> exact ⟨rfl, rfl, rfl⟩
  obtain ⟨hmem, hfault, hhbm⟩ := hm _ rfl
  refine ⟨?_, ?_, ?_, ?_, ?_⟩
  · simp [physWrite, hmem, hp, tabClear]
  · simp [physWrite, hmem, hf, tabClear]
  · simp [physWrite, hmem, hc, tabClear]
  · simp [physWrite, hfault, hfw]
  · simpa [physWrite, hhbm] using hpar

theorem mergeGranule_of_clean {c : MemCtx} {s : State} (h : cleanMem s) (pa : Nat) (bs : List Byte) :
    mergeGranule c pa bs s = ({ markDirty (pa / 65536) s with mem := { s.mem with bytes := tabWrite 0#8 s.mem.bytes pa bs } }, false) := by
  have hm : (markDirty (pa / 65536) s).mem = s.mem := by unfold markDirty; split <;> rfl
  simp [mergeGranule, readGranule_of_clean h, hm]

theorem cleanMem_mergeGranule {c : MemCtx} {s : State} (h : cleanMem s) (pa : Nat) (bs : List Byte) :
    cleanMem (mergeGranule c pa bs s).1 := by
  rw [mergeGranule_of_clean h]
  unfold markDirty
  split <;> exact h

theorem cleanMem_storePart {c : MemCtx} {r : State × Bool} (h : cleanMem r.1) (a : Nat) (xs : List Byte) :
    cleanMem (storePart c a xs r).1 := by
  rw [storePart]
  split
  · exact h
  · exact cleanMem_mergeGranule h a xs

theorem cleanMem_storePhys {c : MemCtx} {s : State} (h : cleanMem s) (pa : Nat) (bs : List Byte) : cleanMem (storePhys c pa bs s).1 := by
  rw [storePhys_eq]
  exact cleanMem_storePart (cleanMem_physWrite (cleanMem_storePart (r := (s, false)) h _ _) _ _) _ _

theorem cleanMem_dvStore {c : MemCtx} {s : State} (h : cleanMem s) (va : Nat) (bs : List Byte) : cleanMem (dvStore c va bs s) := by
  have hpiece (r : (State × Bool) × List Byte) (p : Nat × Nat) (hr : cleanMem r.1.1) : cleanMem (dvStorePiece c r p).1.1 := by
    rw [dvStorePiece]
    split
    · refine cleanMem_storePhys ?_ _ _
      unfold noteUndo
      dsimp only
      split <;> (split <;> exact hr)
    · exact hr
  have hfold : ∀ (ps : List (Nat × Nat)) (r : (State × Bool) × List Byte), cleanMem r.1.1 →
      cleanMem (ps.foldl (dvStorePiece c) r).1.1 := by
    intro ps
    induction ps with
    | nil => exact fun _ h => h
    | cons p ps ih => exact fun r hr => ih _ (hpiece r p hr)
  exact hfold (pagePieces va bs.length) ((s, false), bs) h

theorem cleanMem_acceptStores (u : Nat) (c : EntryCtx) (n : Nat) (ts : List Xfer) {s : State} (h : cleanMem s) :
    cleanMem (acceptStores u c n ts s) := by
  induction ts generalizing n s with
  | nil => exact h
  | cons t ts ih =>
    have hrows : ∀ (rs : List (Nat × Nat × Nat)) (s : State), cleanMem s → cleanMem (rs.foldl (fun q r =>
        dvStore { xferMem u c with held := t.held } r.1 (unitLmRead q u r.2.1 r.2.2) q) s) := by
      intro rs
      induction rs with
      | nil => exact fun _ h => h
      | cons r rs ihr => exact fun s hs => ihr _ (cleanMem_dvStore hs _ _)
    rw [acceptStores]
    exact cleanMem_ite (hrows _ s h) (ih _ (hrows _ s h))

theorem cleanMem_drainXfers (u : Nat) {s : State} (h : cleanMem s) : cleanMem (drainXfers u s) := by
  unfold drainXfers
  split
  · exact h
  · dsimp only
    split
    · exact h
    · exact cleanMem_acceptStores u _ _ _ h

/-! ### Drains (R157, R158) -/

theorem sumNat_map_zero {α : Type} (xs : List α) : sumNat (xs.map fun _ => 0) = 0 := by
  unfold sumNat
  induction xs with
  | nil => rfl
  | cons x xs ih => simpa using ih

/-- The drain of a queue that holds no store changes nothing. -/
theorem drainXfers_of_loads {e : Nat} {s : State} (he : e < 64) (h : (engOf s e).xq.all (fun q => !q.st) = true) : drainXfers e s = s := by
  have hsize : ((engOf s e).xq.map fun t => if t.st then t.rows * t.len else 0) = (engOf s e).xq.map fun _ => 0 :=
    List.map_congr_left fun t ht => by
      have := List.all_eq_true.1 h t ht
      simp only [Bool.not_eq_true'] at this
      simp [this]
  unfold drainXfers
  split
  · rfl
  · simp only [xferQueue, if_pos he, hsize, sumNat_map_zero, if_true]

theorem entryDrainDone_result {e : Nat} {c : EntryCtx} {s : State} (he : e < 36) (hrun : (engOf s e).run = some c)
    (hphase : (engOf s e).phase = .draining) (hcut : (engOf s e).cut = false) (hclean : cleanMem s) :
    leadsTo (exec (.entryDrainDone e) s) fun t =>
      engOf t e = ended (engOf s e) c ∧ (∀ k, k ≠ e → engOf t k = engOf s k) ∧ t.cue = s.cue ∧
      ((engOf s e).xq.all (fun q => !q.st) = true → t.mem.bytes = s.mem.bytes) := by
  have hdrain : unstored (drainXfers e s) = unstored s := unstored_drainXfers e s
  have hrun' : (engOf (drainXfers e s) e).run = some c := by rw [engOf_of_unstored hdrain, hrun]
  obtain ⟨sh, ran, occ, sets, hend⟩ := endRun_frame hrun'
  set v := modGroup c.part c.stepId (fun g => { g with draining := g.draining - 1 }) (endRun e (drainXfers e s)) with hv
  have hveng : v.eng = (endRun e (drainXfers e s)).eng := rfl
  have hvmem : v.mem = (drainXfers e s).mem ∧ v.hbm = (drainXfers e s).hbm ∧ v.fault = (drainXfers e s).fault := by
    rw [hv, hend]
    exact ⟨rfl, rfl, rfl⟩
  obtain ⟨hvm, hvh, hvf⟩ := hvmem
  have hvclean : cleanMem v := by
    rw [cleanMem, hvm, hvh, hvf]
    exact cleanMem_drainXfers e hclean
  have hres := unended_resolveStep c.part c.stepId v
  have hsettle : settle (resolveStep c.part c.stepId v) = resolveStep c.part c.stepId v :=
    settle_of_fwPoison_false (cleanMem_of_unended hres hvclean).2.2.2.1
  refine ⟨resolveStep c.part c.stepId v, ?_, ?_, fun k hk => ?_, ?_, fun hloads => ?_⟩
  · simp [execEntryDrainDone, need, he, hrun, hphase, hcut, ← hv, hsettle]
  · rw [engOf_of_unstored (unstored_of_unended hres), engOf, hveng, ← engOf, engOf_endRun_self hrun', engOf_of_unstored hdrain]
  · rw [engOf_of_unstored (unstored_of_unended hres), engOf, hveng, ← engOf, engOf_endRun_of_ne hrun' hk, engOf_of_unstored hdrain]
  · have hvcue : v.cue = (drainXfers e s).cue := by rw [hv, hend]; rfl
    rw [cue_of_unstored (unstored_of_unended hres), hvcue, cue_of_unstored hdrain]
  · rw [bytes_of_unended hres, hvm, drainXfers_of_loads (by omega) hloads]

/-! ### Unit resets (R159, R679, R686) -/

/-- A sample changes the samples' store alone. -/
theorem takeSample_keeps (u : UnitRef) (s : State) :
    (takeSample u s).1.eng = s.eng ∧ ∀ a, ownCounter a = true → regW (takeSample u s).1 a = regW s a := by
  unfold takeSample
  split
  · exact ⟨rfl, fun _ _ => rfl⟩
  · split
    · exact ⟨rfl, fun _ _ => rfl⟩
    · refine ⟨rfl, fun a ha => regW_setReg_of_ne _ _ ?_⟩
      rintro rfl
      exact absurd ha (by decide)

/-- The engine that a reset of engine `x` leaves (R687). -/
def resetEngine (x : Engine) : Engine :=
  { Engine.init with serv := { x.serv with inReset := true, lastPart := none }, excLast := x.excLast }

/-- The work of an engine under reset, after its drain, is dropped from the engine. -/
theorem dropEntry_keeps {e : Nat} {c : EntryCtx} {s : State} (hrun : (engOf s e).run = some c) :
    engOf (dropEntry e s) e = ended (engOf s e) c ∧ (∀ k, k ≠ e → engOf (dropEntry e s) k = engOf s k) ∧
      ∀ a, ownCounter a = true → regW (dropEntry e s) a = regW s a := by
  have hdrain : unstored (drainXfers e s) = unstored s := unstored_drainXfers e s
  have hrun' : (engOf (drainXfers e s) e).run = some c := by rw [engOf_of_unstored hdrain, hrun]
  set s₁ := drainXfers e s with hs₁
  set s₂ := if (engOf s₁ e).phase = .draining then modGroup c.part c.stepId (fun g => { g with draining := g.draining - 1 }) s₁ else s₁
    with hs₂
  set s₃ := stepBroken c.part c.stepId (unitCode (engRef e)) none (if c.slot.isNone then setEntry c.index .faulted s₂ else s₂) with hs₃
  have h₂ : unended s₂ = unended s₁ := unended_ite (unended_of_unserved (unserved_modGroup _ _ _ s₁)) rfl
  have h₃ : unstored s₃ = unstored s := by
    rw [hs₃, unstored_stepBroken, ← hdrain, ← unstored_of_unended h₂]
    exact unstored_of_unended (unended_ite (unended_setEntry _ _ s₂) rfl)
  have heq : dropEntry e s = voidFailed c.part c.stepId (endRun e s₃) := by
    simp only [dropEntry, ← hs₁, hrun']
    rfl
  have hvoid : unstored (dropEntry e s) = unstored (endRun e s₃) := by rw [heq]; exact unstored_voidWhere _ _
  have hrun₃ : (engOf s₃ e).run = some c := by rw [engOf_of_unstored h₃, hrun]
  refine ⟨?_, fun k hk => ?_, fun a ha => ?_⟩
  · rw [engOf_of_unstored hvoid, engOf_endRun_self hrun₃, engOf_of_unstored h₃]
  · rw [engOf_of_unstored hvoid, engOf_endRun_of_ne hrun₃ hk, engOf_of_unstored h₃]
  · obtain ⟨sh, ran, occ, sets, hend⟩ := endRun_frame hrun₃
    have hregs : regW (endRun e s₃) a = regW s₃ a := by rw [hend]; rfl
    rw [regW_of_unstored hvoid ha, hregs, regW_of_unstored h₃ ha]

/-- UNIT_RESET of an engine that runs an entry: the engine is as a reset leaves it, the count of unit resets rises, and no other engine
and no other counter of its kind changes. -/
theorem unitReset_engine {e : Nat} {c : EntryCtx} {s : State} (cause : Option Nat) (hrun : (engOf s e).run = some c) :
    let t := unitReset (engRef e) cause s
    engOf t e = resetEngine (engOf s e) ∧ (∀ k, k ≠ e → engOf t k = engOf s k) ∧ regW t 0xD0040 = regW s 0xD0040 + 1 ∧
      ∀ a, ownCounter a = true → a ≠ 0xD0040 → regW t a = regW s a := by
  have hslot : 9 * (e / 9) + e % 9 = e := Nat.div_add_mod e 9
  set s₁ := (takeSample (engRef e) s).1 with hs₁
  obtain ⟨heng, hreg⟩ := takeSample_keeps (engRef e) s
  have hengOf (k : Nat) : engOf s₁ k = engOf s k := by rw [engOf, engOf, heng]
  obtain ⟨hself, hother, hcnt⟩ := dropEntry_keeps ((hengOf e).symm ▸ hrun)
  have hclear : clearUnit (engRef e) s₁ = setEng e (resetEngine (engOf (dropEntry e s₁) e)) (dropEntry e s₁) := by
    simp only [clearUnit, engRef, hslot]
    rfl
  have hres : resetEngine (engOf (dropEntry e s₁) e) = resetEngine (engOf s e) := by rw [hself, hengOf]; rfl
  set u := setEng e (resetEngine (engOf s e)) (dropEntry e s₁) with hu
  have hcl : clearUnit (engRef e) (takeSample (engRef e) s).1 = u := by rw [← hs₁, hclear, hres]
  intro t
  have ht : unserved t = unserved (bump 0xD0040 { u with fault := { u.fault with unitWin := u.fault.unitWin ++ [(u.time, engRef e)] } }) := by
    simp only [t, unitReset, hcl]
    rw [unserved_logEvent, unserved_drawn]
  have ht' := unstored_of_unserved ht
  have hu_reg (a : Nat) (ha : ownCounter a = true) : regW u a = regW s a := (hcnt a ha).trans (hreg a ha)
  refine ⟨?_, fun k hk => ?_, ?_, fun a ha hne => ?_⟩
  · rw [engOf_of_unstored ht']
    exact engOf_setEng_self e _ _
  · rw [engOf_of_unstored ht']
    exact (engOf_setEng_of_ne _ _ hk).trans ((hother k hk).trans (hengOf k))
  · rw [regW_of_unstored ht' rfl, ← hu_reg 0xD0040 rfl]
    exact regW_setReg_self _ _ _
  · rw [regW_of_unstored ht' ha, ← hu_reg a ha]
    exact regW_setReg_of_ne _ _ hne

theorem unitStopTimeout_result {e : Nat} {c : EntryCtx} {s : State} (he : e < 36) (hrun : (engOf s e).run = some c)
    (hphase : (engOf s e).phase = .draining) : leadsTo (exec (.unitStopTimeout ⟨.engine, e / 9, e % 9⟩) s) fun t =>
      engOf t e = resetEngine (engOf s e) ∧ (∀ k, k ≠ e → engOf t k = engOf s k) ∧ regW t 0xD0040 = regW s 0xD0040 + 1 := by
  have hslot : 9 * (e / 9) + e % 9 = e := Nat.div_add_mod e 9
  have hcl : e / 9 < 4 := by omega
  have hsl : e % 9 < 9 := Nat.mod_lt _ (by norm_num)
  obtain ⟨hself, hother, hcnt, -⟩ := unitReset_engine (some 3) hrun
  have hres := unstored_resolveSteps (unitReset (engRef e) (some 3) s)
  refine ⟨resolveSteps (unitReset (engRef e) (some 3) s), ?_, ?_, fun k hk => ?_, ?_⟩
  · simp only [exec_unitStopTimeout, execUnitStopTimeout, need, hslot, hphase, hcl, hsl, decide_true, Bool.and_self, if_true]
    rfl
  · exact (engOf_of_unstored hres e).trans hself
  · exact (engOf_of_unstored hres k).trans (hother k hk)
  · exact (regW_of_unstored hres rfl).trans hcnt

theorem ownCounter_excCnt {e : Nat} (he : e < 36) : ownCounter (0x50008 + 0x400 * e) = true := by
  have h : (0x50008 + 0x400 * e) % 0x400 = 8 := by omega
  have hlt : 0x50008 + 0x400 * e < 0x60000 := by omega
  simp [ownCounter, h, hlt]
  omega

/-- An exception leaves its engine draining, counts once, and changes no other engine. -/
theorem raiseExc_result {e : Nat} {c : EntryCtx} {s : State} (he : e < 36) (hrun : (engOf s e).run = some c)
    (cause pc addr : Nat) (status : Status) (detail : List Nat) :
    let t := raiseExc e cause pc addr status detail s
    engOf t e = drainingEngine { engOf s e with excLast := BitVec.ofNat 8 cause } ∧ (∀ k, k ≠ e → engOf t k = engOf s k) ∧
      regW t (0x50008 + 0x400 * e) = regW s (0x50008 + 0x400 * e) + 1 ∧ regW t 0xD0040 = regW s 0xD0040 := by
  set x : Engine := { engOf s e with excLast := BitVec.ofNat 8 cause }
  set u := bump (0x50008 + 0x400 * e) (setEng e x s)
  have hu_e : engOf u e = x := engOf_setEng_self e x s
  have hrun' : (engOf u e).run = some c := by rw [hu_e]; exact hrun
  obtain ⟨hself, hother, -, -, -, hreg, -⟩ := abandonEntry_result { evBase u 0 cause 0 with
    origin := originOf 0 false, status := status, pc := pc, addr := BitVec.ofNat 64 addr, detail := detail } hrun'
  refine ⟨hself.trans (by rw [hu_e]), fun k hk => (hother k hk).trans (engOf_setEng_of_ne x s hk),
    (hreg _ (by omega)).trans (regW_setReg_self _ _ _), (hreg _ (by decide)).trans (regW_setReg_of_ne _ _ (by omega))⟩

theorem hardwareException_result {e : Nat} {c : EntryCtx} {s : State} (he : e < 36) (hrun : (engOf s e).run = some c) (chk : Bool)
    (addr : Nat) : leadsTo (exec (.hardwareException e chk addr) s) fun t =>
      engOf t e = resetEngine { engOf s e with excLast := if chk then 0x0C else 0x0B } ∧ (∀ k, k ≠ e → engOf t k = engOf s k) ∧
      regW t (0x50008 + 0x400 * e) = regW s (0x50008 + 0x400 * e) + 1 ∧ regW t 0xD0040 = regW s 0xD0040 + 1 := by
  obtain ⟨hself, hother, hexc, hrst⟩ := raiseExc_result he hrun (if chk then 0x0C else 0x0B) (engOf s e).pc.toNat addr 0 []
  set s₁ := raiseExc e (if chk then 0x0C else 0x0B) (engOf s e).pc.toNat addr 0 [] s with hs₁
  obtain ⟨hself', hother', hcnt, hkeep⟩ := unitReset_engine none (s := s₁) (e := e) (c := c) (by rw [hself]; exact hrun)
  have hres := unstored_resolveSteps (unitReset (engRef e) none s₁)
  refine ⟨resolveSteps (unitReset (engRef e) none s₁), ?_, ?_, fun k hk => ?_, ?_, ?_⟩
  · simp only [exec_hardwareException, execHardwareException, need, he, decide_true, if_true, hrun]
    rfl
  · rw [engOf_of_unstored hres, hself', hself]
    cases chk <;> rfl
  · rw [engOf_of_unstored hres, hother' k hk, hother k hk]
  · rw [regW_of_unstored hres (ownCounter_excCnt he), hkeep _ (ownCounter_excCnt he) (by omega), hexc]
  · rw [regW_of_unstored hres rfl, hcnt, hrst]

/-- Settles O28: each end of an entry is the end of its run, its abandonment or the reset of its engine, and what follows it for the
entry's step leaves every engine as it is. -/
theorem entryEnd : Obligations.EntryEnd := by
  unfold Obligations.EntryEnd
  intro e s c he hrun x
  refine ⟨fun ⟨hphase, hxq, hhelp, hdef⟩ => ?_, fun ⟨hphase, hdue⟩ => hangEntry_result he hrun hphase hdue,
    fun ⟨hphase, hcut, hclean⟩ => ?_, fun hphase => unitStopTimeout_result he hrun hphase,
    fun chk addr => hardwareException_result he hrun chk addr⟩
  · obtain ⟨t, ht, hself, hother, hstatus, hcue⟩ := entryRetire_result he hrun hphase hxq hhelp hdef
    refine ⟨t, ht, ?_, ?_, ?_, hother, hstatus, hcue⟩
    · rw [hself]; rfl
    · rw [hself]; rfl
    · have hp : (engOf s e).phase = .ending := hphase
      rw [hself]
      simp [ended, hp]
  · obtain ⟨t, ht, hself, hother, hcue, hbytes⟩ := entryDrainDone_result he hrun hphase hcut hclean
    refine ⟨t, ht, ?_, ?_, ?_, hother, hcue, ?_, hbytes⟩
    · rw [hself]; rfl
    · rw [hself]; rfl
    · rw [hself]; rfl
    · have hp : (engOf s e).phase = .draining := hphase
      rw [hself]
      simp [ended, hp, x]

end Sys2Proof.Machine
end

section
/-! SUPPORT. Walk-ons in windows, Walk-on sets and reservations, and the statement about them. -/

namespace Sys2Proof.Machine

open Sys2Proof

/-! ### Tables of which a range is cleared -/

theorem tabGet_clear {α : Type} (d : α) (t : Tab α) (a n b : Nat) :
    tabGet d (tabClear t a n) b = if a ≤ b ∧ b < a + n then d else tabGet d t b := by
  induction t with
  | nil => simp [tabClear]
  | cons e t ih =>
    obtain ⟨k, v⟩ := e
    rw [tabClear] at ih ⊢
    by_cases hk : k < a ∨ a + n ≤ k
    · rw [List.filter_cons_of_pos (by simpa using hk)]
      by_cases hb : b = k
      · have : ¬ (a ≤ b ∧ b < a + n) := by omega
        rw [if_neg this, tabGet, tabGet, if_pos hb, if_pos hb]
      · rw [tabGet, tabGet, if_neg hb, if_neg hb, ih]
    · rw [List.filter_cons_of_neg (by simpa using hk), ih]
      by_cases hb : b = k
      · have : a ≤ b ∧ b < a + n := by omega
        rw [if_pos this, if_pos this]
      · rw [tabGet, if_neg hb]

/-! ### Windows (R67) -/

theorem windowClears_eq_false_iff (s : State) (x : Engine) : windowClears s x = false ↔
    ∃ p, x.serv.lastPart = some p ∧ s.board.slots.all (fun q => q.2.reg = none || q.2.reg = some p) = true := by
  rw [windowClears]
  cases x.serv.lastPart with
  | none => simp
  | some p =>
    have hslot (q : Nat × Slot) : (match q.2.reg with | some r => decide (r ≠ p) | none => false) = false ↔
        (q.2.reg = none || q.2.reg = some p) = true := by
      cases q.2.reg <;> simp
    rw [← Bool.not_eq_true, List.any_eq_true, not_exists]
    constructor
    · exact fun h => ⟨p, rfl, List.all_eq_true.2 fun q hq => (hslot q).1 (Bool.eq_false_iff.2 fun hr => h q ⟨hq, hr⟩)⟩
    · rintro ⟨r, hr, h⟩ q ⟨hq, hreg⟩
      obtain rfl : p = r := Option.some.inj hr
      exact Bool.eq_false_iff.1 ((hslot q).2 (List.all_eq_true.1 h q hq)) hreg

/-- The engine of a window that has been cleared (R67). -/
def windowEngine (x : Engine) : Engine :=
  { Engine.init with serv := { x.serv with lastPart := none }, excLast := x.excLast, freeCnt := x.freeCnt }

/-- A window counts as open. -/
def opened (index : Nat) (s : State) : State := { s with ro := { s.ro with opened := s.ro.opened ++ [index] } }

theorem windowOpen_eq {index e : Nat} {x : Entry} {s : State} (hidx : index < 4096)
    (hx : (runEntries s).find? (fun q => q.1 = index) = some (index, x)) (he : engSlot s (eTarget x) = some e) (hkind : eKind x = 1)
    (hq : isQueued s index = true) (hcuts : s.beat.cutsDone = true) (hfrom : eEarliest x ≤ s.beat.phaseUs)
    (hto : s.beat.phaseUs < eDeadline x) (hidle : engineIdle s e = true) (hop : s.ro.opened.contains index = false) :
    exec (.windowOpen index) s =
      .next (opened index (if windowClears s (engOf s e) then passUs 2 (setEng e (windowEngine (engOf s e)) s) else s)) := by
  simp only [exec_windowOpen, execWindowOpen, need, hidx, decide_true, if_true, hx, he, hkind, hq, hcuts, hfrom, hto, hidle, hop,
    Bool.and_self, Bool.not_false]
  rfl

theorem windowOpen_result {index e : Nat} {x : Entry} {s : State} (hidx : index < 4096)
    (hx : (runEntries s).find? (fun q => q.1 = index) = some (index, x)) (he : engSlot s (eTarget x) = some e) (hkind : eKind x = 1)
    (hq : isQueued s index = true) (hcuts : s.beat.cutsDone = true) (hfrom : eEarliest x ≤ s.beat.phaseUs)
    (hto : s.beat.phaseUs < eDeadline x) (hidle : engineIdle s e = true) (hop : s.ro.opened.contains index = false) :
    leadsTo (exec (.windowOpen index) s) fun t =>
      t.ro.opened = s.ro.opened ++ [index] ∧ (∀ k, k ≠ e → engOf t k = engOf s k) ∧
      (if ∃ p, (engOf s e).serv.lastPart = some p ∧ s.board.slots.all (fun q => q.2.reg = none || q.2.reg = some p) = true then
        engOf t e = engOf s e ∧ t.time = s.time
       else ∀ a, rdS (engOf t e) (BitVec.ofNat 5 a) = 0 ∧ tabGet 0#8 (engOf t e).lm a = 0) := by
  have hopen := windowOpen_eq hidx hx he hkind hq hcuts hfrom hto hidle hop
  by_cases hc : windowClears s (engOf s e) = true
  · have hno : ¬ ∃ p, (engOf s e).serv.lastPart = some p ∧
        s.board.slots.all (fun q => q.2.reg = none || q.2.reg = some p) = true := fun h => by
      rw [← windowClears_eq_false_iff, hc] at h
      exact absurd h (by decide)
    rw [if_pos hc] at hopen
    set u := passUs 2 (setEng e (windowEngine (engOf s e)) s) with hu
    have heng (k : Nat) : engOf (opened index u) k = engOf (setEng e (windowEngine (engOf s e)) s) k :=
      congrArg (fun t => tabGet Engine.init t k) (passUs_eng 2 (setEng e (windowEngine (engOf s e)) s))
    refine ⟨_, hopen, ?_, fun k hk => ?_, ?_⟩
    · rw [opened, hu, passUs_ro, setEng_ro]
    · rw [heng, engOf_setEng_of_ne _ _ hk]
    · rw [if_neg hno, heng, engOf_setEng_self]
      exact fun a => ⟨by simp [rdS, windowEngine, Engine.init], rfl⟩
  · have hyes := (windowClears_eq_false_iff s (engOf s e)).1 (by simpa using hc)
    rw [if_neg hc] at hopen
    refine ⟨_, hopen, rfl, fun _ _ => rfl, ?_⟩
    rw [if_pos hyes]
    exact ⟨rfl, rfl⟩

/-! ### The start of a Walk-on (R69, R463) -/

@[simp] theorem slotOf_setSlot_self (i : Nat) (x : Slot) (s : State) : slotOf (setSlot i x s) i = x :=
  tabGet_set_self Slot.init s.board.slots i x

theorem slotOf_setSlot_of_ne {i k : Nat} (x : Slot) (s : State) (h : k ≠ i) : slotOf (setSlot i x s) k = slotOf s k :=
  tabGet_set_of_ne Slot.init s.board.slots x h

theorem slotTo_running (i : Nat) (st : Status) (s : State) :
    slotTo i .running st s = setSlot i { slotOf s i with state := .running, status := st } s := by
  rw [slotTo]
  split <;> rfl

theorem length_leBytes (n x : Nat) : (leBytes n x).length = n := by
  induction n generalizing x with
  | zero => rfl
  | succ n ih => rw [leBytes, List.length_cons, ih]

theorem length_slice (bs : List Byte) (off n : Nat) : (slice bs off n).length = n := by
  simp only [slice, List.length_append, List.length_replicate, List.length_take, List.length_drop]
  omega

theorem length_walkonArgs (x : Slot) (slot step : Nat) (beat seed : DWord) : (walkonArgs x slot step beat seed).length = 256 := by
  simp [walkonArgs, blockPrefix, length_leBytes, length_slice]

theorem addWalkonJob_frame (x : Slot) (cluster step base : Nat) (beat : DWord) (s : State) :
    ∃ v, addWalkonJob x cluster step base beat s = { s with serve := v } := by
  rw [addWalkonJob]
  split
  · exact ⟨s.serve, rfl⟩
  · exact ⟨_, rfl⟩

/-- The argument block of the Walk-on that a slot starts (R463). -/
def slotArgs (s : State) (slot : Nat) (beat : DWord) : List Byte :=
  walkonArgs (slotOf s slot) slot (walkonStep slot) beat (match reqOf s (slotOf s slot).req with | some r => r.seed | none => 0)

/-- The engine of a window, with the argument block of the Walk-on that it takes. -/
def walkonEngine (y : Engine) (p : Nat) (args : List Byte) : Engine :=
  { y with serv := { y.serv with lastPart := if engineClean y then some p else y.serv.lastPart }, lm := tabWrite 0#8 y.lm 0 args }

/-- The context `c` is that of a Walk-on of a slot in a window. -/
def walkonRun (s : State) (slot p index : Nat) (c : EntryCtx) : Prop :=
  c.kind = 1 ∧ c.part = p ∧ c.slot = some slot ∧ c.index = index ∧ c.req = (slotOf s slot).req

/-- A slot's Walk-on has begun in a window, before its engine takes it. -/
def walkonBegun (slot index : Nat) (s t : State) : Prop :=
  t.eng = s.eng ∧ t.fault = s.fault ∧ (slotOf t slot).state = .running ∧ tabGet none t.ro.occupied index = some slot ∧
    t.board.dispatched = s.board.dispatched + 1 ∧ regW t 0x10048 = regW s 0x10048 + 1

theorem walkonBegun_addWalkonJob {slot index : Nat} {s t : State} (h : walkonBegun slot index s t) (x : Slot) (cluster step base : Nat)
    (beat : DWord) : walkonBegun slot index s (addWalkonJob x cluster step base beat t) := by
  obtain ⟨v, hv⟩ := addWalkonJob_frame x cluster step base beat t
  rw [hv]
  exact h

theorem startWalkon_eq (slot e p : Nat) (q : Nat × Entry) (beat : DWord) (s : State) : ∃ c t,
    startWalkon slot e p q beat s = settle (giveEntry e c (setEng e (walkonEngine (engOf t e) p (slotArgs s slot beat)) t)) ∧
    walkonRun s slot p q.1 c ∧ walkonBegun slot q.1 s t := by
  refine ⟨_, _, rfl, ⟨rfl, rfl, rfl, rfl, rfl⟩, walkonBegun_addWalkonJob ?_ _ _ _ _ _⟩
  rw [slotTo_running]
  exact ⟨rfl, rfl, congrArg Slot.state (slotOf_setSlot_self slot _ _),
    tabGet_set_self none s.ro.occupied q.1 (some slot), rfl, regW_setReg_self 0x10048 (regW s 0x10048 + 1) _⟩

theorem tabRead_of_write_tabRead (t : Tab Byte) {n : Nat} :
    tabRead 0#8 (tabWrite 0#8 t 0 (tabRead 0#8 t 0 n)) 0 n = tabRead 0#8 t 0 n := by
  have h := tabRead_write 0#8 t 0 (tabRead 0#8 t 0 n)
  rwa [tabRead_length] at h

theorem blockCtx_keeps (s : State) (c : EntryCtx) (bs : List Byte) :
    let d := blockCtx s c bs
    d.kind = c.kind ∧ d.part = c.part ∧ d.slot = c.slot ∧ d.index = c.index ∧ d.req = c.req := ⟨rfl, rfl, rfl, rfl, rfl⟩

/-- An engine that is given a Walk-on runs it, at once or after a clear, with the argument block in its LM. -/
theorem giveEntry_walkon {e slot : Nat} {c : EntryCtx} (s : State) (hslot : c.slot = some slot) :
    let t := giveEntry e c s
    (∃ d, (engOf t e).run = some d ∧ d.kind = c.kind ∧ d.part = c.part ∧ d.slot = c.slot ∧ d.index = c.index ∧ d.req = c.req) ∧
    tabRead 0#8 (engOf t e).lm 0 256 = tabRead 0#8 (engOf s e).lm 0 256 ∧ (∀ k, k ≠ e → engOf t k = engOf s k) ∧
    { t with eng := s.eng } = s := by
  by_cases h : (engOf s e).serv.lastPart = some c.part
  · set y := dispatched (engOf s e) c .running with hy
    have hrun : (engOf (setEng e y s) e).run = some c := by rw [engOf_setEng_self]; rfl
    rw [giveEntry_of_same h, startEntry_of_slot hrun (by simp [hslot]), engOf_setEng_self]
    dsimp only
    rw [engOf_setEng_self]
    refine ⟨⟨_, rfl, blockCtx_keeps _ _ _⟩, ?_, fun k hk => ?_, rfl⟩
    · rw [begun_lm, tabRead_of_write_tabRead]
      rfl
    · rw [engOf_setEng_of_ne _ _ hk, engOf_setEng_of_ne _ _ hk]
  · rw [giveEntry_of_other h]
    dsimp only
    rw [engOf_setEng_self]
    exact ⟨⟨c, rfl, rfl, rfl, rfl, rfl, rfl⟩, rfl, fun k hk => engOf_setEng_of_ne _ _ hk, rfl⟩

/-- A Walk-on that finds its window free, and its request idle, runs in it. -/
theorem startWalkon_result (slot e p : Nat) (q : Nat × Entry) (beat : DWord) {s : State} (hfw : s.fault.fwPoison = false) :
    let t := startWalkon slot e p q beat s
    (slotOf t slot).state = .running ∧ tabGet none t.ro.occupied q.1 = some slot ∧ t.board.dispatched = s.board.dispatched + 1 ∧
    regW t 0x10048 = regW s 0x10048 + 1 ∧ (∀ k, k ≠ e → engOf t k = engOf s k) ∧
    (∃ d, (engOf t e).run = some d ∧ walkonRun s slot p q.1 d) ∧ tabRead 0#8 (engOf t e).lm 0 256 = slotArgs s slot beat := by
  obtain ⟨c, u, heq, ⟨hkind, hpart, hslot, hindex, hreq⟩, heng, hfault, hstate, hocc, hdisp, hreg⟩ := startWalkon_eq slot e p q beat s
  set v := setEng e (walkonEngine (engOf u e) p (slotArgs s slot beat)) u with hv
  obtain ⟨⟨d, hrun, dkind, dpart, dslot, dindex, dreq⟩, hlm, hother, hframe⟩ := giveEntry_walkon (e := e) v hslot
  set t := giveEntry e c v with ht
  have hboard : t.board = u.board := (congrArg State.board hframe).trans rfl
  have hro : t.ro = u.ro := (congrArg State.ro hframe).trans rfl
  have hregs : t.regs = u.regs := (congrArg State.regs hframe).trans rfl
  have hfaultT : t.fault = u.fault := (congrArg State.fault hframe).trans rfl
  have hfw' : t.fault.fwPoison = false := by rw [hfaultT, hfault, hfw]
  intro t'
  have ht' : t' = t := heq.trans (settle_of_fwPoison_false hfw')
  rw [ht']
  refine ⟨?_, ?_, ?_, ?_, fun k hk => ?_, ⟨d, hrun, dkind.trans hkind, dpart.trans hpart, dslot.trans hslot, dindex.trans hindex,
    dreq.trans hreq⟩, ?_⟩
  · rw [slotOf, hboard]
    exact hstate
  · rw [hro, hocc]
  · rw [hboard, hdisp]
  · rw [regW, hregs]
    exact hreg
  · rw [hother k hk, hv, engOf_setEng_of_ne _ _ hk, engOf, heng, engOf]
  · rw [hlm, hv, engOf_setEng_self]
    have h := tabRead_write 0#8 (engOf u e).lm 0 (slotArgs s slot beat)
    rwa [slotArgs, length_walkonArgs] at h

theorem walkonDispatch_result {slot e p : Nat} {q : Nat × Entry} {s : State} (hs : slot < 128)
    (hpend : (slotOf s slot).state = .pending) (hreg : (slotOf s slot).reg = some p) (hlead : follows s = false)
    (hpick : pickWindow s (slotOf s slot) = some q) (he : engSlot s (eTarget q.2) = some e) (hidle : engineIdle s e = true)
    (hfw : s.fault.fwPoison = false) (hgroups : s.serve.groups.all (fun g => !g.plan.reqs.contains (slotOf s slot).req) = true) :
    leadsTo (exec (.walkonDispatch slot) s) fun t =>
      (slotOf t slot).state = .running ∧ tabGet none t.ro.occupied q.1 = some slot ∧ t.board.dispatched = s.board.dispatched + 1 ∧
      regW t 0x10048 = regW s 0x10048 + 1 ∧ (∀ k, k ≠ e → engOf t k = engOf s k) ∧
      (∃ d, (engOf t e).run = some d ∧ walkonRun s slot p q.1 d) ∧ tabRead 0#8 (engOf t e).lm 0 256 = slotArgs s slot s.beat.num := by
  have hany : (s.serve.groups.any fun g => g.plan.reqs.contains (slotOf s slot).req) = false := by
    rw [List.any_eq_false]
    exact fun g hg => by simpa using List.all_eq_true.1 hgroups g hg
  have hdisp : dispatchWalkon slot s.beat.num s = startWalkon slot e p q s.beat.num s := by
    simp only [dispatchWalkon, hreg, hpick, he, hidle, hany, Bool.not_false, Bool.and_self, if_true]
  have hres := startWalkon_result slot e p q s.beat.num hfw
  simp only [exec_walkonDispatch, execWalkonDispatch, need, hs, decide_true, if_true, hpend, ne_eq, not_true_eq_false, if_false, hlead,
    Bool.false_eq_true, hdisp]
  split
  · exact ⟨_, rfl, hres⟩
  · exact ⟨_, rfl, hres⟩

/-! ### Walk-on sets (R259) -/

theorem setBase_eq (s : State) (k : Nat) : setBase s k = s.flies.areas.getD 2 12 + 3 * k := rfl

theorem walkonSetFree_result {k : Nat} {s : State} (hk : k < 4) (hc : (tabGet WalkonSet.init s.flies.sets k).clearing = true) :
    leadsTo (exec (.walkonSetFree k) s) fun t =>
      let base := 65536 * (s.flies.areas.getD 2 12 + 3 * k)
      tabGet WalkonSet.init t.flies.sets k = ⟨none, false⟩ ∧
      (∀ a, tabGet 0#8 t.flies.mem a = if base ≤ a ∧ a < base + 196608 then 0 else tabGet 0#8 s.flies.mem a) ∧
      { t with flies := s.flies } = s := by
  simp only [exec_walkonSetFree, execWalkonSetFree, need, hk, decide_true, if_true, hc, Bool.not_true, Bool.false_eq_true, if_false, setBase_eq]
  exact ⟨_, rfl, tabGet_set_self WalkonSet.init s.flies.sets k WalkonSet.init, fun a => tabGet_clear _ _ _ _ a, rfl⟩

/-! ### Reservations (R880) -/

theorem markDirty_mem (f : Nat) (s : State) : (markDirty f s).mem = s.mem := by
  unfold markDirty
  split <;> rfl

theorem memByte_takeFrame (f space count : Nat) (resv : Bool) (s : State) (a : Nat) :
    memByte (takeFrame f space count resv s) a = if a / 65536 = f then 0 else memByte s a := by
  have hbytes : (takeFrame f space count resv s).mem.bytes = tabClear s.mem.bytes (65536 * f) 65536 := by
    show (markDirty f _).mem.bytes = _
    rw [markDirty_mem]
    rfl
  have hin : (65536 * f ≤ a ∧ a < 65536 * f + 65536) ↔ a / 65536 = f := by omega
  rw [memByte, hbytes, tabGet_clear]
  simp only [hin]
  rfl

theorem frameOf_takeFrame (f space count : Nat) (resv : Bool) (s : State) (g : Nat) :
    frameOf (takeFrame f space count resv s) g = if g = f then { frameOf (takeFrame f space count resv s) f with
      owner := some space, count := count, resv := resv } else frameOf s g := by
  have hset (h : Nat) (x : Frame) (t : State) (g : Nat) : frameOf (setFrame h x t) g = if g = h then x else frameOf t g :=
    tabGet_set Frame.init t.mem.frames h g x
  have hdirty (t : State) (g : Nat) : frameOf (markDirty f t) g = frameOf t g := by rw [frameOf, markDirty_mem, frameOf]
  have hzero : g ≠ f → frameOf (zeroFrame f space s) g = frameOf s g := fun hg => by
    rw [zeroFrame, hdirty, hset, if_neg hg]
    rfl
  rw [takeFrame, hset]
  split
  · rw [hset, if_pos rfl]
  · next hg => exact hzero hg

theorem slotResv_takeFrame (f space count : Nat) (resv : Bool) (s : State) :
    (takeFrame f space count resv s).mem.slotResv = s.mem.slotResv := by
  show (markDirty f _).mem.slotResv = _
  rw [markDirty_mem]
  rfl

/-- Frames that are taken for a reservation read as 0 and belong to the space; the others stay. -/
theorem takeFrames_result (space : Nat) (fs : List Nat) (s : State) :
    let t := fs.foldl (fun t f => takeFrame f space 0 true t) s
    (∀ a, memByte t a = if a / 65536 ∈ fs then 0 else memByte s a) ∧ (∀ f, f ∈ fs → (frameOf t f).owner = some space) ∧
    (∀ f, f ∉ fs → frameOf t f = frameOf s f) ∧ t.mem.slotResv = s.mem.slotResv := by
  induction fs generalizing s with
  | nil => exact ⟨fun a => by simp, fun f hf => absurd hf (by simp), fun _ _ => rfl, rfl⟩
  | cons g fs ih =>
    obtain ⟨hmem, hown, hkeep, hresv⟩ := ih (takeFrame g space 0 true s)
    refine ⟨fun a => ?_, fun f hf => ?_, fun f hf => ?_, hresv.trans (slotResv_takeFrame _ _ _ _ s)⟩
    · rw [List.foldl_cons, hmem, memByte_takeFrame]
      by_cases ha : a / 65536 ∈ fs <;> by_cases hg : a / 65536 = g <;> simp [ha, hg]
    · by_cases hfs : f ∈ fs
      · exact hown f hfs
      · obtain rfl : f = g := by simpa [hfs] using hf
        rw [List.foldl_cons, hkeep f hfs, frameOf_takeFrame, if_pos rfl]
    · obtain ⟨hne, hfs⟩ : f ≠ g ∧ f ∉ fs := by simpa using hf
      rw [List.foldl_cons, hkeep f hfs, frameOf_takeFrame, if_neg hne]

theorem reservationRefill_result {slot p : Nat} {s : State} (hs : slot < 128) (hreg : (slotOf s slot).reg = some p)
    (hidle : (slotOf s slot).state ≠ .running) (hj : journalOf s p (walkonStep slot) = none) :
    let fs := freeFrames s ((slotOf s slot).pages - (slotFrames s slot).length)
    leadsTo (exec (.walkonReservationRefill slot) s) fun t =>
      slotFrames t slot = slotFrames s slot ++ fs ∧ (∀ a, memByte t a = if a / 65536 ∈ fs then 0 else memByte s a) ∧
      (∀ f, f ∈ fs → (frameOf t f).owner = some p) ∧ (∀ f, f ∉ fs → frameOf t f = frameOf s f) := by
  intro fs
  obtain ⟨hmem, hown, hkeep, -⟩ := takeFrames_result p fs s
  simp only [exec_walkonReservationRefill, execWalkonReservationRefill, need, hs, decide_true, if_true, hreg, hidle, hj, decide_false,
    Option.isSome_none, Bool.or_self, Bool.false_eq_true, if_false]
  exact ⟨_, rfl, tabGet_set_self [] _ slot _, hmem, hown, hkeep⟩

/-- Settles O30: a window opens on the engine's own state or after its clear; a Walk-on that starts gives its engine the slot's argument
block; a set's clear and a slot's refill change the Flies and the reserved frames alone. -/
theorem walkonWindows : Obligations.WalkonWindows := by
  unfold Obligations.WalkonWindows
  exact ⟨fun _ _ _ _ hidx hx he hkind hq hcuts hfrom hto hidle hop =>
      windowOpen_result hidx hx he hkind hq hcuts hfrom hto hidle hop,
    fun _ _ _ _ _ hs hpend hreg hlead hpick he hidle hfw hgroups =>
      walkonDispatch_result hs hpend hreg hlead hpick he hidle hfw hgroups,
    fun _ _ hk hc => walkonSetFree_result hk hc, fun _ _ _ hs hreg hidle hj => reservationRefill_result hs hreg hidle hj⟩

end Sys2Proof.Machine
end


section
/-! SUPPORT. WALKON_REG and WALKON_UNREG (O37): a command's reply, and the registration of a slot program. -/

namespace Sys2Proof.Machine

open Sys2Proof

/-! ### Replies -/

theorem queueEvent_reply_frame (fn k : Nat) (r : Reply) (cid : BitVec 16) (s : State) :
    { queueEvent fn k (.reply r cid) s with net := s.net } = s := by
  simp only [queueEvent]
  split <;> rfl

theorem queueRoce_reply_frame (q : Nat) (r : Reply) (cid : BitVec 16) (s : State) :
    { queueRoce q (.reply r cid) s with net := s.net } = s := by
  rw [queueRoce]
  split
  · rfl
  · split <;> rfl

/-- A reply touches the queue pairs and the records of messages alone. -/
theorem sendReply_frame (r : Reply) (s : State) : { sendReply r s with net := s.net, pair := s.pair } = s := by
  have hrec (b : List Byte) : { addRecord s.beat.num r.job 0x11 0xFF r.seq.toNat b s with net := s.net, pair := s.pair } = s := rfl
  simp only [sendReply]
  split
  · exact (congrArg (fun t : State => { t with pair := s.pair }) (queueEvent_reply_frame _ _ _ _ _)).trans (hrec _)
  · exact (congrArg (fun t : State => { t with pair := s.pair }) (queueRoce_reply_frame _ _ _ _)).trans (hrec _)
  · exact hrec _

theorem qpOf_setQp_self (fn k : Nat) (q : QPair) (s : State) : qpOf (setQp fn k q s) fn k = q :=
  tabGet_set_self QPair.init s.net.qps (qpKey fn k) q

theorem rqpOf_setRqp_self (q : Nat) (x : Option Rqp) (s : State) : rqpOf (setRqp q x s) q = x :=
  tabGet_set_self none s.net.rqps q x

theorem wait_queueEvent {fn k : Nat} {s : State} (ev : OutEvent) (hen : (qpOf s fn k).en = true)
    (hroom : (qpOf s fn k).wait.length < 256) : (qpOf (queueEvent fn k ev s) fn k).wait = (qpOf s fn k).wait ++ [ev] := by
  simp only [queueEvent, hen, hroom, decide_true, Bool.and_self, if_true, qpOf_setQp_self]

theorem rqpOf_queueRoce {q : Nat} {x : Rqp} {s : State} (ev : OutEvent) (hx : rqpOf s q = some x) (hroom : x.wait.length < 256) :
    rqpOf (queueRoce q ev s) q = some { x with wait := x.wait ++ [ev] } := by
  simp only [queueRoce, hx, hroom, if_true, rqpOf_setRqp_self]

/-- A reply goes out by its route (R385). -/
theorem sent_sendReply (r : Reply) (s : State) : sent r s (sendReply r s) := by
  obtain ⟨route, _⟩ := r
  cases route with
  | pcie fn k cid => exact fun hen hroom => wait_queueEvent _ hen hroom
  | roce q => exact fun x hx hroom => rqpOf_queueRoce _ hx hroom
  | internal => exact trivial

theorem answer_eq {c : Cmd} {st : Status} {k : Nat} {v : DWord} {t : State} (hfw : t.fault.fwPoison = false) :
    answer c st k v t = sendReply (replyOf c st k v (effectBeat t)) t := by
  refine settle_of_fwPoison_false ?_
  exact (congrArg (fun u : State => u.fault.fwPoison) (sendReply_frame (replyOf c st k v (effectBeat t)) t)).trans hfw

/-- An answer touches the queue pairs and the records of messages alone. -/
theorem answer_frame (c : Cmd) (st : Status) (k : Nat) (v : DWord) {t : State} (hfw : t.fault.fwPoison = false) :
    { answer c st k v t with net := t.net, pair := t.pair } = t := by
  rw [answer_eq hfw]
  exact sendReply_frame _ t

/-- A command is answered from a state whose queue pairs and Beat are those of its acceptance. -/
theorem replied_answer (c : Cmd) (st : Status) (k : Nat) (v : DWord) {s t : State} (hnet : t.net = s.net) (hbeat : t.beat = s.beat)
    (hinput : t.pair.inputBeat = s.pair.inputBeat) (hfw : t.fault.fwPoison = false) : replied c st k v s (answer c st k v t) := by
  have hsent := sent_sendReply (replyOf c st k v (effectBeat t)) t
  have heffect : effectBeat t = effectBeat s := by rw [effectBeat, effectBeat, hbeat, hinput]
  rw [answer_eq hfw, replied]
  rw [heffect] at hsent ⊢
  simpa only [sent, qpOf, rqpOf, hnet, hbeat] using hsent

/-- A refusal changes nothing but the reply's way out. -/
theorem refuse_result (c : Cmd) (st : Status) {s : State} (hfw : s.fault.fwPoison = false) :
    (refuse c st s).board = s.board ∧ keepsUnits s (refuse c st s) ∧ replied c st 0 0 s (refuse c st s) := by
  have hframe := answer_frame c st 0 0 hfw
  exact ⟨(congrArg State.board hframe :), ⟨(congrArg State.eng hframe :), (congrArg State.sh hframe :), (congrArg State.cue hframe :),
    (congrArg State.flies hframe :), (congrArg (fun u : State => u.mem.bytes) hframe :)⟩, replied_answer c st 0 0 rfl rfl rfl hfw⟩

/-! ### What registrations and frames leave alone -/

/-- The state without its memory, its Walk-on slots, its free values and the frames to send to a partner. -/
def unslotted (s : State) : State :=
  { s with free := 0, mem := .init, board := { s.board with slots := [] }, pair := { s.pair with dirty := [] } }

theorem unslotted_drawn (s : State) : unslotted (drawn s) = unslotted s := rfl

theorem unslotted_foldl {α : Type} (f : State → α → State) (hf : ∀ t a, unslotted (f t a) = unslotted t) (xs : List α) (s : State) :
    unslotted (xs.foldl f s) = unslotted s := by
  induction xs generalizing s with
  | nil => rfl
  | cons x xs ih => rw [List.foldl_cons, ih, hf]

@[simp] theorem unslotted_markDirty (f : Nat) (s : State) : unslotted (markDirty f s) = unslotted s := by
  rw [markDirty]
  split <;> rfl

@[simp] theorem unslotted_takeFrame (f space count : Nat) (resv : Bool) (s : State) :
    unslotted (takeFrame f space count resv s) = unslotted s := by
  have hset (x : Frame) (t : State) : unslotted (setFrame f x t) = unslotted t := rfl
  simp only [takeFrame, zeroFrame]
  rw [hset, unslotted_markDirty, hset]
  rfl

theorem board_markDirty (f : Nat) (s : State) : (markDirty f s).board = s.board := by
  rw [markDirty]
  split <;> rfl

theorem slotOf_takeFrame (f space count : Nat) (resv : Bool) (s : State) (n : Nat) :
    slotOf (takeFrame f space count resv s) n = slotOf s n := by
  show tabGet Slot.init (markDirty f _).board.slots n = _
  rw [board_markDirty]
  rfl

theorem slotOf_takeFrames (space count : Nat) (resv : Bool) (fs : List Nat) (s : State) (n : Nat) :
    slotOf (fs.foldl (fun t f => takeFrame f space count resv t) s) n = slotOf s n := by
  induction fs generalizing s with
  | nil => rfl
  | cons f fs ih => rw [List.foldl_cons, ih, slotOf_takeFrame]

theorem slotOf_freeFrames (fs : List Nat) (s : State) (n : Nat) :
    slotOf (fs.foldl (fun t f => freeFrame f t) s) n = slotOf s n := by
  induction fs generalizing s with
  | nil => rfl
  | cons f fs ih =>
    rw [List.foldl_cons, ih]
    rfl

theorem unregSlot_frame (i : Nat) (s : State) : unslotted (unregSlot i s) = unslotted s :=
  unslotted_foldl (fun t f => freeFrame f t) (fun _ _ => rfl) _ s

theorem slotOf_unregSlot_of_ne {i n : Nat} (s : State) (h : n ≠ i) : slotOf (unregSlot i s) n = slotOf s n :=
  (slotOf_setSlot_of_ne _ _ h).trans (slotOf_freeFrames _ s n)

theorem regSlot_frame (slot part image pages predUs : Nat) (tpl : Option SamplerJob) (args : List Byte) (s : State) :
    unslotted (regSlot slot part image pages predUs tpl args s) = unslotted s :=
  unslotted_foldl _ (fun t f => unslotted_takeFrame f part 0 true t) _ s

/-- A slot that a program is registered in: its program, its templates and its reservation (R65, R328, R463). -/
theorem regSlot_result (slot part image pages predUs : Nat) (tpl : Option SamplerJob) (args : List Byte) (s : State) :
    let t := drawn (regSlot slot part image pages predUs tpl args s)
    (slotOf t slot).reg = some part ∧ (slotOf t slot).image = image ∧ (slotOf t slot).pages = pages ∧
      (slotOf t slot).predUs = predUs ∧ (slotOf t slot).argTpl = args ∧ (slotOf t slot).samplerTpl = tpl ∧
      slotFrames t slot = freeFrames s pages ∧ ∀ n, n ≠ slot → slotOf t n = slotOf s n := by
  have hdrawn (u : State) (n : Nat) : slotOf (drawn u) n = slotOf u n := rfl
  simp only [hdrawn, regSlot, slotOf_setSlot_self]
  exact ⟨trivial, trivial, trivial, trivial, trivial, trivial, tabGet_set_self [] _ slot _,
    fun n h => (slotOf_setSlot_of_ne _ _ h).trans (slotOf_takeFrames _ _ _ _ s n)⟩

/-! ### The commands (R390) -/

/-- A command's read of partition memory without errors. -/
theorem readPart_of_readable {part va n : Nat} {s : State} (h : readable part va n s) :
    readPart part va n s = (s, .bytes (bytesAt s part va n)) := by
  rw [readPart, bytesAt, dvRead_of_clean h.1 rfl h.2]
  rfl

theorem length_bytesAt {part va n : Nat} {s : State} (h : readable part va n s) : (bytesAt s part va n).length = n := by
  rw [bytesAt, dvRead_of_clean h.1 rfl h.2]
  exact dvBytes_length _ _ _ _ _

/-- The Sampler job template of a registration: none where the command names none. -/
def templateBytes (c : Cmd) (s : State) : List Byte := if inl c 32 8 = 0 then [] else bytesAt s c.part (inl c 32 8) 64

theorem readTemplate_eq {c : Cmd} {s : State} (h : inl c 32 8 ≠ 0 → readable c.part (inl c 32 8) 64 s) :
    readTemplate c.part (inl c 32 8) s = (s, .bytes (templateBytes c s)) := by
  rw [readTemplate, templateBytes]
  split
  · rfl
  · next hne => exact readPart_of_readable (h hne)

theorem templateBytes_eq_nil_iff {c : Cmd} {s : State} (h : inl c 32 8 ≠ 0 → readable c.part (inl c 32 8) 64 s) :
    templateBytes c s = [] ↔ inl c 32 8 = 0 := by
  rw [templateBytes]
  split
  · next hz => simp [hz]
  · next hne =>
    have hlen := length_bytesAt (h hne)
    exact ⟨fun hnil => by simp [hnil] at hlen, fun hz => absurd hz hne⟩

theorem walkonUnreg_result {c : Cmd} {s : State} (hacc : accepted c 0x13 0 [] s) (hslot : c.obj.toNat ≤ 127)
    (hreg : (slotOf s c.obj.toNat).reg = some c.part) : leadsTo (exec (.walkonUnreg c) s) fun t =>
      slotOf t c.obj.toNat = { slotOf s c.obj.toNat with leaving := true } ∧
      (∀ n, n ≠ c.obj.toNat → slotOf t n = slotOf s n) ∧ keepsUnits s t ∧ replied c 0 0 0 s t := by
  obtain ⟨hpart, hstarted, hcheck, hfw⟩ := hacc
  have hexec : exec (.walkonUnreg c) s = .next (answer c 0 0 0
      (setSlot c.obj.toNat { slotOf s c.obj.toNat with leaving := true } s)) := by
    simp only [exec_walkonUnreg, execWalkonUnreg, mailbox, need, hpart, hstarted, decide_true, if_true, walkonUnregOp, hcheck,
      Nat.not_lt.2 hslot, if_false, hreg, ne_eq, not_true_eq_false]
  have hframe := answer_frame c 0 0 0 (t := setSlot c.obj.toNat { slotOf s c.obj.toNat with leaving := true } s) hfw
  have hslots (n : Nat) := (congrArg (fun u => slotOf u n) hframe :)
  exact ⟨_, hexec, (hslots _).trans (slotOf_setSlot_self _ _ s), fun n h => (hslots n).trans (slotOf_setSlot_of_ne _ s h),
    ⟨(congrArg State.eng hframe :), (congrArg State.sh hframe :), (congrArg State.cue hframe :), (congrArg State.flies hframe :),
      (congrArg (fun u : State => u.mem.bytes) hframe :)⟩, replied_answer c 0 0 0 rfl rfl rfl hfw⟩

theorem walkonRegCheck_eq {c : Cmd} {k : Nat} {x : Image} {s : State}
    (hcheck : cmdCheck c 0x12 0 [(32, 8), (40, 8), (48, 2), (52, 4)] = none) (himg : imageAt s c.obj.toNat = some (k, x))
    (hpart : x.part = c.part) (hload : x.unloading = false) (hwalkon : x.walkon = true) (hfl : x.flMin ≤ 196608)
    (hslot : inl c 48 2 ≤ 127) (hreg : (slotOf s (inl c 48 2)).reg = none ∨ (slotOf s (inl c 48 2)).reg = some c.part)
    (halign : inl c 40 8 % 64 = 0) :
    walkonRegCheck c s = if s.beat.period < 4 * (predictedUs s + 2) then some 0x88 else none := by
  simp only [walkonRegCheck, hcheck, himg, hpart, Nat.not_lt.2 hslot, hload, hwalkon, Nat.not_lt.2 hfl, halign]
  obtain h | h := hreg <;> simp [h]

theorem clFits_eq_false_iff (args : List Byte) (clMax : Nat) :
    clFits (leAt args 12 2) (leAt args 14 2) clMax = false ↔
      1024 < leAt args 14 2 ∨ leAt args 14 2 < clMax ∨ 65536 < leAt args 12 2 + leAt args 14 2 := by
  simp only [clFits, Bool.and_eq_false_iff, decide_eq_false_iff_not, Nat.not_le]
  tauto

/-- The state in which a registered program stands in its slot, before the reply. -/
def registered (c : Cmd) (k : Nat) (s : State) : State :=
  drawn (regSlot (inl c 48 2) c.part k (inl c 52 4) (predictedUs s)
    (if inl c 32 8 = 0 then none else some (parseJob 0 (bytesAt s c.part (inl c 32 8) 64)))
    (bytesAt s c.part (inl c 40 8) 256) (unregSlot (inl c 48 2) s))

theorem registered_frame (c : Cmd) (k : Nat) (s : State) : unslotted (registered c k s) = unslotted s := by
  rw [registered, unslotted_drawn, regSlot_frame, unregSlot_frame]

theorem registered_result (c : Cmd) (k : Nat) {s : State} (hfw : s.fault.fwPoison = false) :
    let t := answer c 0 0 0 (registered c k s)
    (slotOf t (inl c 48 2)).reg = some c.part ∧ (slotOf t (inl c 48 2)).image = k ∧ (slotOf t (inl c 48 2)).pages = inl c 52 4 ∧
      (slotOf t (inl c 48 2)).predUs = predictedUs s ∧
      (slotOf t (inl c 48 2)).argTpl = bytesAt s c.part (inl c 40 8) 256 ∧
      (slotOf t (inl c 48 2)).samplerTpl =
        (if inl c 32 8 = 0 then none else some (parseJob 0 (bytesAt s c.part (inl c 32 8) 64))) ∧
      slotFrames t (inl c 48 2) = freeFrames (unregSlot (inl c 48 2) s) (inl c 52 4) ∧
      (∀ n, n ≠ inl c 48 2 → slotOf t n = slotOf s n) ∧ t.eng = s.eng ∧ replied c 0 0 0 s t := by
  have hkeep := registered_frame c k s
  have hfw' : (registered c k s).fault.fwPoison = false := (congrArg (fun u : State => u.fault.fwPoison) hkeep :).trans hfw
  have hframe := answer_frame c 0 0 0 hfw'
  have hslots (n : Nat) : slotOf (answer c 0 0 0 (registered c k s)) n = slotOf (registered c k s) n := (congrArg (slotOf · n) hframe :)
  have hframes : slotFrames (answer c 0 0 0 (registered c k s)) (inl c 48 2) = slotFrames (registered c k s) (inl c 48 2) :=
    (congrArg (slotFrames · (inl c 48 2)) hframe :)
  obtain ⟨hreg, himage, hpages, hpred, hargs, htpl, hresv, hothers⟩ := regSlot_result (inl c 48 2) c.part k (inl c 52 4) (predictedUs s)
    (if inl c 32 8 = 0 then none else some (parseJob 0 (bytesAt s c.part (inl c 32 8) 64)))
    (bytesAt s c.part (inl c 40 8) 256) (unregSlot (inl c 48 2) s)
  simp only [hslots, hframes]
  exact ⟨hreg, himage, hpages, hpred, hargs, htpl, hresv, fun n h => (hothers n h).trans (slotOf_unregSlot_of_ne s h),
    (congrArg State.eng hframe :).trans (congrArg State.eng hkeep :),
    replied_answer c 0 0 0 (congrArg State.net hkeep :) (congrArg State.beat hkeep :)
      (congrArg (fun u : State => u.pair.inputBeat) hkeep :) hfw'⟩

/-- What a WALKON_REG comes to whose slot and image are in order and whose reads succeed. -/
theorem walkonRegOp_eq {c : Cmd} {k : Nat} {x : Image} {s : State}
    (hcheck : walkonRegCheck c s = if s.beat.period < 4 * (predictedUs s + 2) then some 0x88 else none)
    (himg : imageAt s c.obj.toNat = some (k, x))
    (htpl : inl c 32 8 ≠ 0 → readable c.part (inl c 32 8) 64 s ∧ (parseJob 0 (bytesAt s c.part (inl c 32 8) 64)).resvOk = true ∧
      (parseJob 0 (bytesAt s c.part (inl c 32 8) 64)).crcOk = true)
    (hargs : readable c.part (inl c 40 8) 256 s) (hcover : framesCover (unregSlot (inl c 48 2) s) (inl c 52 4) = true) :
    walkonRegOp c s = if s.beat.period < 4 * (predictedUs s + 2) then refuse c 0x88 s
      else if clFits (leAt (bytesAt s c.part (inl c 40 8) 256) 12 2) (leAt (bytesAt s c.part (inl c 40 8) 256) 14 2) x.clMax = false
      then refuse c 0x81 s else answer c 0 0 0 (registered c k s) := by
  have hread := fun h => (htpl h).1
  have hjob : (decide (templateBytes c s ≠ []) && (!(parseJob 0 (templateBytes c s)).resvOk || !(parseJob 0 (templateBytes c s)).crcOk))
      = false := by
    by_cases hz : inl c 32 8 = 0
    · simp [templateBytes, hz]
    · obtain ⟨-, hresv, hcrc⟩ := htpl hz
      simp [templateBytes, hz, hresv, hcrc]
  have htemplate : (if templateBytes c s = [] then none else some (parseJob 0 (templateBytes c s))) =
      if inl c 32 8 = 0 then none else some (parseJob 0 (bytesAt s c.part (inl c 32 8) 64)) := by
    simp only [templateBytes_eq_nil_iff hread]
    split
    · rfl
    · next hne => rw [templateBytes, if_neg hne]
  have hmax : clMaxOf s c.obj.toNat = x.clMax := by rw [clMaxOf, himg]
  by_cases hlong : s.beat.period < 4 * (predictedUs s + 2)
  · simp only [walkonRegOp, hcheck, hlong, if_true]
  · simp only [walkonRegOp, hcheck, hlong, if_false, readTemplate_eq hread, readPart_of_readable hargs, hjob, hmax, hcover, himg,
      htemplate, Bool.false_eq_true, Bool.not_true, Bool.not_eq_true', registered]

theorem walkonReg_result {c : Cmd} {k : Nat} {x : Image} {s : State} (hacc : accepted c 0x12 0 [(32, 8), (40, 8), (48, 2), (52, 4)] s)
    (himg : imageAt s c.obj.toNat = some (k, x)) (hpart : x.part = c.part) (hload : x.unloading = false) (hwalkon : x.walkon = true)
    (hfl : x.flMin ≤ 196608) (hslot : inl c 48 2 ≤ 127)
    (hreg : (slotOf s (inl c 48 2)).reg = none ∨ (slotOf s (inl c 48 2)).reg = some c.part) (halign : inl c 40 8 % 64 = 0)
    (htpl : inl c 32 8 ≠ 0 → readable c.part (inl c 32 8) 64 s ∧ (parseJob 0 (bytesAt s c.part (inl c 32 8) 64)).resvOk = true ∧
      (parseJob 0 (bytesAt s c.part (inl c 32 8) 64)).crcOk = true)
    (hargs : readable c.part (inl c 40 8) 256 s) (hcover : framesCover (unregSlot (inl c 48 2) s) (inl c 52 4) = true) :
    exec (.walkonReg c) s = .next (if s.beat.period < 4 * (predictedUs s + 2) then refuse c 0x88 s
      else if clFits (leAt (bytesAt s c.part (inl c 40 8) 256) 12 2) (leAt (bytesAt s c.part (inl c 40 8) 256) 14 2) x.clMax = false
      then refuse c 0x81 s else answer c 0 0 0 (registered c k s)) := by
  obtain ⟨hc, hstarted, hcheck, -⟩ := hacc
  rw [← walkonRegOp_eq (walkonRegCheck_eq hcheck himg hpart hload hwalkon hfl hslot hreg halign) himg htpl hargs hcover]
  simp only [exec_walkonReg, execWalkonReg, mailbox, need, hc, hstarted, decide_true, if_true]

/-- Settles O37: the checks come first and then change nothing but the reply's way out; a program that passes them is registered in its
slot alone. -/
theorem walkonRegistration : Obligations.WalkonRegistration := by
  unfold Obligations.WalkonRegistration
  refine ⟨fun c k x s hacc himg hpart hload hwalkon hfl => ?_, fun c s hacc hslot hreg => walkonUnreg_result hacc hslot hreg⟩
  intro slot tpl job hslot hreg halign htpl hargs args hcover
  have hexec := walkonReg_result hacc himg hpart hload hwalkon hfl hslot hreg halign htpl hargs hcover
  have hfw := hacc.2.2.2
  by_cases hlong : s.beat.period < 4 * (predictedUs s + 2)
  · rw [if_pos hlong] at hexec
    refine ⟨_, hexec, ?_⟩
    beta_reduce
    rw [if_pos hlong]
    exact refuse_result c 0x88 hfw
  · rw [if_neg hlong] at hexec
    by_cases hcl : 1024 < leAt args 14 2 ∨ leAt args 14 2 < x.clMax ∨ 65536 < leAt args 12 2 + leAt args 14 2
    · rw [if_pos ((clFits_eq_false_iff args x.clMax).2 hcl)] at hexec
      refine ⟨_, hexec, ?_⟩
      beta_reduce
      rw [if_neg hlong, if_pos hcl]
      exact refuse_result c 0x81 hfw
    · rw [if_neg ((clFits_eq_false_iff args x.clMax).not.2 hcl)] at hexec
      refine ⟨_, hexec, ?_⟩
      beta_reduce
      rw [if_neg hlong, if_neg hcl]
      exact registered_result c k hfw

end Sys2Proof.Machine
end


section
/-! SUPPORT. The commit of a step and the limits on requests (O32): what a commit does to the requests of its group, and what it leaves
alone. -/

namespace Sys2Proof.Machine

open Sys2Proof

/-! ### The serving state behind replies, results and the ring -/

/-- A fold keeps what each of its steps keeps. -/
theorem foldl_keeps {α β : Type} (v : State → β) (f : State → α → State) (hf : ∀ t a, v (f t a) = v t) (xs : List α) (s : State) :
    v (xs.foldl f s) = v s := by
  induction xs generalizing s with
  | nil => rfl
  | cons x xs ih => rw [List.foldl_cons, ih, hf]

theorem serve_withBoard (ring : Tab Word) (head : Word) (s : State) :
    { s with board := { s.board with ring := ring, ringHead := head } }.serve = s.serve := rfl

theorem ringHead_withBoard (ring : Tab Word) (head : Word) (s : State) :
    { s with board := { s.board with ring := ring, ringHead := head } }.board.ringHead = head := rfl

theorem serve_ringWrite (e : Nat) (st : Status) (p : Nat) (w : Bool) (n q r : Nat) (s : State) :
    (ringWrite e st p w n q r s).serve = s.serve := serve_withBoard _ _ s

theorem ringHead_ringWrite (e : Nat) (st : Status) (p : Nat) (w : Bool) (n q r : Nat) (s : State) :
    (ringWrite e st p w n q r s).board.ringHead = s.board.ringHead + 1 := ringHead_withBoard _ _ s

@[simp] theorem serve_dropResult (id : Nat) (s : State) : (dropResult id s).serve = s.serve := by
  rw [dropResult]
  split
  · rfl
  · rw [serve_ringWrite]
    rfl

@[simp] theorem serve_dropAtPort (slice : Nat) (ev : OutEvent) (s : State) : (dropAtPort slice ev s).serve = s.serve := by
  cases ev with
  | result id => exact serve_dropResult id _
  | _ => rfl

@[simp] theorem serve_queueEvent (fn k : Nat) (ev : OutEvent) (s : State) : (queueEvent fn k ev s).serve = s.serve := by
  simp only [queueEvent]
  split
  · rfl
  · exact serve_dropAtPort _ _ _

@[simp] theorem serve_queueRoce (q : Nat) (ev : OutEvent) (s : State) : (queueRoce q ev s).serve = s.serve := by
  rw [queueRoce]
  split
  · exact serve_dropAtPort _ _ _
  · split
    · rfl
    · exact serve_dropAtPort _ _ _

@[simp] theorem serve_sendEvent (r : Route) (ev : OutEvent) (s : State) : (sendEvent r ev s).serve = s.serve := by
  cases r with
  | pcie fn k cid => exact serve_queueEvent _ _ _ s
  | roce q => exact serve_queueRoce _ _ s
  | internal => rfl

@[simp] theorem serve_slotTo (i : Nat) (st : SlotState) (x : Status) (s : State) : (slotTo i st x s).serve = s.serve := by
  simp only [slotTo]
  split
  · rfl
  · split
    · exact serve_queueEvent _ _ _ _
    · rfl

/-- No slot's new state makes an entry of the result status ring. -/
@[simp] theorem ringHead_slotTo (i : Nat) (st : SlotState) (x : Status) (s : State) :
    (slotTo i st x s).board.ringHead = s.board.ringHead := by
  have hqueue (fn k : Nat) (t : State) : (queueEvent fn k (.walkon i x (slotCode st)) t).board = t.board := by
    simp only [queueEvent]
    split <;> rfl
  simp only [slotTo]
  split
  · rfl
  · split
    · rw [hqueue]
      rfl
    · rfl

theorem serve_bumpServe (p k : Nat) (s : State) :
    (bumpServe p k s).serve = { s.serve with cnt := tabMod 0#32 s.serve.cnt (4 * p + k) (· + 1) } := rfl

theorem board_bumpServe (p k : Nat) (s : State) : (bumpServe p k s).board = s.board := rfl

theorem reqOf_of_serve {s t : State} (h : t.serve = s.serve) (i : Nat) : reqOf t i = reqOf s i := by rw [reqOf, h, reqOf]

theorem reqOf_setReq_self (i : Nat) (r : Option Request) (s : State) : reqOf (setReq i r s) i = r :=
  tabGet_set_self none s.serve.reqs i r

theorem reqOf_setReq_of_ne {i j : Nat} (r : Option Request) (s : State) (h : j ≠ i) : reqOf (setReq i r s) j = reqOf s j :=
  tabGet_set_of_ne none s.serve.reqs r h

/-! ### The end of a request (R395) -/

/-- A request as its end leaves it. -/
def endedRequest (r : Request) (done : Bool) (status : Status) (unit : BitVec 16) : Request :=
  { r with state := if done then .done else .failed, status := status, failUnit := unit, pausePending := false, failAtEnd := none,
           cancelled := false }

/-- The end of a live request: its record, one entry of the ring, and its slots. -/
theorem endRequest_serve {i : Nat} {r : Request} {s : State} (done : Bool) (status : Status) (unit : BitVec 16)
    (hr : reqOf s i = some r) (hlive : r.state.live = true) :
    (endRequest i done status unit s).serve =
      (bumpServe r.part (if done then 2 else 3) (setReq i (some (endedRequest r done status unit)) s)).serve ∧
    (endRequest i done status unit s).board.ringHead = s.board.ringHead + 1 := by
  have hbump (p : Prop) [Decidable p] (a : Nat) (t : State) : (if p then bump a t else t).serve = t.serve ∧
      (if p then bump a t else t).board = t.board := by split <;> exact ⟨rfl, rfl⟩
  simp only [endRequest, hr, hlive, Bool.not_true, Bool.false_eq_true, if_false]
  rw [foldl_keeps State.serve _ fun t k => serve_slotTo k _ _ t,
    foldl_keeps (fun t : State => t.board.ringHead) _ fun t k => ringHead_slotTo k _ _ t]
  simp only [hbump, serve_bumpServe, serve_ringWrite, board_bumpServe, ringHead_ringWrite]
  exact ⟨rfl, rfl⟩

theorem requestEnded_endRequest {i : Nat} {r : Request} {s : State} (done : Bool) (status : Status) (unit : BitVec 16)
    (hr : reqOf s i = some r) (hlive : r.state.live = true) :
    requestEnded i done status unit s (endRequest i done status unit s) ∧ keepsUnits s (endRequest i done status unit s) := by
  obtain ⟨hserve, hhead⟩ := endRequest_serve done status unit hr hlive
  have hreq (j : Nat) : reqOf (endRequest i done status unit s) j = reqOf (setReq i (some (endedRequest r done status unit)) s) j := by
    rw [reqOf, hserve]
    rfl
  have hrest := unended_of_unserved (unserved_endRequest i done status unit s)
  have hunits := unstored_of_unended hrest
  exact ⟨⟨⟨r, hr, (hreq i).trans (reqOf_setReq_self i _ s)⟩, fun j h => (hreq j).trans (reqOf_setReq_of_ne _ s h), hhead⟩,
    eng_of_unstored hunits, sh_of_unstored hunits, cue_of_unstored hunits, flies_of_unstored hunits, bytes_of_unended hrest⟩

theorem carryLimit_result {i : Nat} {r : Request} {s : State} (hi : i < 8192) (hr : reqOf s i = some r) (hlive : r.state.live = true)
    (hcuts : fld (regW s 0x1000C) 27 24 ≤ r.cuts) :
    leadsTo (exec (.carryLimit i) s) fun t => requestEnded i false 1 0 s t ∧ keepsUnits s t := by
  have hexec : exec (.carryLimit i) s = .next (endRequest i false 1 0 s) := by
    simp only [exec_carryLimit, execCarryLimit, need, hi, decide_true, if_true, hr, hlive, regF, hcuts, Bool.and_self, failRequest]
  exact ⟨_, hexec, requestEnded_endRequest false 1 0 hr hlive⟩

theorem agePromote_result {i : Nat} {r : Request} {s : State} (hi : i < 8192) (hr : reqOf s i = some r) (hlive : r.state.live = true)
    (hstate : r.state ≠ .paused) (hage : fld (regW s 0x1000C) 23 16 ≤ r.age) :
    leadsTo (exec (.agePromote i) s) fun t =>
      reqOf t i = some { r with promoted := true } ∧ (∀ j, j ≠ i → reqOf t j = reqOf s j) ∧
      { t with serve := { t.serve with reqs := s.serve.reqs } } = s := by
  have hexec : exec (.agePromote i) s = .next (setReq i (some { r with promoted := true }) s) := by
    simp only [exec_agePromote, execAgePromote, need, hi, decide_true, if_true, hr, hlive, hstate, ne_eq, not_false_eq_true, regF, hage,
      Bool.and_self]
  exact ⟨_, hexec, reqOf_setReq_self i _ s, fun j h => reqOf_setReq_of_ne _ s h, rfl⟩

/-! ### The rows of a step (R436, R438) -/

/-- A read of memory without errors that does not fault changes nothing. -/
theorem dvRead_st_of_fault_none {c : MemCtx} {va n : Nat} {s : State} (hclean : cleanMem s) (hheld : c.held = [])
    (h : (dvRead c va n s).fault.isSome = false) : (dvRead c va n s).st = s := by
  cases hf : rangeFault s c false va n with
  | none =>
    rw [dvRead_of_clean hclean hheld hf]
    rfl
  | some e => simp [dvRead, hf] at h

/-- Rows that are all read change nothing. -/
theorem stepRows_st {m : MemCtx} (hheld : m.held = []) (jobs : List QJob) {s : State} (hclean : cleanMem s)
    (h : (stepRows m jobs s).2.2 = false) : (stepRows m jobs s).1 = s := by
  rw [stepRows] at h ⊢
  generalize hf : (fun (acc : State × List (DWord × DWord) × Bool) (j : QJob) => _) = f at h ⊢
  have hbad (acc : State × List (DWord × DWord) × Bool) (j : QJob) (hacc : (f acc j).2.2 = false) :
      acc.2.2 = false ∧ (dvRead m j.job.rowmap (8 * j.job.nrows) acc.1).fault.isSome = false ∧
      (dvRead m j.job.outAddr (8 * j.job.nrows) (dvRead m j.job.rowmap (8 * j.job.nrows) acc.1).st).fault.isSome = false := by
    subst hf
    simp only [Bool.or_eq_false_iff] at hacc
    obtain ⟨hacc, ⟨_, ha⟩, hb⟩ := hacc
    exact ⟨hacc, ha, hb⟩
  have hst (acc : State × List (DWord × DWord) × Bool) (j : QJob) : (f acc j).1 =
      (dvRead m j.job.outAddr (8 * j.job.nrows) (dvRead m j.job.rowmap (8 * j.job.nrows) acc.1).st).st := by
    subst hf
    rfl
  have hmono : ∀ (js : List QJob) (acc : State × List (DWord × DWord) × Bool), (js.foldl f acc).2.2 = false → acc.2.2 = false := by
    intro js
    induction js with
    | nil => exact fun _ h => h
    | cons j js ih => exact fun acc h => (hbad acc j (ih _ h)).1
  suffices hfold : ∀ (js : List QJob) (acc : State × List (DWord × DWord) × Bool), acc.1 = s → (js.foldl f acc).2.2 = false →
      (js.foldl f acc).1 = s from hfold jobs _ rfl h
  intro js
  induction js with
  | nil => exact fun _ h _ => h
  | cons j js ih =>
    intro acc hacc h
    obtain ⟨-, ha, hb⟩ := hbad acc j (hmono js _ h)
    rw [hacc] at ha hb
    have hfirst := dvRead_st_of_fault_none hclean hheld ha
    rw [hfirst] at hb
    refine ih _ ?_ h
    rw [hst, hacc, hfirst]
    exact dvRead_st_of_fault_none hclean hheld hb

/-! ### Stores to an extended log -/

/-- A change of memory without errors at the addresses of a set alone. -/
def storesIn (p : Nat → Prop) (s t : State) : Prop :=
  unslotted t = unslotted s ∧ cleanMem t ∧ ∀ a, ¬ p a → memByte t a = memByte s a

theorem storesIn_refl {p : Nat → Prop} {s : State} (h : cleanMem s) : storesIn p s s := ⟨rfl, h, fun _ _ => rfl⟩

theorem storesIn_trans {p : Nat → Prop} {s t u : State} (hst : storesIn p s t) (htu : storesIn p t u) : storesIn p s u :=
  ⟨htu.1.trans hst.1, htu.2.1, fun a h => (htu.2.2 a h).trans (hst.2.2 a h)⟩

theorem unslotted_withMem (m : Mem) (s : State) : unslotted { s with mem := m } = unslotted s := rfl

/-- An address of a range. -/
def inRange (pa n a : Nat) : Prop := pa ≤ a ∧ a < pa + n

theorem storesIn_mergeGranule {p : Nat → Prop} {c : MemCtx} {pa : Nat} {bs : List Byte} {s : State} (hclean : cleanMem s)
    (hp : ∀ a, inRange pa bs.length a → p a) : storesIn p s (mergeGranule c pa bs s).1 := by
  refine ⟨?_, cleanMem_mergeGranule hclean pa bs, fun a ha => ?_⟩
  · rw [mergeGranule_of_clean hclean, unslotted_withMem, unslotted_markDirty]
  · rw [mergeGranule_of_clean hclean]
    refine tabGet_write_of_not_mem 0#8 bs _ ?_
    by_contra hin
    exact ha (hp a ⟨by omega, by omega⟩)

theorem storesIn_physWrite {p : Nat → Prop} {pa : Nat} {bs : List Byte} {s : State} (hclean : cleanMem s)
    (hp : ∀ a, inRange pa bs.length a → p a) : storesIn p s (physWrite pa bs s) := by
  have hmem : (if bs = [] then s else markDirty (pa / 65536) s).mem = s.mem := by
    split
    · rfl
    · exact markDirty_mem _ s
  have hrest : unslotted (if bs = [] then s else markDirty (pa / 65536) s) = unslotted s := by
    split
    · rfl
    · exact unslotted_markDirty _ s
  refine ⟨(unslotted_withMem _ _).trans hrest, cleanMem_physWrite hclean pa bs, fun a ha => ?_⟩
  simp only [memByte, physWrite, hmem]
  refine tabGet_write_of_not_mem 0#8 bs _ ?_
  by_contra hin
  exact ha (hp a ⟨by omega, by omega⟩)

theorem storesIn_storePart {p : Nat → Prop} {c : MemCtx} {a : Nat} {xs : List Byte} {r : State × Bool} (hclean : cleanMem r.1)
    (hp : ∀ b, inRange a xs.length b → p b) : storesIn p r.1 (storePart c a xs r).1 := by
  rw [storePart]
  split
  · exact storesIn_refl hclean
  · exact storesIn_mergeGranule hclean hp

/-- A store within one frame changes its own bytes alone. -/
theorem storesIn_storePhys {p : Nat → Prop} {c : MemCtx} {pa : Nat} {bs : List Byte} {s : State} (hclean : cleanMem s)
    (hp : ∀ a, inRange pa bs.length a → p a) : storesIn p s (storePhys c pa bs s).1 := by
  rw [storePhys_eq]
  generalize hhead : (if pa % 64 = 0 then 0 else min (64 - pa % 64) bs.length) = head
  have hle : head ≤ bs.length := by
    subst hhead
    split <;> omega
  generalize hmid : (bs.length - head) / 64 * 64 = mid
  have hfirst : storesIn p s (storePart c pa (bs.take head) (s, false)).1 :=
    storesIn_storePart (r := (s, false)) hclean fun a ha => hp a (by simp only [inRange, List.length_take] at ha ⊢; omega)
  have hsecond := storesIn_physWrite (p := p) (pa := pa + head) (bs := (bs.drop head).take mid) hfirst.2.1 fun a ha => hp a (by
    simp only [inRange, List.length_take, List.length_drop] at ha ⊢; omega)
  exact storesIn_trans (storesIn_trans hfirst hsecond) (storesIn_storePart hsecond.2.1 fun a ha => hp a (by
    simp only [inRange, List.length_drop] at ha ⊢; omega))

/-- A piece of a range lies within a page. -/
theorem within_page_of_mem_pieces {fuel va n : Nat} {p : Nat × Nat} (h : p ∈ pieces fuel va n) : p.1 % 65536 + p.2 ≤ 65536 := by
  induction fuel generalizing va n with
  | zero => simp [pieces] at h
  | succ fuel ih =>
    rw [pieces] at h
    split at h
    · simp at h
    · rcases List.mem_cons.1 h with rfl | h
      · dsimp only
        omega
      · exact ih h

/-- The tokens of a log go into its own frames (R382). -/
theorem storesIn_storeExt (part : Nat) (ext : List Nat) (from_ : Nat) (ts : List Word) {s : State} (hclean : cleanMem s) :
    storesIn (fun a => a / 65536 ∈ ext) s (storeExt part ext from_ ts s) := by
  simp only [storeExt]
  split
  · exact storesIn_refl hclean
  · generalize hps : pagePieces (4 * from_) (ts.flatMap fun t => leBytes 4 t.toNat).length = ps
    have hpage : ∀ p ∈ ps, p.1 % 65536 + p.2 ≤ 65536 := fun p hp => within_page_of_mem_pieces (hps ▸ hp)
    clear hps
    induction ps generalizing s with
    | nil => exact storesIn_refl hclean
    | cons p ps ih =>
      obtain ⟨hfirst, hrest⟩ := List.forall_mem_cons.1 hpage
      have hstep : storesIn (fun a => a / 65536 ∈ ext) s (match ext[p.1 / 65536]? with
          | some f => (storePhys (partMem part 5 true) (65536 * f + p.1 % 65536)
              (slice (ts.flatMap fun t => leBytes 4 t.toNat) (p.1 - 4 * from_) p.2) s).1
          | none => s) := by
        split
        · next f hf =>
          refine storesIn_storePhys hclean fun a ha => ?_
          rw [inRange, length_slice] at ha
          obtain rfl : a / 65536 = f := by omega
          exact List.mem_of_getElem? hf
        · exact storesIn_refl hclean
      exact storesIn_trans hstep (ih hstep.2.1 hrest)

theorem unstored_of_unslotted {s t : State} (h : unslotted t = unslotted s) : unstored t = unstored s := by
  have hview (u : State) : unstored (unslotted u) = unstored u := rfl
  rw [← hview t, h, hview]

end Sys2Proof.Machine
end


section
/-! SUPPORT. The commit of a group (O32): what it writes into its requests' records. -/

namespace Sys2Proof.Machine

open Sys2Proof

/-! ### Token logs (R382) -/

/-- A request without its log and its count table. -/
def unlogged (r : Request) : Request := { r with log := [], counts := [], distinct := 0, countFull := false, logLen := 0 }

theorem unlogged_withCounts (counts : Tab DWord) (distinct : Nat) (full : Bool) (r : Request) :
    unlogged { r with counts := counts, distinct := distinct, countFull := full } = unlogged r ∧
    { r with counts := counts, distinct := distinct, countFull := full }.logLen = r.logLen := ⟨rfl, rfl⟩

theorem countEnter_keeps (r : Request) (t : Word) : unlogged (countEnter r t) = unlogged r ∧ (countEnter r t).logLen = r.logLen := by
  simp only [countEnter]
  split
  · exact unlogged_withCounts r.counts r.distinct true r
  · split
    · split
      · exact unlogged_withCounts r.counts r.distinct true r
      · exact unlogged_withCounts _ _ r.countFull r
    · exact unlogged_withCounts _ r.distinct r.countFull r

theorem countLeave_keeps (r : Request) (t : Word) : unlogged (countLeave r t) = unlogged r ∧ (countLeave r t).logLen = r.logLen := by
  simp only [countLeave]
  split
  · exact ⟨rfl, rfl⟩
  · split
    · exact ⟨rfl, rfl⟩
    · split
      · exact ⟨rfl, rfl⟩
      · split
        · exact unlogged_withCounts _ _ r.countFull r
        · exact unlogged_withCounts _ r.distinct r.countFull r

theorem logAppend_result (r : Request) (t : Word) :
    unlogged (logAppend r t) = unlogged r ∧ (logAppend r t).logLen = r.logLen + 1 := by
  have hlog (q : Request) (log : Tab Word) (n : Nat) : unlogged { q with log := log, logLen := n } = unlogged q := rfl
  have hadd (q : Request) : unlogged (countEnter { q with log := tabSet 0#32 q.log q.logLen t, logLen := q.logLen + 1 } t) = unlogged q ∧
      (countEnter { q with log := tabSet 0#32 q.log q.logLen t, logLen := q.logLen + 1 } t).logLen = q.logLen + 1 := by
    obtain ⟨hrest, hlen⟩ := countEnter_keeps { q with log := tabSet 0#32 q.log q.logLen t, logLen := q.logLen + 1 } t
    exact ⟨hrest.trans (hlog q _ _), hlen⟩
  simp only [logAppend]
  split
  · obtain ⟨hrest, hlen⟩ := countLeave_keeps r (tabGet 0#32 r.log (r.logLen - r.window))
    obtain ⟨hrest', hlen'⟩ := hadd (countLeave r (tabGet 0#32 r.log (r.logLen - r.window)))
    exact ⟨hrest'.trans hrest, by rw [hlen', hlen]⟩
  · exact hadd r

theorem logAppendAll_result (ts : List Word) (r : Request) :
    unlogged (logAppendAll r ts) = unlogged r ∧ (logAppendAll r ts).logLen = r.logLen + ts.length := by
  rw [logAppendAll]
  induction ts generalizing r with
  | nil => exact ⟨rfl, rfl⟩
  | cons t ts ih =>
    obtain ⟨hrest, hlen⟩ := logAppend_result r t
    obtain ⟨hrest', hlen'⟩ := ih (logAppend r t)
    exact ⟨hrest'.trans hrest, by rw [List.foldl_cons, hlen', hlen, List.length_cons]; omega⟩

theorem ext_nextContribs (x : Option SpreadSet) (r : Request) :
    (nextContribs x r).ext = r.ext ∧ (nextContribs x r).logLen = r.logLen := by
  cases x <;> exact ⟨rfl, rfl⟩

/-! ### What a commit writes into a record (R364 to R366, R439) -/

/-- The tokens that a step emits for a request. -/
def commitTokens (rows : List (DWord × DWord)) (i : Nat) (r : Request) : List Word :=
  if (rowsOf rows i).2 then [] else (emission r (rowsOf rows i).1).1

/-- A record after the commit of a step that wrote `n` KV tokens for its request. -/
def advanced (rows : List (DWord × DWord)) (beat : DWord) (i n : Nat) (r r' : Request) : Prop :=
  let ys := commitTokens rows i r
  r'.lastBeat = beat ∧ r'.age = 0 ∧ r'.cuts = 0 ∧ r'.retry = false ∧ r'.emitted = r.emitted + ys.length ∧
    r'.logLen = r.logLen + ys.length ∧ (ys = [] → r'.len = if r.state = .decode then r.len else r.len + n) ∧
    (ys ≠ [] → r'.len + 1 = r'.logLen)

/-- A record without what the end of its request and the settlement of a pause change, and without the number of its last result. -/
def settled (r : Request) : Request :=
  { r with state := .admitted, status := 0, failUnit := 0, pausePending := false, failAtEnd := none, cancelled := false, outSeq := 0 }

theorem advanced_of_settled {rows : List (DWord × DWord)} {beat : DWord} {i n : Nat} {r x y : Request} (h : settled y = settled x)
    (hx : advanced rows beat i n r x) : advanced rows beat i n r y := by
  have hlast : y.lastBeat = x.lastBeat := (congrArg Request.lastBeat h :)
  have hage : y.age = x.age := (congrArg Request.age h :)
  have hcuts : y.cuts = x.cuts := (congrArg Request.cuts h :)
  have hretry : y.retry = x.retry := (congrArg Request.retry h :)
  have hemitted : y.emitted = x.emitted := (congrArg Request.emitted h :)
  have hlog : y.logLen = x.logLen := (congrArg Request.logLen h :)
  have hlen : y.len = x.len := (congrArg Request.len h :)
  simp only [advanced, hlast, hage, hcuts, hretry, hemitted, hlog, hlen]
  exact hx

/-! ### What stays of a request's record and of the other requests -/

/-- The records of commits, the groups, and the requests, of which `i` only as far as its end does not change it. -/
def books (i : Nat) (s : State) : List CommitRec × List Group × (Nat → Option Request) :=
  (s.serve.records, s.serve.groups, fun j => if j = i then (reqOf s j).map settled else reqOf s j)

theorem books_of_serve {s t : State} (h : t.serve = s.serve) (i : Nat) : books i t = books i s := by
  simp only [books, reqOf, h]

theorem books_setReq {i : Nat} {r x : Request} {s : State} (hr : reqOf s i = some r) (h : settled x = settled r) :
    books i (setReq i (some x) s) = books i s := by
  refine Prod.ext rfl (Prod.ext rfl (funext fun j => ?_))
  by_cases hj : j = i
  · subst hj
    simp [books, reqOf_setReq_self, hr, h]
  · simp [books, hj, reqOf_setReq_of_ne _ s hj]

theorem books_settlePause (i : Nat) (s : State) : books i (settlePause i s) = books i s := by
  rw [settlePause]
  split
  · rfl
  · next r hr =>
    split
    · exact books_setReq hr rfl
    · rfl

theorem books_endRequest (i : Nat) (done : Bool) (status : Status) (unit : BitVec 16) (s : State) :
    books i (endRequest i done status unit s) = books i s := by
  cases hr : reqOf s i with
  | none => simp only [endRequest, hr]
  | some r =>
    cases hlive : r.state.live with
    | false => simp only [endRequest, hr, hlive, Bool.not_false, if_true]
    | true =>
      obtain ⟨hserve, -⟩ := endRequest_serve done status unit hr hlive
      rw [books_of_serve hserve]
      exact (show books i (bumpServe r.part _ (setReq i _ s)) = books i (setReq i _ s) from rfl).trans (books_setReq hr rfl)

/-- A result on its way out, with its job's next sequence number. -/
def resultFormed (seqs : Tab Nat) (res : Result) (s : State) : State :=
  { s with serve := { s.serve with jobSeq := seqs },
           curtain := { s.curtain with results := s.curtain.results ++ [res], nextId := s.curtain.nextId + 1 } }

/-- The slot of a Walk-on notes the number of its result. -/
def slotNumbered (slot : Option Nat) (seq : Nat) (s : State) : State :=
  match slot with
  | some k => setSlot k { slotOf s k with outSeq := BitVec.ofNat 16 seq } s
  | none => s

theorem emitResult_eq (i : Nat) (r : Request) (ys : List Word) (st : Status) (beat : DWord) (slot : Option Nat) (s : State) :
    ∃ res seqs seq plain, emitResult i r ys st beat slot s = sendEvent r.route (.result res.id) (slotNumbered slot seq
      (modReq i (fun r => { r with outSeq := seq + 1 }) (addRecord beat r.jobId 0x12 0xFF seq plain (resultFormed seqs res s)))) :=
  ⟨_, _, _, _, rfl⟩

theorem unserved_resultFormed (seqs : Tab Nat) (res : Result) (s : State) : unserved (resultFormed seqs res s) = unserved s := rfl

theorem unserved_slotNumbered (slot : Option Nat) (seq : Nat) (s : State) : unserved (slotNumbered slot seq s) = unserved s := by
  cases slot with
  | none => rfl
  | some k => exact unserved_setSlot k _ s

theorem unserved_modReq (i : Nat) (f : Request → Request) (s : State) : unserved (modReq i f s) = unserved s := by
  rw [modReq]
  split
  · rfl
  · exact unserved_setReq _ _ s

theorem unserved_emitResult (i : Nat) (r : Request) (ys : List Word) (st : Status) (beat : DWord) (slot : Option Nat) (s : State) :
    unserved (emitResult i r ys st beat slot s) = unserved s := by
  obtain ⟨res, seqs, seq, plain, h⟩ := emitResult_eq i r ys st beat slot s
  rw [h, unserved_sendEvent, unserved_slotNumbered, unserved_modReq, unserved_addRecord, unserved_resultFormed]

theorem serve_slotNumbered (slot : Option Nat) (seq : Nat) (s : State) : (slotNumbered slot seq s).serve = s.serve := by
  cases slot <;> rfl

/-- A result takes a sequence number of its job, and its request's record notes it. -/
theorem books_emitResult (i : Nat) (r : Request) (ys : List Word) (st : Status) (beat : DWord) (slot : Option Nat) (s : State) :
    books i (emitResult i r ys st beat slot s) = books i s := by
  obtain ⟨res, seqs, seq, plain, h⟩ := emitResult_eq i r ys st beat slot s
  rw [h, books_of_serve (serve_sendEvent _ _ _), books_of_serve (serve_slotNumbered _ _ _), modReq]
  split
  · rfl
  · next x hx => exact books_setReq hx rfl

/-! ### One request of a commit -/

/-- What follows in a commit once a request's record is written: its result, its slots, its end, and a pause that waits. -/
def commitTail (i : Nat) (r : Request) (ys : List Word) (shown : Status) (beat : DWord) (slots : List Nat)
    (final : Option (Bool × Status)) (st : Status) (s : State) : State :=
  let s := if ys.isEmpty || !emits s r then s else emitResult i r ys shown beat slots.head? s
  let s := slots.foldl (fun t k => slotTo k .done 0 t) s
  let s := match final with
    | some (d, f) => endRequest i d (if f = 0 then st else f) 0 s
    | none => s
  settlePause i s

theorem commitTail_keeps {α : Type} (v : State → α) (i : Nat) (hemit : ∀ r ys st beat slot s, v (emitResult i r ys st beat slot s) = v s)
    (hslot : ∀ k s, v (slotTo k .done 0 s) = v s) (hend : ∀ d f s, v (endRequest i d f 0 s) = v s)
    (hpause : ∀ s, v (settlePause i s) = v s) (r : Request) (ys : List Word) (shown : Status) (beat : DWord) (slots : List Nat)
    (final : Option (Bool × Status)) (st : Status) (s : State) : v (commitTail i r ys shown beat slots final st s) = v s := by
  have hresult : v (if ys.isEmpty || !emits s r then s else emitResult i r ys shown beat slots.head? s) = v s := by
    split
    · rfl
    · exact hemit _ _ _ _ _ s
  have hslots := (foldl_keeps v (fun t k => slotTo k .done 0 t) (fun t k => hslot k t) slots _).trans hresult
  cases final with
  | none => exact (hpause _).trans hslots
  | some q => exact (hpause _).trans ((hend _ _ _).trans hslots)

theorem unserved_commitTail (i : Nat) (r : Request) (ys : List Word) (shown : Status) (beat : DWord) (slots : List Nat)
    (final : Option (Bool × Status)) (st : Status) (s : State) :
    unserved (commitTail i r ys shown beat slots final st s) = unserved s :=
  commitTail_keeps unserved i (fun _ _ _ _ _ s => unserved_emitResult i _ _ _ _ _ s) (fun k s => unserved_slotTo k _ _ s)
    (fun _ _ s => unserved_endRequest i _ _ _ s) (unserved_settlePause i) r ys shown beat slots final st s

theorem books_commitTail (i : Nat) (r : Request) (ys : List Word) (shown : Status) (beat : DWord) (slots : List Nat)
    (final : Option (Bool × Status)) (st : Status) (s : State) :
    books i (commitTail i r ys shown beat slots final st s) = books i s :=
  commitTail_keeps (books i) i (fun _ _ _ _ _ s => books_emitResult i _ _ _ _ _ s) (fun k s => books_of_serve (serve_slotTo k _ _ s) i)
    (fun _ _ s => books_endRequest i _ _ _ s) (books_settlePause i) r ys shown beat slots final st s

/-- The commit for a live request: its log, its record, and what follows. -/
theorem commitOne_eq {rows : List (DWord × DWord)} {beat : DWord} {i n : Nat} {r : Request} {s : State} (hr : reqOf s i = some r)
    (hlive : r.state.live = true) : ∃ x shown slots final st, advanced rows beat i n r x ∧ x.ext = r.ext ∧
      commitOne rows beat i n s = commitTail i r (commitTokens rows i r) shown beat slots final st
        (setReq i (some x) (storeExt r.part r.ext r.logLen (commitTokens rows i r) s)) := by
  obtain ⟨hrest, hlen⟩ := logAppendAll_result (commitTokens rows i r) r
  have hext : (logAppendAll r (commitTokens rows i r)).ext = r.ext := (congrArg Request.ext hrest :)
  obtain ⟨hext', hlen'⟩ := ext_nextContribs (spreadOf s r) (logAppendAll r (commitTokens rows i r))
  simp only [commitOne, hr, hlive, Bool.not_true, Bool.false_eq_true, if_false]
  refine ⟨_, _, _, _, _, ?_, ?_, rfl⟩
  · refine ⟨rfl, rfl, rfl, rfl, rfl, hlen'.trans hlen, ?_, ?_⟩
    · intro hys
      show (if (!(commitTokens rows i r).isEmpty) = true then _ else _) = _
      rw [hys]
      rfl
    · intro hys
      have hempty : (!(commitTokens rows i r).isEmpty) = true := by simpa using hys
      have hpos := List.length_pos_iff.2 hys
      show (if (!(commitTokens rows i r).isEmpty) = true then (logAppendAll r (commitTokens rows i r)).logLen - 1 else _) + 1 =
        (nextContribs _ (logAppendAll r (commitTokens rows i r))).logLen
      rw [if_pos hempty, hlen', hlen]
      omega
  · exact hext'.trans hext

/-! ### The requests of a commit -/

/-- A change that commits the requests of a list alone: it grows their logs in their own frames. -/
def commitsOnly (is : List Nat) (s t : State) : Prop :=
  unstored t = unstored s ∧ cleanMem t ∧ t.serve.records = s.serve.records ∧ t.serve.groups = s.serve.groups ∧
    (∀ j, j ∉ is → reqOf t j = reqOf s j) ∧ (∀ j, (reqOf t j).map Request.ext = (reqOf s j).map Request.ext) ∧
    ∀ a, (∀ i r, i ∈ is → reqOf s i = some r → a / 65536 ∉ r.ext) → memByte t a = memByte s a

theorem commitsOnly_refl (is : List Nat) {s : State} (h : cleanMem s) : commitsOnly is s s :=
  ⟨rfl, h, rfl, rfl, fun _ _ => rfl, fun _ => rfl, fun _ _ => rfl⟩

theorem commitsOnly_trans {is js : List Nat} {s t u : State} (hst : commitsOnly is s t) (htu : commitsOnly js t u) :
    commitsOnly (is ++ js) s u := by
  obtain ⟨hrest, -, hrec, hgroups, hreq, hext, hmem⟩ := hst
  obtain ⟨hrest', hclean, hrec', hgroups', hreq', hext', hmem'⟩ := htu
  refine ⟨hrest'.trans hrest, hclean, hrec'.trans hrec, hgroups'.trans hgroups, fun j hj => ?_, fun j => (hext' j).trans (hext j),
    fun a ha => ?_⟩
  · rw [List.mem_append, not_or] at hj
    exact (hreq' j hj.2).trans (hreq j hj.1)
  · refine (hmem' a fun i r hi hr => ?_).trans (hmem a fun i r hi => ha i r (List.mem_append_left _ hi))
    obtain ⟨r₀, hr₀, he⟩ : ∃ r₀, reqOf s i = some r₀ ∧ r₀.ext = r.ext := by
      have := hext i
      rw [hr] at this
      simpa using this.symm
    exact he ▸ ha i r₀ (List.mem_append_right _ hi) hr₀

/-- The commit for one request changes its record and the bytes of its own log. -/
theorem commitOne_result (rows : List (DWord × DWord)) (beat : DWord) (i n : Nat) {s : State} (hclean : cleanMem s) :
    commitsOnly [i] s (commitOne rows beat i n s) ∧ ∀ r, reqOf s i = some r → r.state.live = true →
      ∃ r', reqOf (commitOne rows beat i n s) i = some r' ∧ advanced rows beat i n r r' := by
  cases hr : reqOf s i with
  | none =>
    have h : commitOne rows beat i n s = s := by simp only [commitOne, hr]
    rw [h]
    exact ⟨commitsOnly_refl _ hclean, fun r hr' => by simp at hr'⟩
  | some r =>
    cases hlive : r.state.live with
    | false =>
      have h : commitOne rows beat i n s = s := by simp only [commitOne, hr, hlive, Bool.not_false, if_true]
      rw [h]
      refine ⟨commitsOnly_refl _ hclean, fun r' hr' hlive' => ?_⟩
      obtain rfl := Option.some.inj hr'
      simp [hlive] at hlive'
    | true =>
      obtain ⟨x, shown, slots, final, st, hadv, hext, h⟩ := commitOne_eq (rows := rows) (beat := beat) (n := n) hr hlive
      rw [h]
      obtain ⟨hrest, hclean', hmem⟩ := storesIn_storeExt r.part r.ext r.logLen (commitTokens rows i r) hclean
      generalize storeExt r.part r.ext r.logLen (commitTokens rows i r) s = u at hrest hclean' hmem ⊢
      have hserve : u.serve = s.serve := (congrArg State.serve hrest :)
      have htail := unserved_commitTail i r (commitTokens rows i r) shown beat slots final st (setReq i (some x) u)
      have hbooks := books_commitTail i r (commitTokens rows i r) shown beat slots final st (setReq i (some x) u)
      generalize commitTail i r (commitTokens rows i r) shown beat slots final st (setReq i (some x) u) = t at htail hbooks ⊢
      rw [unserved_setReq] at htail
      have hself : (reqOf t i).map settled = some (settled x) := by
        have := congrFun (congrArg (fun b => b.2.2) hbooks) i
        simpa [books, reqOf_setReq_self] using this
      have hothers (j : Nat) (hj : j ≠ i) : reqOf t j = reqOf s j := by
        have := congrFun (congrArg (fun b => b.2.2) hbooks) j
        simpa [books, hj, reqOf_setReq_of_ne, reqOf_of_serve hserve] using this
      obtain ⟨r', hr', hsettled⟩ := Option.map_eq_some_iff.1 hself
      have hrec : t.serve.records = s.serve.records := (congrArg Prod.fst hbooks).trans (congrArg Serve.records hserve :)
      have hgroups : t.serve.groups = s.serve.groups := (congrArg (fun b => b.2.1) hbooks).trans (congrArg Serve.groups hserve :)
      refine ⟨⟨(unstored_of_unserved htail).trans (unstored_of_unslotted hrest), cleanMem_of_unended (unended_of_unserved htail) hclean',
        hrec, hgroups, fun j hj => hothers j (by simpa using hj), fun j => ?_, fun a ha => ?_⟩, fun r₀ hr₀ _ => ?_⟩
      · by_cases hj : j = i
        · subst hj
          have he : r'.ext = x.ext := (congrArg Request.ext hsettled :)
          simp [hr', hr, he, hext]
        · rw [hothers j hj]
      · rw [memByte, bytes_of_unended (unended_of_unserved htail), ← memByte]
        exact hmem a (ha i r (by simp) hr)
      · obtain rfl := Option.some.inj hr₀
        exact ⟨r', hr', advanced_of_settled hsettled hadv⟩

/-- The commits of several requests, each with its number of tokens. -/
theorem commitMany_result (rows : List (DWord × DWord)) (beat : DWord) (ps : List (Nat × Nat)) (ns : List Nat) {s : State}
    (hclean : cleanMem s) :
    commitsOnly (ps.map Prod.fst) s (ps.foldl (fun t p => commitOne rows beat p.1 (ns.getD p.2 0) t) s) := by
  induction ps generalizing s with
  | nil => exact commitsOnly_refl _ hclean
  | cons p ps ih =>
    have hfirst := (commitOne_result rows beat p.1 (ns.getD p.2 0) hclean).1
    exact commitsOnly_trans hfirst (ih hfirst.2.1)

/-- Of requests without repetition, each commits once. -/
theorem commitMany_request (rows : List (DWord × DWord)) (beat : DWord) {ps : List (Nat × Nat)} (ns : List Nat) {s : State}
    (hclean : cleanMem s) (hnodup : (ps.map Prod.fst).Nodup) {i k : Nat} (hmem : (i, k) ∈ ps) {r : Request} (hr : reqOf s i = some r)
    (hlive : r.state.live = true) :
    ∃ r', reqOf (ps.foldl (fun t p => commitOne rows beat p.1 (ns.getD p.2 0) t) s) i = some r' ∧
      advanced rows beat i (ns.getD k 0) r r' := by
  obtain ⟨before, after, rfl⟩ := List.append_of_mem hmem
  rw [List.map_append, List.map_cons] at hnodup
  obtain ⟨-, hafter, hdisjoint⟩ := List.nodup_append.1 hnodup
  have hnotAfter : i ∉ after.map Prod.fst := (List.nodup_cons.1 hafter).1
  have hnotBefore : i ∉ before.map Prod.fst := fun h => hdisjoint i h i (by simp) rfl
  have hpre := commitMany_result rows beat before ns hclean
  obtain ⟨-, hclean', -, -, hreq, -, -⟩ := hpre
  obtain ⟨hone, hself⟩ := commitOne_result rows beat i (ns.getD k 0) hclean'
  obtain ⟨r', hr', hadv⟩ := hself r ((hreq i hnotBefore).trans hr) hlive
  obtain ⟨-, -, -, -, hreq', -, -⟩ := commitMany_result rows beat after ns hone.2.1
  rw [List.foldl_append, List.foldl_cons]
  exact ⟨r', (hreq' i hnotAfter).trans hr', hadv⟩

/-! ### The commit of a group (R331, R438, R439) -/

@[simp] theorem serve_lowerFrame (f : Nat) (s : State) : (lowerFrame f s).serve = s.serve := by
  simp only [lowerFrame, freeFrame]
  split <;> rfl

theorem serve_dropJournal (part step : Nat) (s : State) : (dropJournal part step s).serve = s.serve := by
  rw [dropJournal]
  split
  · rfl
  · exact foldl_keeps State.serve (fun t f => freeFrame f t) (fun _ _ => rfl) _ s

theorem serve_journalCommit (part step : Nat) (s : State) : (journalCommit part step s).serve = s.serve := by
  rw [journalCommit]
  split
  · rfl
  · refine (serve_dropJournal part step _).trans (foldl_keeps State.serve _ (fun t e => ?_) _ s)
    dsimp only
    split
    · rfl
    · exact serve_lowerFrame _ _

theorem serve_sendVerdict (g : Group) (b : Bool) (s : State) : (sendVerdict g b s).serve = s.serve := by
  rw [sendVerdict]
  split <;> rfl

/-- The commit record of a group. -/
def groupRecord (g : Group) (beat : DWord) : CommitRec := ⟨g.plan.part, g.plan.stepId.toNat, beat, lowestReq g.plan.reqs⟩

/-- A group's commit up to its requests: its verdict, its record, its pages, and its leaving. -/
def groupCommitted (g : Group) (beat : DWord) (s : State) : State :=
  let s := sendVerdict g true s
  let s := bump 0x90040 { s with serve := { s.serve with records := groupRecord g beat :: s.serve.records.take 511 } }
  let s := dropStepJobs g.plan.part g.plan.stepId.toNat (journalCommit g.plan.part g.plan.stepId.toNat s)
  let s := { s with serve := { s.serve with groups := s.serve.groups.filter fun x => x ≠ g } }
  if g.plan.train then commitTrain g.plan.part s else s

theorem commitTrain_keeps (part : Nat) (s : State) : unserved (commitTrain part s) = unserved s ∧
    (commitTrain part s).serve.records = s.serve.records ∧ (commitTrain part s).serve.groups = s.serve.groups ∧
    (commitTrain part s).serve.reqs = s.serve.reqs := by
  rw [commitTrain]
  split <;> exact ⟨rfl, rfl, rfl, rfl⟩

/-- Before its requests are committed a group has its record and has left the groups in flight. -/
theorem groupCommitted_result (g : Group) (beat : DWord) (s : State) :
    let t := groupCommitted g beat s
    t.serve.records = groupRecord g beat :: s.serve.records.take 511 ∧ g ∉ t.serve.groups ∧ t.serve.reqs = s.serve.reqs ∧
      unserved t = unserved (bump 0x90040 (sendVerdict g true s)) := by
  set v := sendVerdict g true s with hv
  have hserve : v.serve = s.serve := serve_sendVerdict g true s
  set w := bump 0x90040 { v with serve := { v.serve with records := groupRecord g beat :: v.serve.records.take 511 } } with hw
  have hwserve : w.serve = { s.serve with records := groupRecord g beat :: s.serve.records.take 511 } := by rw [← hserve]; rfl
  have hwrest : unserved w = unserved (bump 0x90040 v) := rfl
  set u := journalCommit g.plan.part g.plan.stepId.toNat w with hu
  have huserve : u.serve = { s.serve with records := groupRecord g beat :: s.serve.records.take 511 } :=
    (serve_journalCommit _ _ w).trans hwserve
  have hurest : unserved u = unserved (bump 0x90040 v) := (unserved_journalCommit _ _ w).trans hwrest
  clear_value u
  set x : State := { dropStepJobs g.plan.part g.plan.stepId.toNat u with serve :=
    { (dropStepJobs g.plan.part g.plan.stepId.toNat u).serve with
      groups := (dropStepJobs g.plan.part g.plan.stepId.toNat u).serve.groups.filter fun y => y ≠ g } } with hx
  have hxrest : unserved x = unserved (bump 0x90040 v) := hurest
  have hxrec : x.serve.records = groupRecord g beat :: s.serve.records.take 511 := (congrArg Serve.records huserve :)
  have hxreq : x.serve.reqs = s.serve.reqs := (congrArg Serve.reqs huserve :)
  have hxgroup : g ∉ x.serve.groups := by simp [hx]
  have ht : groupCommitted g beat s = if g.plan.train then commitTrain g.plan.part x else x := by rw [hx, hu]; rfl
  obtain ⟨hrest, hrec, hgroups, hreq⟩ := commitTrain_keeps g.plan.part x
  dsimp only
  rw [ht]
  split
  · exact ⟨hrec.trans hxrec, hgroups ▸ hxgroup, hreq.trans hxreq, hrest.trans hxrest⟩
  · exact ⟨hxrec, hxgroup, hxreq, hxrest⟩

/-- The memory accesses of a step's commit. -/
def stepMem (part step : Nat) : MemCtx :=
  { partMem part 5 true with stepId := step, ctx := packCtx step 0xFFFF 0xFFF 0xFF part }

/-- A commit whose rows are all read. -/
theorem commitGroup_eq {g : Group} (beat : DWord) {s : State} (hclean : cleanMem s)
    (hrows : (stepRows (stepMem g.plan.part g.plan.stepId.toNat) (stepJobs s g.plan.part g.plan.stepId.toNat) s).2.2 = false) :
    commitGroup g beat s = (g.plan.reqs.zipIdx).foldl (fun t p => commitOne
      (stepRows (stepMem g.plan.part g.plan.stepId.toNat) (stepJobs s g.plan.part g.plan.stepId.toNat) s).2.1 beat p.1
      (g.plan.ntok.getD p.2 0) t) (groupCommitted g beat s) := by
  have hst := stepRows_st rfl _ hclean hrows
  rw [stepMem] at hrows hst
  simp only [commitGroup, stepMem, hrows, Bool.false_eq_true, if_false, groupCommitted, groupRecord, hst]

/-- The commit of a complete group: its record and its counter, its requests, and their logs alone. -/
theorem commitGroup_result {g : Group} (beat : DWord) {s : State} (hclean : cleanMem s)
    (hrows : (stepRows (stepMem g.plan.part g.plan.stepId.toNat) (stepJobs s g.plan.part g.plan.stepId.toNat) s).2.2 = false) :
    let rows := (stepRows (stepMem g.plan.part g.plan.stepId.toNat) (stepJobs s g.plan.part g.plan.stepId.toNat) s).2.1
    let t := commitGroup g beat s
    t.serve.records.head? = some (groupRecord g beat) ∧ g ∉ t.serve.groups ∧ regW t 0x90040 = regW s 0x90040 + 1 ∧
      t.eng = s.eng ∧ t.sh = s.sh ∧ t.cue = s.cue ∧ t.flies = s.flies ∧ cleanMem t ∧
      (∀ a, (∀ i r, i ∈ g.plan.reqs → reqOf s i = some r → a / 65536 ∉ r.ext) → memByte t a = memByte s a) ∧
      (g.plan.reqs.Nodup → ∀ k i r, g.plan.reqs[k]? = some i → reqOf s i = some r → r.state.live = true →
        ∃ r', reqOf t i = some r' ∧ advanced rows beat i (g.plan.ntok.getD k 0) r r') := by
  dsimp only
  rw [commitGroup_eq beat hclean hrows]
  generalize (stepRows (stepMem g.plan.part g.plan.stepId.toNat) (stepJobs s g.plan.part g.plan.stepId.toNat) s).2.1 = rows
  obtain ⟨hrec, hgroup, hreqs, hrest⟩ := groupCommitted_result g beat s
  generalize groupCommitted g beat s = u at hrec hgroup hreqs hrest ⊢
  have hverdict := unserved_sendVerdict g true s
  have hunits : unstored u = unstored (bump 0x90040 (sendVerdict g true s)) := unstored_of_unserved hrest
  have hclean' : cleanMem u := cleanMem_of_unended (unended_of_unserved hrest)
    (cleanMem_of_unended (unended_of_unserved hverdict) hclean : cleanMem (sendVerdict g true s))
  have hbytes : u.mem.bytes = s.mem.bytes :=
    (bytes_of_unended (unended_of_unserved hrest)).trans (bytes_of_unended (unended_of_unserved hverdict) :)
  have hreq (i : Nat) : reqOf u i = reqOf s i := by rw [reqOf, hreqs, reqOf]
  have hcount : regW u 0x90040 = regW s 0x90040 + 1 := by
    rw [regW_of_unstored hunits rfl, bump, bumpBy, regW_setReg_self, regW_of_unstored (unstored_of_unserved hverdict) rfl]
    rfl
  have hfst : g.plan.reqs.zipIdx.map Prod.fst = g.plan.reqs := List.zipIdx_map_fst 0 _
  obtain ⟨hkeep, hclean'', hrec', hgroups', -, -, hmem⟩ := commitMany_result rows beat g.plan.reqs.zipIdx g.plan.ntok hclean'
  rw [hfst] at hmem
  refine ⟨?_, ?_, ?_, ?_, ?_, ?_, ?_, hclean'', fun a ha => ?_, fun hnodup k i r hk hr hlive => ?_⟩
  · rw [hrec', hrec, List.head?_cons]
  · rw [hgroups']
    exact hgroup
  · rw [regW_of_unstored hkeep rfl, hcount]
  · exact (eng_of_unstored hkeep).trans ((eng_of_unstored hunits).trans (eng_of_unstored (unstored_of_unserved hverdict) :))
  · exact (sh_of_unstored hkeep).trans ((sh_of_unstored hunits).trans (sh_of_unstored (unstored_of_unserved hverdict) :))
  · exact (cue_of_unstored hkeep).trans ((cue_of_unstored hunits).trans (cue_of_unstored (unstored_of_unserved hverdict) :))
  · exact (flies_of_unstored hkeep).trans ((flies_of_unstored hunits).trans (flies_of_unstored (unstored_of_unserved hverdict) :))
  · rw [hmem a fun i r hi hr => ha i r hi ((hreq i).symm.trans hr), memByte, hbytes, memByte]
  · exact commitMany_request rows beat g.plan.ntok hclean' (by rwa [hfst]) (List.mk_mem_zipIdx_iff_getElem?.2 hk) ((hreq i).trans hr) hlive

theorem stepCommit_result {p : Nat} {step : BitVec 16} {g : Group} {s : State} (hp : p < 8) (hg : findGroup s p step.toNat = some g)
    (hruns : runs s = true) (hcomplete : groupComplete s g = true) (hwait : g.awaiting = false) (hcancel : stepCancelled s g = false)
    (hverdict : needsVerdict s g = false) (hclean : cleanMem s)
    (hrows : (stepRows (stepMem g.plan.part g.plan.stepId.toNat) (stepJobs s g.plan.part g.plan.stepId.toNat) s).2.2 = false) :
    exec (.stepCommit p step) s = .next (commitGroup g s.beat.num s) := by
  obtain ⟨-, -, -, -, -, -, -, hclean', -⟩ := commitGroup_result s.beat.num hclean hrows
  simp only [exec_stepCommit, execStepCommit, need, hp, decide_true, if_true, hg, hruns, hcomplete, hwait, hcancel, hverdict, Bool.not_true,
    Bool.or_self, Bool.false_eq_true, if_false, settle_of_fwPoison_false hclean'.2.2.2.1]

theorem findGroup_names {p n : Nat} {g : Group} {s : State} (h : findGroup s p n = some g) : g.plan.part = p ∧ g.plan.stepId.toNat = n := by
  simpa using List.find?_some h

/-- Settles O32: a commit writes its record and the records of its group's requests, one after another, and the bytes of their own logs. -/
theorem stepCommitAndAging : Obligations.StepCommitAndAging := by
  unfold Obligations.StepCommitAndAging
  refine ⟨fun p step g s hp hg hruns hcomplete hwait hcancel hverdict hclean => ?_,
    fun i r s hi hr hlive => ⟨fun hcuts => carryLimit_result hi hr hlive hcuts,
      fun hage => agePromote_result hi hr hlive hage.1 hage.2⟩⟩
  obtain ⟨rfl, hstep⟩ := findGroup_names hg
  obtain rfl := BitVec.eq_of_toNat_eq hstep
  intro m rows hrows
  obtain ⟨hrec, hgroup, hcount, heng, hsh, hcue, hflies, -, hmem, hreqs⟩ := commitGroup_result s.beat.num hclean hrows
  exact ⟨_, stepCommit_result hp hg hruns hcomplete hwait hcancel hverdict hclean hrows, hrec, hgroup, hcount, heng, hsh, hcue, hflies,
    hmem, hreqs⟩

end Sys2Proof.Machine
end


section
/-! SUPPORT. Replies to management, the Curtain's release and SPDM (O49): what the RoT's messages leave alone. -/

namespace Sys2Proof.Machine

open Sys2Proof

/-! ### House frames, SPDM messages and replies -/

/-- A House frame leaves on both ports or not at all, and takes the next HSEQ (R586, R588). -/
theorem sendHouse_result (cls : Nat) (body : List Byte) (s : State) :
    quiet s (sendHouse cls body s) = s ∧ ∃ xs, (sendHouse cls body s).out = xs ++ s.out ∧ ∀ x ∈ xs, ∃ port f, x = .house port f ∧ port < 2 := by
  have hquiet (xs : List OutMsg) (n : DWord) : quiet s { s with out := xs, net := { s.net with houseTx := n } } = s := rfl
  simp only [sendHouse]
  split
  · generalize houseFrame s cls (s.net.houseTx + 1) body = f
    refine ⟨hquiet _ _, [.house 1 f, .house 0 f], rfl, fun x hx => ?_⟩
    rcases List.mem_cons.1 hx with rfl | hx
    · exact ⟨1, _, rfl, by decide⟩
    · exact ⟨0, _, List.mem_singleton.1 hx, by decide⟩
  · exact ⟨rfl, [], rfl, fun x hx => absurd hx (by simp)⟩

theorem quiet_trans {s t u : State} (hst : quiet s t = s) (htu : quiet t u = t) : quiet s u = s := by
  rw [← hst, ← htu]
  rfl

/-- An SPDM message goes out on its port, and in House frames where the port is a management port (R602). -/
theorem sendSpdm_result (p : SpdmPort) (secured : Bool) (code : Nat) (payload : List Byte) (s : State) :
    quiet s (sendSpdm p secured code payload s) = s ∧ ∃ xs, (sendSpdm p secured code payload s).out =
      xs ++ .spdm p secured code payload :: s.out ∧ ∀ x ∈ xs, ∃ port f, x = .house port f ∧ port < 2 := by
  cases p with
  | doe => exact ⟨rfl, [], rfl, fun x hx => absurd hx (by simp)⟩
  | mgmt =>
    obtain ⟨hquiet, xs, hout, hxs⟩ := sendHouse_result 6 ([BitVec.ofNat 8 (b2n secured), 0, 0, 0] ++ Config.spdmMessage secured code payload)
      (emit (.spdm .mgmt secured code payload) s)
    exact ⟨quiet_trans (t := emit (.spdm .mgmt secured code payload) s) rfl hquiet, xs, hout, hxs⟩

theorem mem_out_sendSpdm (p : SpdmPort) (secured : Bool) (code : Nat) (payload : List Byte) (s : State) :
    OutMsg.spdm p secured code payload ∈ (sendSpdm p secured code payload s).out := by
  obtain ⟨-, xs, hout, -⟩ := sendSpdm_result p secured code payload s
  simp [hout]

theorem carryReply_result (m : Mgmt) (body : List Byte) (s : State) :
    quiet s (carryReply m body s) = s ∧ ∃ xs, (carryReply m body s).out = xs ++ s.out ∧ ∀ x ∈ xs, carries m body x := by
  rw [carryReply]
  split
  · obtain ⟨hquiet, xs, hout, hxs⟩ := sendHouse_result 5 body s
    exact ⟨hquiet, xs, hout, fun x hx => .inr (hxs x hx)⟩
  · next i hsrc =>
    split
    · next y _ =>
      obtain ⟨hquiet, xs, hout, hxs⟩ := sendSpdm_result y.port true 0x7E body s
      refine ⟨hquiet, xs ++ [.spdm y.port true 0x7E body], by simpa using hout, fun x hx => ?_⟩
      rcases List.mem_append.1 hx with hx | hx
      · exact .inr (hxs x hx)
      · exact .inl ⟨y.port, List.mem_singleton.1 hx, by simp [hsrc]⟩
    · exact ⟨rfl, [], rfl, fun x hx => absurd hx (by simp)⟩

/-- A reply drives out its messages alone (R606). -/
theorem mgmtSt_result (m : Mgmt) (st : Status) {s u : State} (hout : u.out = s.out) :
    quiet u (mgmtSt m st u) = u ∧ answered m st [] s (mgmtSt m st u) := by
  obtain ⟨hquiet, xs, h, hxs⟩ := carryReply_result m (replyBody m st []) u
  refine ⟨quiet_trans hquiet rfl, xs, ?_, hxs⟩
  rw [← hout, ← h]
  rfl

theorem keepsUnits_of_quiet {s t : State} (h : quiet s t = s) : keepsUnits s t :=
  ⟨(congrArg State.eng h :), (congrArg State.sh h :), (congrArg State.cue h :), (congrArg State.flies h :),
    (congrArg (fun u : State => u.mem.bytes) h :)⟩

theorem keepsUnits_of_unserved {s t : State} (h : unserved t = unserved s) : keepsUnits s t :=
  have hunits := unstored_of_unserved h
  ⟨eng_of_unstored hunits, sh_of_unstored hunits, cue_of_unstored hunits, flies_of_unstored hunits,
    bytes_of_unended (unended_of_unserved h)⟩

theorem keepsUnits_trans {s t u : State} (hst : keepsUnits s t) (htu : keepsUnits t u) : keepsUnits s u := by
  obtain ⟨heng, hsh, hcue, hflies, hmem⟩ := hst
  obtain ⟨heng', hsh', hcue', hflies', hmem'⟩ := htu
  exact ⟨heng'.trans heng, hsh'.trans hsh, hcue'.trans hcue, hflies'.trans hflies, hmem'.trans hmem⟩

/-- A command that may travel in a House frame and that an operator sends is carried out. -/
theorem houseCmd_of_commands {m : Mgmt} {s : State} (h : commands m .operator s) (body : State) : houseCmd m s body = .next body := by
  obtain ⟨hstandby, hrole, hdark, hboot⟩ := h
  have hhouse : (m.src = .house && !true) = false := by simp
  have hslot : (decide (m.src = .house) && decide (s.sec.bootStatus ≠ 0)) = false := by
    by_cases hm : m.src = .house
    · simp [hboot hm]
    · simp [hm]
  simp only [houseCmd, mgmtCmd, hstandby, hrole, hdark, asOperator, Bool.not_true, Bool.not_false, Bool.false_and, Bool.and_false, Bool.false_eq_true,
    decide_true, if_false, hslot]

/-! ### The cabinet's commands (R86, R472, R478, R581) -/

theorem capSet_result {m : Mgmt} {s : State} (h : commands m .operator s) (w : Nat) :
    (200 ≤ w → w ≤ 800 → leadsTo (exec (.capSet m w) s) fun t => t.energy = { s.energy with capPend := some w } ∧
      answered m 0 [] s t ∧ { quiet s t with energy := s.energy } = s) ∧
    (w < 200 ∨ 800 < w → exec (.capSet m w) s = .next (mgmtSt m 0x81 s)) := by
  refine ⟨fun hlo hhi => ?_, fun hw => ?_⟩
  · have hexec : exec (.capSet m w) s = .next (mgmtSt m 0 { s with energy := { s.energy with capPend := some w } }) := by
      simp only [exec_capSet, execCapSet, houseCmd_of_commands h, hlo, hhi, decide_true, Bool.and_self, if_true]
    obtain ⟨hquiet, hanswer⟩ := mgmtSt_result m 0 (s := s) (u := { s with energy := { s.energy with capPend := some w } }) rfl
    exact ⟨_, hexec, (congrArg State.energy hquiet :), hanswer, (congrArg (fun t : State => { t with energy := s.energy }) hquiet :)⟩
  · have hrange : (200 ≤ w && w ≤ 800) = false := by
      rw [Bool.and_eq_false_iff, decide_eq_false_iff_not, decide_eq_false_iff_not]
      omega
    simp only [exec_capSet, execCapSet, houseCmd_of_commands h, hrange, Bool.false_eq_true, if_false]

theorem curtainPolicy_result {m : Mgmt} {s : State} (h : commands m .operator s) (hold : Byte) :
    leadsTo (exec (.curtainPolicy m hold) s) fun t => t.curtain = { s.curtain with policyPend := some hold } ∧
      answered m 0 [] s t ∧ { quiet s t with curtain := s.curtain } = s := by
  have hexec : exec (.curtainPolicy m hold) s = .next (mgmtSt m 0 { s with curtain := { s.curtain with policyPend := some hold } }) := by
    simp only [exec_curtainPolicy, execCurtainPolicy, houseCmd_of_commands h]
  obtain ⟨hquiet, hanswer⟩ := mgmtSt_result m 0 (s := s) (u := { s with curtain := { s.curtain with policyPend := some hold } }) rfl
  exact ⟨_, hexec, (congrArg State.curtain hquiet :), hanswer, (congrArg (fun t : State => { t with curtain := s.curtain }) hquiet :)⟩

/-! ### The gates open (R481) -/

theorem out_withBoard (ring : Tab Word) (head : Word) (s : State) :
    { s with board := { s.board with ring := ring, ringHead := head } }.out = s.out := rfl

theorem out_dropResult (id : Nat) (s : State) : (dropResult id s).out = s.out := by
  rw [dropResult]
  split
  · rfl
  · exact (out_withBoard _ _ _).trans rfl

/-- A held result that leaves the hold area is not driven out yet, and touches the results and the queues alone. -/
theorem releaseResult_keeps (r : Result) (s : State) :
    unserved (releaseResult r s) = unserved s ∧ (releaseResult r s).out = s.out := by
  have hset (x : Result) (t : State) : unserved (setResult x t) = unserved t ∧ (setResult x t).out = t.out := ⟨rfl, rfl⟩
  simp only [releaseResult]
  split
  · split
    · exact ⟨(unserved_dropResult _ _).trans (unserved_bump (ownCounter_resDropCnt _) s), out_dropResult _ _⟩
    · exact ⟨unserved_dropResult _ s, out_dropResult _ s⟩
  · obtain ⟨hrest, hout⟩ := hset { r with state := .queued } s
    split
    · exact ⟨(unserved_setQp _ _ _ _).trans hrest, hout⟩
    · split
      · exact ⟨(unserved_setRqp _ _ _).trans hrest, hout⟩
      · exact ⟨hrest, hout⟩
    · exact ⟨hrest, hout⟩

theorem gatesOpen_keeps (s : State) : unserved (gatesOpen s) = unserved s ∧ (gatesOpen s).out = s.out := by
  rw [gatesOpen]
  split
  · exact ⟨rfl, rfl⟩
  · exact ⟨unserved_foldl _ (fun t r => (releaseResult_keeps r t).1) _ s,
      foldl_keeps State.out (fun t r => releaseResult r t) (fun t r => (releaseResult_keeps r t).2) _ s⟩

theorem curtain_result {m : Mgmt} {s : State} (h : commands m .operator s) (b : Bool) :
    leadsTo (exec (.curtain m b) s) fun t => t.curtain.mgmt = b ∧ answered m 0 [] s t ∧ keepsUnits s t ∧
      (b = true → gatesClosed t = true ∧ t.curtain.results = s.curtain.results) := by
  have hexec : exec (.curtain m b) s = .next (mgmtSt m 0 (gatesOpen { s with curtain := { s.curtain with mgmt := b } })) := by
    simp only [exec_curtain, execCurtain, houseCmd_of_commands h]
  obtain ⟨hrest, hout⟩ := gatesOpen_keeps { s with curtain := { s.curtain with mgmt := b } }
  have hclosed : b = true → gatesOpen { s with curtain := { s.curtain with mgmt := b } } = { s with curtain := { s.curtain with mgmt := b } } := by
    rintro rfl
    simp [gatesOpen, gatesClosed]
  generalize gatesOpen { s with curtain := { s.curtain with mgmt := b } } = u at hexec hrest hout hclosed
  obtain ⟨hquiet, hanswer⟩ := mgmtSt_result m 0 (s := s) (u := u) hout
  have hmgmt : (mgmtSt m 0 u).curtain.mgmt = b :=
    (congrArg (fun t : State => t.curtain.mgmt) hquiet :).trans (congrArg (fun v => v.1.curtain.mgmt) hrest :)
  have hunits : keepsUnits s u := (keepsUnits_of_unserved hrest :)
  refine ⟨_, hexec, hmgmt, hanswer, keepsUnits_trans hunits (keepsUnits_of_quiet hquiet), fun hb => ⟨?_, ?_⟩⟩
  · rw [gatesClosed, hmgmt, hb, Bool.or_true, Bool.true_or, Bool.true_or]
  · exact (congrArg (fun t : State => t.curtain.results) hquiet :).trans (congrArg (fun t : State => t.curtain.results) (hclosed hb) :)

/-! ### The spare port (R581, R583) -/

/-- What a table reads other than its default is an entry of it. -/
theorem mem_of_tabGet_ne {α : Type} {d : α} {t : Tab α} {a : Nat} (h : tabGet d t a ≠ d) : (a, tabGet d t a) ∈ t := by
  induction t with
  | nil => exact absurd rfl h
  | cons e t ih =>
    obtain ⟨k, v⟩ := e
    rw [tabGet] at h ⊢
    split
    · next hk => simp [hk]
    · next hk => exact List.mem_cons_of_mem _ (ih (by simpa [hk] using h))

/-- The queue pairs of a role that is taken over have stopped sending. -/
theorem stopped_roleStopped {role q : Nat} {x : Rqp} {s : State} (hx : rqpOf (roleStopped role true s) q = some x) (hrole : x.role = role) :
    x.stopped = true := by
  have hmem := mem_of_tabGet_ne (d := none) (t := (roleStopped role true s).net.rqps) (a := q) (by
    rw [show tabGet none (roleStopped role true s).net.rqps q = some x from hx]
    simp)
  rw [show tabGet none (roleStopped role true s).net.rqps q = some x from hx] at hmem
  simp only [roleStopped, tabMap, List.mem_filter, List.mem_map, Prod.mk.injEq] at hmem
  obtain ⟨⟨e, -, -, he⟩, -⟩ := hmem
  obtain ⟨y, -, rfl⟩ := Option.map_eq_some_iff.1 he
  split at hrole
  · next hy => simp [hy]
  · next hy => exact absurd hrole hy

theorem sparePort_result {m : Mgmt} {s : State} {role : Nat} (h : commands m .operator s) (hrole : role < 4) (hidle : s.net.takeover = none) :
    leadsTo (exec (.sparePort m role) s) fun t => t.net.takeover = some role ∧ t.net.busy = true ∧ answered m 0 [] s t ∧
      keepsUnits s t ∧ ∀ q x, rqpOf t q = some x → x.role = role → x.stopped = true := by
  have hexec : exec (.sparePort m role) s = .next (mgmtSt m 0 (spareStart role s)) := by
    have hne : role ≠ 7 := by omega
    have hle : ¬ role > 3 := by omega
    simp only [exec_sparePort, execSparePort, houseCmd_of_commands h, hne, hle, hidle, if_false, Option.isSome_none, Bool.false_eq_true]
  obtain ⟨hquiet, hanswer⟩ := mgmtSt_result m 0 (s := s) (u := spareStart role s) rfl
  have hrqp (q : Nat) : rqpOf (mgmtSt m 0 (spareStart role s)) q = rqpOf (spareStart role s) q := (congrArg (rqpOf · q) hquiet :)
  exact ⟨_, hexec, (congrArg (fun t : State => t.net.takeover) hquiet :), (congrArg (fun t : State => t.net.busy) hquiet :), hanswer,
    (keepsUnits_of_quiet hquiet :), fun q x hx hxr => stopped_roleStopped ((hrqp q).symm.trans hx) hxr⟩

end Sys2Proof.Machine
end


section
/-! SUPPORT. SPDM (O49): what its requests answer, and the sessions. -/

namespace Sys2Proof.Machine

open Sys2Proof

/-! ### Requests outside a session (R599, R600) -/

theorem quiet_spdm (p : SpdmPort) (code : Nat) (payload : List Byte) (s : State) : quiet s (spdm p code payload s) = s :=
  (sendSpdm_result p false code payload s).1

theorem mem_out_spdm (p : SpdmPort) (code : Nat) (payload : List Byte) (s : State) :
    OutMsg.spdm p false code payload ∈ (spdm p code payload s).out := mem_out_sendSpdm p false code payload s

/-- A response to a request that changes what has been agreed. -/
theorem spdm_agreed (p : SpdmPort) (code : Nat) (payload : List Byte) (sec : Sec) (s : State) :
    (spdm p code payload { s with sec := sec }).sec = sec ∧
      { quiet s (spdm p code payload { s with sec := sec }) with sec := s.sec } = s := by
  have h := quiet_spdm p code payload { s with sec := sec }
  exact ⟨(congrArg State.sec h :), (congrArg (fun t : State => { t with sec := s.sec }) h :)⟩

theorem spdmCmd_of_standby {s : State} (h : s.pins.standby = true) (body : State) : spdmCmd s body = .next body := by
  rw [spdmCmd, if_pos h]

theorem spdmAfter_of_algs {p : SpdmPort} {s : State} (h : s.pins.standby = true) (halgs : s.sec.spdmAlgs = true) (body : State) :
    spdmAfter p s body = .next body := by
  rw [spdmAfter, spdmCmd_of_standby h, if_pos halgs]

theorem getVersion_result (p : SpdmPort) {s : State} (h : s.pins.standby = true) : leadsTo (exec (.getVersion p) s) fun t =>
    OutMsg.spdm p false 0x04 [0x12#8] ∈ t.out ∧ t.sec.spdmVersion = true ∧ t.sec.spdmAlgs = false ∧
      { quiet s t with sec := s.sec } = s := by
  obtain ⟨hsec, hrest⟩ := spdm_agreed p 0x04 [0x12#8] { s.sec with spdmVersion := true, spdmCaps := false, spdmAlgs := false } s
  exact ⟨_, spdmCmd_of_standby h _, mem_out_spdm _ _ _ _, (congrArg Sec.spdmVersion hsec :), (congrArg Sec.spdmAlgs hsec :), hrest⟩

theorem getCapabilities_result (p : SpdmPort) {s : State} (h : s.pins.standby = true) (hversion : s.sec.spdmVersion = true) :
    leadsTo (exec (.getCapabilities p) s) fun t => OutMsg.spdm p false 0x61 (leBytes 4 1280 ++ leBytes 4 1280) ∈ t.out ∧
      t.sec = { s.sec with spdmCaps := true } ∧ { quiet s t with sec := s.sec } = s := by
  have hexec : exec (.getCapabilities p) s =
      .next (spdm p 0x61 (leBytes 4 1280 ++ leBytes 4 1280) { s with sec := { s.sec with spdmCaps := true } }) := by
    rw [exec_getCapabilities, execGetCapabilities, spdmCmd_of_standby h, if_pos hversion]
  obtain ⟨hsec, hrest⟩ := spdm_agreed p 0x61 (leBytes 4 1280 ++ leBytes 4 1280) { s.sec with spdmCaps := true } s
  exact ⟨_, hexec, mem_out_spdm _ _ _ _, hsec, hrest⟩

theorem negotiateAlgorithms_result (p : SpdmPort) {s : State} (h : s.pins.standby = true) (hcaps : s.sec.spdmCaps = true) :
    leadsTo (exec (.negotiateAlgorithms p true) s) fun t =>
      t.sec = { s.sec with spdmAlgs := true } ∧ { quiet s t with sec := s.sec } = s := by
  have hexec : exec (.negotiateAlgorithms p true) s = .next (spdm p 0x63 [] { s with sec := { s.sec with spdmAlgs := true } }) := by
    rw [exec_negotiateAlgorithms, execNegotiateAlgorithms, spdmCmd_of_standby h, hcaps, Bool.and_self, if_pos rfl]
  exact ⟨_, hexec, spdm_agreed p 0x63 [] _ s⟩

/-- A request after the algorithms are agreed that only asks. -/
theorem asked_result {p : SpdmPort} {i : Instr} {secured : Bool} {code : Nat} {payload : List Byte} {s : State} (h : s.pins.standby = true)
    (halgs : s.sec.spdmAlgs = true) (hi : exec i s = spdmAfter p s (sendSpdm p secured code payload s)) :
    leadsTo (exec i s) fun t => OutMsg.spdm p secured code payload ∈ t.out ∧ quiet s t = s :=
  ⟨_, hi.trans (spdmAfter_of_algs h halgs _), mem_out_sendSpdm p secured code payload s, (sendSpdm_result p secured code payload s).1⟩

theorem measReport_of_public {s : State} (x : Option Nat) {i : Nat} (hlo : 1 ≤ i) (hhi : i ≤ 12) : measReport s x i =
    [BitVec.ofNat 8 i, BitVec.ofNat 8 (measType i)] ++ leBytes 48 (tabGet 0 s.sec.meas i).toNat := by
  have hallow : measAllowed s x i = true := by simp [measAllowed, hlo, hhi]
  rw [measReport, if_pos hallow]

/-! ### Sessions (R600, R603) -/

theorem lapsed_of_not_established {s : State} {x : Session} (h : x.phase ≠ .established) : lapsed s x = false := by simp [lapsed, h]

/-- A change of one session. -/
theorem sessionOf_setSession {i : Nat} {y : Option Session} {s t : State} (ht : t.sec.sessions = (setSession i y s).sec.sessions)
    (htime : t.time = s.time) : sessionOf t i = y.filter (fun x => !lapsed s x) ∧ ∀ j, j ≠ i → sessionOf t j = sessionOf s j := by
  have hlapsed (x : Session) : lapsed t x = lapsed s x := by rw [lapsed, lapsed, htime]
  refine ⟨?_, fun j hj => ?_⟩
  · rw [sessionOf, ht]
    simp only [setSession, tabGet_set_self, hlapsed]
  · rw [sessionOf, ht]
    simp only [setSession, tabGet_set_of_ne _ _ _ hj, hlapsed, sessionOf]

theorem not_lapsed_of_sessionOf {s : State} {i : Nat} {x : Session} (h : sessionOf s i = some x) : lapsed s x = false := by
  have := (Option.filter_eq_some_iff.1 h).2
  simpa using this

theorem keyExchange_result (p : SpdmPort) {s : State} {i : Nat} (h : s.pins.standby = true) (halgs : s.sec.spdmAlgs = true)
    (hfree : freeSession s = some i) : leadsTo (exec (.keyExchange p) s) fun t => i < 16 ∧
      (∃ y, sessionOf t i = some y ∧ y.phase = .keyExchange ∧ y.role = .verifier) ∧ ∀ j, j ≠ i → sessionOf t j = sessionOf s j := by
  have hexec : exec (.keyExchange p) s = .next (spdm p 0x64 (aliasSigned s [BitVec.ofNat 8 i, 1])
      (setSession i (some ⟨p, .keyExchange, .verifier, 0, 0, s.time, []⟩) s)) := by
    rw [exec_keyExchange, execKeyExchange, spdmAfter_of_algs h halgs, hfree]
  have hi : i < 16 := List.mem_range.1 (List.mem_of_find?_eq_some hfree)
  have hquiet := quiet_spdm p 0x64 (aliasSigned s [BitVec.ofNat 8 i, 1])
    (setSession i (some ⟨p, .keyExchange, .verifier, 0, 0, s.time, []⟩) s)
  obtain ⟨hself, hothers⟩ := sessionOf_setSession (congrArg (fun t : State => t.sec.sessions) hquiet :) (congrArg State.time hquiet :)
  have hkept : (some (⟨p, .keyExchange, .verifier, 0, 0, s.time, []⟩ : Session)).filter (fun x => !lapsed s x) =
      some ⟨p, .keyExchange, .verifier, 0, 0, s.time, []⟩ := by simp [lapsed]
  exact ⟨_, hexec, hi, ⟨_, hself.trans hkept, rfl, rfl⟩, hothers⟩

/-- The state after a session has become `y`, which sends a message. -/
def sessionGoes (i : Nat) (y : Option Session) (s t : State) : Prop :=
  sessionOf t i = y ∧ (∀ j, j ≠ i → sessionOf t j = sessionOf s j) ∧ keepsUnits s t ∧ t.serve = s.serve ∧ t.sec.keys = s.sec.keys

/-- A session changes with its response. -/
theorem sessionGoes_inSession {i code : Nat} {x : Session} {payload : List Byte} {y : Option Session} {s u : State}
    (hy : ∀ z, y = some z → lapsed s z = false) (hu : u = setSession i y s ∨ u = authFail (setSession i y s)) :
    sessionGoes i y s (inSession x code payload u) := by
  have hquiet : quiet u (inSession x code payload u) = u := (sendSpdm_result x.port true code payload u).1
  have hkeep : u.sec = (setSession i y s).sec ∧ u.time = s.time ∧ keepsUnits s u ∧ u.serve = s.serve := by
    rcases hu with rfl | rfl <;> exact ⟨rfl, rfl, ⟨rfl, rfl, rfl, rfl, rfl⟩, rfl⟩
  obtain ⟨hsec, htime, hunits, hserve⟩ := hkeep
  have hsec' : (inSession x code payload u).sec = (setSession i y s).sec := (congrArg State.sec hquiet :).trans hsec
  obtain ⟨hself, hothers⟩ := sessionOf_setSession (congrArg Sec.sessions hsec') ((congrArg State.time hquiet :).trans htime)
  refine ⟨hself.trans ?_, hothers, keepsUnits_trans hunits (keepsUnits_of_quiet hquiet), (congrArg State.serve hquiet :).trans hserve,
    (congrArg Sec.keys hsec' :)⟩
  cases y with
  | none => rfl
  | some z => simp [hy z rfl]

theorem onSession_of_phase {i : Nat} {x : Session} {ph : SessionPhase} {s : State} (h : s.pins.standby = true)
    (hx : sessionOf s i = some x) (hph : x.phase = ph) (k : Session → State) : onSession i ph s k = .next (k x) := by
  rw [onSession, spdmCmd_of_standby h, hx]
  exact congrArg _ (if_pos hph)

/-- What the requests of the handshake and of an established session do to it. -/
theorem session_result {i : Nat} {x : Session} (root : Digest) {s : State} (h : s.pins.standby = true) (hx : sessionOf s i = some x) :
    (x.phase = .keyExchange → leadsTo (exec (.getEncapsulatedRequest i) s) (sessionGoes i (some { x with phase := .encapsulated }) s)) ∧
    (x.phase = .encapsulated →
      leadsTo (exec (.deliverEncapsulatedResponse i true) s) (sessionGoes i (some { x with phase := .chain }) s) ∧
      leadsTo (exec (.deliverEncapsulatedResponse i false) s) (sessionGoes i none s)) ∧
    (x.phase = .chain → leadsTo (exec (.finish i true true root) s) (sessionGoes i
        (some { x with phase := .established, role := roleFor s root, rootHash := root, beatUs := s.time }) s) ∧
      ∀ a b, (a && b) = false → leadsTo (exec (.finish i a b root) s) (sessionGoes i none s)) ∧
    (x.phase = .established → leadsTo (exec (.spdmHeartbeat i) s) (sessionGoes i (some { x with beatUs := s.time }) s) ∧
      leadsTo (exec (.keyUpdate i) s) (sessionGoes i (some { x with keyGen := x.keyGen + 1 }) s) ∧
      leadsTo (exec (.endSession i) s) (sessionGoes i none s)) := by
  have hphase (ph : SessionPhase) (hne : ph ≠ .established) : ∀ z, some { x with phase := ph } = some z → lapsed s z = false := by
    rintro z ⟨⟩
    exact lapsed_of_not_established hne
  have hnow (y : Session) (hbeat : y.beatUs = s.time) : ∀ z, some y = some z → lapsed s z = false := by
    rintro z ⟨⟩
    simp [lapsed, hbeat]
  have hold : ∀ z, some { x with keyGen := x.keyGen + 1 } = some z → lapsed s z = false := by
    rintro z ⟨⟩
    exact (not_lapsed_of_sessionOf hx : lapsed s x = false)
  have hnone : ∀ z, (none : Option Session) = some z → lapsed s z = false := fun z hz => by cases hz
  refine ⟨fun hph => ?_, fun hph => ⟨?_, ?_⟩, fun hph => ⟨?_, fun a b hab => ?_⟩, fun hph => ⟨?_, ?_, ?_⟩⟩
  · exact ⟨_, onSession_of_phase h hx hph _, sessionGoes_inSession (hphase .encapsulated (by simp)) (.inl rfl)⟩
  · exact ⟨_, onSession_of_phase h hx hph _, sessionGoes_inSession (hphase .chain (by simp)) (.inl rfl)⟩
  · exact ⟨_, onSession_of_phase h hx hph _, sessionGoes_inSession hnone (.inr rfl)⟩
  · exact ⟨_, onSession_of_phase h hx hph _, sessionGoes_inSession (hnow _ rfl) (.inl rfl)⟩
  · refine ⟨_, onSession_of_phase h hx hph _, ?_⟩
    rw [hab]
    exact sessionGoes_inSession hnone (.inr rfl)
  · exact ⟨_, onSession_of_phase h hx hph _, sessionGoes_inSession (hnow _ rfl) (.inl rfl)⟩
  · exact ⟨_, onSession_of_phase h hx hph _, sessionGoes_inSession hold (.inl rfl)⟩
  · exact ⟨_, onSession_of_phase h hx hph _, sessionGoes_inSession hnone (.inl rfl)⟩

end Sys2Proof.Machine
end


section
/-! SUPPORT. House frames (O49): no frame changes the keys or the sequence numbers that another is checked with. -/

namespace Sys2Proof.Machine

open Sys2Proof

/-! ### What the check of a House frame reads -/

/-- The RoT's keys and the sequence numbers taken from each sender. -/
def houseView (s : State) : Sec × List (Word × SeqWin) := (s.sec, s.net.houseRx)

theorem houseView_of_unstored {s t : State} (h : unstored t = unstored s) : houseView t = houseView s := by
  rw [houseView, houseView, sec_of_unstored h, houseRx_of_unstored h]

theorem houseView_of_unserved {s t : State} (h : unserved t = unserved s) : houseView t = houseView s :=
  houseView_of_unstored (unstored_of_unserved h)

theorem houseView_of_quiet {s t : State} (h : quiet s t = s) : houseView t = houseView s := (congrArg houseView h :)

theorem houseView_ite {p : Prop} [Decidable p] {s t u : State} (ht : houseView t = houseView s) (hu : houseView u = houseView s) :
    houseView (if p then t else u) = houseView s := by split <;> assumption

/-! ### Commits that awaited their verdicts (R644) -/

theorem unstored_stepRows (m : MemCtx) (jobs : List QJob) (s : State) : unstored (stepRows m jobs s).1 = unstored s := by
  rw [stepRows]
  suffices h : ∀ acc : State × List (DWord × DWord) × Bool, unstored (jobs.foldl _ acc).1 = unstored acc.1 from h (s, [], false)
  induction jobs with
  | nil => exact fun _ => rfl
  | cons j jobs ih => exact fun acc => (ih _).trans ((unstored_dvRead _ _ _ _).trans (unstored_dvRead _ _ _ _))

theorem unstored_storeExt (part : Nat) (ext : List Nat) (from_ : Nat) (ts : List Word) (s : State) :
    unstored (storeExt part ext from_ ts s) = unstored s := by
  simp only [storeExt]
  split
  · rfl
  · refine unstored_foldl _ (fun t p => ?_) _ s
    split
    · exact unstored_storePhys _ _ _ _
    · rfl

theorem unstored_commitOne (rows : List (DWord × DWord)) (beat : DWord) (i n : Nat) (s : State) :
    unstored (commitOne rows beat i n s) = unstored s := by
  cases hr : reqOf s i with
  | none => simp only [commitOne, hr]
  | some r =>
    cases hlive : r.state.live with
    | false => simp only [commitOne, hr, hlive, Bool.not_false, if_true]
    | true =>
      obtain ⟨x, shown, slots, final, st, -, -, h⟩ := commitOne_eq (rows := rows) (beat := beat) (n := n) hr hlive
      rw [h, unstored_of_unserved (unserved_commitTail _ _ _ _ _ _ _ _ _), unstored_of_unserved (unserved_setReq _ _ _), unstored_storeExt]

theorem houseView_commitGroup (g : Group) (beat : DWord) (s : State) : houseView (commitGroup g beat s) = houseView s := by
  have hrows := unstored_stepRows (stepMem g.plan.part g.plan.stepId.toNat) (stepJobs s g.plan.part g.plan.stepId.toNat) s
  rw [stepMem] at hrows
  simp only [commitGroup]
  split
  · rw [houseView_of_unstored (unstored_of_unended (unended_resolveStep _ _ _)), houseView_of_unserved (unserved_stepBroken _ _ _ _ _),
      houseView_of_unstored hrows]
  · generalize stepRows _ _ _ = r at hrows ⊢
    obtain ⟨-, -, -, hrest⟩ := groupCommitted_result g beat r.1
    refine (houseView_of_unstored (unstored_foldl _ (fun t p => unstored_commitOne _ _ _ _ t) _ (groupCommitted g beat r.1))).trans ?_
    rw [houseView_of_unserved hrest]
    exact (houseView_of_unserved (unserved_sendVerdict g true r.1) :).trans (houseView_of_unstored hrows)

theorem houseView_commitAwaiting (s : State) : houseView (commitAwaiting s) = houseView s :=
  foldl_keeps houseView (fun t g => commitGroup g t.beat.num t) (fun t g => houseView_commitGroup g _ t) _ s

/-! ### What a House frame does (R587) -/

theorem houseView_standDown (reason : Nat) (status : Status) (beat : DWord) (s : State) :
    houseView (standDown reason status beat s) = houseView s := by
  rw [standDown, houseView_of_unserved (unserved_logEvent _ _)]
  rfl

theorem houseView_sendConfig (coefs : Bool) (s : State) : houseView (sendConfig coefs s) = houseView s := by
  rw [sendConfig, houseView_of_quiet (sendHouse_result _ _ _).1, houseView_of_unserved (unserved_sendPair _ _ _ _)]

theorem houseView_partnerState (b : HbBody) (s : State) : houseView (partnerState b s) = houseView s := by
  rw [partnerState]
  split
  · split
    · exact houseView_commitAwaiting _
    · rfl
  · split
    · exact houseView_sendConfig true _
    · split
      · rfl
      · split
        · rfl
        · split <;> rfl
  · rfl

theorem houseView_heartbeatOp (link : Bool) (h : PairHdr) (b : HbBody) (s : State) :
    houseView (heartbeatOp link h b s) = houseView s := by
  have hstep (p : Pair) : houseView (standDown 7 0 s.beat.num { s with pair := p }) = houseView s ∧
      houseView (partnerState b { s with pair := p }) = houseView s := ⟨houseView_standDown _ _ _ _, houseView_partnerState b _⟩
  exact houseView_ite (hstep _).1 (hstep _).2

theorem houseView_diverge (beat : DWord) (s : State) : houseView (diverge beat s) = houseView s := by
  rw [diverge]
  split <;> rfl

theorem houseView_compareDigests (b d : BeatDigests) (s : State) : houseView (compareDigests b d s) = houseView s := by
  have hdiverge (p : Bool) : houseView (if p then s else diverge b.beat s) = houseView s := by
    split
    · rfl
    · exact houseView_diverge _ s
  simp only [compareDigests]
  split
  · split
    · rfl
    · exact houseView_standDown _ _ _ _
  · exact hdiverge _
  · exact hdiverge _
  · rfl

theorem houseView_digestOp (b : DigestBody) (s : State) : houseView (digestOp b s) = houseView s := by
  simp only [digestOp]
  split
  · rfl
  · split
    · exact houseView_compareDigests _ _ _
    · rfl

theorem houseView_houseOp (f : HouseFrame) (s : State) : houseView (houseOp f s) = houseView s := by
  simp only [houseOp]
  split
  · exact houseView_heartbeatOp _ _ _ _
  · exact houseView_digestOp _ s
  · rfl
  · rfl
  · rfl

/-! ### The check (R585, R588) -/

/-- A sequence number that has been taken is not fresh again. -/
theorem seqFresh_seqTake {w : Option SeqWin} {q : DWord} (h : seqFresh w q = true) : seqFresh (some (seqTake w q)) q = false := by
  cases w with
  | none => simp [seqFresh, seqTake]
  | some w =>
    have hnear : w.high.toNat < q.toNat + 64 := by
      rw [seqFresh, Bool.and_eq_true, decide_eq_true_eq] at h
      exact h.1
    have hhigh : (if w.high.toNat < q.toNat then q else w.high).toNat < q.toNat + 64 := by split <;> omega
    simp [seqFresh, seqTake, hhigh]

/-- The state after a frame's sequence number has been taken. -/
def houseTaken (f : HouseFrame) (s : State) : State :=
  { s with net := { s.net with houseRx := (s.net.houseRx.filter fun e => e.1 ≠ f.serial) ++
      [(f.serial, seqTake (houseWin s f.serial) f.hseq)] } }

theorem houseBad_of_houseView {s t : State} (h : houseView t = houseView s) (f : HouseFrame) : houseBad t f = houseBad s f := by
  have hsec : t.sec = s.sec := congrArg Prod.fst h
  have hrx : t.net.houseRx = s.net.houseRx := congrArg Prod.snd h
  simp only [houseBad, houseWin, hsec, hrx]

/-- The same frame is discarded the second time (R585). -/
theorem houseBad_houseTaken {f : HouseFrame} {s : State} (hhouse : s.sec.house = true) (hgood : houseBad s f = false) :
    houseBad (houseTaken f s) f = true := by
  simp only [houseBad, hhouse, if_true, Bool.or_eq_false_iff, Bool.not_eq_false'] at hgood
  obtain ⟨-, hfresh⟩ := hgood
  have hwin : houseWin (houseTaken f s) f.serial = some (seqTake (houseWin s f.serial) f.hseq) := by
    have hnone : (s.net.houseRx.filter fun e => e.1 ≠ f.serial).find? (fun e => e.1 = f.serial) = none := by
      rw [List.find?_eq_none]
      intro e he
      simpa using (List.mem_filter.1 he).2
    simp only [houseWin, houseTaken, List.find?_append, hnone]
    simp
  have hkey : (houseTaken f s).sec.house = true := hhouse
  rw [houseBad, if_pos hkey, hwin, seqFresh_seqTake hfresh, Bool.not_false, Bool.or_true]

theorem houseFrame_bad {port : Nat} {f : HouseFrame} {s : State} (hport : port < 2) (hstandby : s.pins.standby = true)
    (hbad : houseBad s f = true) : leadsTo (exec (.houseFrame port f) s) fun t => regW t 0xB0054 = regW s 0xB0054 + 1 ∧
      { t with regs := s.regs } = s := by
  have hexec : exec (.houseFrame port f) s = .next (bump 0xB0054 s) := by
    simp only [exec_houseFrame, execHouseFrame, need, hport, decide_true, if_true, hstandby, Bool.not_true, Bool.false_eq_true, if_false, hbad]
  exact ⟨_, hexec, regW_setReg_self _ _ s, rfl⟩

/-- A frame that is accepted: its sequence number is taken under a House key, and its class is carried out. -/
theorem houseFrame_good {port : Nat} {f : HouseFrame} {s : State} (hport : port < 2) (hstandby : s.pins.standby = true)
    (hgood : houseBad s f = false) : exec (.houseFrame port f) s =
      .next (if f.version ≠ 1 || f.cls.toNat > 7 then (if s.sec.house then houseTaken f s else s)
        else houseOp f (if s.sec.house then houseTaken f s else s)) := by
  simp only [exec_houseFrame, execHouseFrame, need, hport, decide_true, if_true, hstandby, Bool.not_true, Bool.false_eq_true, if_false, hgood,
    houseTaken]

theorem houseFrame_result (port : Nat) (f : HouseFrame) (s : State) (hport : port < 2) (hstandby : s.pins.standby = true) :
    (houseBad s f = true → leadsTo (exec (.houseFrame port f) s) fun t => regW t 0xB0054 = regW s 0xB0054 + 1 ∧
      { t with regs := s.regs } = s) ∧
    (houseBad s f = false → f.version ≠ 1 ∨ 7 < f.cls.toNat → leadsTo (exec (.houseFrame port f) s) fun t =>
      keepsUnits s t ∧ t.pair = s.pair ∧ t.regs = s.regs) ∧
    (s.sec.house = true → houseBad s f = false → leadsTo (exec (.houseFrame port f) s) fun t => houseBad t f = true) := by
  refine ⟨houseFrame_bad hport hstandby, fun hgood hunknown => ?_, fun hhouse hgood => ?_⟩
  · have hcond : (decide (f.version ≠ 1) || decide (f.cls.toNat > 7)) = true := by simpa using hunknown
    have hexec := houseFrame_good hport hstandby hgood
    rw [if_pos hcond] at hexec
    refine ⟨_, hexec, ?_⟩
    split <;> exact ⟨⟨rfl, rfl, rfl, rfl, rfl⟩, rfl, rfl⟩
  · refine ⟨_, houseFrame_good hport hstandby hgood, ?_⟩
    rw [if_pos hhouse]
    have hagain := houseBad_houseTaken hhouse hgood
    split
    · exact hagain
    · exact (houseBad_of_houseView (houseView_houseOp f _) f).trans hagain

/-- Settles O49: a command's reply and an SPDM message leave the rest of the state alone; a House frame's sequence number, once taken,
is not fresh again, whatever the frame does. -/
theorem cabinetAndSpdm : Obligations.CabinetAndSpdm := by
  unfold Obligations.CabinetAndSpdm
  refine ⟨fun m w role b hold s h => ⟨(capSet_result h w).1, (capSet_result h w).2, curtain_result h b, curtainPolicy_result h hold,
    fun hrole hidle => sparePort_result h hrole hidle⟩, fun port f s hport hstandby => houseFrame_result port f s hport hstandby,
    fun p nonce s h => ?_, fun i x root s h hx => session_result root h hx⟩
  refine ⟨getVersion_result p h, getCapabilities_result p h, negotiateAlgorithms_result p h, fun halgs => ?_⟩
  refine ⟨asked_result h halgs rfl, asked_result h halgs rfl, asked_result h halgs rfl, fun x i hlo hhi => ?_,
    fun i hfree => keyExchange_result p h halgs hfree, fun hfull => ?_⟩
  · rw [← measReport_of_public x hlo hhi]
    obtain ⟨t, hexec, hsent, hquiet⟩ := asked_result (i := .getMeasurements p x i) h halgs rfl
    exact ⟨t, hexec, hquiet, hsent⟩
  · refine asked_result h halgs ?_
    rw [exec_keyExchange, execKeyExchange, hfull]
    rfl

end Sys2Proof.Machine
end


section
/-! SUPPORT. The Beat (O58): a partition that is short holds no flats after the cuts, whatever the flat map gives it. -/

namespace Sys2Proof.Machine

open Sys2Proof

/-- A Running Order without entries whose flat map gives every pool flat to P0. -/
def flatsToP0 : Order :=
  { hdr := { beatNo := 0, entryCount := 0, xlistCount := 0, periodUs := 0, eBudgetUj := 0, eDrawUj := 0, walkonUj := 0, walkonEus := 0
             configDigest := 0, coefGen := 0, resv := [], crc := 0 }
    entries := [], xlist := [], jobs := [], steps := [], flats := List.replicate 128 ⟨0, false⟩, plans := [] }

/-- A running Beat whose cuts have not completed, in which P0 is guaranteed 101 flats. No flat is retired and none is to be, and the pool
has 100 flats: P0 is short (R263). -/
def shortP0 : State :=
  { State.reset with
    beat := { State.reset.beat with started := true, cutsDone := false }
    ro := { State.reset.ro with running := some flatsToP0 }
    sec := { State.reset.sec with enabled := [0] }
    flies := { State.reset.flies with guar := [(0, 101)] } }

/-- The cuts of the edge complete. -/
theorem exec_cutComplete_shortP0 : exec .cutComplete shortP0 = .next (cutCompleteOp shortP0) := rfl

theorem shortP0_flats : ∀ f, f < 128 → (flatOf shortP0 f).pending = false ∧ (flatOf shortP0 f).retired = false := fun _ _ => ⟨rfl, rfl⟩

/-- The flat map gives flat 64 to P0. -/
theorem newHolder_shortP0 : (newHolder shortP0 64).holder = 0 := by decide

/-- R263 takes flat 64 from P0 again: it is unheld once the cuts have completed. -/
theorem flatOf_cutCompleteOp_shortP0 : (flatOf (cutCompleteOp shortP0) 64).holder = 0xD := by decide +kernel

/-- Refutes O58, by its clause on CUT_COMPLETE: where no flat is retired every flat is to take the holder that the new flat map gives it,
but `enforceShort` takes the flats of a short partition from it (R263), and a partition is short when the guarantees exceed the pool, with
no flat retired. -/
theorem not_beatAndOrders : ¬ Obligations.BeatAndOrders := by
  unfold Obligations.BeatAndOrders
  rintro ⟨-, -, -, -, -, hcut, -⟩
  obtain ⟨t, hexec, -, -, -, hholder⟩ := hcut shortP0 rfl rfl
  obtain rfl : cutCompleteOp shortP0 = t := Host.Outcome.next.inj (exec_cutComplete_shortP0.symm.trans hexec)
  have hclaim := hholder shortP0_flats 64 (by decide)
  rw [flatOf_cutCompleteOp_shortP0, newHolder_shortP0] at hclaim
  exact absurd hclaim (by decide)

end Sys2Proof.Machine
end

section
/-! SUPPORT. Issue of Isvex instructions (O15, O16, O17): every instruction of a program issues by its class, its function and its fields. -/

namespace Sys2Proof.Machine

open Sys2Proof

/-! ### Outcomes of an issue (R131, R155) -/

/-- An exception abandons the entry of its engine and counts; its record names what the exception gives (R154, R157). -/
theorem raiseExc_abandons {e : Nat} {c : EntryCtx} {s : State} (hrun : (engOf s e).run = some c) (he : e < 36) (cause pc addr : Nat)
    (status : Status) (detail : List Nat) :
    let t := raiseExc e cause pc addr status detail s
    engOf t e = abandoned (engOf s e) (BitVec.ofNat 8 cause) ∧ (∀ k, k ≠ e → engOf t k = engOf s k) ∧
      t.mem = s.mem ∧ t.flies = s.flies ∧ t.cue = s.cue ∧
      regW t (0x50008 + 0x400 * e) = regW s (0x50008 + 0x400 * e) + 1 ∧
      (∀ a, a ≠ 0x50008 + 0x400 * e → a ≠ 0xD0054 → regW t a = regW s a) ∧
      (s.fault.fifo.length < 256 → ∃ v, t.fault.fifo = s.fault.fifo ++ [v] ∧ v.cls = 0 ∧ v.cause = cause ∧ v.pc = pc ∧
        v.addr = BitVec.ofNat 64 addr ∧ v.detail = detail ∧ v.ctx = ctxOf c ∧ v.unit = unitCode (engRef e)) := by
  set x : Engine := { engOf s e with excLast := BitVec.ofNat 8 cause }
  set u := bump (0x50008 + 0x400 * e) (setEng e x s)
  have hu : engOf u e = x := engOf_setEng_self e x s
  have hrun' : (engOf u e).run = some c := by rw [hu]; exact hrun
  obtain ⟨hself, hother, hmem, hflies, hcue, hreg, hfifo⟩ := abandonEntry_result { evBase u 0 cause 0 with
    origin := originOf 0 false, status := status, pc := pc, addr := BitVec.ofNat 64 addr, detail := detail } hrun'
  exact ⟨hself.trans (by rw [hu]; rfl), fun k hk => (hother k hk).trans (engOf_setEng_of_ne x s hk), hmem, hflies, hcue,
    (hreg _ (by omega)).trans (regW_setReg_self _ _ _), fun a ha ha' => (hreg a ha').trans (regW_setReg_of_ne _ _ ha),
    fun hlen => ⟨_, hfifo hlen, rfl, rfl, rfl, rfl, rfl, rfl, rfl⟩⟩

/-- An exception at an instruction boundary abandons the entry, and its record names the pc of the instruction. -/
theorem raised_raiseExc {e : Nat} {c : EntryCtx} {s : State} (hrun : (engOf s e).run = some c) (he : e < 36) (cause addr : Nat) :
    raised e cause addr c s (raiseExc e cause (engOf s e).pc.toNat addr 0 [] s) := by
  obtain ⟨hself, hother, hmem, hflies, hcue, hcount, -, hrecord⟩ := raiseExc_abandons hrun he cause (engOf s e).pc.toNat addr 0 []
  refine ⟨hself, hother, hmem, hflies, hcue, hcount, fun hlen => ?_⟩
  obtain ⟨v, hfifo, hcls, hcause, hpc, haddr, -, hctx, hunit⟩ := hrecord hlen
  exact ⟨v, hfifo, hcls, hcause, hpc, haddr, hctx, hunit⟩

section
variable {e : Nat} {s : State} {c : EntryCtx} {g : EntryCtx → Engine → IRes}

theorem issue_of_blocked (he : e < 36)
    (h : (engOf s e).run = none ∨ (engOf s e).wait.isSome = true ∨ (engOf s e).phase ≠ .running) : issue e s g = .next s := by
  simp only [issue, need, he, decide_true, if_true]
  split
  · rfl
  · next d hd =>
    have hblocked : (decide ((engOf s e).phase ≠ .running) || (engOf s e).wait.isSome) = true := by
      rcases h with h | h | h
      · simp [h] at hd
      · simp [h]
      · simp [h]
    rw [if_pos hblocked]

theorem issue_of_issues (h : issues s e c) : issue e s g = match g c (engOf s e) with
    | .ok t => .next t
    | .exc cause a => .next (raiseExc e cause (engOf s e).pc.toNat a 0 [] s)
    | .stall => .next s := by
  obtain ⟨he, hrun, hphase, hwait, hdef⟩ := h
  exact issue_eq g he hrun hphase hwait hdef

theorem issue_ok (h : issues s e c) {t : State} (hg : g c (engOf s e) = .ok t) : issue e s g = .next t := by
  rw [issue_of_issues h, hg]

theorem issue_exc (h : issues s e c) {cause addr : Nat} (hg : g c (engOf s e) = .exc cause addr) :
    leadsTo (issue e s g) (raised e cause addr c s) := by
  rw [issue_of_issues h, hg]
  obtain ⟨he, hrun, -, -, -⟩ := h
  exact ⟨_, rfl, raised_raiseExc hrun he cause addr⟩

variable {major func : Nat} {f : Fields}

theorem runEng_ok (h : issues s e c) (hw : wordOk major func f = true) {t : State} (hg : g c (engOf s e) = .ok t) :
    runEng e major func f s g = .next t := issue_ok h (by rw [if_pos hw, hg])

theorem runEng_exc (h : issues s e c) (hw : wordOk major func f = true) {cause addr : Nat}
    (hg : g c (engOf s e) = .exc cause addr) : leadsTo (runEng e major func f s g) (raised e cause addr c s) :=
  issue_exc h (by rw [if_pos hw, hg])

theorem runEng_stall (h : issues s e c) (hw : wordOk major func f = true) (hg : g c (engOf s e) = .stall) :
    runEng e major func f s g = .next s := by
  rw [runEng, issue_of_issues h, if_pos hw, hg]

theorem runEng_illegal (h : issues s e c) (hw : wordOk major func f = false) :
    leadsTo (runEng e major func f s g) (raised e 1 0 c s) := issue_exc h (by rw [if_neg (by simp [hw])])

end

/-! ### The instructions of a program (R174) -/

/-- A result is that of an instruction word: it issues by its class, its function and its fields. -/
def issuesAs (e major func : Nat) (f : Fields) (s : State) (r : Res) : Prop := ∃ g, r = runEng e major func f s g

section
variable (e : Nat) (f : Fields) (s : State)

theorem issuesAs_runEng (major func : Nat) (g : EntryCtx → Engine → IRes) : issuesAs e major func f s (runEng e major func f s g) := ⟨g, rfl⟩
theorem issuesAs_runReg (major func : Nat) (g : Engine → Engine) : issuesAs e major func f s (runReg e major func f s g) := ⟨_, rfl⟩
theorem issuesAs_aluReg (func : Nat) (g : DWord → DWord → DWord) : issuesAs e 1 func f s (aluReg e func f s g) := issuesAs_runReg ..
theorem issuesAs_aluImm (func : Nat) (g : DWord → DWord → DWord) : issuesAs e 2 func f s (aluImm e func f s g) := issuesAs_runReg ..
theorem issuesAs_branchIf (func : Nat) (g : DWord → DWord → Bool) : issuesAs e 3 func f s (branchIf e func f s g) := issuesAs_runEng ..
theorem issuesAs_lmLoad (func n : Nat) (g : Nat → DWord) : issuesAs e 8 func f s (lmLoad e func n f s g) := issuesAs_runEng ..
theorem issuesAs_lmStore (func n : Nat) : issuesAs e 8 func f s (lmStore e func n f s) := issuesAs_runEng ..
theorem issuesAs_xferIssue (func : Nat) (st : Bool) : issuesAs e 0xC func f s (xferIssue e func st f s) := issuesAs_runEng ..
theorem issuesAs_vecElem (func : Nat) (g : Engine → List Word) : issuesAs e 0x14 func f s (vecElem e func f s g) := issuesAs_runReg ..
theorem issuesAs_vecReduce (func : Nat) (unit : Word) (op : Engine → Word → Word → Word) :
    issuesAs e 0x14 func f s (vecReduce e func f s unit op) := issuesAs_runReg ..
theorem issuesAs_runCue (func : Nat) (g : EntryCtx → Engine → Nat → IRes) : issuesAs e 0x1C func f s (runCue e func f s g) := issuesAs_runEng ..
theorem issuesAs_cueWaitInsn (func : Nat) (take timed : Bool) : issuesAs e 0x1C func f s (cueWaitInsn e func take timed f s) := issuesAs_runCue ..
theorem issuesAs_flyAccess (func n : Nat) (rd : Bool) (g : EntryCtx → Engine → Nat → List Byte → Engine × Option (List Byte)) :
    issuesAs e 0x20 func f s (flyAccess e func n f s rd g) := issuesAs_runEng ..
theorem issuesAs_flyAtomic (func : Nat) (g : Engine → DWord → DWord) : issuesAs e 0x20 func f s (flyAtomic e func f s g) := issuesAs_flyAccess ..

end
/-- Every instruction of a program issues by its class, its function and its fields (R174). -/
theorem exec_issuesAs {i : Instr} {e major func : Nat} {f : Fields} (h : isvexOf i = some (e, major, func, f)) (s : State) :
    issuesAs e major func f s (exec i s) := by
  cases i <;> cases h <;> dsimp only [exec]
  case add | sub | and | or | xor | sll | srl | sra | mul | mulhu | mulh | divu | remu | slt | sltu | min | max | minu | maxu =>
    exact issuesAs_aluReg ..
  case addi | andi | ori | xori | slli | srli | srai | slti | sltiu => exact issuesAs_aluImm ..
  case beq | bne | blt | bge | bltu | bgeu | jmp => exact issuesAs_branchIf ..
  case lmLdB | lmLdBu | lmLdH | lmLdHu | lmLdW | lmLdWu | lmLdD => exact issuesAs_lmLoad ..
  case lmStB | lmStH | lmStW | lmStD => exact issuesAs_lmStore ..
  case xferLd | xferSt => exact issuesAs_xferIssue ..
  case vadd | vsub | vmul | vfma | vmax | vmin | vand | vor | vxor | vshl | vshr | vexp | vlog | vrcp | vrsqrt | vsel | vbc =>
    exact issuesAs_vecElem ..
  case vrsum | vrmax | vrmin => exact issuesAs_vecReduce ..
  case cueSig | cueSet | cueRead => exact issuesAs_runCue ..
  case cueWait | cueWaitd | cueWaitT | cueWaitdT => exact issuesAs_cueWaitInsn ..
  case flyLdW | flyLdD | flyStW | flyStD | flyVld | flyVst => exact issuesAs_flyAccess ..
  case flyAdd | flyMax | flyMin | flyAnd | flyOr | flyXchg | flyCas => exact issuesAs_flyAtomic ..
  case ctrlNop | sel | movhi | mxZero | vcmp | vcvtUp | pand | por | pnot | pfirst | vphilox | attnSmax | attnFin =>
    exact issuesAs_runReg ..
  case ctrlEnd | ctrlFence | dbnz | lmVld | lmVst | lmVldBc | lmPld | lmPst | lmCpy | lmFill | mxMul | mxDrain | mxFill | mxRowr |
      mxRoww | vlane | vcvtDn | attnScore | attnPv | attnRecomp | sysRdst | sysWrst | sysTrap | sysHcall =>
    exact issuesAs_runEng ..

/-- Settles O15: every instruction issues by its word, and a word with a reserved field value raises ILLEGAL. -/
theorem reservedFieldsAreIllegal : Obligations.ReservedFieldsAreIllegal := by
  unfold Obligations.ReservedFieldsAreIllegal
  intro i e major func f s c hi h hw
  obtain ⟨g, hg⟩ := exec_issuesAs hi s
  rw [hg]
  exact runEng_illegal h hw

/-- Settles O17: every instruction issues by `issue`, which leaves a blocked engine's state as it is. -/
theorem nothingIssuesWhileAnEngineWaits : Obligations.NothingIssuesWhileAnEngineWaits := by
  unfold Obligations.NothingIssuesWhileAnEngineWaits
  intro i e major func f s hi he h
  obtain ⟨g, hg⟩ := exec_issuesAs hi s
  rw [hg]
  exact issue_of_blocked he h

/-! ### Footprints (R111 to R116, R121) -/

/-- An access of `n` bytes of LM that is not aligned to `al`, or that leaves LM, raises its exception. -/
def lmRaises (e func n al : Nat) (f : Fields) (s : State) (c : EntryCtx) (r : Res) : Prop :=
  wordOk 8 func f = true →
    (effAddr (engOf s e) f % al ≠ 0 → leadsTo r (raised e 2 (effAddr (engOf s e) f) c s)) ∧
    (effAddr (engOf s e) f % al = 0 ∧ lmSize < effAddr (engOf s e) f + n → leadsTo r (raised e 3 (effAddr (engOf s e) f) c s))

/-- An access of `n` bytes of the Flies that is not aligned to `al`, or that leaves the entry's window, raises its exception. -/
def flyRaises (e func n al : Nat) (f : Fields) (s : State) (c : EntryCtx) (r : Res) : Prop :=
  wordOk 0x20 func f = true →
    (effAddr (engOf s e) f % al ≠ 0 → leadsTo r (raised e 2 (effAddr (engOf s e) f) c s)) ∧
    (effAddr (engOf s e) f % al = 0 ∧ flSize c < effAddr (engOf s e) f + n → leadsTo r (raised e 4 (effAddr (engOf s e) f) c s))

/-- An access to a Cue Light outside the entry's window or the partition's grants raises CL_PERM. -/
def cueRaises (e func : Nat) (f : Fields) (s : State) (c : EntryCtx) (r : Res) : Prop :=
  wordOk 0x1C func f = true ∧ (c.clOk = false ∨ c.clCount ≤ cueWin (engOf s e) f ∨
      cueGranted s c.part (c.clBase + cueWin (engOf s e) f) = false) →
    leadsTo r (raised e 5 (cueWin (engOf s e) f) c s)

theorem cueIndex_eq_none_iff (s : State) (c : EntryCtx) (i : Nat) : cueIndex s c i = none ↔
    c.clOk = false ∨ c.clCount ≤ i ∨ cueGranted s c.part (c.clBase + i) = false := by
  rw [cueIndex]
  split
  · next h => simp_all
  · next h => simpa [imp_iff_not_or, or_assoc] using h

section
variable {e : Nat} {f : Fields} {s : State} {c : EntryCtx} (h : issues s e c)
include h

theorem lmRaises_runEng {func n al : Nat} {r : EntryCtx → Engine → IRes} :
    lmRaises e func n al f s c (runEng e 8 func f s fun d x => (chkLm x (effAddr x f) n al).run (r d x)) := by
  refine fun hw => ⟨fun ha => runEng_exc h hw ?_, fun ⟨ha, hn⟩ => runEng_exc h hw ?_⟩
  · simp only [chkLm, if_pos ha, Chk.run]
  · simp only [chkLm, ha, ne_eq, not_true_eq_false, if_false, if_pos (gt_iff_lt.2 hn), Chk.run]

theorem lmRaises_lmLoad {func n : Nat} {g : Nat → DWord} : lmRaises e func n n f s c (lmLoad e func n f s g) :=
  lmRaises_runEng h

theorem lmRaises_lmStore {func n : Nat} : lmRaises e func n n f s c (lmStore e func n f s) := lmRaises_runEng h

theorem flyRaises_flyAccess {func n al : Nat} {rd : Bool}
    {g : EntryCtx → Engine → Nat → List Byte → Engine × Option (List Byte)} (hal : min n 64 = al) :
    flyRaises e func n al f s c (flyAccess e func n f s rd g) := by
  subst hal
  refine fun hw => ⟨fun ha => runEng_exc h hw ?_, fun ⟨ha, hn⟩ => runEng_exc h hw ?_⟩
  · simp only [chkFl, if_pos ha, Chk.run]
  · simp only [chkFl, ha, ne_eq, not_true_eq_false, if_false, if_pos (gt_iff_lt.2 hn), Chk.run]

theorem flyRaises_flyAtomic {func : Nat} {g : Engine → DWord → DWord} : flyRaises e func 8 8 f s c (flyAtomic e func f s g) :=
  flyRaises_flyAccess h rfl

theorem cueRaises_runCue {func : Nat} {g : EntryCtx → Engine → Nat → IRes} : cueRaises e func f s c (runCue e func f s g) :=
  fun ⟨hw, hnone⟩ => runEng_exc h hw (by rw [(cueIndex_eq_none_iff _ _ _).2 hnone])

theorem cueRaises_cueWaitInsn {func : Nat} {take timed : Bool} :
    cueRaises e func f s c (cueWaitInsn e func take timed f s) := cueRaises_runCue h

end

/-- Settles O16: each access is checked before it is made, and the first check that it fails raises its exception. -/
theorem accessExceptions : Obligations.AccessExceptions := by
  unfold Obligations.AccessExceptions
  intro e f s c h
  dsimp only [exec]
  refine ⟨lmRaises_lmLoad h, lmRaises_lmLoad h, lmRaises_lmLoad h, lmRaises_lmLoad h, lmRaises_lmLoad h,
    lmRaises_lmLoad h, lmRaises_lmLoad h, lmRaises_lmStore h, lmRaises_lmStore h, lmRaises_lmStore h,
    lmRaises_lmStore h, lmRaises_runEng h, lmRaises_runEng h, lmRaises_runEng h, lmRaises_runEng h,
    lmRaises_runEng h, ?_⟩
  refine ⟨flyRaises_flyAccess h rfl, flyRaises_flyAccess h rfl, flyRaises_flyAccess h rfl, flyRaises_flyAccess h rfl,
    flyRaises_flyAccess h rfl, flyRaises_flyAccess h rfl, flyRaises_flyAtomic h, flyRaises_flyAtomic h,
    flyRaises_flyAtomic h, flyRaises_flyAtomic h, flyRaises_flyAtomic h, flyRaises_flyAtomic h,
    flyRaises_flyAtomic h, ?_⟩
  exact ⟨cueRaises_runCue h, cueRaises_cueWaitInsn h, cueRaises_cueWaitInsn h, cueRaises_runCue h,
    cueRaises_runCue h, cueRaises_cueWaitInsn h, cueRaises_cueWaitInsn h⟩

end Sys2Proof.Machine
end

section
/-! SUPPORT. Accesses to the Flies (O7): what a read of its words leaves alone, and what a write stores. -/

namespace Sys2Proof.Machine

open Sys2Proof

/-! ### Bytes and words (R4) -/

theorem leNat_leBytes (n x : Nat) : leNat (leBytes n x) = x % 256 ^ n := by
  induction n generalizing x with
  | zero => simp [leBytes, leNat, Nat.mod_one]
  | succ n ih =>
    rw [leBytes, leNat, ih, BitVec.toNat_ofNat, Nat.pow_succ' (n := n)]
    exact Nat.mod_mul.symm

/-- Words that are stored as bytes hold a NaN when the bytes, read as words, do. -/
theorem bytesNan_lanesBytes (ls : List Word) : bytesNan (lanesBytes ls) = anyNan ls := by
  induction ls with
  | nil => rfl
  | cons w ls ih =>
    have hw : BitVec.ofNat 32 (leNat (leBytes 4 w.toNat)) = w := by
      have : w.toNat % 256 ^ 4 = w.toNat := Nat.mod_eq_of_lt w.isLt
      rw [leNat_leBytes, this, BitVec.ofNat_toNat, BitVec.setWidth_eq]
    have hcons : lanesBytes (w :: ls) = leBytes 4 w.toNat ++ lanesBytes ls := rfl
    rw [hcons, anyNan, List.any_cons, ← anyNan, ← ih]
    conv_rhs => rw [← hw]
    rfl

theorem length_lanesBytes (ls : List Word) : (lanesBytes ls).length = 4 * ls.length := by
  induction ls with
  | nil => rfl
  | cons w ls ih =>
    have hcons : lanesBytes (w :: ls) = leBytes 4 w.toNat ++ lanesBytes ls := rfl
    rw [hcons, List.length_append, length_leBytes, ih, List.length_cons]
    omega

/-! ### Writes of several keys -/

section
variable {α β : Type} [DecidableEq α] (d : α) (key : β → Nat) (val : β → α)

/-- Writes to other keys leave a key as it is. -/
theorem tabGet_foldl_set_of_forall_ne (xs : List β) (t : Tab α) {a : Nat} (h : ∀ x ∈ xs, a ≠ key x) :
    tabGet d (xs.foldl (fun t x => tabSet d t (key x) (val x)) t) a = tabGet d t a := by
  induction xs generalizing t with
  | nil => rfl
  | cons x xs ih =>
    obtain ⟨hx, hxs⟩ := List.forall_mem_cons.1 h
    rw [List.foldl_cons, ih _ hxs, tabGet_set_of_ne _ _ _ hx]

end

/-! ### Reads of the Flies (R239, R240) -/

/-- A read of words of the Flies has met what its code finds: counters, records, flats to be retired and steps that do not commit, and no
byte of any memory. -/
def wordsMet (s t : State) : Prop :=
  t.flies.mem = s.flies.mem ∧ ∃ regs flies free fault serve,
    t = { s with regs := regs, flies := flies, free := free, fault := fault, serve := serve }

theorem wordsMet_refl (s : State) : wordsMet s s := ⟨rfl, s.regs, s.flies, s.free, s.fault, s.serve, rfl⟩

theorem wordsMet_trans {s t u : State} (h : wordsMet s t) (g : wordsMet t u) : wordsMet s u := by
  obtain ⟨hm, _, _, _, _, _, rfl⟩ := h
  obtain ⟨gm, _, _, _, _, _, rfl⟩ := g
  exact ⟨gm.trans hm, _, _, _, _, _, rfl⟩

theorem wordsMet_logEvent (v : FaultEvent) (s : State) : wordsMet s (logEvent v s) := by
  obtain ⟨f, n, r, h, -, -⟩ := logEvent_frame v s
  exact h ▸ ⟨rfl, _, _, _, _, _, rfl⟩

theorem wordsMet_eccWords (ctx : DWord) (o : Byte) (step : Option (Nat × Nat)) (words : List Nat) (s : State) :
    wordsMet s (eccWords ctx o step words s) := by
  unfold eccWords
  refine List.foldlRecOn (motive := wordsMet s) _ _ (wordsMet_refl s) fun t ht w _ => wordsMet_trans ht ?_
  split
  · exact wordsMet_refl t
  · exact ⟨rfl, _, _, _, _, _, rfl⟩
  · have hfound (v : FaultEvent) : wordsMet t (logEvent v
        (drawn (bump 0x3000C (setFlat (w / 8192) { flatOf t (w / 8192) with pending := true } t)))) :=
      wordsMet_trans ⟨rfl, _, _, _, _, _, rfl⟩ (wordsMet_logEvent v _)
    dsimp only
    split
    · exact wordsMet_trans (hfound _) ⟨rfl, _, _, _, _, _, rfl⟩
    · exact hfound _

theorem wordsMet_flEcc (c : EntryCtx) (a n : Nat) (s : State) : wordsMet s (flEcc c a n s) := wordsMet_eccWords _ _ _ _ s

/-! ### Loads and stores (R113, R229) -/

/-- A write of the Flies changes no byte but its own. -/
theorem tabGet_flWrite_of_ne (c : EntryCtx) (a : Nat) (bs : List Byte) (s : State) {b : Nat}
    (h : ∀ j, j < bs.length → b ≠ flKey c (a + j)) :
    tabGet 0#8 (flWrite c a bs s).flies.mem b = tabGet 0#8 s.flies.mem b := by
  refine tabGet_foldl_set_of_forall_ne 0#8 (fun p : Byte × Nat => flKey c (a + p.2)) Prod.fst bs.zipIdx s.flies.mem fun p hp => ?_
  obtain ⟨-, hlt, -⟩ := List.mem_zipIdx hp
  exact h p.2 (by omega)

/-- The access `n` bytes at an address of the Flies window goes ahead. -/
def flyReady (e func n : Nat) (f : Fields) (s : State) (c : EntryCtx) : Prop :=
  wordOk 0x20 func f = true ∧ effAddr (engOf s e) f % min n 64 = 0 ∧ effAddr (engOf s e) f + n ≤ flSize c ∧
    flUnderTest s c (effAddr (engOf s e) f) n = false

section
variable {e func n : Nat} {f : Fields} {s : State} {c : EntryCtx}

/-- An access that goes ahead: its engine goes on, after what the read found and with what it writes. -/
theorem flyAccess_eq (h : issues s e c) (hr : flyReady e func n f s c) (rd : Bool)
    (g : EntryCtx → Engine → Nat → List Byte → Engine × Option (List Byte)) :
    let a := effAddr (engOf s e) f
    let r := g c (engOf s e) a (if rd then flRead s c a n else [])
    let t := if rd then flEcc c a n s else s
    flyAccess e func n f s rd g =
      .next (setEng e (advance r.1) (match r.2 with | some bs => flWrite c a bs t | none => t)) := by
  obtain ⟨hw, hal, hn, htest⟩ := hr
  exact runEng_ok h hw (by simp only [chkFl_ok hal hn htest, Chk.run_ok] <;> rfl)

theorem flyAccess_loads (h : issues s e c) {g : Engine → List Byte → Engine} (hpc : ∀ x bs, (g x bs).pc = x.pc)
    (hr : flyReady e func n f s c) :
    leadsTo (flyAccess e func n f s true fun _ x _ bs => (g x bs, none)) fun t =>
      engOf t e = { g (engOf s e) (flRead s c (effAddr (engOf s e) f) n) with pc := nextPc s e } ∧
      (∀ k, k ≠ e → engOf t k = engOf s k) ∧ t.flies.mem = s.flies.mem ∧ t.mem = s.mem ∧ t.cue = s.cue := by
  refine ⟨_, flyAccess_eq h hr true _, ?_⟩
  obtain ⟨hmem, _, _, _, _, _, hmet⟩ := wordsMet_flEcc c (effAddr (engOf s e) f) n s
  have heng (k : Nat) : engOf (flEcc c (effAddr (engOf s e) f) n s) k = engOf s k := by rw [hmet]; rfl
  refine ⟨?_, fun k hk => ?_, hmem, ?_, ?_⟩
  · rw [engOf_setEng_self, advance, hpc]
    rfl
  · rw [engOf_setEng_of_ne _ _ hk]
    exact heng k
  · exact (congrArg State.mem hmet).trans rfl
  · exact (congrArg State.cue hmet).trans rfl

theorem flyAccess_stores (h : issues s e c) {g : Engine → Engine} {bs : Engine → List Byte} {fl : Byte}
    (hg : g (engOf s e) = { engOf s e with flags := fl }) (hlen : (bs (engOf s e)).length = n) (hr : flyReady e func n f s c) :
    leadsTo (flyAccess e func n f s false fun _ x _ _ => (g x, some (bs x))) fun t =>
      engOf t e = { engOf s e with pc := nextPc s e, flags := fl } ∧ (∀ k, k ≠ e → engOf t k = engOf s k) ∧
      (∀ b, (∀ j, j < n → b ≠ flKey c (effAddr (engOf s e) f + j)) → tabGet 0#8 t.flies.mem b = tabGet 0#8 s.flies.mem b) ∧
      ({ t with eng := s.eng, flies := s.flies } : State) = s ∧
      t.flies = (flWrite c (effAddr (engOf s e) f) (bs (engOf s e)) s).flies := by
  refine ⟨_, flyAccess_eq h hr false _, ?_, fun k hk => engOf_setEng_of_ne _ _ hk, fun b hb => ?_, rfl, rfl⟩
  · rw [engOf_setEng_self, hg]
    rfl
  · exact tabGet_flWrite_of_ne c _ _ s (by rw [hlen]; exact hb)

end

/-- A vector register that takes the lanes of bytes that move, with the flags of the move (R273). -/
theorem withMoved_wrV (s : State) (e r : Nat) (bs : List Byte) (pc : BitVec 20) :
    { withMoved (wrV (engOf s e) r (lanesOf bs)) bs with pc := pc } =
      { wrV (engOf s e) r ((List.range 128).map fun i => BitVec.ofNat 32 (leAt bs (4 * i) 4)) with
        flags := flagsWith s e false (bytesNan bs), pc := pc } := by
  generalize hls : lanesOf bs = ls
  rw [← lanesOf, hls]
  rfl

/-- Settles O7: an access that goes ahead reads or writes its bytes; what a read finds in error changes no byte and no register. -/
theorem fliesAccessResults : Obligations.FliesAccessResults := by
  unfold Obligations.FliesAccessResults
  intro e f s c h
  dsimp only [exec]
  have hbytes : (lanesBytes (rdV (engOf s e) f.a.toNat)).length = 512 := by rw [length_lanesBytes, rdV_length]
  refine ⟨?_, ?_, ?_, ?_, ?_, ?_⟩
  · exact flyAccess_loads h fun x bs => wrS_pc x _ _
  · exact flyAccess_loads h fun x bs => wrS_pc x _ _
  · intro hr
    obtain ⟨t, ht, heng, hrest⟩ := flyAccess_loads (n := 512) h (g := fun x bs => withMoved (wrV x f.a.toNat (lanesOf bs)) bs) (fun x bs => rfl) hr
    exact ⟨t, ht, heng.trans (withMoved_wrV s e _ _ _), hrest⟩
  · exact flyAccess_stores h rfl (length_leBytes 4 _)
  · exact flyAccess_stores h rfl (length_leBytes 8 _)
  · rw [← bytesNan_lanesBytes]
    exact flyAccess_stores h rfl hbytes

end Sys2Proof.Machine
end

section
/-! SUPPORT. CUE instructions (O13): a Cue Light that the entry may use, its signals, and the waits that a count has reached. -/

namespace Sys2Proof.Machine

open Sys2Proof

/-! ### Operands (R223, R224) -/

theorem fld_zero_right {n : Nat} (x : BitVec n) (hi : Nat) : fld x hi 0 = x.toNat % 2 ^ (hi + 1) := by
  rw [fld, nfld, Nat.shiftRight_zero, Nat.sub_zero]

theorem cueVal_eq (x : Engine) (f : Fields) :
    cueVal x f = if imm f 15 15 = 1 then (rdS x f.c).toNat % 65536 else imm f 31 16 := by
  rw [cueVal, fld_zero_right]
  rfl

theorem cueIndex_of_granted {s : State} {c : EntryCtx} {i : Nat} (hok : c.clOk = true) (hwin : i < c.clCount)
    (hgrant : cueGranted s c.part (c.clBase + i) = true) : cueIndex s c i = some (c.clBase + i) := by
  simp only [cueIndex, hok, hwin, hgrant, decide_true, Bool.and_self, if_true]

/-- The Cue Light that a CUE instruction names lies in the entry's window and in the partition's grants. -/
def cueReady (e func : Nat) (f : Fields) (s : State) (c : EntryCtx) : Prop :=
  wordOk 0x1C func f = true ∧ c.clOk = true ∧ cueWin (engOf s e) f < c.clCount ∧
    cueGranted s c.part (c.clBase + cueWin (engOf s e) f) = true

/-- The absolute index of that Cue Light. -/
def cueAt (e : Nat) (f : Fields) (s : State) (c : EntryCtx) : Nat := c.clBase + cueWin (engOf s e) f

/-- No engine but `e`, and no Cue Light but `i`, has changed; counters may have. -/
def cueRest (e i : Nat) (s t : State) : Prop :=
  (∀ k, k ≠ e → engOf t k = engOf s k) ∧ (∀ j, j ≠ i → cueOf t j = cueOf s j) ∧
    { t with eng := s.eng, cue := s.cue, regs := s.regs } = s

/-- Engine `e` goes on as `y`, and Cue Light `i` has become `l`. -/
def cueAfter (e i : Nat) (y : Engine) (l : CueLight) (s : State) (r : Res) : Prop :=
  leadsTo r fun t => cueRest e i s t ∧ engOf t e = { y with pc := nextPc s e } ∧ cueOf t i = l

/-- When the timeout of a wait passes (R148, R225). -/
def cueDue (e : Nat) (f : Fields) (s : State) : Option Nat :=
  if f.d = 0 ∨ (rdS (engOf s e) f.d).toNat % 2 ^ 32 = 0 then none
  else some (s.time + (rdS (engOf s e) f.d).toNat % 2 ^ 32)

/-! ### What a Cue Light does -/

/-- A signal adds to the count, or saturates it and sets OVF (R141, R143). -/
theorem cueOf_cueAdd (i n : Nat) (s : State) : cueOf (cueAdd i n s) i =
    ⟨if 65535 < (cueOf s i).count + n then 65535 else (cueOf s i).count + n,
      (cueOf s i).ovf || decide (65535 < (cueOf s i).count + n)⟩ := by
  by_cases h : 65535 < (cueOf s i).count + n
  · rw [cueAdd, cueSaturates, decide_eq_true h, if_pos rfl, if_pos h, Bool.or_true]
    exact cueOf_setCue_self i ⟨0xFFFF, true⟩ s
  · rw [cueAdd, cueSaturates, decide_eq_false h, if_neg (by simp), if_neg h, Bool.or_false, cueOf_setCue_self]

theorem cueRest_of_advance (e i : Nat) (y : Engine) {s t : State} (heng : t.eng = s.eng) (hcue : ∀ j, j ≠ i → cueOf t j = cueOf s j)
    (hrest : { t with cue := s.cue, regs := s.regs } = s) : cueRest e i s (setEng e y t) := by
  have hk (k : Nat) : engOf t k = engOf s k := congrArg (tabGet Engine.init · k) heng
  refine ⟨fun k hk' => (engOf_setEng_of_ne _ _ hk').trans (hk k), hcue, ?_⟩
  conv_rhs => rw [← hrest]
  rw [← heng]
  rfl

theorem cueRest_cueAdd (e i n : Nat) (y : Engine) (s : State) : cueRest e i s (setEng e y (cueAdd i n s)) := by
  rw [cueAdd]
  split
  · exact cueRest_of_advance e i y rfl (fun j hj => cueOf_setCue_of_ne ⟨0xFFFF, true⟩ s hj) rfl
  · exact cueRest_of_advance e i y rfl (fun j hj => cueOf_setCue_of_ne _ _ hj) rfl

theorem cueRest_setCue (e i : Nat) (l : CueLight) (y : Engine) (s : State) : cueRest e i s (setEng e y (setCue i l s)) :=
  cueRest_of_advance e i y rfl (fun _ hj => cueOf_setCue_of_ne _ _ hj) rfl

theorem cueRest_setEng (e i : Nat) (y : Engine) (s : State) : cueRest e i s (setEng e y s) :=
  cueRest_of_advance e i y rfl (fun _ _ => rfl) rfl

/-! ### Instructions (R223 to R228) -/

section
variable {e func : Nat} {f : Fields} {s : State} {c : EntryCtx}

theorem runCue_ok (h : issues s e c) (hr : cueReady e func f s c) {g : EntryCtx → Engine → Nat → IRes} {t : State}
    (hg : g c (engOf s e) (cueAt e f s c) = .ok t) : runCue e func f s g = .next t := by
  obtain ⟨hw, hok, hwin, hgrant⟩ := hr
  exact runEng_ok h hw (by rw [cueIndex_of_granted hok hwin hgrant]; exact hg)

/-- The operand is at least 1: SIG of 0 is illegal (R227). A saturation leaves a deferred exception (R144). -/
theorem execCueSig_after (h : issues s e c) (hr : cueReady e 0 f s c) (hn : 0 < cueVal (engOf s e) f) :
    let n := cueVal (engOf s e) f
    let q := cueOf s (cueAt e f s c)
    cueAfter e (cueAt e f s c) { engOf s e with deferred := (engOf s e).deferred ++
        if 65535 < q.count + n then [⟨false, 7, (engOf s e).pc.toNat, cueAt e f s c, 0, []⟩] else [] }
      ⟨if 65535 < q.count + n then 65535 else q.count + n, q.ovf || decide (65535 < q.count + n)⟩ s (execCueSig e f s) := by
  refine ⟨_, runCue_ok h hr (if_neg (by omega)), cueRest_cueAdd .., ?_, cueOf_cueAdd ..⟩
  rw [engOf_setEng_self]
  simp only [cueSaturates, gt_iff_lt, decide_eq_true_eq]
  split
  · rfl
  · rw [List.append_nil]
    rfl

theorem execCueSet_after (h : issues s e c) (hr : cueReady e 3 f s c) :
    cueAfter e (cueAt e f s c) (engOf s e) ⟨cueVal (engOf s e) f, false⟩ s (execCueSet e f s) :=
  ⟨_, runCue_ok h hr rfl, cueRest_setCue .., engOf_setEng_self .., cueOf_setCue_self ..⟩

theorem execCueRead_after (h : issues s e c) (hr : cueReady e 4 f s c) :
    let q := cueOf s (cueAt e f s c)
    cueAfter e (cueAt e f s c) (wrS (engOf s e) f.a (BitVec.ofNat 64 ((if q.ovf then 65536 else 0) + q.count))) q s
      (execCueRead e f s) := by
  intro q
  refine ⟨_, runCue_ok h hr rfl, cueRest_setEng .., ?_, rfl⟩
  have hovf : b2n q.ovf * 65536 = if q.ovf then 65536 else 0 := by cases q.ovf <;> rfl
  rw [engOf_setEng_self, hovf, advance, wrS_pc]
  rfl

/-- What a wait that is met leaves of its engine: a .T form writes all ones to its predicate (R226). -/
def waitDone (pd : Option Nat) (x : Engine) : Engine :=
  match pd with
  | some p => wrP x p (BitVec.allOnes 128)
  | none => x

theorem endWait_eq (e : Nat) {w : CueWait} {s : State} (hwait : (engOf s e).wait = none) :
    endWait e w s = setEng e (advance (waitDone w.pd (engOf s e))) (takeCount w s) := by
  have hx : engOf (takeCount w s) e = engOf s e := by rw [takeCount]; split <;> rfl
  have hnone : { waitDone w.pd (engOf s e) with wait := none } = waitDone w.pd (engOf s e) := by
    have : (waitDone w.pd (engOf s e)).wait = none := by
      unfold waitDone
      split
      · rw [wrP]
        split <;> exact hwait
      · exact hwait
    rw [← this]
  rw [endWait, modEng, hx]
  exact congrArg (fun y => setEng e (advance y) (takeCount w s)) hnone

theorem waitDone_pc (pd : Option Nat) (x : Engine) : (waitDone pd x).pc = x.pc := by
  unfold waitDone
  split
  · exact wrP_pc _ _ _
  · rfl

section
variable {take timed : Bool} {pd : Option Nat} (hpd : (if timed then some (imm f 14 12) else none) = pd)
include hpd

theorem cueWaitInsn_ends (h : issues s e c) (hr : cueReady e func f s c)
    (hmet : cueVal (engOf s e) f = 0 ∨
      cueVal (engOf s e) f ≤ (cueOf s (cueAt e f s c)).count ∧ waitdPending s (cueAt e f s c) = false) :
    let q := cueOf s (cueAt e f s c)
    cueAfter e (cueAt e f s c) (waitDone pd (engOf s e))
      { q with count := if take then q.count - cueVal (engOf s e) f else q.count } s (cueWaitInsn e func take timed f s) := by
  subst hpd
  have hnow (p d) : waitNow s ⟨cueAt e f s c, cueVal (engOf s e) f, take, p, d⟩ = true := by
    simpa [waitNow, waitMet] using hmet
  have hwait : (engOf s e).wait = none := by obtain ⟨-, -, -, hwait, -⟩ := h; exact hwait
  refine ⟨_, runCue_ok h hr (if_pos (hnow _ _)), ?_⟩
  rw [endWait_eq e hwait, takeCount]
  cases take
  · exact ⟨cueRest_setEng .., by rw [engOf_setEng_self, advance, waitDone_pc]; rfl, rfl⟩
  · exact ⟨cueRest_setCue .., by rw [engOf_setEng_self, advance, waitDone_pc]; rfl, cueOf_setCue_self ..⟩

theorem cueWaitInsn_waits (h : issues s e c) (hr : cueReady e func f s c)
    (hlt : (cueOf s (cueAt e f s c)).count < cueVal (engOf s e) f) :
    leadsTo (cueWaitInsn e func take timed f s) fun t => cueRest e (cueAt e f s c) s t ∧ t.cue = s.cue ∧
      engOf t e = { engOf s e with wait := some ⟨cueAt e f s c, cueVal (engOf s e) f, take, pd, cueDue e f s⟩ } := by
  subst hpd
  have hnow (p d) : waitNow s ⟨cueAt e f s c, cueVal (engOf s e) f, take, p, d⟩ = false := by
    have : cueVal (engOf s e) f ≠ 0 := by omega
    simp [waitNow, waitMet, this, hlt]
  refine ⟨_, runCue_ok h hr (if_neg (by rw [hnow]; simp)), cueRest_setEng .., rfl, ?_⟩
  rw [engOf_setEng_self, fld_zero_right, cueDue]
  simp only [Bool.or_eq_true, decide_eq_true_eq]

end

end

/-- Settles O13: each instruction reads and writes the one Cue Light that it names; a wait ends at once or stays in the bank. -/
theorem cueInstructionResults : Obligations.CueInstructionResults := by
  unfold Obligations.CueInstructionResults
  intro e f s c h
  dsimp only [exec]
  simp only [← cueVal_eq]
  refine ⟨fun ⟨hr, hn⟩ => execCueSig_after h hr hn, ?_, ?_, execCueSet_after h, execCueRead_after h, ?_, ?_⟩
  · exact fun hr => ⟨cueWaitInsn_ends rfl h hr, cueWaitInsn_waits rfl h hr⟩
  · exact fun hr => ⟨cueWaitInsn_ends rfl h hr, cueWaitInsn_waits rfl h hr⟩
  · exact fun hr => ⟨cueWaitInsn_ends rfl h hr, cueWaitInsn_waits rfl h hr⟩
  · exact fun hr => ⟨cueWaitInsn_ends rfl h hr, cueWaitInsn_waits rfl h hr⟩

end Sys2Proof.Machine
end

section
/-! SUPPORT. CTRL and SYS instructions (O14): an engine that goes on by itself, and the status registers by their codes. -/

namespace Sys2Proof.Machine

open Sys2Proof

/-! ### An engine that goes on by itself -/

theorem onlyEngine_setEng (e : Nat) (y : Engine) (s : State) : onlyEngine e s (setEng e y s) :=
  ⟨fun _ hk => engOf_setEng_of_ne y s hk, rfl⟩

/-- An instruction changes its engine to `y` and nothing else. -/
def becomes (e : Nat) (y : Engine) (s : State) (r : Res) : Prop := leadsTo r fun t => onlyEngine e s t ∧ engOf t e = y

section
variable {e major func : Nat} {f : Fields} {s : State} {c : EntryCtx}

theorem runEng_becomes (h : issues s e c) (hw : wordOk major func f = true) {g : EntryCtx → Engine → IRes} {y : Engine}
    (hg : g c (engOf s e) = .ok (setEng e y s)) : becomes e y s (runEng e major func f s g) :=
  ⟨_, runEng_ok h hw hg, onlyEngine_setEng e y s, engOf_setEng_self e y s⟩

theorem runReg_becomes (h : issues s e c) (hw : wordOk major func f = true) (g : Engine → Engine) :
    becomes e (advance (g (engOf s e))) s (runReg e major func f s g) := by
  rw [runReg]
  exact runEng_becomes h hw rfl

/-! ### CTRL (R139, R184) -/

theorem execCtrlNop_becomes (h : issues s e c) (hw : wordOk 0 0 f = true) :
    becomes e { engOf s e with pc := nextPc s e } s (execCtrlNop e f s) := runReg_becomes h hw fun x => x

theorem execCtrlEnd_becomes (h : issues s e c) (hdef : (engOf s e).deferred = []) (hw : wordOk 0 1 f = true) :
    becomes e { engOf s e with phase := .ending } s (execCtrlEnd e f s) :=
  runEng_becomes h hw (if_neg (by simp [hdef]))

/-- A fence waits for nothing when all that its MASK names is done. -/
theorem execCtrlFence_becomes (h : issues s e c) (hdef : (engOf s e).deferred = [])
    (hxq : bitAt f.imm 0 = true → (engOf s e).xq = []) (hjobs : bitAt f.imm 1 = true → (engOf s e).helpers = 0)
    (hw : wordOk 0 2 f = true) : becomes e { engOf s e with pc := nextPc s e } s (execCtrlFence e f s) := by
  refine runEng_becomes h hw ?_
  rw [if_neg (by simp [hdef]), if_neg]
  · rfl
  · have h0 := fld_bit_eq_one_iff f.imm 0
    have h1 := fld_bit_eq_one_iff f.imm 1
    simp only [imm, h0, h1, Bool.or_eq_true, Bool.and_eq_true, decide_eq_true_eq]
    rintro (⟨hb, hne⟩ | ⟨hb, hne⟩)
    · exact hne (hxq hb)
    · exact hne (hjobs hb)

/-! ### Status registers (R108, R232, R233) -/

theorem imm_eq_of_lt {hi : Nat} (h : f.imm.toNat < 2 ^ (hi + 1)) : imm f hi 0 = f.imm.toNat := by
  rw [imm, fld_zero_right, Nat.mod_eq_of_lt h]

/-- The status registers that hold their entry's or their engine's values; the one of code 8 counts cycles. -/
theorem statusReg_of_lt (x : Engine) {code : Nat} (h : code < 8) : statusReg s e c x code =
    if code = 0 then packCtx c.stepId c.req c.index c.le c.part
    else if code = 1 then c.beat
    else if code = 2 then c.progId.zeroExtend 64
    else if code = 3 then BitVec.ofNat 64 ((c.cnt0 + c.cnt1) * 65536)
    else if code = 4 then BitVec.ofNat 64 (c.clCount % 2048 * 65536 + c.clBase)
    else if code = 5 then x.round.zeroExtend 64
    else if code = 6 then x.flags.zeroExtend 64
    else BitVec.ofNat 64 (s.beat.phaseUs % 2 ^ 32) := by
  match code, h with
  | 0, _ | 1, _ | 2, _ | 3, _ | 4, _ | 5, _ | 6, _ | 7, _ => rfl

theorem statusWaits_eq_false {x : Engine} {code : Nat} (h : code = 6 → x.xq = []) : statusWaits x code = false := by
  by_cases hc : code = 6
  · simp [statusWaits, h hc]
  · simp [statusWaits, hc]

theorem execSysRdst_becomes (h : issues s e c) (hlt : f.imm.toNat < 8) (hxq : f.imm.toNat = 6 → (engOf s e).xq = [])
    (hw : wordOk 0x24 0 f = true) :
    becomes e { wrS (engOf s e) f.a (statusReg s e c (engOf s e) f.imm.toNat) with pc := nextPc s e } s (execSysRdst e f s) := by
  refine runEng_becomes h hw ?_
  simp only [imm_eq_of_lt (f := f) (hi := 3) (by omega), statusWaits_eq_false hxq, if_neg (show f.imm.toNat ≠ 8 by omega), advance,
    wrS_pc]
  rfl

/-- st.cycle takes the engine's next free value (R108). -/
theorem execSysRdst_cycle_becomes (h : issues s e c) (heq : f.imm.toNat = 8) (hw : wordOk 0x24 0 f = true) :
    becomes e { wrS (engOf s e) f.a (Config.engineCycle e (engOf s e).freeCnt) with
      pc := nextPc s e, freeCnt := (engOf s e).freeCnt + 1 } s (execSysRdst e f s) := by
  refine runEng_becomes h hw ?_
  have hfree (v : DWord) : (wrS (engOf s e) f.a v).freeCnt = (engOf s e).freeCnt := by rw [wrS]; split <;> rfl
  have hcode : imm f 3 0 = 8 := by rw [imm_eq_of_lt (by omega), heq]
  simp only [hcode, statusWaits_eq_false (x := engOf s e) (code := 8) (by simp), if_true, advance, wrS_pc, hfree]
  rfl

theorem execSysWrst_becomes (h : issues s e c) (hlt : f.imm.toNat < 16) (hxq : f.imm.toNat = 6 → (engOf s e).xq = [])
    (hw : wordOk 0x24 1 f = true) :
    becomes e (advance (wrStatus (engOf s e) f.imm.toNat (rdS (engOf s e) f.b))) s (execSysWrst e f s) := by
  refine runEng_becomes h hw ?_
  simp only [imm_eq_of_lt (f := f) (hi := 3) hlt, statusWaits_eq_false hxq]
  rfl

/-- st.round takes 2 bits, and keeps its value when they are 3. -/
theorem advance_wrStatus_round (v : DWord) : advance (wrStatus (engOf s e) 5 v) =
    { engOf s e with pc := nextPc s e, round := if v.toNat % 4 = 3 then (engOf s e).round else BitVec.ofNat 2 (v.toNat % 4) } := by
  have htrunc : v.truncate 2 = BitVec.ofNat 2 (v.toNat % 4) := by
    apply BitVec.eq_of_toNat_eq
    rw [BitVec.truncate_eq_setWidth, BitVec.toNat_setWidth, BitVec.toNat_ofNat, Nat.mod_mod]
  have hfld : fld v 1 0 = v.toNat % 4 := fld_zero_right v 1
  rw [wrStatus, if_pos rfl, hfld, htrunc]
  by_cases h3 : v.toNat % 4 = 3
  · rw [if_pos h3, if_pos h3]
    rfl
  · rw [if_neg h3, if_neg h3]
    rfl

theorem statusWaits_of_pending {x : Engine} (hne : x.xq ≠ []) : statusWaits x 6 = true := by simp [statusWaits, hne]

/-- An access to st.flags waits for the transfers of its entry (R280). -/
theorem execSysRdst_waits (h : issues s e c) (heq : f.imm.toNat = 6) (hne : (engOf s e).xq ≠ []) (hw : wordOk 0x24 0 f = true) :
    execSysRdst e f s = .next s := by
  refine runEng_stall h hw ?_
  simp only [imm_eq_of_lt (f := f) (hi := 3) (by omega), heq, statusWaits_of_pending hne, if_true]

theorem execSysWrst_waits (h : issues s e c) (heq : f.imm.toNat = 6) (hne : (engOf s e).xq ≠ []) (hw : wordOk 0x24 1 f = true) :
    execSysWrst e f s = .next s := by
  refine runEng_stall h hw ?_
  simp only [imm_eq_of_lt (f := f) (hi := 3) (by omega), heq, statusWaits_of_pending hne, if_true]

/-! ### Traps and helper calls (R154, R165, R169) -/

theorem imm_lt_of_wordOk_trap (hw : wordOk 0x24 2 f = true) : f.imm.toNat < 65536 := by
  have hok : sysOk 2 f = true := hw
  simp only [sysOk, Bool.and_eq_true, decide_eq_true_eq] at hok
  exact hok.2.2

theorem imm_le_of_wordOk_hcall (hw : wordOk 0x24 3 f = true) : f.imm.toNat ≤ 1 := by
  have hok : sysOk 3 f = true := hw
  simp only [sysOk, Bool.and_eq_true, decide_eq_true_eq] at hok
  exact hok.2.2

theorem execSysTrap_raises (h : issues s e c) (hw : wordOk 0x24 2 f = true) :
    leadsTo (execSysTrap e f s) (raised e 8 f.imm.toNat c s) :=
  runEng_exc h hw (by rw [imm_eq_of_lt (imm_lt_of_wordOk_trap hw)])

/-- The helper asked for takes the job, or the other one when that is a hole (R169). -/
theorem helperFor_eq_some {le a k : Nat} (h : shSlot s (2 * le + a) = some k ∨
    shSlot s (2 * le + a) = none ∧ shSlot s (2 * le + (1 - a)) = some k) : helperFor s le a = some k := by
  rcases h with h | ⟨hnone, h⟩
  · rw [helperFor, h, Option.some_or]
  · rw [helperFor, hnone, h, Option.none_or]

/-- The job of a helper call, from the bytes of its descriptor (R165, R234). -/
def calledJob (e : Nat) (x : Engine) (c : EntryCtx) (j : Nat) (d : List Byte) : HelperJob :=
  ⟨BitVec.ofNat 32 (leAt d 0 4), if leAt d 6 1 = 0 then none else some j, leAt d 6 1, d.drop 8, e, c, x.pc.toNat⟩

theorem execSysHcall_queues (h : issues s e c) {k j : Nat} (hw : wordOk 0x24 3 f = true)
    (hal : (rdS (engOf s e) f.a).toNat % 64 = 0) (hn : (rdS (engOf s e) f.a).toNat + 64 ≤ 0xC00000)
    (hbusy : lmBusy (engOf s e) (rdS (engOf s e) f.a).toNat 64 = false)
    (hj : cueIndex s c (leAt (tabRead 0#8 (engOf s e).lm (rdS (engOf s e) f.a).toNat 64) 4 2) = some j)
    (hk : helperFor s c.le f.imm.toNat = some k) (hlen : (shOf s k).queue.length < 8) :
    execSysHcall e f s = .next (setSh k { shOf s k with queue := (shOf s k).queue ++
        [calledJob e (engOf s e) c j (tabRead 0#8 (engOf s e).lm (rdS (engOf s e) f.a).toNat 64)] }
      (setEng e (advance { engOf s e with helpers := (engOf s e).helpers + 1 }) s)) := by
  refine runEng_ok h hw ?_
  have himm : imm f 0 0 = f.imm.toNat := imm_eq_of_lt (by have := imm_le_of_wordOk_hcall hw; omega)
  simp only [chkLm_ok hal hn hbusy, Chk.run_ok, lmRead, hj, himm, hk, Option.isNone_some, if_neg (not_le.2 hlen), ge_iff_le]
  rfl

end

/-- Settles O14: each instruction changes its engine as its row of the table says; a trap raises its exception and a helper call queues
its job. -/
theorem controlAndSysResults : Obligations.ControlAndSysResults := by
  unfold Obligations.ControlAndSysResults
  intro e f s c h
  dsimp only [exec]
  refine ⟨execCtrlNop_becomes h, execCtrlEnd_becomes h, fun ⟨hd, hxq, hjobs⟩ => execCtrlFence_becomes h hd hxq hjobs, ?_,
    execSysRdst_cycle_becomes h, ?_, ?_, ?_, ?_, execSysTrap_raises h, ?_⟩
  · rintro ⟨hlt, hxq⟩ hw
    rw [← statusReg_of_lt (engOf s e) hlt]
    exact execSysRdst_becomes h hlt hxq hw
  · intro h5 hw
    rw [← advance_wrStatus_round, ← h5]
    exact execSysWrst_becomes h (by omega) (by omega) hw
  · rintro ⟨h6, hxq⟩ hw
    have := execSysWrst_becomes h (by omega) (fun _ => hxq) hw
    rwa [h6] at this
  · exact fun ⟨h6, hne, hw⟩ => execSysRdst_waits h h6 hne hw
  · exact fun ⟨h6, hne, hw⟩ => execSysWrst_waits h h6 hne hw
  · rintro k j ⟨hw, hal, hn, hbusy, hj, hk, hlen⟩
    refine ⟨_, execSysHcall_queues h hw hal hn hbusy hj (helperFor_eq_some hk) hlen, ?_, fun n hne => ?_, ?_, fun n hne => ?_, rfl⟩
    · exact engOf_setEng_self _ _ _
    · exact engOf_setEng_of_ne _ _ hne
    · exact shOf_setSh_self _ _ _
    · exact shOf_setSh_of_ne _ _ hne

end Sys2Proof.Machine
end

section
/-! SUPPORT. XFER instructions (O19): the shape that an instruction gives a transfer, and the checks that it passes. -/

namespace Sys2Proof.Machine

open Sys2Proof

/-- Bits [hi:lo] of a word, as a number. -/
theorem fld_eq_div_mod {n : Nat} (x : BitVec n) (hi lo : Nat) : fld x hi lo = x.toNat / 2 ^ lo % 2 ^ (hi + 1 - lo) := by
  rw [fld, nfld, Nat.shiftRight_eq_div_pow]

/-- The transfer of an instruction's operands: in rows with a shape word, a single row without one (R194, R195). -/
def shapedXfer (x : Engine) (f : Fields) (st : Bool) (cue : Option (Nat × Nat)) (epoch : Word) : Xfer :=
  ⟨st, (rdS x f.a).toNat, (rdS x f.b).toNat, if f.d ≠ 0 then (rdS x f.d).toNat % 65536 else 1, (rdS x f.c).toNat,
    if f.d ≠ 0 then (rdS x f.d).toNat / 65536 % 2 ^ 24 else 0, if f.d ≠ 0 then 64 * ((rdS x f.d).toNat / 2 ^ 40) else 0,
    cue, x.pc.toNat, epoch, []⟩

theorem xferOf_eq (x : Engine) (f : Fields) (st : Bool) (cue : Option (Nat × Nat)) (epoch : Word) :
    xferOf x f st cue epoch = shapedXfer x f st cue epoch := by
  have hhigh : fld (rdS x f.d) 63 40 = (rdS x f.d).toNat / 2 ^ 40 := by
    rw [fld_eq_div_mod]
    have := (rdS x f.d).isLt
    exact Nat.mod_eq_of_lt (by omega)
  have hmid : fld (rdS x f.d) 39 16 = (rdS x f.d).toNat / 65536 % 2 ^ 24 := fld_eq_div_mod _ _ _
  have hlow : fld (rdS x f.d) 15 0 = (rdS x f.d).toNat % 65536 := fld_zero_right _ _
  rw [xferOf, hhigh, hmid, hlow]
  rfl

/-- R196: a transfer is a whole number of granules, at most 8 MiB, at aligned addresses. -/
def wellShaped (t : Xfer) (shaped : Prop) : Prop :=
  0 < t.rows * t.len ∧ t.rows * t.len % 64 = 0 ∧ t.rows * t.len ≤ 8 * 2 ^ 20 ∧ t.lm % 64 = 0 ∧ t.dv % 64 = 0 ∧
    (shaped → t.rows ≠ 0 ∧ t.len % 64 = 0 ∧ t.lmStride % 64 = 0)

theorem xferAligned_of_wellShaped {t : Xfer} {shaped : Prop} [Decidable shaped] (h : wellShaped t shaped) :
    xferAligned t (decide shaped) = true := by
  obtain ⟨hpos, h64, hmax, hlm, hdv, hrows⟩ := h
  have hrest : (!decide shaped || (t.rows ≠ 0 && t.len % 64 = 0 && t.lmStride % 64 = 0)) = true := by
    by_cases hs : shaped
    · simp [hrows hs]
    · simp [hs]
  have htotal : t.rows * t.len ≠ 0 := by omega
  simp only [Bool.and_eq_true, decide_eq_true_eq, xferAligned]
  exact ⟨⟨⟨⟨⟨htotal, h64⟩, hmax⟩, hlm⟩, hdv⟩, hrest⟩

section
variable {e func : Nat} {f : Fields} {s : State} {c : EntryCtx} {st : Bool}

/-- The transfer that the instruction asks for. -/
def askedXfer (e : Nat) (f : Fields) (st : Bool) (s : State) (c : EntryCtx) (cue : Option (Nat × Nat)) : Xfer :=
  shapedXfer (engOf s e) f st cue (tabGet 0#32 s.mem.epochs c.part)

/-- An XFER instruction that meets R196 and R112 and finds a place (R133), and whose Cue Light is the entry's (R198), queues its
transfer. -/
theorem xferIssue_queues (h : issues s e c) (hw : wordOk 0xC func f = true) (hroom : (engOf s e).xq.length < 16)
    (hshape : wellShaped (askedXfer e f st s c none) (f.d ≠ 0)) (hend : xferLmEnd (askedXfer e f st s c none) ≤ lmSize)
    {q : Option (Nat × Nat)} (hq : imm f 31 31 = 0 ∧ q = none ∨
      imm f 31 31 = 1 ∧ ∃ i, cueIndex s c (imm f 9 0) = some i ∧ q = some (i, imm f 30 23)) :
    becomes e { engOf s e with pc := nextPc s e, xq := (engOf s e).xq ++ [askedXfer e f st s c q] } s (xferIssue e func st f s) := by
  refine runEng_becomes h hw ?_
  have hal := xferAligned_of_wellShaped hshape
  rw [askedXfer] at hal hend
  simp only [xferOf_eq, if_neg (not_le.2 hroom), ge_iff_le, hal, Bool.not_true, Bool.false_eq_true, if_false,
    if_neg (not_lt.2 hend), gt_iff_lt]
  rcases hq with ⟨h0, rfl⟩ | ⟨h1, i, hi, rfl⟩
  · rw [if_neg (by omega)]
    rfl
  · rw [if_pos h1, hi]
    rfl

end

/-- Settles O19: an XFER instruction that passes its checks puts the transfer of its operands behind the earlier ones. -/
theorem transferIssue : Obligations.TransferIssue := by
  unfold Obligations.TransferIssue
  intro e f s c h
  dsimp only [exec]
  have hissue (func : Nat) (st : Bool) (hw : wordOk 0xC func f = true) (hroom : (engOf s e).xq.length < 16)
      (hshape : wellShaped (askedXfer e f st s c none) (f.d ≠ 0)) (hend : xferLmEnd (askedXfer e f st s c none) ≤ lmSize)
      {q : Option (Nat × Nat)} (hq : imm f 31 31 = 0 ∧ q = none ∨ imm f 31 31 = 1 ∧ c.clOk = true ∧ imm f 9 0 < c.clCount ∧
        cueGranted s c.part (c.clBase + imm f 9 0) = true ∧ q = some (c.clBase + imm f 9 0, imm f 30 23)) :
      becomes e { engOf s e with pc := nextPc s e, xq := (engOf s e).xq ++ [askedXfer e f st s c q] } s (xferIssue e func st f s) := by
    refine xferIssue_queues h hw hroom hshape hend (hq.imp_right ?_)
    rintro ⟨h1, hok, hwin, hgrant, rfl⟩
    exact ⟨h1, _, cueIndex_of_granted hok hwin hgrant, rfl⟩
  refine ⟨?_, ?_⟩ <;> rintro ⟨hw, hroom, hpos, h64, hmax, hlm, hdv, hshape, hend⟩ <;>
    refine ⟨fun h0 => ?_, fun ⟨h1, hok, hwin, hgrant⟩ => ?_⟩
  · exact hissue 0 false hw hroom ⟨hpos, h64, hmax, hlm, hdv, hshape⟩ hend (.inl ⟨h0, rfl⟩)
  · exact hissue 0 false hw hroom ⟨hpos, h64, hmax, hlm, hdv, hshape⟩ hend (.inr ⟨h1, hok, hwin, hgrant, rfl⟩)
  · exact hissue 1 true hw hroom ⟨hpos, h64, hmax, hlm, hdv, hshape⟩ hend (.inl ⟨h0, rfl⟩)
  · exact hissue 1 true hw hroom ⟨hpos, h64, hmax, hlm, hdv, hshape⟩ hend (.inr ⟨h1, hok, hwin, hgrant, rfl⟩)

end Sys2Proof.Machine
end

section
/-! SUPPORT. The Cue Light bank (O22): the waits that a count has reached, one after another, and the moments that a command waits for. -/

namespace Sys2Proof.Machine

open Sys2Proof

/-! ### Moments -/

theorem passTo_time {due : Nat} {s : State} (h : reaches s due) : (passTo due s).time = max s.time due := by
  by_cases hdue : due ≤ s.time
  · have hroom : beatRoom s 0 = 0 := by rw [beatRoom]; split <;> simp
    rw [passTo, Nat.sub_eq_zero_of_le hdue, Nat.max_eq_left hdue, passUs, hroom]
    split <;> rfl
  · obtain ⟨hstandby, hbeat⟩ := h.resolve_left hdue
    have hroom : beatRoom s (due - s.time) = due - s.time := by
      rw [beatRoom]
      split
      · next hstarted => exact Nat.min_eq_left (hbeat hstarted)
      · rfl
    rw [passTo, passUs, if_pos hstandby]
    change s.time + beatRoom s (due - s.time) = _
    rw [hroom]
    omega

theorem atTime_of_reaches {due : Nat} {s : State} (h : reaches s due) (f : State → State) : atTime due f s = f (passTo due s) :=
  if_pos (by rw [passTo_time h]; exact Nat.le_max_right _ _)

theorem passTo_frame (t : Nat) (s : State) : { passTo t s with time := s.time, beat := s.beat } = s := passUs_frame _ s

/-! ### The order of service (R142) -/

theorem byPort_ins_perm (u : Nat) (us : List Nat) : (byPort.ins u us).Perm (u :: us) := by
  induction us with
  | nil => exact .refl _
  | cons v vs ih =>
    rw [byPort.ins]
    split
    · exact .refl _
    · exact (ih.cons v).trans (.swap u v vs)

theorem byPort_perm (us : List Nat) : (byPort us).Perm us := by
  induction us with
  | nil => exact .refl _
  | cons u us ih => exact (byPort_ins_perm u (byPort us)).trans (ih.cons u)

/-- The units whose wait on a Cue Light is a WAITD, or a WAIT. -/
def waitersOn (s : State) (cl : Nat) (take : Bool) : List Nat :=
  waitUnits.filter fun u => match unitWait s u with | some w => w.cl = cl && w.take = take | none => false

theorem mem_waitersOn {s : State} {cl u : Nat} {take : Bool} :
    u ∈ waitersOn s cl take ↔ u ∈ waitUnits ∧ ∃ w, unitWait s u = some w ∧ w.cl = cl ∧ w.take = take := by
  rw [waitersOn, List.mem_filter]
  refine and_congr_right fun _ => ?_
  cases hw : unitWait s u <;> simp

theorem mem_waitUnits_engine {e : Nat} (he : e < 36) : e ∈ waitUnits :=
  List.mem_append_left _ (List.mem_range.2 he)

theorem mem_waitUnits_stagehand {k : Nat} (hk : k < 72) : k + 64 ∈ waitUnits :=
  List.mem_append_right _ (List.mem_map.2 ⟨k, List.mem_range.2 hk, rfl⟩)

theorem lt_of_mem_waitUnits {u : Nat} (h : u ∈ waitUnits) : u < 36 ∨ 64 ≤ u ∧ u < 136 := by
  rcases List.mem_append.1 h with h | h
  · exact .inl (List.mem_range.1 h)
  · obtain ⟨k, hk, rfl⟩ := List.mem_map.1 h
    have := List.mem_range.1 hk
    exact .inr ⟨by omega, by omega⟩

theorem nodup_waitUnits : waitUnits.Nodup := by
  refine List.Nodup.append List.nodup_range (List.nodup_range.map fun a b h => Nat.add_right_cancel h) fun u h h' => ?_
  obtain ⟨k, -, rfl⟩ := List.mem_map.1 h'
  have := List.mem_range.1 h
  omega

/-- The units that the bank serves with a WAITD, in its order. -/
def takersOn (s : State) (cl : Nat) : List Nat := byPort (waitersOn s cl true ++ (List.range 4).map (256 + ·))

theorem mem_takersOn {s : State} {cl u : Nat} : u ∈ takersOn s cl ↔ u ∈ waitersOn s cl true ∨ ∃ c, c < 4 ∧ u = 256 + c := by
  rw [takersOn, (byPort_perm _).mem_iff, List.mem_append, List.mem_map]
  simp only [List.mem_range, eq_comm]

theorem nodup_takersOn (s : State) (cl : Nat) : (takersOn s cl).Nodup := by
  refine (byPort_perm _).nodup_iff.2 (List.Nodup.append (nodup_waitUnits.filter _)
    (List.nodup_range.map fun a b h => Nat.add_left_cancel h) fun u h h' => ?_)
  obtain ⟨c, -, rfl⟩ := List.mem_map.1 h'
  have := lt_of_mem_waitUnits (mem_waitersOn.1 h).1
  omega

theorem execCueWaitMet_eq {cl : Nat} (hcl : cl < 65536) (s : State) : execCueWaitMet cl s =
    .next ((takersOn s cl).foldl (serveWaitd cl) ((waitersOn s cl false).foldl serveWait s)) := by
  simp only [execCueWaitMet, need, hcl, decide_true, if_true]
  rfl

/-! ### Service of one wait -/

/-- The wait of an engine that is served: a .T form writes all ones to its predicate (R226). -/
def servedEngine (x : Engine) (w : CueWait) : Engine := { waitDone w.pd x with wait := none, pc := x.pc + 8#20 }

/-- Whether a wait is served: its count is reached, and its timeout has not passed (R148). -/
def served (s : State) (w : CueWait) : Prop := w.target ≤ (cueOf s w.cl).count ∧ waitLate s w = false

theorem serveWait_of_none {s : State} {u : Nat} (h : unitWait s u = none) : serveWait s u = s := by rw [serveWait, h]

theorem serveWait_of_not_served {s : State} {u : Nat} {w : CueWait} (hw : unitWait s u = some w) (h : ¬ served s w) :
    serveWait s u = s := by
  rw [serveWait, hw]
  refine if_neg fun hserved => h ?_
  simpa [served, waitMet] using hserved

theorem serveWait_of_served {s : State} {u : Nat} {w : CueWait} (hw : unitWait s u = some w) (h : served s w) :
    serveWait s u = if u < 64 then endWait u w s else endShWait (u - 64) 1 (takeCount w s) := by
  rw [serveWait, hw]
  exact if_pos (by simpa [served, waitMet] using h)

theorem takeCount_frame (w : CueWait) (s : State) : ∃ q, takeCount w s = { s with cue := q } := by
  rw [takeCount]
  split <;> exact ⟨_, rfl⟩

theorem cueOf_takeCount_of_ne (w : CueWait) (s : State) {i : Nat} (h : i ≠ w.cl) : cueOf (takeCount w s) i = cueOf s i := by
  rw [takeCount]
  split
  · exact cueOf_setCue_of_ne _ _ h
  · rfl

theorem cueOf_takeCount_self (w : CueWait) (s : State) : cueOf (takeCount w s) w.cl =
    { cueOf s w.cl with count := if w.take then (cueOf s w.cl).count - w.target else (cueOf s w.cl).count } := by
  rw [takeCount]
  split
  · exact cueOf_setCue_self _ _ _
  · rfl

theorem endWait_eq_setEng (e : Nat) (w : CueWait) (s : State) :
    endWait e w s = setEng e (servedEngine (engOf s e) w) (takeCount w s) := by
  have hx : engOf (takeCount w s) e = engOf s e := by rw [takeCount]; split <;> rfl
  rw [endWait, modEng, hx]
  refine congrArg (setEng e · (takeCount w s)) ?_
  rw [servedEngine, ← waitDone_pc w.pd]
  rfl

/-- What the service of waits on a Cue Light leaves: pending waits end or stay, and the Cue Light's count falls. -/
def servedOn (cl : Nat) (s t : State) : Prop :=
  (∀ u, unitWait t u = none ∨ unitWait t u = unitWait s u) ∧ (∀ i, i ≠ cl → cueOf t i = cueOf s i) ∧
    (cueOf t cl).ovf = (cueOf s cl).ovf ∧ (cueOf t cl).count ≤ (cueOf s cl).count ∧ t.mem = s.mem ∧ t.flies = s.flies ∧
    t.time = s.time

theorem servedOn_refl (cl : Nat) (s : State) : servedOn cl s s := ⟨fun _ => .inr rfl, fun _ _ => rfl, rfl, le_refl _, rfl, rfl, rfl⟩

theorem servedOn_trans {cl : Nat} {s t u : State} (h : servedOn cl s t) (g : servedOn cl t u) : servedOn cl s u := by
  obtain ⟨hw, hc, ho, hn, hm, hf, ht⟩ := h
  obtain ⟨gw, gc, go, gn, gm, gf, gt⟩ := g
  refine ⟨fun u => ?_, fun i hi => (gc i hi).trans (hc i hi), go.trans ho, gn.trans hn, gm.trans hm, gf.trans hf, gt.trans ht⟩
  rcases gw u with h | h
  · exact .inl h
  · exact (hw u).imp h.trans h.trans

theorem unitWait_setEng (e : Nat) (x : Engine) (s : State) (u : Nat) :
    unitWait (setEng e x s) u = if u = e ∧ u < 64 then x.wait else unitWait s u := by
  by_cases hu : u < 64
  · by_cases he : u = e
    · subst he
      simp [unitWait, hu]
    · simp [unitWait, hu, he, engOf_setEng_of_ne x s he]
  · simp [unitWait, hu]

theorem unitWait_setSh (k : Nat) (h : Stagehand) (s : State) (u : Nat) :
    unitWait (setSh k h s) u = if u = k + 64 then h.wait else unitWait s u := by
  by_cases hu : u < 64
  · have : u ≠ k + 64 := by omega
    simp [unitWait, hu, this]
  · by_cases hk : u = k + 64
    · simp [unitWait, hk]
    · have : u - 64 ≠ k := by omega
      simp [unitWait, hu, hk, shOf_setSh_of_ne h s this]

theorem servedOn_takeCount (w : CueWait) (s : State) : servedOn w.cl s (takeCount w s) := by
  have hcl := cueOf_takeCount_self w s
  obtain ⟨q, hq⟩ := takeCount_frame w s
  refine ⟨fun u => .inr (by rw [hq]; rfl), fun i hi => cueOf_takeCount_of_ne w s hi, by rw [hcl], ?_, by rw [hq], by rw [hq], by rw [hq]⟩
  rw [hcl]
  dsimp only
  split <;> omega

theorem servedOn_setEng {cl e : Nat} {s t : State} (h : servedOn cl s t) {x : Engine} (hx : x.wait = none) :
    servedOn cl s (setEng e x t) := by
  refine servedOn_trans h ⟨fun u => ?_, fun _ _ => rfl, rfl, le_refl _, rfl, rfl, rfl⟩
  rw [unitWait_setEng]
  split
  · exact .inl hx
  · exact .inr rfl

theorem servedOn_setSh {cl k : Nat} {s t : State} (h : servedOn cl s t) {x : Stagehand} (hx : x.wait = none) :
    servedOn cl s (setSh k x t) := by
  refine servedOn_trans h ⟨fun u => ?_, fun _ _ => rfl, rfl, le_refl _, rfl, rfl, rfl⟩
  rw [unitWait_setSh]
  split
  · exact .inl hx
  · exact .inr rfl

theorem servedOn_serveWait {cl u : Nat} {s : State} (hcl : ∀ w, unitWait s u = some w → w.cl = cl) :
    servedOn cl s (serveWait s u) := by
  rcases hw : unitWait s u with _ | w
  · rw [serveWait_of_none hw]
    exact servedOn_refl cl s
  · obtain rfl := hcl w hw
    by_cases hs : served s w
    · rw [serveWait_of_served hw hs]
      split
      · rw [endWait_eq_setEng]
        exact servedOn_setEng (servedOn_takeCount w s) rfl
      · exact servedOn_setSh (servedOn_takeCount w s) rfl
    · rw [serveWait_of_not_served hw hs]
      exact servedOn_refl w.cl s

theorem serveSampler_of_none {cl c : Nat} {s : State} (h : samplerWait s c cl = none) : serveSampler cl s c = s := by
  rw [serveSampler, h]

/-- A Sampler's job that has been served: its count is taken, and it may start. -/
theorem serveSampler_of_some {cl c : Nat} {s : State} {x : QJob} (h : samplerWait s c cl = some x) : serveSampler cl s c =
    { setCue cl { cueOf s cl with count := (cueOf s cl).count - x.job.waitCnt } s with
      serve := { s.serve with samplers := tabSet Sampler.init s.serve.samplers c { tabGet Sampler.init s.serve.samplers c with
        queue := (tabGet Sampler.init s.serve.samplers c).queue.replace x { x with phase := .granted } } } } := by
  rw [serveSampler, h]
  rfl

theorem servedOn_serveSampler (cl c : Nat) (s : State) : servedOn cl s (serveSampler cl s c) := by
  rcases hx : samplerWait s c cl with _ | x
  · rw [serveSampler_of_none hx]
    exact servedOn_refl cl s
  · rw [serveSampler_of_some hx]
    have hself := cueOf_setCue_self cl { cueOf s cl with count := (cueOf s cl).count - x.job.waitCnt } s
    refine ⟨fun u => .inr rfl, fun i hi => ?_, (congrArg CueLight.ovf hself).trans rfl, ?_, rfl, rfl, rfl⟩
    · exact cueOf_setCue_of_ne { cueOf s cl with count := (cueOf s cl).count - x.job.waitCnt } s hi
    · exact (congrArg CueLight.count hself).trans_le (Nat.sub_le _ _)

/-! ### What the service of one wait leaves alone -/

theorem engOf_serveWait_of_ne {u e : Nat} (s : State) (h : u < 64 → e ≠ u) : engOf (serveWait s u) e = engOf s e := by
  rcases hw : unitWait s u with _ | w
  · rw [serveWait_of_none hw]
  · obtain ⟨q, hq⟩ := takeCount_frame w s
    by_cases hs : served s w
    · rw [serveWait_of_served hw hs, endWait_eq_setEng, hq]
      split
      · next hu => exact engOf_setEng_of_ne _ _ (h hu)
      · rfl
    · rw [serveWait_of_not_served hw hs]

theorem shOf_serveWait_of_ne {u k : Nat} (s : State) (h : k + 64 ≠ u) : shOf (serveWait s u) k = shOf s k := by
  rcases hw : unitWait s u with _ | w
  · rw [serveWait_of_none hw]
  · obtain ⟨q, hq⟩ := takeCount_frame w s
    by_cases hs : served s w
    · rw [serveWait_of_served hw hs, endWait_eq_setEng, hq]
      split
      · rfl
      · exact shOf_setSh_of_ne _ _ (by omega)
    · rw [serveWait_of_not_served hw hs]

theorem serveSampler_units (cl c : Nat) (s : State) : (serveSampler cl s c).eng = s.eng ∧ (serveSampler cl s c).sh = s.sh := by
  rw [serveSampler]
  split <;> exact ⟨rfl, rfl⟩

theorem engOf_serveWaitd_of_ne {cl u e : Nat} (s : State) (h : u < 64 → e ≠ u) : engOf (serveWaitd cl s u) e = engOf s e := by
  rw [serveWaitd]
  split
  · exact engOf_serveWait_of_ne s h
  · exact congrArg (tabGet Engine.init · e) (serveSampler_units cl (u - 256) s).1

theorem shOf_serveWaitd_of_ne {cl u k : Nat} (s : State) (h : k + 64 ≠ u) : shOf (serveWaitd cl s u) k = shOf s k := by
  rw [serveWaitd]
  split
  · exact shOf_serveWait_of_ne s h
  · exact congrArg (tabGet Stagehand.init · k) (serveSampler_units cl (u - 256) s).2

/-- A WAIT takes nothing off its Cue Light. -/
theorem cue_serveWait_of_not_take {u : Nat} {s : State} (h : ∀ w, unitWait s u = some w → w.take = false) :
    (serveWait s u).cue = s.cue := by
  rcases hw : unitWait s u with _ | w
  · rw [serveWait_of_none hw]
  · have htake : takeCount w s = s := by rw [takeCount, h w hw]; rfl
    by_cases hs : served s w
    · rw [serveWait_of_served hw hs, endWait_eq_setEng, htake]
      split <;> rfl
    · rw [serveWait_of_not_served hw hs]

/-! ### Service in an order -/

section
variable {σ α β : Type} {f : σ → α → σ}

theorem foldl_eq_of_forall {p : σ → β} {l : List α} (h : ∀ s, ∀ a ∈ l, p (f s a) = p s) (s : σ) : p (l.foldl f s) = p s :=
  List.foldlRecOn (motive := fun t => p t = p s) l f rfl fun t ht a ha => (h t a ha).trans ht

/-- The one element of a list that does something does it once, whatever the others' order. -/
theorem foldl_eq_of_single {l : List α} {a : α} {s t : σ} (hnodup : l.Nodup) (ha : a ∈ l) (hstep : f s a = t)
    (hother : ∀ b ∈ l, b ≠ a → f s b = s ∧ f t b = t) : l.foldl f s = t := by
  obtain ⟨xs, ys, rfl⟩ := List.append_of_mem ha
  obtain ⟨-, hnd, hdisj⟩ := List.nodup_append.1 hnodup
  have hpre : xs.foldl f s = s := List.foldlRecOn (motive := (· = s)) xs f rfl fun u hu b hb => by
    rw [hu]
    exact (hother b (List.mem_append_left _ hb) (hdisj b hb a (List.mem_cons_self ..))).1
  have hpost : ys.foldl f t = t := List.foldlRecOn (motive := (· = t)) ys f rfl fun u hu b hb => by
    rw [hu]
    refine (hother b (List.mem_append_right _ (List.mem_cons_of_mem _ hb)) ?_).2
    rintro rfl
    exact (List.nodup_cons.1 hnd).1 hb
  rw [List.foldl_append, hpre, List.foldl_cons, hstep, hpost]

end

end Sys2Proof.Machine
end

section
/-! SUPPORT. CUE_WAIT_MET (O22): what the bank's service of all waits on a Cue Light leaves of each unit. -/

namespace Sys2Proof.Machine

open Sys2Proof

/-! ### The WAITs, then the WAITDs (R142) -/

section
variable {cl : Nat} {s : State}

theorem servedOn_serveWait_of_pending {t : State} {u : Nat} (ht : servedOn cl s t)
    (hu : ∀ w, unitWait s u = some w → w.cl = cl) : servedOn cl s (serveWait t u) := by
  have ⟨hwait, _⟩ := ht
  refine servedOn_trans ht (servedOn_serveWait fun w hw => ?_)
  rcases hwait u with h | h
  · simp [h] at hw
  · exact hu w (h.symm.trans hw)

theorem servedOn_serveWaits {l : List Nat} (hl : ∀ u ∈ l, ∀ w, unitWait s u = some w → w.cl = cl ∧ w.take = false) :
    servedOn cl s (l.foldl serveWait s) ∧ (l.foldl serveWait s).cue = s.cue := by
  refine List.foldlRecOn (motive := fun t => servedOn cl s t ∧ t.cue = s.cue) l _ ⟨servedOn_refl cl s, rfl⟩ fun t ht u hu => ?_
  obtain ⟨hon, hcue⟩ := ht
  refine ⟨servedOn_serveWait_of_pending hon fun w hw => (hl u hu w hw).1, (cue_serveWait_of_not_take fun w hw => ?_).trans hcue⟩
  obtain ⟨hwait, -⟩ := hon
  rcases hwait u with h | h
  · simp [h] at hw
  · exact (hl u hu w (h.symm.trans hw)).2

theorem servedOn_serveWaitds {t : State} {l : List Nat} (ht : servedOn cl s t)
    (hl : ∀ u ∈ l, u < 256 → ∀ w, unitWait s u = some w → w.cl = cl) : servedOn cl s (l.foldl (serveWaitd cl) t) := by
  refine List.foldlRecOn (motive := servedOn cl s) l _ ht fun r hr u hu => ?_
  rw [serveWaitd]
  split
  · next h => exact servedOn_serveWait_of_pending hr (hl u hu h)
  · exact servedOn_trans hr (servedOn_serveSampler _ _ _)

theorem waitersOn_cl {take : Bool} {u : Nat} (hu : u ∈ waitersOn s cl take) {w : CueWait} (hw : unitWait s u = some w) :
    w.cl = cl ∧ w.take = take := by
  obtain ⟨-, v, hv, hcl, htake⟩ := mem_waitersOn.1 hu
  obtain rfl : v = w := by simpa [hv] using hw
  exact ⟨hcl, htake⟩

/-- One unit of a WAIT is served once, in a state that still has its count. -/
theorem serveWaits_of_mem {β : Type} {p : State → β} {u : Nat} (hp : ∀ t v, u ≠ v → p (serveWait t v) = p t)
    (hu : u ∈ waitersOn s cl false) : ∃ r, p r = p s ∧ servedOn cl s r ∧ r.cue = s.cue ∧
      p ((waitersOn s cl false).foldl serveWait s) = p (serveWait r u) := by
  have hnodup : (waitersOn s cl false).Nodup := nodup_waitUnits.filter _
  have hcl (v : Nat) (hv : v ∈ waitersOn s cl false) (w : CueWait) (hw : unitWait s v = some w) := waitersOn_cl hv hw
  obtain ⟨xs, ys, hl⟩ := List.append_of_mem hu
  rw [hl] at hnodup hcl ⊢
  obtain ⟨-, hnd, hdisj⟩ := List.nodup_append.1 hnodup
  have hxs := servedOn_serveWaits fun v hv => hcl v (List.mem_append_left _ hv)
  obtain ⟨hon, hcue⟩ := hxs
  refine ⟨xs.foldl serveWait s, ?_, hon, hcue, ?_⟩
  · exact foldl_eq_of_forall (fun t v hv => hp t v fun h => hdisj v hv u (List.mem_cons_self ..) h.symm) s
  · rw [List.foldl_append, List.foldl_cons]
    refine foldl_eq_of_forall (fun t v hv => hp t v ?_) _
    rintro rfl
    exact (List.nodup_cons.1 hnd).1 hv

theorem served_of_servedOn {r : State} {w : CueWait} (hr : servedOn cl s r) (hcue : r.cue = s.cue) : served r w ↔ served s w := by
  obtain ⟨-, -, -, -, -, -, htime⟩ := hr
  simp only [served, waitLate, cueOf, hcue, htime]

/-- All waits on the Cue Light are served. -/
def metAll (cl : Nat) (s : State) : State := (takersOn s cl).foldl (serveWaitd cl) ((waitersOn s cl false).foldl serveWait s)

theorem servedOn_metAll (cl : Nat) (s : State) : servedOn cl s (metAll cl s) := by
  refine servedOn_serveWaitds (servedOn_serveWaits fun u hu w hw => waitersOn_cl hu hw).1 fun u hu hlt w hw => ?_
  rcases mem_takersOn.1 hu with hu | ⟨c, -, rfl⟩
  · exact (waitersOn_cl hu hw).1
  · omega

theorem not_mem_takersOn {u : Nat} (hlt : u < 256) (h : ∀ w, unitWait s u = some w → w.cl = cl → w.take = false) :
    u ∉ takersOn s cl := by
  intro hu
  rcases mem_takersOn.1 hu with hu | ⟨c, -, rfl⟩
  · obtain ⟨-, w, hw, hcl, htake⟩ := mem_waitersOn.1 hu
    simp [h w hw hcl] at htake
  · omega

theorem engOf_metAll_of_not_taken {e : Nat} (h : e ∉ takersOn s cl) :
    engOf (metAll cl s) e = engOf ((waitersOn s cl false).foldl serveWait s) e :=
  foldl_eq_of_forall (p := fun t => engOf t e) (fun t _ hu => engOf_serveWaitd_of_ne t fun _ => (ne_of_mem_of_not_mem hu h).symm) _

theorem shOf_metAll_of_not_taken {k : Nat} (h : k + 64 ∉ takersOn s cl) :
    shOf (metAll cl s) k = shOf ((waitersOn s cl false).foldl serveWait s) k :=
  foldl_eq_of_forall (p := fun t => shOf t k) (fun t _ hu => shOf_serveWaitd_of_ne t (ne_of_mem_of_not_mem hu h).symm) _

theorem unitWait_engine {e : Nat} (he : e < 64) (t : State) : unitWait t e = (engOf t e).wait := if_pos he
theorem unitWait_stagehand (k : Nat) (t : State) : unitWait t (k + 64) = (shOf t k).wait := by
  rw [unitWait, if_neg (by omega), Nat.add_sub_cancel]

/-- An engine's WAIT ends when its count is reached and its timeout has not passed. -/
theorem engOf_metAll_of_wait {e : Nat} {w : CueWait} (he : e < 36) (hw : (engOf s e).wait = some w) (hcl : w.cl = cl)
    (htake : w.take = false) : engOf (metAll cl s) e =
      if w.target ≤ (cueOf s cl).count ∧ waitLate s w = false then servedEngine (engOf s e) w else engOf s e := by
  have hunit : unitWait s e = some w := (unitWait_engine (by omega) s).trans hw
  have hmem : e ∈ waitersOn s cl false := mem_waitersOn.2 ⟨mem_waitUnits_engine he, w, hunit, hcl, htake⟩
  have hnot : e ∉ takersOn s cl := not_mem_takersOn (by omega) fun v hv _ => by
    obtain rfl : w = v := by simpa [hunit] using hv
    exact htake
  obtain ⟨r, hr, hon, hcue, heq⟩ := serveWaits_of_mem (p := fun t => engOf t e) (fun t v hv => engOf_serveWait_of_ne t fun _ => hv) hmem
  have hrw : unitWait r e = some w := (unitWait_engine (by omega) r).trans ((congrArg Engine.wait hr).trans hw)
  have hserved : served s w ↔ w.target ≤ (cueOf s cl).count ∧ waitLate s w = false := by rw [served, hcl]
  rw [engOf_metAll_of_not_taken hnot, heq]
  by_cases hs : served s w
  · rw [serveWait_of_served hrw ((served_of_servedOn hon hcue).2 hs), if_pos (by omega), if_pos (hserved.1 hs), endWait_eq_setEng,
      engOf_setEng_self, hr]
  · rw [serveWait_of_not_served hrw (mt (served_of_servedOn hon hcue).1 hs), if_neg (mt hserved.2 hs), hr]

/-- An engine that does not wait on the Cue Light stays as it is. -/
theorem engOf_metAll_of_not_waiting {e : Nat} (h : ∀ w, (engOf s e).wait = some w → w.cl ≠ cl) : engOf (metAll cl s) e = engOf s e := by
  have hne {take : Bool} {u : Nat} (hu : u ∈ waitersOn s cl take) (hlt : u < 64) : e ≠ u := by
    rintro rfl
    obtain ⟨-, w, hw, hcl, -⟩ := mem_waitersOn.1 hu
    exact h w ((unitWait_engine hlt s).symm.trans hw) hcl
  have hwaits := foldl_eq_of_forall (l := waitersOn s cl false) (p := fun t => engOf t e) (fun t u hu => engOf_serveWait_of_ne t (hne hu)) s
  refine (foldl_eq_of_forall (p := fun t => engOf t e) (fun t u hu => engOf_serveWaitd_of_ne t fun hlt => ?_) _).trans hwaits
  rcases mem_takersOn.1 hu with hu | ⟨c, -, rfl⟩
  · exact hne hu hlt
  · omega

/-- A Stagehand's WAIT ends when its count is reached and its timeout has not passed. -/
theorem shOf_metAll_of_wait {k : Nat} {w : CueWait} (hk : k < 72) (hw : (shOf s k).wait = some w) (hcl : w.cl = cl)
    (htake : w.take = false) (hs : served s w) :
    (shOf (metAll cl s) k).wait = none ∧ (shOf (metAll cl s) k).pc = (shOf s k).pc + 4 := by
  have hunit : unitWait s (k + 64) = some w := (unitWait_stagehand k s).trans hw
  have hmem : k + 64 ∈ waitersOn s cl false := mem_waitersOn.2 ⟨mem_waitUnits_stagehand hk, w, hunit, hcl, htake⟩
  have hnot : k + 64 ∉ takersOn s cl := not_mem_takersOn (by omega) fun v hv _ => by
    obtain rfl : w = v := by simpa [hunit] using hv
    exact htake
  obtain ⟨r, hr, hon, hcue, heq⟩ := serveWaits_of_mem (p := fun t => shOf t k) (fun t v hv => shOf_serveWait_of_ne t hv) hmem
  have hrw : unitWait r (k + 64) = some w := (unitWait_stagehand k r).trans ((congrArg Stagehand.wait hr).trans hw)
  have hsh : shOf (takeCount w r) k = shOf s k := by
    obtain ⟨q, hq⟩ := takeCount_frame w r
    rw [hq]
    exact hr
  rw [shOf_metAll_of_not_taken hnot, heq, serveWait_of_served hrw ((served_of_servedOn hon hcue).2 hs), if_neg (by omega),
    Nat.add_sub_cancel, endShWait, modSh, shOf_setSh_self, hsh]
  exact ⟨rfl, rfl⟩

/-! ### A single WAITD -/

/-- The Samplers that a Cue Light does not serve are not served once its count has fallen. -/
theorem samplerWait_eq_none_of_le {t : State} {c : Nat} (hq : tabGet Sampler.init t.serve.samplers c = tabGet Sampler.init s.serve.samplers c)
    (hle : (cueOf t cl).count ≤ (cueOf s cl).count) (h : samplerWait s c cl = none) : samplerWait t c cl = none := by
  unfold samplerWait at h ⊢
  rw [hq]
  dsimp only at h ⊢
  split
  · rfl
  · next hidle =>
    rw [if_neg hidle, Option.or_eq_none_iff] at h
    have hnone := List.find?_eq_none.1 h.2
    rw [Option.or_eq_none_iff, List.find?_eq_none, List.find?_eq_none]
    have hon (x : QJob) (hx : x ∈ (tabGet Sampler.init s.serve.samplers c).queue) := hnone x hx
    simp only [Bool.and_eq_true, decide_eq_true_eq, not_and] at hon ⊢
    exact ⟨fun x hx _ hwait hcnt => hon x hx hwait (hcnt.trans hle), fun x hx hwait hcnt => hon x hx hwait (hcnt.trans hle)⟩

theorem waitersOn_eq_nil {take : Bool} (h : ∀ u w, u ∈ waitUnits → unitWait s u = some w → w.cl = cl → w.take ≠ take) :
    waitersOn s cl take = [] := by
  refine List.eq_nil_iff_forall_not_mem.2 fun u hu => ?_
  obtain ⟨hmem, w, hw, hcl, htake⟩ := mem_waitersOn.1 hu
  exact h u w hmem hw hcl htake

theorem serveWaitd_sampler (cl c : Nat) (t : State) : serveWaitd cl t (256 + c) = serveSampler cl t c := by
  rw [serveWaitd, if_neg (by omega), Nat.add_sub_cancel_left]

/-- The only WAITD on the Cue Light is an engine's: it is served. -/
theorem metAll_of_engine {e : Nat} {w : CueWait} (he : e < 36) (hw : (engOf s e).wait = some w) (hcl : w.cl = cl) (htake : w.take = true)
    (hs : served s w) (hunits : ∀ u v, u ∈ waitUnits → u ≠ e → unitWait s u = some v → v.cl ≠ cl)
    (hsamplers : ∀ c, c < 4 → samplerWait s c cl = none) : metAll cl s = endWait e w s := by
  have hunit : unitWait s e = some w := (unitWait_engine (by omega) s).trans hw
  have hstep : serveWaitd cl s e = endWait e w s := by
    rw [serveWaitd, if_pos (by omega), serveWait_of_served hunit hs, if_pos (by omega)]
  have hon : servedOn cl s (endWait e w s) := by
    rw [endWait_eq_setEng, ← hcl]
    exact servedOn_setEng (servedOn_takeCount w s) rfl
  have hnil : waitersOn s cl false = [] := waitersOn_eq_nil fun u v hu hv hvcl hvtake => by
    by_cases hue : u = e
    · obtain rfl : w = v := by simpa [hue, hunit] using hv
      simp [htake] at hvtake
    · exact hunits u v hu hue hv hvcl
  rw [metAll, hnil, List.foldl_nil]
  refine foldl_eq_of_single (nodup_takersOn s cl)
    (mem_takersOn.2 (.inl (mem_waitersOn.2 ⟨mem_waitUnits_engine he, w, hunit, hcl, htake⟩))) hstep fun u hu hne => ?_
  rcases mem_takersOn.1 hu with hu | ⟨c, hc, rfl⟩
  · obtain ⟨hmem, v, hv, hvcl, -⟩ := mem_waitersOn.1 hu
    exact absurd hvcl (hunits u v hmem hne hv)
  · obtain ⟨-, -, -, hcount, -⟩ := hon
    have hq : tabGet Sampler.init (endWait e w s).serve.samplers c = tabGet Sampler.init s.serve.samplers c := by
      obtain ⟨q, hq⟩ := takeCount_frame w s
      rw [endWait_eq_setEng, hq]
      rfl
    exact ⟨(serveWaitd_sampler cl c s).trans (serveSampler_of_none (hsamplers c hc)),
      (serveWaitd_sampler cl c _).trans (serveSampler_of_none (samplerWait_eq_none_of_le hq hcount (hsamplers c hc)))⟩

/-- The only WAITD on the Cue Light is a Sampler's job: it is served. -/
theorem metAll_of_sampler {k : Nat} {x : QJob} (hk : k < 4) (hx : samplerWait s k cl = some x)
    (hunits : ∀ u v, u ∈ waitUnits → unitWait s u = some v → v.cl ≠ cl)
    (hsamplers : ∀ c, c < 4 → c ≠ k → samplerWait s c cl = none) : metAll cl s = serveSampler cl s k := by
  have hnil : waitersOn s cl false = [] := waitersOn_eq_nil fun u v hu hv hvcl _ => hunits u v hu hv hvcl
  have hcount : (cueOf (serveSampler cl s k) cl).count ≤ (cueOf s cl).count := by
    obtain ⟨-, -, -, hcount, -⟩ := servedOn_serveSampler cl k s
    exact hcount
  rw [metAll, hnil, List.foldl_nil]
  refine foldl_eq_of_single (nodup_takersOn s cl) (mem_takersOn.2 (.inr ⟨k, hk, rfl⟩)) (serveWaitd_sampler cl k s) fun u hu hne => ?_
  rcases mem_takersOn.1 hu with hu | ⟨c, hc, rfl⟩
  · obtain ⟨hmem, v, hv, hvcl, -⟩ := mem_waitersOn.1 hu
    exact absurd hvcl (hunits u v hmem hv)
  · have hck : c ≠ k := fun h => hne (by rw [h])
    have hq : tabGet Sampler.init (serveSampler cl s k).serve.samplers c = tabGet Sampler.init s.serve.samplers c := by
      rw [serveSampler_of_some hx]
      exact tabGet_set_of_ne _ _ _ hck
    exact ⟨(serveWaitd_sampler cl c s).trans (serveSampler_of_none (hsamplers c hc hck)),
      (serveWaitd_sampler cl c _).trans (serveSampler_of_none (samplerWait_eq_none_of_le hq hcount (hsamplers c hc hck)))⟩

end

end Sys2Proof.Machine
end

section
/-! SUPPORT. The bank's other events (O22): timeouts, reported saturations, and flats under test. -/

namespace Sys2Proof.Machine

open Sys2Proof

/-! ### Timeouts (R148, R149, R172) -/

theorem need_of_eq_true {b : Bool} (h : b = true) (r : Res) : need b r = r := if_pos h

/-- The state in which a timeout is dealt with: its moment has come, and it is counted. -/
def timedOut (due : Nat) (s : State) : State := bump 0x40044 (passTo due s)

theorem engOf_timedOut (due : Nat) (s : State) (e : Nat) : engOf (timedOut due s) e = engOf s e :=
  congrArg (tabGet Engine.init · e) (passUs_eng _ s)

theorem shOf_timedOut (due : Nat) (s : State) (k : Nat) : shOf (timedOut due s) k = shOf s k :=
  congrArg (tabGet Stagehand.init · k) (passUs_sh _ s)

theorem regW_timedOut_self (due : Nat) (s : State) : regW (timedOut due s) 0x40044 = regW s 0x40044 + 1 := by
  have hreg : regW (passTo due s) 0x40044 = regW s 0x40044 := congrArg (tabGet 0#32 · 0x40044) (passUs_regs _ s)
  exact (regW_setReg_self _ _ _).trans (congrArg (· + 1) hreg)

theorem regW_timedOut_of_ne (due : Nat) (s : State) {a : Nat} (h : a ≠ 0x40044) : regW (timedOut due s) a = regW s a :=
  (regW_setReg_of_ne _ _ h).trans (congrArg (tabGet 0#32 · a) (passUs_regs _ s))

/-- What the timeout of a unit's wait does, at its moment. -/
def endLate (u : Nat) (w : CueWait) (s : State) : State :=
  if 64 ≤ u then endShWait (u - 64) 0 s
  else match w.pd with
    | some p => modEng u (fun x => advance (withTimeout (wrP { x with wait := none } p 0))) s
    | none => raiseExc u 6 (engOf s u).pc.toNat w.cl 0 [] s

theorem execCueWaitTimeout_eq {u due : Nat} {w : CueWait} {s : State} (hu : u < 36 ∨ 64 ≤ u ∧ u < 136) (hw : unitWait s u = some w)
    (hdue : w.deadline = some due) (hlate : (cueOf s w.cl).count < w.target ∨ due < s.time) (hr : reaches s due) :
    execCueWaitTimeout u s = .next (endLate u w (timedOut due s)) := by
  have hnot : (waitMet s w && !waitLate s w) = false := by
    simp only [waitMet, waitLate, hdue, Bool.and_eq_false_iff, Bool.not_eq_false', decide_eq_false_iff_not, decide_eq_true_eq]
    omega
  rw [execCueWaitTimeout, need_of_eq_true (by simpa using hu)]
  simp only [hw, hdue, hnot, atTime_of_reaches hr]
  rfl

theorem raiseExc_time {e : Nat} {c : EntryCtx} {s : State} (hrun : (engOf s e).run = some c) (cause pc addr : Nat) (status : Status)
    (detail : List Nat) : (raiseExc e cause pc addr status detail s).time = s.time := by
  set x : Engine := { engOf s e with excLast := BitVec.ofNat 8 cause }
  set u := bump (0x50008 + 0x400 * e) (setEng e x s)
  have hrun' : (engOf u e).run = some c := (congrArg Engine.run (engOf_setEng_self e x s)).trans hrun
  have hexc : ∃ ev, raiseExc e cause pc addr status detail s = abandonEntry e ev u := ⟨_, rfl⟩
  obtain ⟨ev, hev⟩ := hexc
  obtain ⟨v, r, hu⟩ := abandonedEntry_frame e c u
  rw [hev, abandonEntry_eq ev hrun']
  generalize { ev with ctx := ctxOf c, unit := unitCode (engRef e) } = ev'
  obtain ⟨f, n, w, hlog, -, -⟩ := logEvent_frame ev' (abandonedEntry e c u)
  rw [hlog, hu]
  rfl

theorem execCueWaitTimeout_engine {e due : Nat} {w : CueWait} {c : EntryCtx} {s : State} (he : e < 36) (hrun : (engOf s e).run = some c)
    (hw : (engOf s e).wait = some w) (hdue : w.deadline = some due) (hlate : (cueOf s w.cl).count < w.target ∨ due < s.time)
    (hr : reaches s due) : leadsTo (execCueWaitTimeout e s) fun t =>
      regW t 0x40044 = regW s 0x40044 + 1 ∧ t.time = max s.time due ∧
      (∀ p, w.pd = some p → engOf t e = { wrP (engOf s e) p 0 with
        wait := none, pc := nextPc s e, flags := (engOf s e).flags ||| 4#8 }) ∧
      (w.pd = none → raised e 6 w.cl c s t) := by
  refine ⟨_, execCueWaitTimeout_eq (.inl he) ((unitWait_engine (by omega) s).trans hw) hdue hlate hr, ?_⟩
  rw [endLate, if_neg (by omega)]
  set u := timedOut due s
  have hu : engOf u e = engOf s e := engOf_timedOut due s e
  have hcount : regW u 0x40044 = regW s 0x40044 + 1 := regW_timedOut_self due s
  have htime : u.time = max s.time due := passTo_time hr
  rcases hpd : w.pd with _ | p
  · obtain ⟨hself, hother, hmem, hflies, hcue, hexc, hrecord⟩ := raised_raiseExc (hu.symm ▸ hrun) he 6 w.cl
    obtain ⟨-, -, -, -, -, -, hreg, -⟩ := raiseExc_abandons (hu.symm ▸ hrun) he 6 (engOf u e).pc.toNat w.cl 0 []
    have hregs := regW_timedOut_of_ne due s (a := 0x50008 + 0x400 * e) (by omega)
    refine ⟨(hreg _ (by omega) (by omega)).trans hcount, (raiseExc_time (hu.symm ▸ hrun) ..).trans htime, nofun, fun _ => ?_⟩
    refine ⟨hself.trans (by rw [hu]), fun k hk => (hother k hk).trans (engOf_timedOut due s k), hmem.trans (passUs_mem _ s),
      hflies.trans (passUs_flies _ s), hcue.trans (passUs_cue _ s), by rw [hexc, hregs], fun hlen => ?_⟩
    have hfault : u.fault = s.fault := passUs_fault _ s
    obtain ⟨v, hv⟩ := hrecord (by rwa [hfault])
    simp only [hfault, hu] at hv ⊢
    exact ⟨v, hv⟩
  · refine ⟨hcount, htime, fun q hq => ?_, nofun⟩
    obtain rfl : p = q := by simpa using hq
    refine (engOf_setEng_self e _ u).trans ?_
    rw [hu]
    unfold wrP
    split <;> rfl

theorem execCueWaitTimeout_stagehand {k due : Nat} {w : CueWait} {s : State} (hk : k < 72) (hw : (shOf s k).wait = some w)
    (hdue : w.deadline = some due) (hlate : (cueOf s w.cl).count < w.target ∨ due < s.time) (hr : reaches s due) :
    leadsTo (execCueWaitTimeout (64 + k) s) fun t =>
      shOf t k = { shOf s k with wait := none, pc := (shOf s k).pc + 4, x :=
        (if (shOf s k).waitRd = 0 then (shOf s k).x else tabSet 0#64 (shOf s k).x (shOf s k).waitRd 0) } ∧
      (∀ n, n ≠ k → shOf t n = shOf s n) ∧ regW t 0x40044 = regW s 0x40044 + 1 := by
  have hunit : unitWait s (64 + k) = some w := by rw [Nat.add_comm]; exact (unitWait_stagehand k s).trans hw
  refine ⟨_, execCueWaitTimeout_eq (.inr (by omega)) hunit hdue hlate hr, ?_⟩
  rw [endLate, if_pos (show 64 ≤ 64 + k by omega), Nat.add_sub_cancel_left, endShWait, modSh, shOf_timedOut]
  exact ⟨shOf_setSh_self _ _ _, fun n hn => (shOf_setSh_of_ne _ _ hn).trans (shOf_timedOut due s n), regW_timedOut_self due s⟩

/-! ### Reported saturations (R144, R156) -/

/-- The one deferred exception of a running engine is taken when it is reported. -/
theorem reportDeferred_single {e cause : Nat} {c : EntryCtx} {d : Deferred} {s : State} (h : issues s e c)
    (hd : (engOf s e).deferred = [d]) (hcause : d.cause = cause) : ∃ u, reportDeferred e cause s =
      raiseExc e cause d.pc d.addr d.status d.detail u ∧
      u = setEng e { engOf s e with deferred := [{ d with reported := true }] } s := by
  obtain ⟨-, -, hphase, hwait, hrep⟩ := h
  have hnot : d.reported = false := by simpa [hd] using hrep
  refine ⟨_, ?_, rfl⟩
  have hfind : (engOf s e).deferred.findIdx? (fun d => d.cause = cause && !d.reported) = some 0 := by
    simp [hd, List.findIdx?_cons, hcause, hnot]
  rw [reportDeferred, hfind]
  dsimp only
  rw [hphase, hwait, if_pos (by simp), takeDeferred, engOf_setEng_self, hd, ← hcause]
  simp

/-- A deferred exception that is reported at an instruction boundary is taken, and its engine keeps its queue. -/
theorem reportDeferred_takes {e cause : Nat} {c : EntryCtx} {d : Deferred} {s : State} (h : issues s e c)
    (hd : (engOf s e).deferred = [d]) (hcause : d.cause = cause) :
    let t := reportDeferred e cause s
    engOf t e = abandoned (engOf s e) (BitVec.ofNat 8 cause) ∧ (∀ k, k ≠ e → engOf t k = engOf s k) ∧ t.cue = s.cue ∧
      regW t (0x50008 + 0x400 * e) = regW s (0x50008 + 0x400 * e) + 1 ∧
      (∀ a, a ≠ 0x50008 + 0x400 * e → a ≠ 0xD0054 → regW t a = regW s a) ∧ t.fault.fwPoison = s.fault.fwPoison ∧
      (s.fault.fifo.length < 256 → ∃ v, t.fault.fifo = s.fault.fifo ++ [v] ∧ v.cls = 0 ∧ v.cause = cause ∧ v.pc = d.pc ∧
        v.addr = BitVec.ofNat 64 d.addr ∧ v.detail = d.detail ∧ v.ctx = ctxOf c) := by
  obtain ⟨u, hreport, hu⟩ := reportDeferred_single h hd hcause
  obtain ⟨he, hrun, -, -, -⟩ := h
  have hrun' : (engOf u e).run = some c := by rw [hu, engOf_setEng_self]; exact hrun
  obtain ⟨hself, hother, -, -, hcue, hcount, hreg, hrecord⟩ := raiseExc_abandons hrun' he cause d.pc d.addr d.status d.detail
  obtain ⟨-, -, -, hfw⟩ := keepsBut_raiseExc e cause d.pc d.addr d.status d.detail u
  rw [hreport]
  have hregs (a : Nat) : regW u a = regW s a := by rw [hu, regW_setEng]
  have hfault : u.fault = s.fault := by rw [hu]; rfl
  refine ⟨?_, fun k hk => ?_, hcue.trans (by rw [hu]; rfl), by rw [hcount, hregs], fun a ha ha' => by rw [hreg a ha ha', hregs],
    by rw [hfw, hfault], fun hlen => ?_⟩
  · rw [hself, hu, engOf_setEng_self]
    rfl
  · rw [hother k hk, hu, engOf_setEng_of_ne _ _ hk]
  · obtain ⟨v, hfifo, hcls, hc, hpc, haddr, hdetail, hctx, -⟩ := hrecord (by rw [hfault]; exact hlen)
    exact ⟨v, by rw [hfifo, hfault], hcls, hc, hpc, haddr, hdetail, hctx⟩

theorem execCueOvf_result {e : Nat} {c : EntryCtx} {d : Deferred} {s : State} (h : issues s e c) (hd : (engOf s e).deferred = [d])
    (hcause : d.cause = 7) : leadsTo (execCueOvf e s) fun t =>
      engOf t e = abandoned (engOf s e) 7 ∧ regW t (0x50008 + 0x400 * e) = regW s (0x50008 + 0x400 * e) + 1 ∧
      (s.fault.fifo.length < 256 → ∃ v, t.fault.fifo = s.fault.fifo ++ [v] ∧ v.cls = 0 ∧ v.cause = 7 ∧ v.pc = d.pc ∧
        v.addr = BitVec.ofNat 64 d.addr ∧ v.ctx = ctxOf c) := by
  obtain ⟨hself, -, -, hcount, -, -, hrecord⟩ := reportDeferred_takes h hd hcause
  obtain ⟨he, -⟩ := h
  refine ⟨_, need_of_eq_true (decide_eq_true he) _, hself, hcount, fun hlen => ?_⟩
  obtain ⟨v, hfifo, hcls, hc, hpc, haddr, -, hctx⟩ := hrecord hlen
  exact ⟨v, hfifo, hcls, hc, hpc, haddr, hctx⟩

/-! ### Flats under test (R724) -/

theorem getD_tabRead {α : Type} (d : α) (t : Tab α) (a : Nat) {n i : Nat} (h : i < n) : (tabRead d t a n).getD i d = tabGet d t (a + i) := by
  simp [tabRead, List.getD, h]

/-- A flat's bytes are those of another flat. -/
def copiedFlat (src dst : Nat) (t : Tab Byte) : Tab Byte := tabWrite 0#8 t (65536 * dst) (tabRead 0#8 t (65536 * src) 65536)

theorem tabGet_copiedFlat (src dst : Nat) (t : Tab Byte) {k : Nat} (h : k < 65536) :
    tabGet 0#8 (copiedFlat src dst t) (65536 * dst + k) = tabGet 0#8 t (65536 * src + k) := by
  rw [copiedFlat, tabGet_write, tabRead_length, if_pos (by omega), Nat.add_sub_cancel_left, getD_tabRead _ _ _ h]

theorem tabGet_copiedFlat_of_ne (src dst : Nat) (t : Tab Byte) {a : Nat} (h : a / 65536 ≠ dst) :
    tabGet 0#8 (copiedFlat src dst t) a = tabGet 0#8 t a := by
  rw [copiedFlat, tabGet_write, tabRead_length, if_neg (by omega)]

/-- A flat that is no longer under test, with the bytes `m` in the Flies. -/
def restoredFlat (n : Nat) (m : Tab Byte) (s : State) : State :=
  let t := setFlat n { flatOf s n with test := false } s
  { t with flies := { t.flies with mem := m, testCopy := none } }

theorem restoredFlat_result (n : Nat) (m : Tab Byte) (s : State) :
    (restoredFlat n m s).flies.mem = m ∧ flatOf (restoredFlat n m s) n = { flatOf s n with test := false } ∧
      (∀ k, k ≠ n → flatOf (restoredFlat n m s) k = flatOf s k) ∧ (restoredFlat n m s).flies.testCopy = none ∧
      { restoredFlat n m s with flies := s.flies } = s :=
  ⟨rfl, flatOf_setFlat_self n _ s, fun _ hk => flatOf_setFlat_of_ne _ s hk, rfl, rfl⟩

theorem execFlatTestRestore_eq {n : Nat} {s : State} (hn : n < 128) (htest : (flatOf s n).test = true)
    (hcopy : s.flies.testCopy = some n) : execFlatTestRestore n s =
      .next (restoredFlat n (copiedFlat (s.flies.areas.getD 5 27) n s.flies.mem) s) := by
  have hsrc : restoreBase s = s.flies.areas.getD 5 27 := rfl
  unfold execFlatTestRestore copiedFlat
  rw [need_of_eq_true (decide_eq_true hn), if_pos (by simp [htest, hcopy]), hsrc]
  rfl

/-- Settles O22: the bank serves each wait on a Cue Light at most once; a timeout, a reported saturation and a restored flat each do what
their rules say. -/
theorem cueBankAndFlatEvents : Obligations.CueBankAndFlatEvents := by
  unfold Obligations.CueBankAndFlatEvents
  refine ⟨fun cl s hcl => ?_, fun cl e w s hcl he hw hwcl htake hmet hlate hunits hsamplers => ?_,
    fun cl k x s hcl hk hx hunits hsamplers => ?_, ?_, ?_, ?_, ?_⟩
  · dsimp only [exec]
    rw [execCueWaitMet_eq hcl]
    obtain ⟨-, hcue, hovf, hcount, hmem, hflies, -⟩ := servedOn_metAll cl s
    refine ⟨_, rfl, fun e w he hw hwcl htake => engOf_metAll_of_wait he hw hwcl htake, fun e he => engOf_metAll_of_not_waiting he,
      fun k w hk hw hwcl htake hmet hlate => shOf_metAll_of_wait hk hw hwcl htake ⟨by rw [hwcl]; exact hmet, hlate⟩, hcue, hovf, hcount,
      hmem, hflies⟩
  · have hs : served s w := ⟨by rw [hwcl]; exact hmet, hlate⟩
    refine ⟨_, (execCueWaitMet_eq hcl s).trans (congrArg _ (metAll_of_engine he hw hwcl htake hs hunits hsamplers)), ?_, ?_⟩
    · rw [endWait_eq_setEng, engOf_setEng_self]
      rfl
    · have := cueOf_takeCount_self w s
      rw [htake, if_pos rfl, hwcl] at this
      rw [endWait_eq_setEng]
      exact this
  · refine ⟨_, (execCueWaitMet_eq hcl s).trans (congrArg _ (metAll_of_sampler hk hx hunits hsamplers)), ?_⟩
    rw [serveSampler_of_some hx]
    refine ⟨cueOf_setCue_self cl { cueOf s cl with count := (cueOf s cl).count - x.job.waitCnt } s, rfl, rfl, ?_⟩
    exact congrArg Sampler.queue (tabGet_set_self ..)
  · exact fun e w due c s he hrun hw hdue hlate hr => execCueWaitTimeout_engine he hrun hw hdue hlate hr
  · exact fun k w due s hk hw hdue hlate hr => execCueWaitTimeout_stagehand hk hw hdue hlate hr
  · exact fun e c d s h hd hcause => execCueOvf_result h hd hcause
  · intro n s hn htest hcopy
    obtain ⟨hmem, hflat, hrest⟩ := restoredFlat_result n (copiedFlat (s.flies.areas.getD 5 27) n s.flies.mem) s
    refine ⟨_, execFlatTestRestore_eq hn htest hcopy, ?_, ?_, hflat, hrest⟩
    · rw [hmem]
      exact fun k hk => tabGet_copiedFlat _ n s.flies.mem hk
    · rw [hmem]
      exact fun a ha => tabGet_copiedFlat_of_ne _ n s.flies.mem ha

end Sys2Proof.Machine
end

section
/-! SUPPORT. Accesses that an earlier epoch may have checked (O20, O21): translation, and what reads and stores of main memory without
errors find and leave. -/

namespace Sys2Proof.Machine

open Sys2Proof

/-! ### What a walk reads (R319, R338) -/

/-- What the translation of an access depends on: page tables, journals, frames in service, keys and grants of shared slots. -/
def walksBy (s : State) : Tab DWord × List Journal × List Nat × Tab (Option Nat) × (Nat → Word) :=
  (s.mem.pt, s.mem.journals, s.hbm.lcRetired, s.sec.keys, fun part => regW s (0x70108 + 0x20 * part))

theorem walk_leafWalk_congr {s t : State} (h : walksBy t = walksBy s) (part stepId : Nat) (write : Bool) (va : Nat) :
    walk t part stepId write va = walk s part stepId write va ∧
      ∀ w level, leafWalk t part stepId write w level va = leafWalk s part stepId write w level va := by
  obtain ⟨hpt, hjournals, hretired, hkeys, hregs⟩ := by simpa only [walksBy, Prod.mk.injEq] using h
  have hentry (space level : Nat) : ptOf t space level va = ptOf s space level va := by rw [ptOf, hpt, ptOf]
  have hframe (f : Nat) : frameIn t f = frameIn s f := by rw [frameIn, hretired, frameIn]
  have hkey (k : Nat) : keyHeld t k = keyHeld s k := by rw [keyHeld, hkeys, keyHeld]
  have howner (k : Nat) : ownerOk t part k = ownerOk s part k := by
    have hreg : regW t (0x70108 + 0x20 * part) = regW s (0x70108 + 0x20 * part) := congrFun hregs part
    simp only [ownerOk, shareGranted, hreg]
  have hpointer (w : DWord) (level : Nat) : pointerFault t part w level = pointerFault s part w level := by
    simp only [pointerFault, hframe, howner]
  have hperm (w : DWord) (pa : Nat) : permCheck t part stepId write w pa = permCheck s part stepId write w pa := by
    simp only [permCheck, journalOf, hjournals]
  have hleaf (w : DWord) (level : Nat) : leafWalk t part stepId write w level va = leafWalk s part stepId write w level va := by
    simp only [leafWalk, hframe, howner, hkey, hperm]
  exact ⟨by simp only [walk, hentry, hpointer, hleaf], hleaf⟩

theorem walkFor_congr {s t : State} (h : walksBy t = walksBy s) (c : MemCtx) (write : Bool) (va : Nat) :
    walkFor t c write va = walkFor s c write va := by
  obtain ⟨hwalk, hleaf⟩ := walk_leafWalk_congr h c.part c.stepId write va
  simp only [walkFor, hwalk, hleaf]

/-- An access to a page gives its addresses one after another. -/
theorem walkFor_add (s : State) (c : MemCtx) (write : Bool) {va j : Nat} (h : va % 65536 + j < 65536) :
    walkFor s c write (va + j) = (walkFor s c write va).plus j := by
  have hpage : (va + j) / 65536 = va / 65536 := by omega
  simp only [walkFor, heldLeaf, hpage]
  split
  · exact leafWalk_add s c.part c.stepId write _ 3 h
  · exact walk_add s c.part c.stepId write h

theorem leafWalk_read_ne_copy (s : State) (part stepId : Nat) (w : DWord) (level va q : Nat) :
    leafWalk s part stepId false w level va ≠ .copy q := by
  unfold leafWalk
  dsimp only
  repeat' split
  all_goals simp [permCheck_read_ne_copy]

theorem walkFor_read_ne_copy (s : State) (c : MemCtx) (va q : Nat) : walkFor s c false va ≠ .copy q := by
  rw [walkFor]
  split
  · exact leafWalk_read_ne_copy s _ _ _ 3 va q
  · exact walk_read_ne_copy s _ _ va q

theorem walksBy_tcLookup {cluster : Nat} (h : cluster < 4) (part va : Nat) (s : State) :
    walksBy (tcLookup cluster part va s) = walksBy s := by
  have hreg (a : Nat) (ha : a < 0x70108) : (fun p => regW (bump a s) (0x70108 + 0x20 * p)) = fun p => regW s (0x70108 + 0x20 * p) :=
    funext fun p => regW_setReg_of_ne _ _ (by omega)
  unfold tcLookup
  extract_lets t k ways s' ok pick tc upper
  split
  · exact congrArg (fun r => (s.mem.pt, s.mem.journals, s.hbm.lcRetired, s.sec.keys, r)) (hreg _ (by omega))
  · exact congrArg (fun r => (s.mem.pt, s.mem.journals, s.hbm.lcRetired, s.sec.keys, r)) (hreg (0x70084 + 8 * cluster) (by omega))

/-! ### Reads (R323) -/

/-- The byte that a read finds at an address. -/
def readByte (s : State) (c : MemCtx) (va : Nat) : Byte :=
  match walkFor s c false va with
  | .ok pa => memByte s pa
  | _ => 0

/-- The bytes that a read finds in a range. -/
def readBytes (s : State) (c : MemCtx) (va n : Nat) : List Byte := (List.range n).map fun a => readByte s c (va + a)

theorem readByte_of_walk {s : State} {c : MemCtx} {va pa : Nat} (h : walkFor s c false va = .ok pa) : readByte s c va = memByte s pa := by
  rw [readByte, h]

@[simp] theorem length_readBytes (s : State) (c : MemCtx) (va n : Nat) : (readBytes s c va n).length = n := by simp [readBytes]

theorem getD_readBytes (s : State) (c : MemCtx) (va : Nat) {n a : Nat} (h : a < n) :
    (readBytes s c va n).getD a 0 = readByte s c (va + a) := by
  simp [readBytes, List.getD_eq_getElem?_getD, h]

theorem readBytes_add (s : State) (c : MemCtx) (va m n : Nat) :
    readBytes s c va (m + n) = readBytes s c va m ++ readBytes s c (va + m) n := by
  simp [readBytes, List.range_add, Function.comp_def, Nat.add_assoc]

theorem readBytes_congr {s t : State} (hwalks : walksBy t = walksBy s) (hbytes : t.mem.bytes = s.mem.bytes) (c : MemCtx) (va n : Nat) :
    readBytes t c va n = readBytes s c va n := by
  simp only [readBytes, readByte, walkFor_congr hwalks, memByte, hbytes]

theorem dvReadPiece_within_page {c : MemCtx} {s : State} {va n : Nat} (bs : List Byte) (hclean : cleanMem s)
    (hn : va % 65536 + n ≤ 65536) (hwalk : ∀ k, walkFor s c false va ≠ .fault k) :
    dvReadPiece c (readOf s bs) (va, n) = readOf s (bs ++ readBytes s c va n) := by
  simp only [dvReadPiece, readOf]
  cases hw : walkFor s c false va with
  | fault k => exact absurd hw (hwalk k)
  | copy q => exact absurd hw (walkFor_read_ne_copy s c va q)
  | ok pa =>
    have hbytes : readBytes s c va n = physBytes s pa n := by
      rw [physBytes_of_clean hclean]
      refine List.map_congr_left fun a ha => readByte_of_walk ?_
      have := List.mem_range.1 ha
      rw [walkFor_add s c false (by omega), hw, Walk.plus]
    simp [readGranules_of_clean hclean, hbytes]

theorem pieces_of_ne_zero (fuel va : Nat) {n : Nat} (h : n ≠ 0) : pieces (fuel + 1) va n =
    (va, min n (65536 - va % 65536)) :: pieces fuel (va + min n (65536 - va % 65536)) (n - min n (65536 - va % 65536)) := by
  rw [pieces, if_neg h]

theorem foldl_dvReadPiece {c : MemCtx} {s : State} (hclean : cleanMem s) (fuel va n : Nat) (bs : List Byte)
    (hn : n ≤ 65536 * fuel - va % 65536) (hwalk : ∀ p ∈ pieces fuel va n, ∀ k, walkFor s c false p.1 ≠ .fault k) :
    (pieces fuel va n).foldl (dvReadPiece c) (readOf s bs) = readOf s (bs ++ readBytes s c va n) := by
  induction fuel generalizing va n bs with
  | zero =>
    obtain rfl : n = 0 := by omega
    simp [pieces, readBytes]
  | succ fuel ih =>
    by_cases h0 : n = 0
    · simp [pieces, h0, readBytes]
    rw [pieces_of_ne_zero fuel va h0] at hwalk ⊢
    obtain ⟨hhead, htail⟩ := List.forall_mem_cons.1 hwalk
    set k := min n (65536 - va % 65536) with hk
    have hsplit : n = k + (n - k) := by omega
    rw [List.foldl_cons, dvReadPiece_within_page bs hclean (by omega) hhead, ih _ _ _ (by omega) htail, List.append_assoc,
      ← readBytes_add, ← hsplit]

/-- A read of a range that meets no fault changes nothing and gives the bytes of main memory. -/
theorem dvRead_of_clean_held {c : MemCtx} {va n : Nat} {s : State} (hclean : cleanMem s) (hfault : rangeFault s c false va n = none) :
    dvRead c va n s = readOf s (readBytes s c va n) := by
  have hwalk : ∀ p ∈ pagePieces va n, ∀ k, walkFor s c false p.1 ≠ .fault k := by
    intro p hp k hk
    have := List.findSome?_eq_none_iff.1 hfault p hp
    simp [hk] at this
  rw [dvRead_of_rangeFault_none hfault, pagePieces, foldl_dvReadPiece hclean _ _ _ _ (by omega) hwalk, List.nil_append]

/-! ### Stores (R304, R323, R879) -/

/-- Memory `t` is memory `s` with bytes written from an address on. -/
def bytesWritten (pa : Nat) (bs : List Byte) (s t : State) : Prop :=
  cleanMem t ∧ walksBy t = walksBy s ∧
    ∀ b, memByte t b = if pa ≤ b ∧ b < pa + bs.length then bs.getD (b - pa) 0 else memByte s b

theorem bytesWritten_nil {s : State} (h : cleanMem s) (pa : Nat) : bytesWritten pa [] s s :=
  ⟨h, rfl, fun b => (if_neg (by rw [List.length_nil]; omega)).symm⟩

theorem bytesWritten_append {pa : Nat} {bs cs : List Byte} {s t u : State} (h : bytesWritten pa bs s t)
    (g : bytesWritten (pa + bs.length) cs t u) : bytesWritten pa (bs ++ cs) s u := by
  obtain ⟨-, hwalks, hbytes⟩ := h
  obtain ⟨gclean, gwalks, gbytes⟩ := g
  refine ⟨gclean, gwalks.trans hwalks, fun b => ?_⟩
  rw [gbytes, hbytes, List.length_append]
  by_cases h1 : pa + bs.length ≤ b
  · by_cases h2 : b < pa + bs.length + cs.length
    · rw [if_pos ⟨h1, h2⟩, if_pos (by omega), List.getD_append_right _ _ _ _ (by omega), Nat.sub_sub]
    · rw [if_neg (by omega), if_neg (by omega), if_neg (by omega)]
  · rw [if_neg (by omega)]
    by_cases h2 : pa ≤ b
    · rw [if_pos (by omega), if_pos (by omega), List.getD_append _ _ _ _ (by omega)]
    · rw [if_neg (by omega), if_neg (by omega)]

theorem walksBy_markDirty (f : Nat) (s : State) : walksBy (markDirty f s) = walksBy s := by
  rw [markDirty]
  split <;> rfl

theorem bytesWritten_mergeGranule {s : State} (h : cleanMem s) (c : MemCtx) (pa : Nat) (bs : List Byte) :
    bytesWritten pa bs s (mergeGranule c pa bs s).1 := by
  refine ⟨cleanMem_mergeGranule h pa bs, ?_, fun b => ?_⟩
  · rw [mergeGranule_of_clean h]
    unfold markDirty
    split <;> rfl
  · rw [mergeGranule_of_clean h]
    exact tabGet_write 0#8 bs _ pa b

theorem bytesWritten_storePart {r : State × Bool} (h : cleanMem r.1) (c : MemCtx) (a : Nat) (xs : List Byte) :
    bytesWritten a xs r.1 (storePart c a xs r).1 := by
  rw [storePart]
  split
  · next hxs => exact hxs ▸ bytesWritten_nil h a
  · exact bytesWritten_mergeGranule h c a xs

theorem bytesWritten_physWrite {s : State} (h : cleanMem s) (pa : Nat) (bs : List Byte) : bytesWritten pa bs s (physWrite pa bs s) := by
  have hdirty : (if bs = [] then s else markDirty (pa / 65536) s).mem = s.mem ∧
      walksBy (if bs = [] then s else markDirty (pa / 65536) s) = walksBy s := by
    split
    · exact ⟨rfl, rfl⟩
    · exact ⟨markDirty_mem _ s, walksBy_markDirty _ s⟩
  obtain ⟨hmem, hwalks⟩ := hdirty
  refine ⟨cleanMem_physWrite h pa bs, hwalks, fun b => ?_⟩
  simp only [memByte, physWrite, hmem]
  exact tabGet_write 0#8 bs _ pa b

/-- A store within a frame writes its bytes. -/
theorem bytesWritten_storePhys {s : State} (h : cleanMem s) (c : MemCtx) (pa : Nat) (bs : List Byte) :
    bytesWritten pa bs s (storePhys c pa bs s).1 := by
  rw [storePhys_eq]
  generalize hhead : (if pa % 64 = 0 then 0 else min (64 - pa % 64) bs.length) = head
  have hle : head ≤ bs.length := by
    subst hhead
    split <;> omega
  generalize hmid : (bs.length - head) / 64 * 64 = mid
  have hfirst := bytesWritten_storePart (r := (s, false)) h c pa (bs.take head)
  have hsecond := bytesWritten_append hfirst (cs := (bs.drop head).take mid) (u := physWrite (pa + head) ((bs.drop head).take mid) _)
    (by rw [List.length_take, Nat.min_eq_left hle]; exact bytesWritten_physWrite hfirst.1 _ _)
  have hlen : (bs.take head ++ (bs.drop head).take mid).length = head + mid := by
    rw [List.length_append, List.length_take, List.length_take, List.length_drop]
    omega
  have hthird := bytesWritten_append hsecond (cs := bs.drop (head + mid)) (u := (storePart c (pa + head + mid) (bs.drop (head + mid))
    (physWrite (pa + head) ((bs.drop head).take mid) (storePart c pa (bs.take head) (s, false)).1, (storePart c pa (bs.take head) (s, false)).2)).1)
    (by rw [hlen, ← Nat.add_assoc]; exact bytesWritten_storePart (r := (_, _)) hsecond.1 c _ _)
  have happend : bs.take head ++ (bs.drop head).take mid ++ bs.drop (head + mid) = bs := by
    rw [← List.take_add, List.take_append_drop]
  rwa [happend] at hthird

/-- What a store of bytes leaves: the addresses of its range hold them, and every other byte is as it was. -/
def rangeStored (c : MemCtx) (va : Nat) (bs : List Byte) (s t : State) : Prop :=
  cleanMem t ∧ walksBy t = walksBy s ∧
    (∀ b, (∀ k, k < bs.length → walkFor s c true (va + k) ≠ .ok b) → memByte t b = memByte s b) ∧
    ∀ j pa, j < bs.length → walkFor s c true (va + j) = .ok pa →
      (∀ k, k < bs.length → k ≠ j → walkFor s c true (va + k) ≠ .ok pa) → memByte t pa = bs.getD j 0

theorem rangeStored_nil {s : State} (h : cleanMem s) (c : MemCtx) (va : Nat) : rangeStored c va [] s s :=
  ⟨h, rfl, fun _ _ => rfl, fun j _ hj => absurd hj (Nat.not_lt_zero j)⟩

theorem rangeStored_append {c : MemCtx} {va : Nat} {bs cs : List Byte} {s t u : State} (h : rangeStored c va bs s t)
    (g : rangeStored c (va + bs.length) cs t u) : rangeStored c va (bs ++ cs) s u := by
  obtain ⟨-, hwalks, hkeep, hstore⟩ := h
  obtain ⟨gclean, gwalks, gkeep, gstore⟩ := g
  simp only [walkFor_congr hwalks] at gkeep gstore
  rw [rangeStored, List.length_append]
  refine ⟨gclean, gwalks.trans hwalks, fun b hb => ?_, fun j pa hj hpa hother => ?_⟩
  · rw [gkeep b fun k hk => by rw [Nat.add_assoc]; exact hb _ (by omega)]
    exact hkeep b fun k hk => hb k (by omega)
  · by_cases hjb : j < bs.length
    · rw [gkeep pa fun k hk => by rw [Nat.add_assoc]; exact hother _ (by omega) (by omega), List.getD_append _ _ _ _ hjb]
      exact hstore j pa hjb hpa fun k hk hkj => hother k (by omega) hkj
    · have hj' : va + j = va + bs.length + (j - bs.length) := by omega
      rw [List.getD_append_right _ _ _ _ (by omega)]
      refine gstore (j - bs.length) pa (by omega) (hj' ▸ hpa) fun k hk hkj => ?_
      rw [Nat.add_assoc]
      exact hother _ (by omega) (by omega)

theorem noteUndo_result (c : MemCtx) (va pa n : Nat) (s : State) : onlyServe s (noteUndo c va pa n s) := by
  unfold noteUndo
  dsimp only
  split
  · split
    · exact onlyServe_refl s
    · exact onlyServe_modGroup _ _ _ s
  · split
    · exact onlyServe_refl s
    · exact onlyServe_modGroup _ _ _ s

theorem rangeStored_dvStorePiece {c : MemCtx} {s : State} (hclean : cleanMem s) (b : Bool) {va n pa : Nat} (bs : List Byte)
    (hn : va % 65536 + n ≤ 65536) (hlen : n ≤ bs.length) (hpa : walkFor s c true va = .ok pa) :
    rangeStored c va (bs.take n) s (dvStorePiece c ((s, b), bs) (va, n)).1.1 ∧ (dvStorePiece c ((s, b), bs) (va, n)).2 = bs.drop n := by
  have hwalk (k : Nat) (hk : k < n) : walkFor s c true (va + k) = .ok (pa + k) := by rw [walkFor_add s c true (by omega), hpa, Walk.plus]
  have hundo := noteUndo_result c va pa n s
  rw [dvStorePiece]
  dsimp only
  rw [hpa]
  refine ⟨?_, rfl⟩
  set u := noteUndo c va pa n s
  have hu : cleanMem u ∧ walksBy u = walksBy s ∧ ∀ a, memByte u a = memByte s a := by
    obtain ⟨v, hv⟩ := hundo
    rw [hv]
    exact ⟨hclean, rfl, fun _ => rfl⟩
  obtain ⟨huclean, huwalks, hubytes⟩ := hu
  obtain ⟨htclean, htwalks, hbytes⟩ := bytesWritten_storePhys huclean c pa (bs.take n)
  rw [List.length_take, Nat.min_eq_left hlen] at hbytes
  rw [rangeStored, List.length_take, Nat.min_eq_left hlen]
  refine ⟨htclean, htwalks.trans huwalks, fun a ha => ?_, fun j q hj hq _ => ?_⟩
  · rw [hbytes, hubytes, if_neg]
    rintro ⟨h1, h2⟩
    refine ha (a - pa) (by omega) ?_
    rw [hwalk _ (by omega)]
    congr 1
    omega
  · rw [hwalk j hj, Walk.ok.injEq] at hq
    rw [hbytes, ← hq, if_pos (by omega), Nat.add_sub_cancel_left]

theorem rangeStored_foldl {c : MemCtx} (fuel : Nat) {s : State} (hclean : cleanMem s) (b : Bool) (va : Nat) (bs : List Byte)
    (hn : bs.length ≤ 65536 * fuel - va % 65536) (hwalk : ∀ p ∈ pieces fuel va bs.length, ∃ pa, walkFor s c true p.1 = .ok pa) :
    rangeStored c va bs s ((pieces fuel va bs.length).foldl (dvStorePiece c) ((s, b), bs)).1.1 := by
  induction fuel generalizing s b va bs with
  | zero =>
    obtain rfl : bs = [] := List.length_eq_zero_iff.1 (by omega)
    exact rangeStored_nil hclean c va
  | succ fuel ih =>
    by_cases h0 : bs.length = 0
    · obtain rfl : bs = [] := List.length_eq_zero_iff.1 h0
      exact rangeStored_nil hclean c va
    rw [pieces_of_ne_zero fuel va h0] at hwalk ⊢
    obtain ⟨⟨pa, hpa⟩, htail⟩ := List.forall_mem_cons.1 hwalk
    set k := min bs.length (65536 - va % 65536) with hk
    obtain ⟨hpiece, hdrop⟩ := rangeStored_dvStorePiece hclean b bs (n := k) (by omega) (by omega) hpa
    have hpiece' := hpiece
    obtain ⟨hclean', hwalks', -⟩ := hpiece'
    rw [List.foldl_cons]
    set r := dvStorePiece c ((s, b), bs) (va, k)
    have hr : r = ((r.1.1, r.1.2), bs.drop k) := by rw [← hdrop]
    rw [hr]
    have hlen : (bs.drop k).length = bs.length - k := List.length_drop
    have hrest := ih hclean' r.1.2 (va + k) (bs.drop k) (by omega) (by
      rw [hlen]
      simpa only [walkFor_congr hwalks'] using htail)
    rw [hlen] at hrest
    have htake : (bs.take k).length = k := by rw [List.length_take]; omega
    have := rangeStored_append hpiece (cs := bs.drop k) (by rw [htake]; exact hrest)
    rwa [List.take_append_drop] at this

/-- A store of a range that meets no fault and no copy. -/
theorem rangeStored_dvStore {c : MemCtx} {s : State} (hclean : cleanMem s) {va : Nat} {bs : List Byte}
    (hfault : rangeFault s c true va bs.length = none) (hcopy : rangeCopies s c va bs.length = none) :
    rangeStored c va bs s (dvStore c va bs s) := by
  refine rangeStored_foldl (bs.length / 65536 + 2) hclean false va bs (by omega) fun p hp => ?_
  have hf := List.findSome?_eq_none_iff.1 hfault p hp
  have hc := List.findSome?_eq_none_iff.1 hcopy p hp
  cases hw : walkFor s c true p.1 with
  | fault k => simp [hw] at hf
  | copy q => simp [hw] at hc
  | ok pa => exact ⟨pa, rfl⟩

end Sys2Proof.Machine
end

section
/-! SUPPORT. Transfers (O20): what each row moves, and what all rows leave. -/

namespace Sys2Proof.Machine

open Sys2Proof

/-! ### The local memory of a unit -/

/-- The local memory of an engine slot, or of 64 plus a Stagehand slot. -/
def unitLm (s : State) (u : Nat) : Tab Byte := if u < 64 then (engOf s u).lm else (shOf s (u - 64)).lm

theorem unitLmRead_eq (s : State) (u a n : Nat) : unitLmRead s u a n = tabRead 0#8 (unitLm s u) a n := by
  rw [unitLmRead, unitLm]
  split <;> rfl

theorem unitLm_congr {s t : State} (heng : t.eng = s.eng) (hsh : t.sh = s.sh) (u : Nat) : unitLm t u = unitLm s u := by
  rw [unitLm, engOf, shOf, heng, hsh, unitLm, engOf, shOf]

theorem xferQueue_congr {s t : State} (heng : t.eng = s.eng) (hsh : t.sh = s.sh) (u : Nat) : xferQueue t u = xferQueue s u := by
  rw [xferQueue, engOf, shOf, heng, hsh, xferQueue, engOf, shOf]

/-- An operation that changes units alone leaves everything else. -/
def onlyUnits (s t : State) : Prop := ∃ eng sh, t = { s with eng := eng, sh := sh }

theorem onlyUnits_setEng (e : Nat) (x : Engine) (s : State) : onlyUnits s (setEng e x s) := ⟨_, s.sh, rfl⟩
theorem onlyUnits_setSh (k : Nat) (h : Stagehand) (s : State) : onlyUnits s (setSh k h s) := ⟨s.eng, _, rfl⟩

theorem unitLmWrite_result (u a : Nat) (bs : List Byte) (s : State) :
    onlyUnits s (unitLmWrite u a bs s) ∧ unitLm (unitLmWrite u a bs s) u = tabWrite 0#8 (unitLm s u) a bs ∧
      xferQueue (unitLmWrite u a bs s) u = xferQueue s u := by
  by_cases hu : u < 64
  · rw [unitLmWrite, if_pos hu]
    refine ⟨onlyUnits_setEng _ _ s, ?_, ?_⟩ <;> simp [unitLm, xferQueue, hu, modEng]
  · rw [unitLmWrite, if_neg hu]
    refine ⟨onlyUnits_setSh _ _ s, ?_, ?_⟩ <;> simp [unitLm, xferQueue, hu, modSh]

theorem unitMoved_result (u : Nat) (bs : List Byte) (s : State) :
    onlyUnits s (unitMoved u bs s) ∧ unitLm (unitMoved u bs s) u = unitLm s u ∧ xferQueue (unitMoved u bs s) u = xferQueue s u := by
  by_cases hu : u < 64
  · rw [unitMoved, if_pos hu]
    refine ⟨onlyUnits_setEng _ _ s, ?_, ?_⟩ <;> simp [unitLm, xferQueue, hu, modEng, withMoved, withFlags]
  · rw [unitMoved, if_neg hu]
    exact ⟨⟨s.eng, s.sh, rfl⟩, rfl, rfl⟩

theorem xferPop_result (u : Nat) (s : State) :
    onlyUnits s (xferPop u s) ∧ unitLm (xferPop u s) u = unitLm s u ∧ xferQueue (xferPop u s) u = (xferQueue s u).tail := by
  by_cases hu : u < 64
  · rw [xferPop, if_pos hu]
    refine ⟨onlyUnits_setEng _ _ s, ?_, ?_⟩ <;> simp [unitLm, xferQueue, hu, modEng]
  · rw [xferPop, if_neg hu]
    refine ⟨onlyUnits_setSh _ _ s, ?_, ?_⟩ <;> simp [unitLm, xferQueue, hu, modSh]

/-! ### Look-ups -/

/-- The look-ups of a row (R321). -/
def rowLookups (u part va n : Nat) (s : State) : State := (pagePieces va n).foldl (fun q p => tcLookup (xferCluster u) part p.1 q) s

theorem rowLookups_result {u : Nat} (hu : u < 36 ∨ 64 ≤ u ∧ u < 136) (part va n : Nat) (s : State) :
    lookedUp s (rowLookups u part va n s) ∧ walksBy (rowLookups u part va n s) = walksBy s := by
  have hcluster : xferCluster u < 4 := by
    rw [xferCluster]
    split <;> omega
  refine List.foldlRecOn (motive := fun t => lookedUp s t ∧ walksBy t = walksBy s) _ _ ⟨lookedUp_refl s, rfl⟩ fun t ht p _ => ?_
  obtain ⟨hlook, hwalks⟩ := ht
  exact ⟨lookedUp_trans hlook (lookedUp_tcLookup hcluster part p.1 t), (walksBy_tcLookup hcluster part p.1 t).trans hwalks⟩

/-! ### One row (R134) -/

/-- What moving data leaves: translation, Cue Lights and the unit's queue, and a memory without errors. -/
def moves (u : Nat) (s t : State) : Prop :=
  cleanMem t ∧ walksBy t = walksBy s ∧ t.cue = s.cue ∧ xferQueue t u = xferQueue s u

theorem moves_trans {u : Nat} {s t v : State} (h : moves u s t) (g : moves u t v) : moves u s v := by
  obtain ⟨-, hwalks, hcue, hq⟩ := h
  obtain ⟨gclean, gwalks, gcue, gq⟩ := g
  exact ⟨gclean, gwalks.trans hwalks, gcue.trans hcue, gq.trans hq⟩

theorem moves_of_onlyUnits {u : Nat} {s t : State} (hclean : cleanMem s) (h : onlyUnits s t) (hq : xferQueue t u = xferQueue s u) :
    moves u s t := by
  obtain ⟨eng, sh, rfl⟩ := h
  exact ⟨hclean, rfl, rfl, hq⟩

theorem moves_rowLookups {u : Nat} (hu : u < 36 ∨ 64 ≤ u ∧ u < 136) (part va n : Nat) {s : State} (hclean : cleanMem s) :
    moves u s (rowLookups u part va n s) := by
  obtain ⟨hlook, hwalks⟩ := rowLookups_result hu part va n s
  refine ⟨cleanMem_of_lookedUp hlook hclean, hwalks, ?_⟩
  obtain ⟨-, regs, tc, upper, free, ht⟩ := hlook
  rw [ht]
  exact ⟨rfl, rfl⟩

/-- Main memory but for its translation caches. -/
def sameMem (s t : State) : Prop := { t.mem with tc := s.mem.tc, upper := s.mem.upper } = s.mem

theorem memByte_of_sameMem {s t : State} (h : sameMem s t) (a : Nat) : memByte t a = memByte s a := by
  rw [memByte, memByte, ← h]

theorem sameMem_trans {s t v : State} (h : sameMem s t) (g : sameMem t v) : sameMem s v := by
  unfold sameMem at h g ⊢
  rw [← h, ← g]

theorem sameMem_of_onlyUnits {s t : State} (h : onlyUnits s t) : sameMem s t := by
  obtain ⟨eng, sh, rfl⟩ := h
  rfl

theorem sameMem_rowLookups {u : Nat} (hu : u < 36 ∨ 64 ≤ u ∧ u < 136) (part va n : Nat) (s : State) :
    sameMem s (rowLookups u part va n s) ∧ unitLm (rowLookups u part va n s) u = unitLm s u := by
  obtain ⟨⟨-, regs, tc, upper, free, ht⟩, -⟩ := rowLookups_result hu part va n s
  rw [ht]
  exact ⟨rfl, rfl⟩

section
variable {u : Nat} {c : MemCtx} {x : Xfer} {s : State} (hu : u < 36 ∨ 64 ≤ u ∧ u < 136) (hclean : cleanMem s)
include hu hclean

theorem xferRow_load (hst : x.st = false) {r : Nat × Nat} (hfault : rangeFault s c false r.1 x.len = none) :
    moves u s (xferRow u c x s r) ∧ sameMem s (xferRow u c x s r) ∧
      unitLm (xferRow u c x s r) u = tabWrite 0#8 (unitLm s u) r.2 (readBytes s c r.1 x.len) := by
  have hlook := moves_rowLookups hu c.part r.1 x.len hclean
  obtain ⟨hsame, hlm⟩ := sameMem_rowLookups hu c.part r.1 x.len s
  have ⟨hvclean, hwalks, _⟩ := hlook
  have hrow : xferRow u c x s r = (let d := dvRead c r.1 x.len (rowLookups u c.part r.1 x.len s)
      unitMoved u d.bytes (unitLmWrite u r.2 d.bytes d.st)) := by
    rw [xferRow, hst]
    rfl
  set v := rowLookups u c.part r.1 x.len s
  have hread : dvRead c r.1 x.len v = readOf v (readBytes s c r.1 x.len) := by
    have hfault' : rangeFault v c false r.1 x.len = none := by simpa only [rangeFault, walkFor_congr hwalks] using hfault
    rw [dvRead_of_clean_held hvclean hfault', readBytes_congr hwalks (congrArg Mem.bytes hsame :)]
  rw [hrow, hread]
  obtain ⟨hw, hwlm, hwq⟩ := unitLmWrite_result u r.2 (readBytes s c r.1 x.len) v
  obtain ⟨ht, htlm, htq⟩ := unitMoved_result u (readBytes s c r.1 x.len) (unitLmWrite u r.2 (readBytes s c r.1 x.len) v)
  have hmoves := moves_of_onlyUnits hvclean hw hwq
  exact ⟨moves_trans hlook (moves_trans hmoves (moves_of_onlyUnits hmoves.1 ht htq)),
    sameMem_trans hsame (sameMem_trans (sameMem_of_onlyUnits hw) (sameMem_of_onlyUnits ht)), (htlm.trans hwlm).trans (by rw [hlm])⟩

theorem xferRow_store (hst : x.st = true) {r : Nat × Nat} (hfault : rangeFault s c true r.1 x.len = none)
    (hcopy : rangeCopies s c r.1 x.len = none) :
    moves u s (xferRow u c x s r) ∧ unitLm (xferRow u c x s r) u = unitLm s u ∧
      rangeStored c r.1 (tabRead 0#8 (unitLm s u) r.2 x.len) s (xferRow u c x s r) := by
  have hlook := moves_rowLookups hu c.part r.1 x.len hclean
  obtain ⟨hsame, hlm⟩ := sameMem_rowLookups hu c.part r.1 x.len s
  have ⟨hvclean, hwalks, _⟩ := hlook
  have hrow : xferRow u c x s r = (let v := rowLookups u c.part r.1 x.len s
      unitMoved u (unitLmRead v u r.2 x.len) (dvStore c r.1 (unitLmRead v u r.2 x.len) v)) := by
    rw [xferRow, hst]
    rfl
  set v := rowLookups u c.part r.1 x.len s
  have hbytes : unitLmRead v u r.2 x.len = tabRead 0#8 (unitLm s u) r.2 x.len := by rw [unitLmRead_eq, hlm]
  rw [hrow]
  dsimp only
  rw [hbytes]
  set bs := tabRead 0#8 (unitLm s u) r.2 x.len with hbs
  have hlen : bs.length = x.len := tabRead_length ..
  have hstored : rangeStored c r.1 bs v (dvStore c r.1 bs v) := by
    refine rangeStored_dvStore hvclean ?_ ?_
    · simpa only [rangeFault, walkFor_congr hwalks, hlen] using hfault
    · simpa only [rangeCopies, walkFor_congr hwalks, hlen] using hcopy
  have hunits := unstored_dvStore c r.1 bs v
  obtain ⟨ht, htlm, htq⟩ := unitMoved_result u bs (dvStore c r.1 bs v)
  obtain ⟨hsclean, hswalks, hkeep, hstore⟩ := hstored
  have heng := eng_of_unstored hunits
  have hsh := sh_of_unstored hunits
  have hdv : moves u v (dvStore c r.1 bs v) := ⟨hsclean, hswalks, cue_of_unstored hunits, xferQueue_congr heng hsh u⟩
  have hmoves := moves_trans hlook (moves_trans hdv (moves_of_onlyUnits hsclean ht htq))
  have ⟨hclean', hwalks', _⟩ := hmoves
  refine ⟨hmoves, (htlm.trans (unitLm_congr heng hsh u)).trans hlm, hclean', hwalks', fun b hb => ?_, fun j pa hj hpa hother => ?_⟩
  · rw [memByte_of_sameMem (sameMem_of_onlyUnits ht), hkeep b (by simpa only [walkFor_congr hwalks] using hb), memByte_of_sameMem hsame]
  · rw [memByte_of_sameMem (sameMem_of_onlyUnits ht)]
    exact hstore j pa hj (by rw [walkFor_congr hwalks]; exact hpa) (by simpa only [walkFor_congr hwalks] using hother)

end

end Sys2Proof.Machine
end

section
/-! SUPPORT. Transfers (O20): all rows of a transfer, and its completion. -/

namespace Sys2Proof.Machine

open Sys2Proof

/-! ### All rows (R194, R195) -/

/-- The state after the first `n` rows of a transfer. -/
def movedRows (u : Nat) (c : MemCtx) (x : Xfer) (s : State) (n : Nat) : State :=
  (List.range n).foldl (fun q r => xferRow u c x q (x.dv + r * x.dvStride, x.lm + r * x.lmStride)) s

theorem movedRows_succ (u : Nat) (c : MemCtx) (x : Xfer) (s : State) (n : Nat) : movedRows u c x s (n + 1) =
    xferRow u c x (movedRows u c x s n) (x.dv + n * x.dvStride, x.lm + n * x.lmStride) := by
  rw [movedRows, List.range_succ, List.foldl_append]
  rfl

theorem foldl_xferDvRows (u : Nat) (c : MemCtx) (x : Xfer) (s : State) :
    (xferDvRows x).foldl (fun q r => xferRow u c x q r) s = movedRows u c x s x.rows := by
  rw [xferDvRows, List.foldl_map, movedRows]

section
variable {u : Nat} {c : MemCtx} {x : Xfer} {s : State} (hu : u < 36 ∨ 64 ≤ u ∧ u < 136) (hclean : cleanMem s)

/-- What the first rows of a load leave: their bytes in local memory, the last row that reaches an address winning, and main memory as it
was. -/
def loadedRows (u : Nat) (c : MemCtx) (x : Xfer) (s : State) (n : Nat) (t : State) : Prop :=
  moves u s t ∧ sameMem s t ∧
    (∀ a, (∀ r j, r < n → j < x.len → x.lm + r * x.lmStride + j ≠ a) → tabGet 0#8 (unitLm t u) a = tabGet 0#8 (unitLm s u) a) ∧
    ∀ r j, r < n → j < x.len →
      (∀ q k, r < q → q < n → k < x.len → x.lm + q * x.lmStride + k ≠ x.lm + r * x.lmStride + j) →
      tabGet 0#8 (unitLm t u) (x.lm + r * x.lmStride + j) = readByte s c (x.dv + r * x.dvStride + j)

include hu hclean in
theorem loadedRows_movedRows (hst : x.st = false) {n : Nat}
    (hfault : ∀ r, r < n → rangeFault s c false (x.dv + r * x.dvStride) x.len = none) :
    loadedRows u c x s n (movedRows u c x s n) := by
  induction n with
  | zero => exact ⟨⟨hclean, rfl, rfl, rfl⟩, rfl, fun _ _ => rfl, fun r _ hr => absurd hr (Nat.not_lt_zero r)⟩
  | succ n ih =>
    obtain ⟨hmoves, hsame, hkeep, hload⟩ := ih fun r hr => hfault r (by omega)
    have ⟨hqclean, hwalks, _⟩ := hmoves
    rw [movedRows_succ]
    set q := movedRows u c x s n
    have hfault' : rangeFault q c false (x.dv + n * x.dvStride) x.len = none := by
      simpa only [rangeFault, walkFor_congr hwalks] using hfault n (by omega)
    obtain ⟨hmoves', hsame', hlm⟩ := xferRow_load hu hqclean hst (r := (x.dv + n * x.dvStride, x.lm + n * x.lmStride)) hfault'
    have hbytes : q.mem.bytes = s.mem.bytes := by
      have : ({ q.mem with tc := s.mem.tc, upper := s.mem.upper } : Mem).bytes = s.mem.bytes := congrArg Mem.bytes hsame
      exact this
    have hget (a : Nat) : tabGet 0#8 (unitLm (xferRow u c x q (x.dv + n * x.dvStride, x.lm + n * x.lmStride)) u) a =
        if x.lm + n * x.lmStride ≤ a ∧ a < x.lm + n * x.lmStride + x.len then
          (readBytes s c (x.dv + n * x.dvStride) x.len).getD (a - (x.lm + n * x.lmStride)) 0 else tabGet 0#8 (unitLm q u) a := by
      rw [hlm, tabGet_write, length_readBytes, readBytes_congr hwalks hbytes]
      rfl
    refine ⟨moves_trans hmoves hmoves', sameMem_trans hsame hsame', fun a ha => ?_, fun r j hr hj hlater => ?_⟩
    · rw [hget, if_neg]
      · exact hkeep a fun r j hr hj => ha r j (by omega) hj
      · rintro ⟨h1, h2⟩
        exact ha n (a - (x.lm + n * x.lmStride)) (by omega) (by omega) (by omega)
    · rw [hget]
      by_cases hrn : r = n
      · subst hrn
        rw [if_pos (by omega), Nat.add_sub_cancel_left, getD_readBytes _ _ _ hj]
      · rw [if_neg]
        · exact hload r j (by omega) hj fun k i hk hkn hi => hlater k i hk (by omega) hi
        · rintro ⟨h1, h2⟩
          exact hlater n (x.lm + r * x.lmStride + j - (x.lm + n * x.lmStride)) (by omega) (by omega) (by omega) (by omega)

/-- What the first rows of a store leave: their bytes in main memory, and local memory as it was. -/
def storedRows (u : Nat) (c : MemCtx) (x : Xfer) (s : State) (n : Nat) (t : State) : Prop :=
  moves u s t ∧ unitLm t u = unitLm s u ∧
    (∀ b, (∀ r j, r < n → j < x.len → walkFor s c true (x.dv + r * x.dvStride + j) ≠ .ok b) → memByte t b = memByte s b) ∧
    ∀ r j pa, r < n → j < x.len → walkFor s c true (x.dv + r * x.dvStride + j) = .ok pa →
      (∀ q k, q < n → k < x.len → (q ≠ r ∨ k ≠ j) → walkFor s c true (x.dv + q * x.dvStride + k) ≠ .ok pa) →
      memByte t pa = tabGet 0#8 (unitLm s u) (x.lm + r * x.lmStride + j)

include hu hclean in
theorem storedRows_movedRows (hst : x.st = true) {n : Nat}
    (hfault : ∀ r, r < n → rangeFault s c true (x.dv + r * x.dvStride) x.len = none)
    (hcopy : ∀ r, r < n → rangeCopies s c (x.dv + r * x.dvStride) x.len = none) :
    storedRows u c x s n (movedRows u c x s n) := by
  induction n with
  | zero => exact ⟨⟨hclean, rfl, rfl, rfl⟩, rfl, fun _ _ => rfl, fun r _ _ hr => absurd hr (Nat.not_lt_zero r)⟩
  | succ n ih =>
    obtain ⟨hmoves, hlm, hkeep, hstore⟩ := ih (fun r hr => hfault r (by omega)) fun r hr => hcopy r (by omega)
    have ⟨hqclean, hwalks, _⟩ := hmoves
    rw [movedRows_succ]
    set q := movedRows u c x s n
    have hfault' : rangeFault q c true (x.dv + n * x.dvStride) x.len = none := by
      simpa only [rangeFault, walkFor_congr hwalks] using hfault n (by omega)
    have hcopy' : rangeCopies q c (x.dv + n * x.dvStride) x.len = none := by
      simpa only [rangeCopies, walkFor_congr hwalks] using hcopy n (by omega)
    obtain ⟨hmoves', hlm', -, -, hkeep', hstore'⟩ :=
      xferRow_store hu hqclean hst (r := (x.dv + n * x.dvStride, x.lm + n * x.lmStride)) hfault' hcopy'
    simp only [tabRead_length, walkFor_congr hwalks, hlm] at hkeep' hstore'
    refine ⟨moves_trans hmoves hmoves', hlm'.trans hlm, fun b hb => ?_, fun r j pa hr hj hpa hother => ?_⟩
    · rw [hkeep' b fun k hk => hb n k (by omega) hk]
      exact hkeep b fun r j hr hj => hb r j (by omega) hj
    · by_cases hrn : r = n
      · subst hrn
        rw [hstore' j pa hj hpa fun k hk hkj => hother r k (by omega) hk (.inr hkj)]
        exact getD_tabRead 0#8 _ _ hj
      · rw [hkeep' pa fun k hk => hother n k (by omega) hk (.inl (Ne.symm hrn))]
        exact hstore r j pa (by omega) hj hpa fun i k hi hk hne => hother i k (by omega) hk hne

end

/-! ### Completion (R134, R136) -/

/-- A signal changes its Cue Light, and may write a record. -/
theorem cueSigHw_frame (i n : Nat) (ctx : DWord) (o : Byte) (s : State) : ∃ regs free fifo lost, cueSigHw i n ctx o s =
    { setCue i (lightAfter (cueOf s i) n) s with regs := regs, free := free, fault := { s.fault with fifo := fifo, lost := lost } } := by
  by_cases h : 65535 < (cueOf s i).count + n
  · simp only [cueSigHw, cueAdd, cueSaturates, lightAfter, gt_iff_lt, h, decide_true, if_true]
    obtain ⟨f, l, r, hlog, -, -⟩ := logEvent_frame { evBase s 8 ((freeVal 25 s).toNat % 256) 0 with
      ctx := ctx, origin := o, addr := BitVec.ofNat 64 i } (drawn (bump 0x40040 (setCue i ⟨0xFFFF, true⟩ s)))
    exact ⟨r, _, f, l, hlog⟩
  · simp only [cueSigHw, cueAdd, cueSaturates, lightAfter, gt_iff_lt, h, decide_false, Bool.false_eq_true, if_false]
    exact ⟨_, _, _, _, rfl⟩

/-- A transfer that has moved leaves its queue, and its Cue Light is signalled. -/
def xferDone (u : Nat) (x : Xfer) (ctx : DWord) (o : Byte) (s : State) : State :=
  match x.cue with
  | some (i, n) => cueSigHw i n ctx o (xferPop u s)
  | none => xferPop u s

theorem xferDone_result {u : Nat} (x : Xfer) (ctx : DWord) (o : Byte) {s : State} (hclean : cleanMem s) :
    let t := xferDone u x ctx o s
    cleanMem t ∧ t.mem = s.mem ∧ unitLm t u = unitLm s u ∧ xferQueue t u = (xferQueue s u).tail ∧
      ∀ i, cueOf t i = match x.cue with
        | some (k, n) => if i = k then lightAfter (cueOf s i) n else cueOf s i
        | none => cueOf s i := by
  obtain ⟨⟨eng, sh, hpop⟩, hlm, hq⟩ := xferPop_result u s
  rw [xferDone]
  rcases hcue : x.cue with _ | ⟨k, n⟩
  · dsimp only
    rw [hpop] at hlm hq ⊢
    exact ⟨hclean, rfl, hlm, hq, fun _ => rfl⟩
  · dsimp only
    obtain ⟨regs, free, fifo, lost, hsig⟩ := cueSigHw_frame k n ctx o (xferPop u s)
    rw [hsig]
    rw [hpop] at hlm hq ⊢
    refine ⟨hclean, rfl, hlm, hq, fun i => ?_⟩
    have hself : cueOf (setCue k (lightAfter (cueOf s k) n) s) i = if i = k then lightAfter (cueOf s i) n else cueOf s i := by
      by_cases hi : i = k
      · rw [hi, cueOf_setCue_self, if_pos rfl]
      · rw [cueOf_setCue_of_ne _ _ hi, if_neg hi]
    exact hself

theorem execXferComplete_eq {u : Nat} {s : State} {x : Xfer} {rest : List Xfer} {c : EntryCtx}
    (hu : u < 36 ∧ (engOf s u).phase ≠ .draining ∨ 64 ≤ u ∧ u < 136) (hq : xferQueue s u = x :: rest) (hc : xferCtx s u = some c)
    (hfault : ∀ r, r < x.rows → rangeFault s { xferMem u c with held := x.held } x.st (x.dv + r * x.dvStride) x.len = none)
    (hcopy : x.st = true → ∀ r, r < x.rows → rangeCopies s { xferMem u c with held := x.held } (x.dv + r * x.dvStride) x.len = none) :
    execXferComplete u s = .next (settle (xferDone u x (ctxOf c) (xferMem u c).origin
      (movedRows u { xferMem u c with held := x.held } x s x.rows))) := by
  set m : MemCtx := { xferMem u c with held := x.held }
  have hdrains : xferDrains s u = false := by
    rcases hu with ⟨-, hphase⟩ | ⟨h64, -⟩
    · simp [xferDrains, hphase]
    · simp [xferDrains, show ¬ u < 64 by omega]
  have hnofault : xferFaultAt s m x = none := by
    rw [xferFaultAt, xferDvRows, List.findSome?_eq_none_iff]
    intro r hr
    obtain ⟨k, hk, rfl⟩ := List.mem_map.1 hr
    exact hfault k (List.mem_range.1 hk)
  have hnocopy : xferCopies s m x = false := by
    rw [xferCopies, Bool.and_eq_false_iff, or_iff_not_imp_left, Bool.not_eq_false]
    intro hst
    rw [List.any_eq_false]
    intro r hr
    obtain ⟨k, hk, rfl⟩ := List.mem_map.1 hr
    rw [hcopy hst k (List.mem_range.1 hk)]
    simp
  rw [execXferComplete, need_of_eq_true (by simp only [Bool.or_eq_true, Bool.and_eq_true, decide_eq_true_eq]; omega), hq, hc]
  dsimp only
  rw [hdrains, hnofault, hnocopy, foldl_xferDvRows]
  rfl

/-- Settles O20: a transfer moves its rows one after another, and is then done; no row changes the translation of another. -/
theorem transferDelivery : Obligations.TransferDelivery := by
  unfold Obligations.TransferDelivery
  intro u s x rest c hu hq hc hclean m hfault hcopy
  have hu' : u < 36 ∨ 64 ≤ u ∧ u < 136 := hu.imp_left And.left
  refine ⟨_, execXferComplete_eq hu hq hc hfault hcopy, ?_⟩
  have hlmByte (t : State) (a : Nat) : unitLmRead t u a 1 = [tabGet 0#8 (unitLm t u) a] := by rw [unitLmRead_eq]; rfl
  simp only [hlmByte]
  set q := movedRows u m x s x.rows
  have hmoves : moves u s q := by
    rcases hst : x.st with _ | _
    · exact (loadedRows_movedRows hu' hclean hst (by rwa [hst] at hfault)).1
    · exact (storedRows_movedRows hu' hclean hst (by rwa [hst] at hfault) (hcopy hst)).1
  obtain ⟨hqclean, -, hqcue, hqq⟩ := hmoves
  obtain ⟨htclean, hmem, hlm, hqueue, hcue⟩ := xferDone_result (u := u) x (ctxOf c) (xferMem u c).origin hqclean
  obtain ⟨-, -, -, hfw, -⟩ := htclean
  rw [settle_of_fwPoison_false hfw]
  set t := xferDone u x (ctxOf c) (xferMem u c).origin q
  have hbyte (b : Nat) : memByte t b = memByte q b := by rw [memByte, hmem, memByte]
  have hlight (i : Nat) : cueOf q i = cueOf s i := congrArg (tabGet CueLight.init · i) hqcue
  simp only [hlight] at hcue
  refine ⟨by rw [hqueue, hqq, hq, List.tail_cons], fun hst => ?_, fun hst => ?_, hcue⟩
  · obtain ⟨-, hsame, hkeep, hload⟩ := loadedRows_movedRows hu' hclean hst (by rwa [hst] at hfault)
    refine ⟨by rw [hmem]; exact hsame, fun a ha => ?_, fun r j pa hr hj hpa hlater => ?_⟩
    · rw [hlm, hkeep a ha]
    · rw [hlm, hload r j hr hj hlater, readByte_of_walk (by rwa [hst] at hpa)]
  · obtain ⟨-, hqlm, hkeep, hstore⟩ := storedRows_movedRows hu' hclean hst (by rwa [hst] at hfault) (hcopy hst)
    refine ⟨fun a => by rw [hlm, hqlm], fun b hb => ?_, fun r j pa hr hj hpa hother => ?_⟩
    · rw [hbyte]
      exact hkeep b (by rwa [hst] at hb)
    · rw [hbyte, hstore r j pa hr hj (by rwa [hst] at hpa) (by rwa [hst] at hother)]

end Sys2Proof.Machine
end

section
/-! SUPPORT. Copies of pages (O21): what a copy-on-write leaves in main memory, in the page table and in the journal. -/

namespace Sys2Proof.Machine

open Sys2Proof

/-! ### A block of a table in another place -/

section
variable {α : Type} (d : α) {unit src dst : Nat}

theorem tabGet_of_key_not_mem {t : Tab α} {a : Nat} (h : a ∉ t.map Prod.fst) : tabGet d t a = d := by
  induction t with
  | nil => rfl
  | cons e t ih =>
    rw [List.map_cons, List.mem_cons, not_or] at h
    obtain ⟨hne, htail⟩ := h
    rw [tabGet, if_neg hne, ih htail]

/-- The keys of a moved block lie in its new place. -/
theorem movedBlock_key {t : Tab α} {e : Nat × α} (h : e ∈ movedBlock t unit src dst) : unit * dst ≤ e.1 ∧ e.1 < unit * dst + unit := by
  obtain ⟨e', he', rfl⟩ := List.mem_map.1 h
  obtain ⟨-, hin⟩ := List.mem_filter.1 he'
  simp only [Bool.and_eq_true, decide_eq_true_eq] at hin
  dsimp only
  omega

/-- A table that takes a moved block of a sorted table reads as that block did, where the block has an entry. -/
theorem tabGet_foldl_movedBlock [DecidableEq α] {t : Tab α} (hsorted : tabSorted t) (r : Tab α) {k : Nat} (hk : k < unit) :
    tabGet d ((movedBlock t unit src dst).foldl (fun r e => tabSet d r e.1 e.2) r) (unit * dst + k) =
      if unit * src + k ∈ t.map Prod.fst then tabGet d t (unit * src + k) else tabGet d r (unit * dst + k) := by
  induction t generalizing r with
  | nil => rfl
  | cons e t ih =>
    obtain ⟨hhead, htail⟩ := List.pairwise_cons.1 hsorted
    by_cases hin : unit * src ≤ e.1 ∧ e.1 < unit * src + unit
    · have hblock : movedBlock (e :: t) unit src dst = (e.1 - unit * src + unit * dst, e.2) :: movedBlock t unit src dst := by
        simp [movedBlock, hin]
      rw [hblock, List.foldl_cons, ih htail]
      by_cases hkey : unit * src + k = e.1
      · have hnot : unit * src + k ∉ t.map Prod.fst := fun hmem => by
          obtain ⟨e', he', heq⟩ := List.mem_map.1 hmem
          have := hhead e' he'
          omega
        have hplace : e.1 - unit * src + unit * dst = unit * dst + k := by omega
        rw [if_neg hnot, hplace, tabGet_set_self, List.map_cons, hkey, if_pos (List.mem_cons_self ..), tabGet, if_pos rfl]
      · rw [tabGet_set_of_ne _ _ _ (by omega), tabGet, if_neg hkey]
        simp only [List.map_cons, List.mem_cons, hkey, false_or]
    · have hblock : movedBlock (e :: t) unit src dst = movedBlock t unit src dst := by
        simp only [movedBlock, List.filter_cons]
        rw [if_neg (by simpa using hin)]
      have hkey : unit * src + k ≠ e.1 := by omega
      rw [hblock, ih htail, tabGet, if_neg hkey]
      simp only [List.map_cons, List.mem_cons, hkey, false_or]

end

/-! ### A page that is copied (R326) -/

theorem memByte_copyPage {src dst : Nat} {s : State} (hwf : Memory.wf s = true) :
    (∀ k, k < 65536 → memByte (copyPage src dst s) (65536 * dst + k) = memByte s (65536 * src + k)) ∧
      ∀ b, b / 65536 ≠ dst → memByte (copyPage src dst s) b = memByte s b := by
  have hsorted : tabSorted s.mem.bytes := tabWf_sorted ((wf_iff s).1 hwf).1
  have hbytes : (copyPage src dst s).mem.bytes = (movedBlock s.mem.bytes 65536 src dst).foldl (fun t e => tabSet 0#8 t e.1 e.2)
      (tabClear s.mem.bytes (65536 * dst) 65536) := by
    rw [copyPage, markDirty_mem]
  constructor
  · intro k hk
    rw [memByte, hbytes, tabGet_foldl_movedBlock 0#8 hsorted _ hk, tabGet_clear]
    have hdst : 65536 * dst ≤ 65536 * dst + k ∧ 65536 * dst + k < 65536 * dst + 65536 := by omega
    rw [if_pos hdst]
    split
    · rfl
    · next hnot => exact (tabGet_of_key_not_mem 0#8 hnot).symm
  · intro b hb
    rw [memByte, hbytes, tabGet_foldl_set_of_forall_ne, tabGet_clear, if_neg (by omega)]
    · rfl
    · intro e he
      have := movedBlock_key he
      omega

theorem copyPage_frame (src dst : Nat) (s : State) : ∃ bytes poison flips corrupt dirty, copyPage src dst s =
    { s with
      mem := { s.mem with bytes := bytes, poison := poison, flips := flips, corrupt := corrupt }
      pair := { s.pair with dirty := dirty } } := by
  rw [copyPage, markDirty]
  split
  · exact ⟨_, _, _, _, _, rfl⟩
  · exact ⟨_, _, _, _, s.pair.dirty, rfl⟩

theorem journalOf_map {js : List Journal} {part stepId : Nat} {j : Journal} (g : Journal → Journal)
    (hg : ∀ i, (g i).part = i.part ∧ (g i).stepId = i.stepId)
    (h : js.find? (fun j => j.part = part && j.stepId = stepId) = some j) :
    (js.map fun j => if j.part = part && j.stepId = stepId then g j else j).find? (fun j => j.part = part && j.stepId = stepId) =
      some (g j) := by
  have hkey : (fun j : Journal => decide (j.part = part) && decide (j.stepId = stepId)) ∘
      (fun j => if j.part = part && j.stepId = stepId then g j else j) = fun j => decide (j.part = part) && decide (j.stepId = stepId) := by
    funext i
    simp only [Function.comp_apply]
    split
    · rw [(hg i).1, (hg i).2]
    · rfl
  rw [List.find?_map, hkey, h, Option.map_some, if_pos (List.find?_some h)]

/-- A copied page's leaf, the caches without the page, and the journal with the old leaf. -/
def remapped (c : MemCtx) (va f : Nat) (rest : List Nat) (old : DWord) (x : Frame) (s : State) : State :=
  modJournal c.part c.stepId (fun j => { j with
      frames := rest, entries := j.entries ++ [⟨va / 65536 * 65536, old, false⟩] })
    (dropCached c.part (va / 65536 * 65536) (va / 65536 * 65536 + 65536)
      (setPt c.part 3 va (ptLeaf true true false true c.part f c.stepId) (setFrame f x s)))

theorem cowCopy_eq {c : MemCtx} {va pa f : Nat} {rest : List Nat} {j : Journal} {old : DWord} {s : State} (hclean : cleanMem s)
    (hwalk : walk s c.part c.stepId true va = .copy pa) (hj : journalOf s c.part c.stepId = some j)
    (hframes : j.frames = f :: rest) (hold : leafAt s c.part va = some old) :
    ∃ x, cowCopy c va s = bump 0x70044 (remapped c va f rest old x (copyPage (leafFrame old) f s)) := by
  rw [cowCopy, hwalk, hj, hold]
  dsimp only
  rw [hframes]
  dsimp only
  rw [readGranules_of_clean hclean]
  exact ⟨_, rfl⟩

theorem remapped_frame (c : MemCtx) (va f : Nat) (rest : List Nat) (old : DWord) (x : Frame) (s : State) :
    (remapped c va f rest old x s).mem.bytes = s.mem.bytes ∧ (remapped c va f rest old x s).regs = s.regs ∧
      (remapped c va f rest old x s).fault = s.fault := by
  unfold remapped modJournal dropCached setPt setFrame
  exact ⟨rfl, rfl, rfl⟩

theorem remapped_result (c : MemCtx) (va f : Nat) (rest : List Nat) (old : DWord) (x : Frame) {j : Journal} {s : State}
    (hj : journalOf s c.part c.stepId = some j) :
    ptOf (remapped c va f rest old x s) c.part 3 va = ptLeaf true true false true c.part f c.stepId ∧
      journalOf (remapped c va f rest old x s) c.part c.stepId =
        some { j with frames := rest, entries := j.entries ++ [⟨va / 65536 * 65536, old, false⟩] } :=
  ⟨tabGet_set_self 0#64 s.mem.pt _ _, journalOf_map (fun j => { j with
    frames := rest, entries := j.entries ++ [⟨va / 65536 * 65536, old, false⟩] }) (fun _ => ⟨rfl, rfl⟩) hj⟩

section
variable (a : Nat) (s : State)

theorem fault_bump : (bump a s).fault = s.fault := rfl
theorem memByte_bump (b : Nat) : memByte (bump a s) b = memByte s b := rfl
theorem ptOf_bump (space level va : Nat) : ptOf (bump a s) space level va = ptOf s space level va := rfl
theorem journalOf_bump (part stepId : Nat) : journalOf (bump a s) part stepId = journalOf s part stepId := rfl
theorem regW_bump_self : regW (bump a s) a = regW s a + 1 := regW_setReg_self _ _ _

end

theorem cowCopy_result {c : MemCtx} {va pa f : Nat} {rest : List Nat} {j : Journal} {old : DWord} {s : State} (hclean : cleanMem s)
    (hwf : Memory.wf s = true) (hwalk : walk s c.part c.stepId true va = .copy pa) (hj : journalOf s c.part c.stepId = some j)
    (hframes : j.frames = f :: rest) (hold : leafAt s c.part va = some old) :
    let t := cowCopy c va s
    (∀ k, k < 65536 → memByte t (65536 * f + k) = memByte s (65536 * leafFrame old + k)) ∧
      (∀ b, b / 65536 ≠ f → memByte t b = memByte s b) ∧
      ptOf t c.part 3 va = ptLeaf true true false true c.part f c.stepId ∧
      journalOf t c.part c.stepId = some { j with frames := rest, entries := j.entries ++ [⟨va / 65536 * 65536, old, false⟩] } ∧
      regW t 0x70044 = regW s 0x70044 + 1 ∧ t.fault = s.fault := by
  obtain ⟨hcopied, hkept⟩ := memByte_copyPage (src := leafFrame old) (dst := f) hwf
  obtain ⟨bytes, poison, flips, corrupt, dirty, hframe⟩ := copyPage_frame (leafFrame old) f s
  obtain ⟨x, hcow⟩ := cowCopy_eq hclean hwalk hj hframes hold
  rw [hcow]
  set p := copyPage (leafFrame old) f s
  have hpj : journalOf p c.part c.stepId = some j := by rw [hframe]; exact hj
  have hregs : p.regs = s.regs := by rw [hframe]
  have hfault : p.fault = s.fault := by rw [hframe]
  obtain ⟨hbytes, hr, hf⟩ := remapped_frame c va f rest old x p
  obtain ⟨hpt, hjournal⟩ := remapped_result c va f rest old x hpj
  set u := remapped c va f rest old x p
  have hbyte (b : Nat) : memByte u b = memByte p b := congrArg (tabGet 0#8 · b) hbytes
  have hreg : regW u 0x70044 = regW s 0x70044 := congrArg (tabGet 0#32 · 0x70044) (hr.trans hregs)
  clear_value u p
  simp only [memByte_bump, ptOf_bump, journalOf_bump, regW_bump_self, fault_bump, hbyte, hreg]
  exact ⟨hcopied, hkept, hpt, hjournal, trivial, hf.trans hfault⟩

end Sys2Proof.Machine
end

section
/-! SUPPORT. Transfer faults (O21): what the rows before a fault leave of an engine, and the deferred exception that ends its entry. -/

namespace Sys2Proof.Machine

open Sys2Proof

/-! ### What the rows of an engine's transfer leave -/

/-- The counters of the translation caches' hits and misses (R321). -/
def cacheCounter (a : Nat) : Prop := 0x70080 ≤ a ∧ a < 0x700A0

/-- The rows of engine `e` have moved: its local memory and its flags, main memory and the caches' counters may have changed. -/
def engineMoves (e : Nat) (s t : State) : Prop :=
  cleanMem t ∧ walksBy t = walksBy s ∧ t.cue = s.cue ∧ t.fault = s.fault ∧ (∀ k, k ≠ e → engOf t k = engOf s k) ∧
    { engOf t e with lm := (engOf s e).lm, flags := (engOf s e).flags } = engOf s e ∧
    ∀ a, ¬ cacheCounter a → regW t a = regW s a

theorem engineMoves_refl {e : Nat} {s : State} (hclean : cleanMem s) : engineMoves e s s :=
  ⟨hclean, rfl, rfl, rfl, fun _ _ => rfl, rfl, fun _ _ => rfl⟩

theorem engineMoves_trans {e : Nat} {s t u : State} (h : engineMoves e s t) (g : engineMoves e t u) : engineMoves e s u := by
  obtain ⟨-, hwalks, hcue, hfault, hother, hself, hreg⟩ := h
  obtain ⟨gclean, gwalks, gcue, gfault, gother, gself, greg⟩ := g
  refine ⟨gclean, gwalks.trans hwalks, gcue.trans hcue, gfault.trans hfault, fun k hk => (gother k hk).trans (hother k hk), ?_,
    fun a ha => (greg a ha).trans (hreg a ha)⟩
  exact (congrArg (fun x : Engine => { x with lm := (engOf s e).lm, flags := (engOf s e).flags }) gself).trans hself

theorem engineMoves_setEng {e : Nat} {s : State} (hclean : cleanMem s) {x : Engine}
    (hx : { x with lm := (engOf s e).lm, flags := (engOf s e).flags } = engOf s e) : engineMoves e s (setEng e x s) :=
  ⟨hclean, rfl, rfl, rfl, fun _ hk => engOf_setEng_of_ne x s hk, by rw [engOf_setEng_self]; exact hx, fun _ _ => rfl⟩

theorem engineMoves_of_eng {e : Nat} {s t : State} (hclean : cleanMem t) (hwalks : walksBy t = walksBy s) (hcue : t.cue = s.cue)
    (hfault : t.fault = s.fault) (heng : t.eng = s.eng) (hreg : ∀ a, ¬ cacheCounter a → regW t a = regW s a) : engineMoves e s t := by
  have hk (k : Nat) : engOf t k = engOf s k := congrArg (tabGet Engine.init · k) heng
  exact ⟨hclean, hwalks, hcue, hfault, fun k _ => hk k, by rw [hk], hreg⟩

theorem engineMoves_tcLookup {e cluster : Nat} (h : cluster < 4) (part va : Nat) {s : State} (hclean : cleanMem s) :
    engineMoves e s (tcLookup cluster part va s) := by
  have hreg (a : Nat) (ha : cacheCounter a) : ∀ b, ¬ cacheCounter b → regW (bump a s) b = regW s b :=
    fun b hb => regW_setReg_of_ne _ _ fun heq => hb (heq ▸ ha)
  have hhit : cacheCounter (0x70080 + 8 * cluster) := ⟨by omega, by omega⟩
  have hmiss : cacheCounter (0x70084 + 8 * cluster) := ⟨by omega, by omega⟩
  have hlook := lookedUp_tcLookup h part va s
  have hregs : ∀ b, ¬ cacheCounter b → regW (tcLookup cluster part va s) b = regW s b := by
    unfold tcLookup
    extract_lets t k ways s' ok pick tc upper
    split
    · exact hreg _ hhit
    · exact hreg _ hmiss
  have hclean' := cleanMem_of_lookedUp hlook hclean
  obtain ⟨-, regs, tc, upper, free, ht⟩ := hlook
  exact engineMoves_of_eng hclean' (walksBy_tcLookup h part va s) (by rw [ht]) (by rw [ht]) (by rw [ht]) hregs

theorem engineMoves_rowLookups {e : Nat} (he : e < 36) (part va n : Nat) {s : State} (hclean : cleanMem s) :
    engineMoves e s (rowLookups e part va n s) := by
  have hcluster : xferCluster e < 4 := by
    rw [xferCluster]
    split <;> omega
  exact List.foldlRecOn (motive := engineMoves e s) _ _ (engineMoves_refl hclean) fun t ht p _ =>
    engineMoves_trans ht (engineMoves_tcLookup hcluster part p.1 ht.1)

/-! ### Stores leave registers and the fault log -/

theorem dvStorePiece_keeps {c : MemCtx} {r : (State × Bool) × List Byte} (hclean : cleanMem r.1.1) (p : Nat × Nat) :
    cleanMem (dvStorePiece c r p).1.1 ∧ (dvStorePiece c r p).1.1.regs = r.1.1.regs ∧
      (dvStorePiece c r p).1.1.fault = r.1.1.fault := by
  rw [dvStorePiece]
  split
  · next pa _ =>
    obtain ⟨v, hv⟩ := noteUndo_result c p.1 pa p.2 r.1.1
    have hu : cleanMem (noteUndo c p.1 pa p.2 r.1.1) := by rw [hv]; exact hclean
    obtain ⟨hrest, hclean', -⟩ := storesIn_storePhys (p := fun _ => True) (c := c) (pa := pa) (bs := r.2.take p.2) hu fun _ _ => trivial
    refine ⟨hclean', (congrArg State.regs hrest).trans ?_, (congrArg State.fault hrest).trans ?_⟩
    · exact (congrArg State.regs hv).trans rfl
    · exact (congrArg State.fault hv).trans rfl
  · exact ⟨hclean, rfl, rfl⟩

theorem dvStore_keeps {c : MemCtx} {s : State} (hclean : cleanMem s) (va : Nat) (bs : List Byte) :
    (dvStore c va bs s).regs = s.regs ∧ (dvStore c va bs s).fault = s.fault := by
  have hfold := List.foldlRecOn (motive := fun r : (State × Bool) × List Byte =>
    cleanMem r.1.1 ∧ r.1.1.regs = s.regs ∧ r.1.1.fault = s.fault) (pagePieces va bs.length) (dvStorePiece c)
    (b := ((s, false), bs)) ⟨hclean, rfl, rfl⟩ fun r hr p _ => by
      obtain ⟨hrclean, hregs, hfault⟩ := hr
      obtain ⟨hclean', hregs', hfault'⟩ := dvStorePiece_keeps hrclean p
      exact ⟨hclean', hregs'.trans hregs, hfault'.trans hfault⟩
  exact hfold.2

/-! ### One row, and the rows before a fault -/

theorem engineMoves_xferRow {e : Nat} (he : e < 36) {c : MemCtx} {x : Xfer} {s : State} (hclean : cleanMem s) {r : Nat × Nat}
    (hfault : rangeFault s c x.st r.1 x.len = none) (hcopy : x.st = true → rangeCopies s c r.1 x.len = none) :
    engineMoves e s (xferRow e c x s r) := by
  have hlt : e < 64 := by omega
  have hlook := engineMoves_rowLookups he c.part r.1 x.len hclean
  have ⟨hvclean, hwalks, _⟩ := hlook
  have hmoved (bs : List Byte) {t : State} (ht : cleanMem t) : engineMoves e t (unitMoved e bs t) := by
    rw [unitMoved, if_pos hlt, modEng]
    exact engineMoves_setEng ht rfl
  refine engineMoves_trans hlook ?_
  rcases hst : x.st with _ | _
  · have hrow : xferRow e c x s r = (let d := dvRead c r.1 x.len (rowLookups e c.part r.1 x.len s)
        unitMoved e d.bytes (unitLmWrite e r.2 d.bytes d.st)) := by
      rw [xferRow, hst]
      rfl
    rw [hst] at hfault
    rw [hrow]
    set v := rowLookups e c.part r.1 x.len s
    have hfault' : rangeFault v c false r.1 x.len = none := by simpa only [rangeFault, walkFor_congr hwalks] using hfault
    rw [dvRead_of_clean_held hvclean hfault']
    have hwrite : engineMoves e v (unitLmWrite e r.2 (readBytes v c r.1 x.len) v) := by
      rw [unitLmWrite, if_pos hlt, modEng]
      exact engineMoves_setEng hvclean rfl
    exact engineMoves_trans hwrite (hmoved _ hwrite.1)
  · have hrow : xferRow e c x s r = (let v := rowLookups e c.part r.1 x.len s
        unitMoved e (unitLmRead v e r.2 x.len) (dvStore c r.1 (unitLmRead v e r.2 x.len) v)) := by
      rw [xferRow, hst]
      rfl
    rw [hst] at hfault
    rw [hrow]
    set v := rowLookups e c.part r.1 x.len s
    dsimp only
    set bs := unitLmRead v e r.2 x.len
    have hlen : bs.length = x.len := (congrArg List.length (unitLmRead_eq v e r.2 x.len)).trans (tabRead_length ..)
    obtain ⟨hsclean, hswalks, -⟩ := rangeStored_dvStore (c := c) (bs := bs) (va := r.1) hvclean
      (by simpa only [rangeFault, walkFor_congr hwalks, hlen] using hfault)
      (by simpa only [rangeCopies, walkFor_congr hwalks, hlen] using hcopy hst)
    obtain ⟨hregs, hlog⟩ := dvStore_keeps (c := c) hvclean r.1 bs
    have hunits := unstored_dvStore c r.1 bs v
    have hstore : engineMoves e v (dvStore c r.1 bs v) := engineMoves_of_eng hsclean hswalks (cue_of_unstored hunits) hlog
      (eng_of_unstored hunits) fun a _ => congrArg (tabGet 0#32 · a) hregs
    exact engineMoves_trans hstore (hmoved _ hsclean)

theorem engineMoves_rows {e : Nat} (he : e < 36) {c : MemCtx} {x : Xfer} {s : State} (hclean : cleanMem s) (rows : List (Nat × Nat))
    (hfault : ∀ r ∈ rows, rangeFault s c x.st r.1 x.len = none) (hcopy : x.st = true → ∀ r ∈ rows, rangeCopies s c r.1 x.len = none) :
    engineMoves e s (rows.foldl (fun q r => xferRow e c x q r) s) := by
  refine List.foldlRecOn (motive := engineMoves e s) _ _ (engineMoves_refl hclean) fun t ht r hr => ?_
  have ⟨htclean, hwalks, _⟩ := ht
  refine engineMoves_trans ht (engineMoves_xferRow he htclean ?_ fun hst => ?_)
  · simpa only [rangeFault, walkFor_congr hwalks] using hfault r hr
  · simpa only [rangeCopies, walkFor_congr hwalks] using hcopy hst r hr

/-! ### The fault (R156, R157, R319) -/

/-- The state in which a transfer's fault is reported: the step is broken, or its requests take note of a revoked range. -/
def faultNoted (c : EntryCtx) (va sub : Nat) (s : State) : State :=
  match faultFatal sub with
  | some st => stepBroken c.part c.stepId 0xFFFF (some st) s
  | none => noteRevoked c.part c.stepId va s

theorem onlyServe_faultNoted (c : EntryCtx) (va sub : Nat) (s : State) : onlyServe s (faultNoted c va sub s) := by
  rw [faultNoted]
  split
  · exact onlyServe_stepBroken _ _ _ _ s
  · exact onlyServe_noteRevoked _ _ _ s

/-- The rows before the fault. -/
def rowsBefore (s : State) (m : MemCtx) (x : Xfer) : List (Nat × Nat) :=
  (xferDvRows x).takeWhile fun r => (rangeFault s m x.st r.1 x.len).isNone

theorem execXferFault_eq {e : Nat} {s : State} {x : Xfer} {rest : List Xfer} {c : EntryCtx} {va sub : Nat} (h : issues s e c)
    (hq : (engOf s e).xq = x :: rest) (hfault : xferFaultAt s { xferMem e c with held := x.held } x = some (va, sub))
    (hcopy : xferCopies s { xferMem e c with held := x.held } x = false) : execXferFault e s =
      let m : MemCtx := { xferMem e c with held := x.held }
      let q := faultNoted c va sub (bump 0x70040 ((rowsBefore s m x).foldl (fun q r => xferRow e m x q r) s))
      .next (settle (reportDeferred e 9 (setEng e { engOf q e with
        xq := (engOf q e).xq.tail, deferred := (engOf q e).deferred ++ [⟨false, 9, x.pc, va, 0, [sub]⟩] } q))) := by
  obtain ⟨he, hrun, hphase, -, -⟩ := h
  have hlt : e < 64 := by omega
  have hqueue : xferQueue s e = x :: rest := by rw [xferQueue, if_pos hlt, hq]
  have hctx : xferCtx s e = some c := by rw [xferCtx, if_pos hlt, hrun]
  have hdrains : xferDrains s e = false := by simp [xferDrains, hphase]
  set m : MemCtx := { xferMem e c with held := x.held }
  have hblocked : (x.st && (rowsBefore s m x).any fun r => (rangeCopies s m r.1 x.len).isSome) = false := by
    rw [xferCopies, Bool.and_eq_false_iff] at hcopy
    rw [Bool.and_eq_false_iff]
    refine hcopy.imp_right fun hany => List.any_eq_false.2 fun r hr => ?_
    exact List.any_eq_false.1 hany r ((List.takeWhile_prefix _).subset hr)
  rw [execXferFault, need_of_eq_true (by simp [he]), hqueue, hctx]
  dsimp only
  rw [rowsBefore] at hblocked
  rw [hdrains, hblocked, hfault]
  simp only [Bool.or_self, Bool.false_eq_true, if_false, if_pos hlt, modEng]
  rfl

theorem execXferFault_result {e : Nat} {s : State} {x : Xfer} {rest : List Xfer} {c : EntryCtx} {va sub : Nat} (h : issues s e c)
    (hdef : (engOf s e).deferred = []) (hq : (engOf s e).xq = x :: rest) (hclean : cleanMem s)
    (hfault : xferFaultAt s { xferMem e c with held := x.held } x = some (va, sub))
    (hcopy : xferCopies s { xferMem e c with held := x.held } x = false) :
    leadsTo (execXferFault e s) fun t =>
      (engOf t e).phase = .draining ∧ (engOf t e).xq = rest ∧ (engOf t e).deferred = [] ∧ (engOf t e).excLast = 9 ∧
      (engOf t e).pc = (engOf s e).pc ∧ regW t 0x70040 = regW s 0x70040 + 1 ∧
      regW t (0x50008 + 0x400 * e) = regW s (0x50008 + 0x400 * e) + 1 ∧ t.cue = s.cue ∧
      (∀ k, k ≠ e → engOf t k = engOf s k) ∧
      (s.fault.fifo.length < 256 → ∃ v, t.fault.fifo = s.fault.fifo ++ [v] ∧ v.cls = 0 ∧ v.cause = 9 ∧ v.pc = x.pc ∧
        v.addr = BitVec.ofNat 64 va ∧ v.detail = [sub] ∧ v.ctx = ctxOf c) := by
  refine ⟨_, execXferFault_eq h hq hfault hcopy, ?_⟩
  obtain ⟨he, hrun, hphase, hwait, -⟩ := h
  set m : MemCtx := { xferMem e c with held := x.held }
  have hrows : engineMoves e s ((rowsBefore s m x).foldl (fun q r => xferRow e m x q r) s) := by
    refine engineMoves_rows he hclean _ (fun r hr => ?_) fun hst r hr => ?_
    · simpa using List.mem_takeWhile_imp hr
    · have hmem := (List.takeWhile_prefix _).subset hr
      rw [xferCopies, hst, Bool.true_and] at hcopy
      simpa using List.any_eq_false.1 hcopy r hmem
  set q0 := (rowsBefore s m x).foldl (fun q r => xferRow e m x q r) s
  clear_value q0
  obtain ⟨hqclean, -, hqcue, hqfault, hqother, hqself, hqreg⟩ := hrows
  have hcount : regW (bump 0x70040 q0) 0x70040 = regW s 0x70040 + 1 :=
    (regW_bump_self _ _).trans (congrArg (· + 1) (hqreg _ fun hc => by obtain ⟨h1, -⟩ := hc; omega))
  have hexc : regW (bump 0x70040 q0) (0x50008 + 0x400 * e) = regW s (0x50008 + 0x400 * e) :=
    (regW_setReg_of_ne _ _ (by omega)).trans (hqreg _ fun hc => by obtain ⟨h1, -⟩ := hc; omega)
  obtain ⟨serve, hserve⟩ := onlyServe_faultNoted c va sub (bump 0x70040 q0)
  set q := faultNoted c va sub (bump 0x70040 q0)
  clear_value q
  have heng (k : Nat) : engOf q k = engOf q0 k := by rw [hserve]; rfl
  have hregs (a : Nat) : regW q a = regW (bump 0x70040 q0) a := by rw [hserve]; rfl
  have hlog : q.fault = s.fault := by rw [hserve]; exact hqfault
  have hlight : q.cue = s.cue := by rw [hserve]; exact hqcue
  rw [heng e]
  set y : Engine := { engOf q0 e with
    xq := (engOf q0 e).xq.tail, deferred := (engOf q0 e).deferred ++ [⟨false, 9, x.pc, va, 0, [sub]⟩] } with hy
  have hyrun : y.run = some c := (congrArg Engine.run hqself).trans hrun
  have hydef : y.deferred = [⟨false, 9, x.pc, va, 0, [sub]⟩] := by
    have : (engOf q0 e).deferred = [] := (congrArg Engine.deferred hqself).trans hdef
    rw [hy, this]
    rfl
  have hyxq : y.xq = rest := by
    have : (engOf q0 e).xq = x :: rest := (congrArg Engine.xq hqself).trans hq
    rw [hy, this]
    rfl
  have hissues : issues (setEng e y q) e c := by
    rw [issues, engOf_setEng_self]
    exact ⟨he, hyrun, (congrArg Engine.phase hqself).trans hphase, (congrArg Engine.wait hqself).trans hwait, by rw [hydef]; rfl⟩
  obtain ⟨hself, hother, hcue, hexc', hreg, hfw, hrecord⟩ :=
    reportDeferred_takes hissues (by rw [engOf_setEng_self]; exact hydef) (cause := 9) rfl
  have hwq : (setEng e y q).fault = s.fault := hlog
  obtain ⟨-, -, -, hsfw, -⟩ := hclean
  rw [settle_of_fwPoison_false (hfw.trans (by rw [hwq]; exact hsfw)), hself, engOf_setEng_self]
  refine ⟨rfl, hyxq, rfl, rfl, (congrArg Engine.pc hqself :), ?_, ?_, hcue.trans hlight, fun k hk => ?_, fun hlen => ?_⟩
  · rw [hreg _ (by omega) (by decide), regW_setEng, hregs, hcount]
  · rw [hexc', regW_setEng, hregs, hexc]
  · rw [hother k hk, engOf_setEng_of_ne _ _ hk, heng, hqother k hk]
  · rw [hwq] at hrecord
    exact hrecord hlen

/-- Settles O21: a fault of the oldest transfer is taken as its deferred exception; a copy maps the page's bytes in a new frame. -/
theorem transferFaultsAndCopies : Obligations.TransferFaultsAndCopies := by
  unfold Obligations.TransferFaultsAndCopies
  refine ⟨fun e s x rest c va sub h hdef hq hclean hfault hcopy => execXferFault_result h hdef hq hclean hfault hcopy, ?_⟩
  intro a va pa f rest j old s hpart hclean hwf hwalk hj hframes hold
  set c : MemCtx := { part := a.part, stepId := a.stepId.toNat, unit := 0xFFFF,
                      ctx := packCtx a.stepId.toNat a.req.toNat a.index.toNat a.le.toNat a.part, origin := a.origin, held := [] }
  obtain ⟨hcopied, hkept, hpt, hjournal, hreg, hlog⟩ := cowCopy_result (c := c) hclean hwf hwalk hj hframes hold
  obtain ⟨-, -, -, hfw, -⟩ := hclean
  refine ⟨cowCopy c va s, ?_, hcopied, hkept, hpt, hjournal, hreg⟩
  rw [exec_copyOnWrite, execCopyOnWrite, need_of_eq_true (by simp [hpart]), settle_of_fwPoison_false (by rw [hlog]; exact hfw)]

end Sys2Proof.Machine
end

section
/-! SUPPORT. Helper jobs (O23): their start, their end, and the fault that ends one with its entry. -/

namespace Sys2Proof.Machine

open Sys2Proof

/-! ### Records and Stagehands that an exception leaves -/

/-- The fault log has at most grown, and no Stagehand has changed. -/
def logGrows (s t : State) : Prop := t.sh = s.sh ∧ (s.fault.fifo.length < 256 → ∃ vs, t.fault.fifo = s.fault.fifo ++ vs)

theorem logGrows_of_eq {s t : State} (hsh : t.sh = s.sh) (hfifo : t.fault.fifo = s.fault.fifo) : logGrows s t :=
  ⟨hsh, fun _ => ⟨[], by rw [hfifo, List.append_nil]⟩⟩

theorem logGrows_logEvent (v : FaultEvent) (s : State) : logGrows s (logEvent v s) := by
  obtain ⟨f, n, r, hlog, hfifo, -⟩ := logEvent_frame v s
  rw [hlog]
  exact ⟨rfl, fun hlen => ⟨[v], hfifo hlen⟩⟩

theorem logGrows_abandonEntry (e : Nat) (ev : FaultEvent) (s : State) : logGrows s (abandonEntry e ev s) := by
  rcases hrun : (engOf s e).run with _ | c
  · have : abandonEntry e ev s = s := by
      rw [abandonEntry]
      simp only [hrun]
    rw [this]
    exact logGrows_of_eq rfl rfl
  · obtain ⟨v, r, hu⟩ := abandonedEntry_frame e c s
    rw [abandonEntry_eq ev hrun]
    generalize { ev with ctx := ctxOf c, unit := unitCode (engRef e) } = ev'
    have hgrows := logGrows_logEvent ev' (abandonedEntry e c s)
    rw [hu] at hgrows ⊢
    exact hgrows

theorem logGrows_raiseExc (e cause pc addr : Nat) (status : Status) (detail : List Nat) (s : State) :
    logGrows s (raiseExc e cause pc addr status detail s) :=
  logGrows_abandonEntry e _ (bump (0x50008 + 0x400 * e) (setEng e { engOf s e with excLast := BitVec.ofNat 8 cause } s))

theorem logGrows_takeDeferred (e : Nat) (s : State) : logGrows s (takeDeferred e s) := by
  unfold takeDeferred
  dsimp only
  split
  · exact logGrows_of_eq rfl rfl
  · exact logGrows_raiseExc e _ _ _ _ _ s

theorem logGrows_reportDeferred (e cause : Nat) (s : State) : logGrows s (reportDeferred e cause s) := by
  unfold reportDeferred
  dsimp only
  split
  · exact logGrows_of_eq rfl rfl
  · next i _ =>
    split
    · exact logGrows_takeDeferred e (setEng e _ s)
    · exact logGrows_of_eq rfl rfl

/-! ### The start of a job (R167, R168) -/

section
variable {k : Nat} {j : HelperJob} {s : State}

theorem execHelperJobStart_result (hk : k < 72) {rest : List HelperJob} (hq : (shOf s k).queue = j :: rest)
    (hphase : (shOf s k).phase = .idle) (hjob : (shOf s k).job = none) (hrole : (shOf s k).serv.role.isSome = true)
    (hreset : (shOf s k).serv.inReset = false) (htest : (shOf s k).serv.selftest = false)
    (hcluster : s.fault.clReset.contains (k / 18) = false) : leadsTo (execHelperJobStart k s) fun t =>
      shOf t k = { shOf s k with
        queue := rest, job := some j, machine := false, pc := (shOf t k).pc
        phase := if (shOf s k).serv.lastPart = some j.ctx.part then .running else .clearing
        csr := if (shOf s k).serv.lastPart = some j.ctx.part then helperCsr (shOf s k).csr else (shOf s k).csr
        serv := { (shOf s k).serv with lastPart := some j.ctx.part } } ∧
      (∀ n, n ≠ k → shOf t n = shOf s n) ∧ { t with sh := s.sh, free := s.free } = s := by
  have hidle : helperIdle (shOf s k) = true := by simp [helperIdle, hphase, hjob, hrole, hreset, htest]
  have hready : (!helperIdle (shOf s k) || s.fault.clReset.contains (k / 18)) = false := by rw [hidle, hcluster]; rfl
  set y : Stagehand := { shOf s k with
    queue := rest, job := some j, machine := false, pc := freeVal 10 s
    phase := if (shOf s k).serv.lastPart = some j.ctx.part then .running else .clearing
    csr := if (shOf s k).serv.lastPart = some j.ctx.part then helperCsr (shOf s k).csr else (shOf s k).csr
    serv := { (shOf s k).serv with lastPart := some j.ctx.part } } with hy
  have heq : execHelperJobStart k s = .next (drawn (setSh k y s)) := by
    rw [execHelperJobStart, need_of_eq_true (decide_eq_true hk)]
    dsimp only
    rw [hq]
    dsimp only
    rw [hready, if_neg Bool.false_ne_true]
  have hself : shOf (drawn (setSh k y s)) k = y := shOf_setSh_self k y s
  refine ⟨_, heq, ?_, fun n hn => shOf_setSh_of_ne y s hn, rfl⟩
  rw [hself]

/-! ### The end of a job (R165) -/

theorem jobAlive_congr {t : State} (h : engOf t j.eng = engOf s j.eng) : jobAlive t j = jobAlive s j := by
  unfold jobAlive
  rw [h]

theorem helperLess_result (j : HelperJob) (s : State) : (helperLess j s).sh = s.sh ∧ (helperLess j s).cue = s.cue ∧
    ∀ n, engOf (helperLess j s) n = if n = j.eng ∧ jobAlive s j = true then { engOf s n with helpers := (engOf s n).helpers - 1 }
      else engOf s n := by
  by_cases halive : jobAlive s j = true
  · rw [helperLess, if_pos halive, modEng]
    refine ⟨rfl, rfl, fun n => ?_⟩
    by_cases hn : n = j.eng
    · rw [hn, engOf_setEng_self, if_pos ⟨rfl, halive⟩]
    · rw [engOf_setEng_of_ne _ _ hn, if_neg fun h => hn h.1]
  · rw [helperLess, if_neg halive]
    exact ⟨rfl, rfl, fun n => (if_neg fun h => halive h.2).symm⟩

/-- The Cue Light of a job that ends is signalled. -/
def jobSignal (j : HelperJob) (s : State) : State :=
  match j.cl with
  | some i => if j.inc = 0 then s else cueSigHw i j.inc (ctxOf j.ctx) (originOf 1 false) s
  | none => s

theorem jobSignal_result (j : HelperJob) (s : State) : (jobSignal j s).sh = s.sh ∧ (jobSignal j s).eng = s.eng ∧
    ∀ i, cueOf (jobSignal j s) i = if j.cl = some i ∧ j.inc ≠ 0 then lightAfter (cueOf s i) j.inc else cueOf s i := by
  unfold jobSignal
  rcases hcl : j.cl with _ | k
  · exact ⟨rfl, rfl, fun i => (if_neg (by simp)).symm⟩
  · dsimp only
    by_cases hinc : j.inc = 0
    · rw [if_pos hinc]
      exact ⟨rfl, rfl, fun i => (if_neg (by simp [hinc])).symm⟩
    · rw [if_neg hinc]
      obtain ⟨regs, free, fifo, lost, hsig⟩ := cueSigHw_frame k j.inc (ctxOf j.ctx) (originOf 1 false) s
      rw [hsig]
      refine ⟨rfl, rfl, fun i => ?_⟩
      by_cases hi : i = k
      · subst hi
        rw [if_pos ⟨rfl, hinc⟩]
        exact cueOf_setCue_self i _ s
      · rw [if_neg (by simp [Ne.symm hi])]
        exact cueOf_setCue_of_ne _ s hi

theorem ended_of_running {h : Stagehand} (hphase : h.phase = .running) :
    h.ended = { h with phase := .idle, job := none, xq := [], wait := none, machine := true, resv := none } := by
  rw [Stagehand.ended, if_neg (by rw [hphase]; simp)]

theorem execHelperJobComplete_result (h : runsJob s k j) (hxq : (shOf s k).xq = []) : leadsTo (execHelperJobComplete k s) fun t =>
    shOf t k = { shOf s k with phase := .idle, job := none, xq := [], wait := none, machine := true, resv := none } ∧
    (∀ n, n ≠ k → shOf t n = shOf s n) ∧
    (∀ n, engOf t n = if n = j.eng ∧ jobAlive s j = true then { engOf s n with helpers := (engOf s n).helpers - 1 } else engOf s n) ∧
    (∀ i, cueOf t i = if j.cl = some i ∧ j.inc ≠ 0 then lightAfter (cueOf s i) j.inc else cueOf s i) := by
  obtain ⟨hk, hjob, hphase, hwait⟩ := h
  have heq : execHelperJobComplete k s =
      .next (helperLess j (bump (0x60004 + 0x200 * k) (jobSignal j (setSh k (shOf s k).ended s)))) := by
    rw [execHelperJobComplete, need_of_eq_true (decide_eq_true hk)]
    dsimp only
    rw [hjob]
    simp only [hphase, hwait, hxq, ne_eq, not_true_eq_false, decide_false, Option.isSome_none, List.isEmpty_nil, Bool.not_true, Bool.or_self,
      Bool.false_eq_true, if_false]
    rfl
  obtain ⟨hsh, heng, hcue⟩ := jobSignal_result j (setSh k (shOf s k).ended s)
  set u := bump (0x60004 + 0x200 * k) (jobSignal j (setSh k (shOf s k).ended s))
  obtain ⟨hlsh, hlcue, hleng⟩ := helperLess_result j u
  have hueng (n : Nat) : engOf u n = engOf s n := congrArg (tabGet Engine.init · n) heng
  have hush : u.sh = (setSh k (shOf s k).ended s).sh := hsh
  have hstage (n : Nat) : shOf (helperLess j u) n = shOf (setSh k (shOf s k).ended s) n := congrArg (tabGet Stagehand.init · n) (hlsh.trans hush)
  refine ⟨_, heq, ?_, fun n hn => ?_, fun n => ?_, fun i => ?_⟩
  · rw [hstage, shOf_setSh_self, ended_of_running hphase]
  · rw [hstage, shOf_setSh_of_ne _ _ hn]
  · rw [hleng, jobAlive_congr (hueng _), hueng]
  · exact (congrArg (tabGet CueLight.init · i) hlcue).trans (hcue i)

/-! ### The fault of a job (R171, R173) -/

/-- The state in which a HELPER record has been written: the job has ended. -/
def helperLogged (k addr : Nat) (status : Status) (detail : List Nat) (j : HelperJob) (s : State) : State :=
  let u := bump (0x60008 + 0x200 * k) (setSh k (shOf s k).ended s)
  logEvent { evBase u 1 ((freeVal 3 u).toNat % 256) 0 with
    ctx := ctxOf j.ctx, origin := originOf 1 false, unit := unitCode (shRef k), pc := (shOf s k).pc.toNat % 2 ^ 20,
    addr := BitVec.ofNat 64 addr, status := status, detail := detail } (drawn u)

/-- The deferred exception of the entry that posted the job. -/
def helperDeferred (addr : Nat) (status : Status) (detail : List Nat) (j : HelperJob) (s : State) : State :=
  modEng j.eng (fun x => { x with
    helpers := x.helpers - 1, deferred := x.deferred ++ [⟨false, 0x0A, j.pc, addr, status, detail⟩] }) s

theorem raiseHelperFault_eq (hjob : (shOf s k).job = some j) (addr : Nat) (status : Status) (detail : List Nat) :
    raiseHelperFault k addr status detail s =
      let u := helperLogged k addr status detail j s
      if jobAlive u j then reportDeferred j.eng 0x0A (helperDeferred addr status detail j u) else u := by
  rw [raiseHelperFault]
  dsimp only
  rw [hjob]
  rfl

theorem helperLogged_result (k addr : Nat) (status : Status) (detail : List Nat) (j : HelperJob) (s : State) :
    let u := helperLogged k addr status detail j s
    u.sh = (setSh k (shOf s k).ended s).sh ∧ u.eng = s.eng ∧
      (s.fault.fifo.length < 256 → ∃ v, u.fault.fifo = s.fault.fifo ++ [v] ∧ v.cls = 1 ∧ v.ctx = ctxOf j.ctx ∧ v.unit = unitCode (shRef k)) := by
  rw [helperLogged]
  dsimp only
  set u := bump (0x60008 + 0x200 * k) (setSh k (shOf s k).ended s)
  obtain ⟨f, n, r, hlog, hfifo, -⟩ := logEvent_frame { evBase u 1 ((freeVal 3 u).toNat % 256) 0 with
    ctx := ctxOf j.ctx, origin := originOf 1 false, unit := unitCode (shRef k), pc := (shOf s k).pc.toNat % 2 ^ 20,
    addr := BitVec.ofNat 64 addr, status := status, detail := detail } (drawn u)
  rw [hlog]
  exact ⟨rfl, rfl, fun hlen => ⟨_, hfifo hlen, rfl, rfl, rfl⟩⟩

/-- A Stagehand whose job meets a fault has ended it; a record is written, and the entry that posted it drains, when it still runs. -/
theorem raiseHelperFault_result (hjob : (shOf s k).job = some j) (addr : Nat) (status : Status) (detail : List Nat) :
    let t := raiseHelperFault k addr status detail s
    shOf t k = (shOf s k).ended ∧
      (s.fault.fifo.length < 255 →
        ∃ v vs, t.fault.fifo = s.fault.fifo ++ v :: vs ∧ v.cls = 1 ∧ v.ctx = ctxOf j.ctx ∧ v.unit = unitCode (shRef k)) ∧
      ∀ c, issues s j.eng c → (engOf s j.eng).deferred = [] → sameEntry c j.ctx = true →
        (engOf t j.eng).phase = .draining ∧ (engOf t j.eng).excLast = 0xA := by
  obtain ⟨hsh, heng, hfifo⟩ := helperLogged_result k addr status detail j s
  rw [raiseHelperFault_eq hjob]
  dsimp only
  set u := helperLogged k addr status detail j s
  clear_value u
  have hueng : engOf u j.eng = engOf s j.eng := congrArg (tabGet Engine.init · j.eng) heng
  set w := helperDeferred addr status detail j u with hw
  have hweng : engOf w j.eng = { engOf s j.eng with
      helpers := (engOf s j.eng).helpers - 1
      deferred := (engOf s j.eng).deferred ++ [⟨false, 0x0A, j.pc, addr, status, detail⟩] } := by
    rw [hw, helperDeferred, modEng, engOf_setEng_self, hueng]
  have hgrows : logGrows u (if jobAlive u j then reportDeferred j.eng 0x0A w else u) := by
    split
    · exact logGrows_reportDeferred j.eng 0x0A w
    · exact logGrows_of_eq rfl rfl
  obtain ⟨hgsh, hgfifo⟩ := hgrows
  refine ⟨?_, fun hlen => ?_, fun c hissues hdef hsame => ?_⟩
  · exact (congrArg (tabGet Stagehand.init · k) (hgsh.trans hsh)).trans (shOf_setSh_self k _ s)
  · obtain ⟨v, hv, hcls, hctx, hunit⟩ := hfifo (by omega)
    obtain ⟨vs, hvs⟩ := hgfifo (by rw [hv, List.length_append, List.length_singleton]; omega)
    exact ⟨v, vs, by rw [hvs, hv, List.append_assoc, List.singleton_append], hcls, hctx, hunit⟩
  · obtain ⟨he, hrun, hphase, hwait, -⟩ := hissues
    have halive : jobAlive u j = true := by
      rw [jobAlive, hueng, hrun]
      simp [hsame, hphase]
    have hwdef : (engOf w j.eng).deferred = [⟨false, 0x0A, j.pc, addr, status, detail⟩] := by rw [hweng, hdef]; rfl
    have hwissues : issues w j.eng c := by
      rw [issues, hwdef, hweng]
      exact ⟨he, hrun, hphase, hwait, rfl⟩
    obtain ⟨hself, -⟩ := reportDeferred_takes hwissues hwdef (cause := 0xA) rfl
    rw [if_pos halive, hself]
    exact ⟨rfl, rfl⟩

end

/-- Settles O23: a job starts on an idle Stagehand, signals at its end, and takes the entry that posted it along when it meets a fault. -/
theorem helperJobs : Obligations.HelperJobs := by
  unfold Obligations.HelperJobs
  intro k s hk
  refine ⟨fun j rest hq hphase hjob hrole hreset htest hcluster => ?_, fun j h hxq => execHelperJobComplete_result h hxq,
    fun j hjob hlen => ?_⟩
  · exact execHelperJobStart_result hk hq hphase hjob hrole hreset htest hcluster
  · obtain ⟨hself, hfifo, hentry⟩ := raiseHelperFault_result hjob 0 0 []
    exact ⟨_, need_of_eq_true (decide_eq_true hk) _, hself, hfifo hlen, hentry⟩

end Sys2Proof.Machine
end

section
/-! SUPPORT. Xzsh instructions (O24): a helper program's instruction that issues, on Cue Lights, the Flies and local memory. -/

namespace Sys2Proof.Machine

open Sys2Proof

/-! ### Bytes of the Flies that follow one another (R113) -/

/-- Bytes written one after another. -/
theorem foldl_zipIdx_set (base n : Nat) (bs : List Byte) (t : Tab Byte) :
    (bs.zipIdx n).foldl (fun m p => tabSet 0#8 m (base + p.2) p.1) t = tabWrite 0#8 t (base + n) bs := by
  induction bs generalizing n t with
  | nil => rfl
  | cons b bs ih => rw [List.zipIdx_cons, List.foldl_cons, ih, tabWrite, Nat.add_assoc]

/-- The keys of an aligned word follow one another. -/
theorem flKey_add {c : EntryCtx} {a i : Nat} (ha : a % 8 = 0) (hi : i < 8) : flKey c (a + i) = flKey c a + i := by
  have hflat : flFlat c (a + i) = flFlat c a := by
    have : (a + i) / 65536 = a / 65536 := by omega
    rw [flFlat, this, flFlat]
  rw [flKey, hflat, flKey]
  omega

theorem flRead_flWrite {c : EntryCtx} {a : Nat} {bs : List Byte} (s : State) (ha : a % 8 = 0) (hbs : bs.length = 8) :
    flRead (flWrite c a bs s) c a 8 = bs := by
  have hmem : (flWrite c a bs s).flies.mem = tabWrite 0#8 s.flies.mem (flKey c a) bs := by
    have hseq := foldl_zipIdx_set (flKey c a) 0 bs s.flies.mem
    rw [Nat.add_zero] at hseq
    refine (List.foldl_ext _ _ _ fun m p hp => ?_).trans hseq
    obtain ⟨-, hlt, -⟩ := List.mem_zipIdx hp
    rw [flKey_add ha (by omega)]
  have hread : flRead (flWrite c a bs s) c a 8 = tabRead 0#8 (flWrite c a bs s).flies.mem (flKey c a) 8 := by
    refine List.map_congr_left fun i hi => ?_
    rw [flKey_add ha (List.mem_range.1 hi)]
  have hback := tabRead_write 0#8 s.flies.mem (flKey c a) bs
  rw [hbs] at hback
  rw [hread, hmem, hback]

/-! ### Instructions of a helper program (R172) -/

section
variable {k : Nat} {s : State} {j : HelperJob} (h : runsJob s k j)
include h

theorem runZsh_of_runsJob (g : HelperJob → Stagehand → State) : runZsh k s g = .next (g j (shOf s k)) := by
  obtain ⟨hk, hjob, hphase, hwait⟩ := h
  rw [runZsh, need_of_eq_true (decide_eq_true hk)]
  dsimp only
  rw [hjob, hphase, hwait]
  rfl

theorem runZshCue_of_some {rs1 : BitVec 5} {i : Nat} (hi : cueIndex s j.ctx (rdX (shOf s k) rs1).toNat = some i)
    (g : HelperJob → Stagehand → Nat → State) : runZshCue k rs1 s g = .next (g j (shOf s k) i) := by
  rw [runZshCue, runZsh_of_runsJob h]
  dsimp only
  rw [hi]

/-! ### Cue Lights -/

theorem execZshCsig_result {rs1 rs2 : BitVec 5} {i : Nat} (hi : cueIndex s j.ctx (rdX (shOf s k) rs1).toNat = some i) :
    leadsTo (execZshCsig k rs1 rs2 s) fun t => shOf t k = { shOf s k with pc := (shOf s k).pc + 4 } ∧
      (∀ m, m ≠ k → shOf t m = shOf s m) ∧ t.eng = s.eng ∧
      ∀ m, cueOf t m = if m = i then lightAfter (cueOf s i) ((rdX (shOf s k) rs2).toNat % 65536) else cueOf s m := by
  have hn : fld (rdX (shOf s k) rs2) 15 0 = (rdX (shOf s k) rs2).toNat % 65536 := fld_zero_right _ _
  refine ⟨_, runZshCue_of_some h hi _, shOf_setSh_self .., ?_⟩
  rw [hn]
  obtain ⟨regs, free, fifo, lost, hsig⟩ :=
    cueSigHw_frame i ((rdX (shOf s k) rs2).toNat % 65536) (ctxOf j.ctx) (originOf 1 false) s
  rw [hsig]
  refine ⟨fun m hm => shOf_setSh_of_ne _ _ hm, rfl, fun m => ?_⟩
  by_cases hm : m = i
  · rw [hm, if_pos rfl]
    exact cueOf_setCue_self i _ s
  · rw [if_neg hm]
    exact cueOf_setCue_of_ne _ s hm

theorem execZshCset_result {rs1 rs2 : BitVec 5} {i : Nat} (hi : cueIndex s j.ctx (rdX (shOf s k) rs1).toNat = some i) :
    leadsTo (execZshCset k rs1 rs2 s) fun t => shOf t k = { shOf s k with pc := (shOf s k).pc + 4 } ∧
      (∀ m, cueOf t m = if m = i then ⟨(rdX (shOf s k) rs2).toNat % 65536, false⟩ else cueOf s m) ∧
      { t with sh := s.sh, cue := s.cue } = s := by
  have hn : fld (rdX (shOf s k) rs2) 15 0 = (rdX (shOf s k) rs2).toNat % 65536 := fld_zero_right _ _
  refine ⟨_, runZshCue_of_some h hi _, shOf_setSh_self .., fun m => ?_, rfl⟩
  rw [hn, cueOf_setSh, cueSet]
  by_cases hm : m = i
  · rw [hm, if_pos rfl, cueOf_setCue_self]
  · rw [if_neg hm, cueOf_setCue_of_ne _ _ hm]

/-- The wait of an instruction: on the Cue Light, for all of rs2, with the timeout of zshtmo (R148, R172). -/
def zshWaitOf (take : Bool) (rs2 : BitVec 5) (i : Nat) (h : Stagehand) (time : Nat) : CueWait :=
  ⟨i, (rdX h rs2).toNat, take, none, if h.zshtmo = 0 then none else some (time + h.zshtmo.toNat)⟩

omit h in
theorem waitdPending_of_sh {sh : Tab Stagehand} (hsh : ∀ n, tabGet Stagehand.init sh n = shOf s n) (i : Nat) :
    waitdPending { s with sh := sh } i = waitdPending s i := by
  have hsh' (n : Nat) : shOf { s with sh := sh } n = shOf s n := hsh n
  simp only [waitdPending, waitdPendingBut, hsh']
  rfl

theorem waitNow_of_runsJob (w : CueWait) (y : Stagehand) :
    waitNow (setSh k { shOf s k with wait := none } (setSh k y s)) w = waitNow s w := by
  obtain ⟨-, -, -, hwait⟩ := h
  have hsame : { shOf s k with wait := none } = shOf s k := by rw [← hwait]
  rw [hsame]
  have hsh (n : Nat) : shOf (setSh k (shOf s k) (setSh k y s)) n = shOf s n := by
    by_cases hn : n = k
    · rw [hn, shOf_setSh_self]
    · rw [shOf_setSh_of_ne _ _ hn, shOf_setSh_of_ne _ _ hn]
  have hpending : waitdPending (setSh k (shOf s k) (setSh k y s)) w.cl = waitdPending s w.cl := waitdPending_of_sh hsh w.cl
  rw [waitNow, hpending]
  rfl

theorem zshWait_eq (take : Bool) {rd rs1 rs2 : BitVec 5} {i : Nat} (hi : cueIndex s j.ctx (rdX (shOf s k) rs1).toNat = some i) :
    zshWait k take rd rs1 rs2 s =
      let w := zshWaitOf take rs2 i (shOf s k) s.time
      let u := setSh k { shOf s k with wait := some w, waitRd := rd.toNat } s
      .next (if waitNow s w then endShWait k 1 (takeCount w u) else u) := by
  rw [zshWait, runZshCue_of_some h hi]
  simp only [waitNow_of_runsJob h]
  rfl

theorem zshWait_ends {take : Bool} {rd rs1 rs2 : BitVec 5} {i : Nat} (hi : cueIndex s j.ctx (rdX (shOf s k) rs1).toNat = some i)
    (hmet : (rdX (shOf s k) rs2).toNat = 0 ∨ (rdX (shOf s k) rs2).toNat ≤ (cueOf s i).count ∧ waitdPending s i = false) :
    leadsTo (zshWait k take rd rs1 rs2 s) fun t =>
      shOf t k = { wrX (shOf s k) rd 1 with pc := (shOf s k).pc + 4, waitRd := rd.toNat } ∧ (∀ l, l ≠ k → shOf t l = shOf s l) ∧
      cueOf t i = { cueOf s i with count := if take then (cueOf s i).count - (rdX (shOf s k) rs2).toNat else (cueOf s i).count } ∧
      (∀ l, l ≠ i → cueOf t l = cueOf s l) ∧ { t with sh := s.sh, cue := s.cue } = s := by
  have hnow : waitNow s (zshWaitOf take rs2 i (shOf s k) s.time) = true := by
    simp only [waitNow, waitMet, Bool.or_eq_true, Bool.and_eq_true, Bool.not_eq_true', decide_eq_true_eq]
    exact hmet
  refine ⟨_, zshWait_eq h take hi, ?_⟩
  dsimp only
  rw [if_pos hnow]
  set w := zshWaitOf take rs2 i (shOf s k) s.time
  set y : Stagehand := { shOf s k with wait := some w, waitRd := rd.toNat } with hy
  have hself := cueOf_takeCount_self w (setSh k y s)
  have hother {l : Nat} (hl : l ≠ i) := cueOf_takeCount_of_ne w (setSh k y s) (show l ≠ w.cl from hl)
  obtain ⟨q, hq⟩ := takeCount_frame w (setSh k y s)
  have hsh : shOf (takeCount w (setSh k y s)) k = y := by rw [hq]; exact shOf_setSh_self k y s
  rw [endShWait, modSh, hsh]
  refine ⟨?_, fun l hl => ?_, hself, fun l hl => hother hl, ?_⟩
  · obtain ⟨-, -, -, hwait⟩ := h
    have hrd : rd.toNat = 0 ↔ rd = 0 := by rw [← BitVec.toNat_inj]; rfl
    rw [shOf_setSh_self, wrX, hy]
    by_cases h0 : rd = 0
    · rw [if_pos h0, if_pos (hrd.2 h0), ← hwait]
    · rw [if_neg h0, if_neg (mt hrd.1 h0), ← hwait]
  · rw [shOf_setSh_of_ne _ _ hl, hq]
    exact shOf_setSh_of_ne y s hl
  · rw [hq]
    rfl

theorem zshWait_waits {take : Bool} {rd rs1 rs2 : BitVec 5} {i : Nat} (hi : cueIndex s j.ctx (rdX (shOf s k) rs1).toNat = some i)
    (hlt : (cueOf s i).count < (rdX (shOf s k) rs2).toNat) : leadsTo (zshWait k take rd rs1 rs2 s)
      (shResult k { shOf s k with wait := some (zshWaitOf take rs2 i (shOf s k) s.time), waitRd := rd.toNat } s) := by
  have hnow : waitNow s (zshWaitOf take rs2 i (shOf s k) s.time) = false := by
    rw [← Bool.not_eq_true]
    simp only [waitNow, waitMet, Bool.or_eq_true, Bool.and_eq_true, decide_eq_true_eq]
    rintro (h0 | ⟨hle, -⟩)
    · have h0 : (rdX (shOf s k) rs2).toNat = 0 := h0
      omega
    · have hle : (rdX (shOf s k) rs2).toNat ≤ (cueOf s i).count := hle
      omega
  refine ⟨_, zshWait_eq h take hi, ?_⟩
  dsimp only
  rw [hnow, if_neg Bool.false_ne_true]
  exact shResult_setSh k _ s

/-! ### The Flies (R173) -/

theorem zshAtomic_result {rd rs1 : BitVec 5} {g : Stagehand → DWord → DWord} (hal : (rdX (shOf s k) rs1).toNat % 8 = 0)
    (hn : (rdX (shOf s k) rs1).toNat + 8 ≤ flSize j.ctx) (htest : flUnderTest s j.ctx (rdX (shOf s k) rs1).toNat 8 = false) :
    let a := (rdX (shOf s k) rs1).toNat
    let old : DWord := BitVec.ofNat 64 (leNat (flRead s j.ctx a 8))
    leadsTo (zshAtomic k rd rs1 s g) fun t =>
      shOf t k = { wrX (shOf s k) rd old with pc := (shOf s k).pc + 4 } ∧ (∀ m, m ≠ k → shOf t m = shOf s m) ∧
      flRead t j.ctx a 8 = leBytes 8 (g (shOf s k) old).toNat ∧
      (∀ b, (∀ i, i < 8 → b ≠ flKey j.ctx (a + i)) → tabGet 0#8 t.flies.mem b = tabGet 0#8 s.flies.mem b) ∧
      t.mem = s.mem ∧ t.cue = s.cue := by
  intro a old
  have heq : zshAtomic k rd rs1 s g = .next (setSh k (shNext (wrX (shOf s k) rd old))
      (flWrite j.ctx a (leBytes 8 (g (shOf s k) old).toNat) (flEcc j.ctx a 8 s))) := by
    have hbad : (decide (a % 8 ≠ 0) || decide (flSize j.ctx < a + 8)) = false := by simp [hal, hn, a]
    rw [zshAtomic, runZsh_of_runsJob h]
    dsimp only
    rw [if_neg (by rw [hbad]; exact Bool.false_ne_true), htest, if_neg Bool.false_ne_true]
  have hpc (v : DWord) : (wrX (shOf s k) rd v).pc = (shOf s k).pc := by rw [wrX]; split <;> rfl
  obtain ⟨hmem, regs, flies, free, fault, serve, hmet⟩ := wordsMet_flEcc j.ctx a 8 s
  have hlen : (leBytes 8 (g (shOf s k) old).toNat).length = 8 := length_leBytes 8 _
  refine ⟨_, heq, ?_, fun m hm => ?_, flRead_flWrite _ hal hlen, fun b hb => ?_, ?_, ?_⟩
  · rw [shOf_setSh_self, shNext, hpc]
  · rw [shOf_setSh_of_ne _ _ hm, hmet]
    rfl
  · exact (tabGet_flWrite_of_ne j.ctx a _ _ (by rw [hlen]; exact hb)).trans (by rw [hmem])
  · exact (congrArg State.mem hmet).trans rfl
  · exact (congrArg State.cue hmet).trans rfl

/-! ### zsh.ctx and zsh.xfer (R172) -/

omit h in
theorem wrX_pc (y : Stagehand) (rd : BitVec 5) (v : DWord) : (wrX y rd v).pc = y.pc := by
  rw [wrX]
  split <;> rfl

theorem execZshCtx_result (rd : BitVec 5) : leadsTo (execZshCtx k rd s)
    (shResult k { wrX (shOf s k) rd (ctxOf j.ctx) with pc := (shOf s k).pc + 4 } s) := by
  refine ⟨_, runZsh_of_runsJob h _, ?_⟩
  rw [shNext, wrX_pc]
  exact shResult_setSh k _ s

omit h in
/-- A fault ends the job. -/
theorem raiseHelperFault_idle {i : HelperJob} (hjob : (shOf s k).job = some i) (addr : Nat) (status : Status) (detail : List Nat) :
    (shOf (raiseHelperFault k addr status detail s) k).job = none ∧
    (shOf (raiseHelperFault k addr status detail s) k).phase = .idle := by
  obtain ⟨hself, -⟩ := raiseHelperFault_result hjob addr status detail
  rw [hself]
  exact ⟨rfl, rfl⟩

/-- The conditions of R196 and R173 on a transfer of a Stagehand, with the place of its descriptor. -/
def zshXferLegal (s : State) (j : HelperJob) (win : Nat) (x : Xfer) (v : DWord) : Prop :=
  win + 32 ≤ 0x80000 ∧ 0 < x.len ∧ x.len % 64 = 0 ∧ x.dv % 64 = 0 ∧ x.lm % 64 = 0 ∧
    x.lm + x.len ≤ 0x80000 ∧ (zshInc v = 0 ∨ (cueIndex s j.ctx (zshIndex v)).isSome = true)

omit h in
theorem zshXferLegal_iff (win : Nat) (x : Xfer) (v : DWord) :
    zshXferLegal s j win x v ↔ (decide (win + 32 > 0x80000) || !zshXferOk s j x v) = false := by
  rw [zshXferLegal, zshXferOk]
  simp only [Bool.or_eq_false_iff, decide_eq_false_iff_not, Bool.not_eq_false', Bool.and_eq_true, Bool.or_eq_true,
    decide_eq_true_eq, ne_eq, decide_not, Bool.not_eq_true', Nat.pos_iff_ne_zero, gt_iff_lt, not_lt, and_assoc]

theorem execZshXfer_result (rs1 rs2 : BitVec 5) :
    let y := shOf s k
    let win := (rdX y rs1).toNat
    let x := zshXferOf s j y (tabRead 0#8 y.lm win 32) (rdX y rs2)
    (zshXferLegal s j win x (rdX y rs2) ∧ y.xq.length < 16 →
      leadsTo (execZshXfer k rs1 rs2 s) (shResult k { y with xq := y.xq ++ [x], pc := y.pc + 4 } s)) ∧
    (zshXferLegal s j win x (rdX y rs2) ∧ 16 ≤ y.xq.length → execZshXfer k rs1 rs2 s = .next s) ∧
    (¬ zshXferLegal s j win x (rdX y rs2) →
      leadsTo (execZshXfer k rs1 rs2 s) fun t => (shOf t k).job = none ∧ (shOf t k).phase = .idle) := by
  intro y win x
  rw [zshXferLegal_iff, execZshXfer, runZsh_of_runsJob h]
  dsimp only
  refine ⟨fun ⟨hlegal, hroom⟩ => ⟨_, rfl, ?_⟩, fun ⟨hlegal, hfull⟩ => ?_, fun hbad => ⟨_, rfl, ?_⟩⟩
  · rw [if_neg (by rw [hlegal]; exact Bool.false_ne_true), if_neg (Nat.not_le.2 hroom)]
    exact shResult_setSh k _ s
  · rw [if_neg (by rw [hlegal]; exact Bool.false_ne_true), if_pos hfull]
  · rw [Bool.not_eq_false] at hbad
    obtain ⟨-, hjob, -, -⟩ := h
    rw [if_pos hbad]
    exact raiseHelperFault_idle hjob ..

end

/-- Settles O24: an instruction of a helper program is its own function on the Stagehand (`runZsh_of_runsJob`); the Cue Light, the
flat or the transfer's descriptor then gives the result. -/
theorem xzshResults : Obligations.XzshResults := by
  unfold Obligations.XzshResults
  intro k rd rs1 rs2 s j h y win n next
  refine ⟨fun i hi => ⟨?_, ⟨fun hmet => ?_, fun hlt => ?_⟩, ⟨fun hmet => ?_, fun hlt => ?_⟩, ?_⟩, ⟨?_, ?_⟩, ?_, ?_⟩ <;>
    dsimp only [exec]
  · exact execZshCsig_result h hi
  · exact zshWait_ends h hi hmet
  · exact zshWait_waits h hi hlt
  · exact zshWait_ends h hi hmet
  · exact zshWait_waits h hi hlt
  · exact execZshCset_result h hi
  · exact fun ⟨hal, hn, htest⟩ => zshAtomic_result h hal hn htest
  · exact fun ⟨hal, hn, htest⟩ => zshAtomic_result h hal hn htest
  · exact execZshCtx_result h rd
  · exact execZshXfer_result h rs1 rs2

end Sys2Proof.Machine
end

section
/-! SUPPORT. Xzsh instructions on vector registers (O25): what a register of a helper program holds after a write, and the NaN of R273. -/

namespace Sys2Proof.Machine

open Sys2Proof

/-! ### Vector registers of a Stagehand -/

theorem rdVb_wrVb_of_ne {m r : Nat} (y : Stagehand) (bs : List Byte) (hm : m ≠ r) : rdVb (wrVb y r bs) m = rdVb y m := by
  refine tabRead_write_disjoint _ _ _ _ _ _ ?_
  rw [List.length_take]
  omega

theorem wrVb_pc (y : Stagehand) (r : Nat) (bs : List Byte) : (wrVb y r bs).pc = y.pc := rfl

theorem wrVw_pc (y : Stagehand) (r : Nat) (ws : List Word) : (wrVw y r ws).pc = y.pc := rfl

/-! ### The lanes of the two registers of a block (R277) -/

theorem take_map_range_32 (up : Nat → Word) : ((List.range 32).map up).take 16 = (List.range 16).map up := by
  rw [← List.map_take, List.take_range]
  rfl

theorem drop_map_range_32 (up : Nat → Word) :
    ((List.range 32).map up).drop 16 = (List.range 16).map fun i => up (16 + i) := by
  have hsplit : List.range 32 = List.range 16 ++ (List.range 16).map (16 + ·) := List.range_add (n := 16) (m := 16)
  rw [hsplit, List.map_append, List.drop_left' (by rw [List.length_map, List.length_range]), List.map_map]
  rfl

/-! ### The flag of the engine whose entry posted the job (R273) -/

/-- A helper program's result: its Stagehand stands at the next instruction, and the engine whose entry posted the job, when it still runs
it, has NAN where a NaN was met. -/
def helperBecomes (k : Nat) (j : HelperJob) (s : State) (y : Stagehand) (nan : Bool) (t : State) : Prop :=
  shOf t k = { y with pc := (shOf s k).pc + 4 } ∧ (∀ n, n ≠ k → shOf t n = shOf s n) ∧ { t with sh := s.sh, eng := s.eng } = s ∧
  ∀ e, engOf t e = if e = j.eng ∧ (engOf s e).run = some j.ctx then { engOf s e with flags := flagsWith s e false nan }
    else engOf s e

theorem helperNan_result {k : Nat} {s : State} {j : HelperJob} (h : runsJob s k j) (y : Stagehand) (nan : Bool)
    (hpc : y.pc = (shOf s k).pc) : helperBecomes k j s y nan (helperNan (shOf s k) nan (setSh k (shNext y) s)) := by
  obtain ⟨-, hjob, -, -⟩ := h
  have hstands : shNext y = { y with pc := (shOf s k).pc + 4 } := by rw [shNext, hpc]
  rw [helperNan, hjob, hstands]
  dsimp only
  rw [engOf_setSh]
  by_cases hrun : (engOf s j.eng).run = some j.ctx
  · rw [if_pos hrun, modEng, engOf_setSh]
    refine ⟨shOf_setSh_self k _ s, fun n hn => shOf_setSh_of_ne _ s hn, rfl, fun e => ?_⟩
    by_cases he : e = j.eng
    · rw [he, if_pos ⟨rfl, hrun⟩, engOf_setEng_self]
      rfl
    · rw [if_neg (mt And.left he), engOf_setEng_of_ne _ _ he, engOf_setSh]
  · rw [if_neg hrun]
    refine ⟨shOf_setSh_self k _ s, fun n hn => shOf_setSh_of_ne _ s hn, rfl, fun e => ?_⟩
    have hnone : ¬ (e = j.eng ∧ (engOf s e).run = some j.ctx) := fun ⟨he, hrun'⟩ => hrun (he ▸ hrun')
    rw [if_neg hnone, engOf_setSh]

/-! ### The instructions (R172) -/

section
variable {k : Nat} {s : State} {j : HelperJob} (h : runsJob s k j) (vd vs2 vs1 : BitVec 5)
include h

theorem execZshMxpack_result (hf : fmtMx (leAt (rdVb (shOf s k) vs1.toNat) 0 1 % 16) = true) :
    let y := shOf s k
    let f := leAt (rdVb y vs1.toNat) 0 1 % 16
    let r := mxPack f (fun _ => .nearest) ((rdVw y vs2.toNat ++ rdVw y ((vs2.toNat + 1) % 32)).map dec32)
    leadsTo (execZshMxpack k vd vs2 vs1 s) fun t =>
      helperBecomes k j s (wrVb y vd.toNat (mxBlockBytes f r.1 r.2.1)) r.2.2 t ∧
      ∀ m, m ≠ vd.toNat → rdVb (shOf t k) m = rdVb y m := by
  intro y f r
  have hgives := helperNan_result h (wrVb y vd.toNat (mxBlockBytes f r.1 r.2.1)) r.2.2 (wrVb_pc ..)
  refine ⟨_, ?_, hgives, fun m hm => ?_⟩
  · rw [execZshMxpack, runZsh_of_runsJob h]
    dsimp only
    rw [hf, Bool.not_true, if_neg Bool.false_ne_true]
  · rw [hgives.1]
    exact rdVb_wrVb_of_ne y _ hm

theorem execZshMxunpack_result (hf : fmtMx (leAt (rdVb (shOf s k) vs1.toNat) 0 1 % 16) = true) :
    let y := shOf s k
    let f := leAt (rdVb y vs1.toNat) 0 1 % 16
    let b := rdVb y vs2.toNat
    let scale := (b.getD (Config.zshPlace (16 + f) % 64) 0).toNat
    let up (i : Nat) : Word := BitVec.ofNat 32 (convertUp f (streamElem b (fmtWidth f) i) scale)
    leadsTo (execZshMxunpack k vd vs2 vs1 s) (helperBecomes k j s
      (wrVw (wrVw y vd.toNat ((List.range 16).map up)) ((vd.toNat + 1) % 32) ((List.range 16).map fun i => up (16 + i)))
      ((List.range 32).any fun i => isNan32 (up i))) := by
  intro y f b scale up
  have hany : anyNan ((List.range 32).map up) = (List.range 32).any fun i => isNan32 (up i) := List.any_map
  refine ⟨_, ?_, helperNan_result h _ _ (by rw [wrVw_pc, wrVw_pc])⟩
  rw [execZshMxunpack, runZsh_of_runsJob h]
  dsimp only
  rw [hf, Bool.not_true, if_neg Bool.false_ne_true, ← take_map_range_32, ← drop_map_range_32, ← hany]

/-- A format code that is no MX format ends the job (R171, R271). -/
theorem mxFormat_faults {x : Instr} (hf : fmtMx (leAt (rdVb (shOf s k) vs1.toNat) 0 1 % 16) = false)
    (hx : x = .zshMxpack k vd vs2 vs1 ∨ x = .zshMxunpack k vd vs2 vs1) :
    leadsTo (exec x s) fun t => (shOf t k).job = none ∧ (shOf t k).phase = .idle := by
  have ⟨_, hjob, _, _⟩ := h
  refine ⟨raiseHelperFault k 0 0 [] s, ?_, raiseHelperFault_idle hjob ..⟩
  obtain rfl | rfl := hx <;> dsimp only [exec]
  · rw [execZshMxpack, runZsh_of_runsJob h]
    dsimp only
    rw [hf, Bool.not_false, if_pos rfl]
  · rw [execZshMxunpack, runZsh_of_runsJob h]
    dsimp only
    rw [hf, Bool.not_false, if_pos rfl]

theorem execZshPhilox_result :
    let y := shOf s k
    leadsTo (execZshPhilox k vd vs2 vs1 s) fun t =>
      shResult k { wrVw y vd.toNat ((List.range 4).flatMap fun g => philoxGroup (rdVw y vs2.toNat) (rdVw y vs1.toNat) g)
        with pc := y.pc + 4 } s t ∧
      ∀ m, m ≠ vd.toNat → rdVb (shOf t k) m = rdVb y m := by
  intro y
  refine ⟨_, runZsh_of_runsJob h _, shResult_setSh .., fun m hm => ?_⟩
  rw [shOf_setSh_self]
  exact rdVb_wrVb_of_ne y _ hm

end

/-- Settles O25: each instruction writes its registers of the Stagehand, and only the flag of R273 lies outside it. -/
theorem xzshVectorResults : Obligations.XzshVectorResults := by
  unfold Obligations.XzshVectorResults
  intro k vd vs2 vs1 s j h y f next becomes
  refine ⟨fun hf => ⟨?_, ?_⟩, fun hf x hx => mxFormat_faults h vd vs2 vs1 hf hx, ?_⟩ <;> dsimp only [exec]
  · exact execZshMxpack_result h vd vs2 vs1 hf
  · exact execZshMxunpack_result h vd vs2 vs1 hf
  · exact execZshPhilox_result h vd vs2 vs1

end Sys2Proof.Machine
end

section
/-! SUPPORT. Instructions of RV64GC on a Stagehand (O26): the fields of an encoded word, what each opcode does, and the step. -/

namespace Sys2Proof.Machine

open Sys2Proof

/-! ### Fields of the I, S and R formats -/

theorem fld_ofNat_32 (x hi lo : Nat) : fld (BitVec.ofNat 32 x) hi lo = x % 2 ^ 32 / 2 ^ lo % 2 ^ (hi + 1 - lo) := by
  rw [fld_eq_div_mod, BitVec.toNat_ofNat]

/-- A word with these fields of the I format. -/
structure HasI (w : Word) (op f3 rd rs1 imm : Nat) : Prop where
  op : fld w 6 0 = op
  rd : fld w 11 7 = rd
  f3 : fld w 14 12 = f3
  rs1 : fld w 19 15 = rs1
  imm : fld w 31 20 = imm

/-- A word with these fields of the S format. -/
structure HasS (w : Word) (op f3 rs1 rs2 imm : Nat) : Prop where
  op : fld w 6 0 = op
  f3 : fld w 14 12 = f3
  rs1 : fld w 19 15 = rs1
  rs2 : fld w 24 20 = rs2
  imm : fld w 31 25 * 32 + fld w 11 7 = imm

/-- A word with these fields of the R format. -/
structure HasR (w : Word) (op f3 f7 rd rs1 rs2 : Nat) : Prop where
  op : fld w 6 0 = op
  rd : fld w 11 7 = rd
  f3 : fld w 14 12 = f3
  rs1 : fld w 19 15 = rs1
  rs2 : fld w 24 20 = rs2
  f7 : fld w 31 25 = f7

section
variable {op f3 f7 rd rs1 rs2 n : Nat} (hop : op < 128) (hf3 : f3 < 8)
include hop hf3

theorem hasI_encI (hrd : rd < 32) (hrs1 : rs1 < 32) (hn : n < 4096) : HasI (encI op f3 rd rs1 n) op f3 rd rs1 n := by
  constructor <;> rw [encI, fld_ofNat_32] <;> omega

theorem hasR_encR (hf7 : f7 < 128) (hrd : rd < 32) (hrs1 : rs1 < 32) (hrs2 : rs2 < 32) :
    HasR (encR op f3 f7 rd rs1 rs2) op f3 f7 rd rs1 rs2 := by
  constructor <;> rw [encR, fld_ofNat_32] <;> omega

omit hop hf3 in
/-- The S format is the R format whose rd and funct7 hold the immediate. -/
theorem encS_eq_encR (hn : n < 4096) : encS op f3 rs1 rs2 n = encR op f3 (n / 32) (n % 32) rs1 rs2 := by
  have hlow : nfld n 4 0 = n % 32 := rfl
  have hhigh : nfld n 11 5 = n / 32 := by rw [nfld, Nat.shiftRight_eq_div_pow]; omega
  rw [encS, hlow, hhigh, encR]

theorem hasS_encS (hrs1 : rs1 < 32) (hrs2 : rs2 < 32) (hn : n < 4096) : HasS (encS op f3 rs1 rs2 n) op f3 rs1 rs2 n := by
  obtain ⟨hop, hrd, hf3, hrs1, hrs2, hf7⟩ :=
    hasR_encR hop hf3 (show n / 32 < 128 by omega) (show n % 32 < 32 by omega) hrs1 hrs2
  rw [encS_eq_encR hn]
  exact ⟨hop, hf3, hrs1, hrs2, by omega⟩

end

/-- Bits of the highest field of the R format. -/
theorem fld_of_f7 {w : Word} {f7 : Nat} (h : fld w 31 25 = f7) :
    fld w 31 27 = f7 / 4 ∧ fld w 26 25 = f7 % 4 ∧ (bitAt w 30 = true ↔ f7 / 32 % 2 = 1) := by
  rw [← fld_bit_eq_one_iff]
  simp only [fld_eq_div_mod] at h ⊢
  have := w.isLt
  omega

/-! ### What an opcode does -/

section
variable {y : Stagehand} {w : Word} {rd rs1 rs2 n : Nat}

/-- An integer result: it stands in rd, and the program goes on. -/
def rvGives (y : Stagehand) (rd : Nat) (v : DWord) : RvRes := .ok { rvSetX y rd v with pc := y.pc + 4 }

theorem rvExec_opImm {f3 : Nat} (hw : HasI w 0x13 f3 rd rs1 n) (h1 : f3 ≠ 1) (h5 : f3 ≠ 5) :
    rvExec y w 4 = rvGives y rd (rvAlu f3 false (rvX y rs1) (sx 12 n)) := by
  obtain ⟨hop, hrd, hf3, hrs1, himm⟩ := hw
  have hok : rvOpOk w = true := by simp [rvOpOk, hop, hf3, h1, h5]
  simp [rvExec, hop, hok, hf3, hrd, hrs1, h1, h5, immI, himm, rvGives]

theorem rvExec_op {f3 f7 : Nat} (hw : HasR w 0x33 f3 f7 rd rs1 rs2) (h : f7 = 0 ∨ f7 = 1 ∨ f7 = 0x20 ∧ f3 = 0) :
    rvExec y w 4 = rvGives y rd
      (if f7 = 1 then rvMul f3 (rvX y rs1) (rvX y rs2) else rvAlu f3 (decide (f7 = 0x20)) (rvX y rs1) (rvX y rs2)) := by
  obtain ⟨hop, hrd, hf3, hrs1, hrs2, hf7⟩ := hw
  obtain ⟨-, -, halt⟩ := fld_of_f7 hf7
  have hok : rvOpOk w = true := by
    simp only [rvOpOk, hop, hf3, hf7, Bool.or_eq_true, Bool.and_eq_true, decide_eq_true_eq]
    omega
  have halt : bitAt w 30 = decide (f7 = 0x20) := by
    rw [Bool.eq_iff_iff, halt, decide_eq_true_eq]
    omega
  simp only [rvExec, hop, hok, hf3, hf7, hrd, hrs1, hrs2, halt, if_true, rvGives]
  rfl

theorem rvExec_load (hw : HasI w 0x03 3 rd rs1 n) :
    rvExec y w 4 = rvLoadTo y w (rvX y rs1 + sx 12 n) (y.pc + 4) 8 fun v => rvSetX y rd (BitVec.ofNat 64 v) := by
  obtain ⟨hop, hrd, hf3, hrs1, himm⟩ := hw
  have hall (v : Nat) : sx (8 * 2 ^ (3 % 4)) v = BitVec.ofNat 64 v := BitVec.signExtend_eq _
  simp only [rvExec, hop, hf3, hrd, hrs1, immI, himm, hall]
  rfl

theorem rvExec_store (hw : HasS w 0x23 3 rs1 rs2 n) :
    rvExec y w 4 = rvStoreTo y (rvX y rs1 + sx 12 n) (y.pc + 4) 8 (rvX y rs2) := by
  obtain ⟨hop, hf3, hrs1, hrs2, himm⟩ := hw
  simp [rvExec, hop, hf3, hrs1, hrs2, immS, himm]

theorem rvExec_amo (hop : fld w 6 0 = 0x2F) : rvExec y w 4 = rvAmo y w (y.pc + 4) := by
  simp [rvExec, hop]

theorem rvExec_system (hop : fld w 6 0 = 0x73) : rvExec y w 4 = rvSystem y w := by
  simp [rvExec, hop]

theorem rvExec_fp (hop : fld w 6 0 = 0x53) (hon : rvFsOn y = true) {z : Stagehand} (hz : rvFpOp y w = some z) :
    rvExec y w 4 = .ok { rvDrawn z with pc := y.pc + 4 } := by
  simp [rvExec, hop, hon, hz]

end

/-! ### Registers and local memory of a Stagehand -/

theorem rdX_wrX (y : Stagehand) (r q : BitVec 5) (v : DWord) : rdX (wrX y r v) q = if q = r ∧ q ≠ 0 then v else rdX y q := by
  by_cases hr : r = 0
  · rw [wrX, if_pos hr, if_neg (fun ⟨h, h0⟩ => h0 (h.trans hr))]
  · rw [wrX, if_neg hr, rdX, rdX, tabGet_set]
    have heq : q.toNat = r.toNat ↔ q = r := BitVec.toNat_inj
    by_cases hq : q = 0
    · rw [if_pos hq, if_neg (fun h => h.2 hq), if_pos hq]
    · rw [if_neg hq, if_neg hq]
      by_cases h : q = r
      · rw [if_pos (heq.2 h), if_pos ⟨h, hq⟩]
      · rw [if_neg (mt heq.1 h), if_neg (mt And.left h)]

theorem wrX_lm (y : Stagehand) (r : BitVec 5) (v : DWord) : (wrX y r v).lm = y.lm := by
  rw [wrX]
  split <;> rfl

theorem rvRaw_rvPut (y : Stagehand) (a b : Nat) (v : DWord) : rvRaw (rvPut y a v) b = if b = a then v else rvRaw y b :=
  tabGet_set ..

theorem rvF_rvFlags (y : Stagehand) (fl q : Nat) : rvF (rvFlags y fl) q = rvF y q := by
  rw [rvFlags]
  split <;> rfl

theorem rvFlags_lm (y : Stagehand) (fl : Nat) : (rvFlags y fl).lm = y.lm := by
  rw [rvFlags]
  split <;> rfl

/-- The exceptions that are raised accumulate in fcsr. -/
theorem rvRaw_rvFlags (y : Stagehand) (fl : Nat) : rvRaw (rvFlags y fl) 3 = rvRaw y 3 ||| BitVec.ofNat 64 (fl % 32) := by
  rw [rvFlags]
  by_cases h0 : fl = 0
  · rw [if_pos h0, h0]
    exact BitVec.or_zero.symm
  · rw [if_neg h0, rvFsDirty, rvRaw_rvPut, if_neg (by omega), rvRaw_rvPut, if_pos rfl]

/-- A double-precision sum, at the rounding mode nearest even. -/
theorem rvFpOp_add {y : Stagehand} {w : Word} {rd rs1 rs2 : Nat} (hw : HasR w 0x53 0 1 rd rs1 rs2) :
    rvFpOp y w = some (rvFpTo y 64 rd (fpAdd 64 0 (fpIsSnan 64 (rvF y rs1).toNat || fpIsSnan 64 (rvF y rs2).toNat)
      (fpVal 64 (rvF y rs1).toNat) (fpVal 64 (rvF y rs2).toNat))) := by
  obtain ⟨-, hrd, hf3, hrs1, hrs2, hf7⟩ := hw
  obtain ⟨hf5, hfmt, -⟩ := fld_of_f7 hf7
  have hrm : rvRm y w = some 0 := by simp [rvRm, hf3]
  simp only [rvFpOp, hrm, hf5, hfmt, hrd, hf3, hrs1, hrs2, rvFmt]
  rfl

/-- A data access that is aligned and allowed meets no trap. -/
theorem rvDataFault_eq_none {y : Stagehand} {store : Bool} {a : DWord} {n : Nat} (hal : a.toNat % n = 0)
    (hok : pmpAllows y (rvDataMachine y) (b2n store) a.toNat n = true) : rvDataFault y store a n = none := by
  rw [rvDataFault, if_neg (not_not.2 hal), hok, Bool.not_true, if_neg Bool.false_ne_true]

/-- A store-conditional without a reservation fails: rd holds 1, and nothing is stored. -/
theorem rvAmo_sc {y : Stagehand} {w : Word} {rd rs1 rs2 : Nat} (hw : HasR w 0x2F 3 0x0C rd rs1 rs2) (hresv : y.resv = none)
    (hal : (rvX y rs1).toNat % 8 = 0) (hok : pmpAllows y (rvDataMachine y) 1 (rvX y rs1).toNat 8 = true) (next : DWord) :
    rvAmo y w next = .ok { rvSetX { rvDrawn y with resv := none } rd 1 with pc := next } := by
  obtain ⟨-, hrd, hf3, hrs1, hrs2, hf7⟩ := hw
  obtain ⟨hf5, -, -⟩ := fld_of_f7 hf7
  have hfault : rvDataFault y true (rvX y rs1) 8 = none := rvDataFault_eq_none hal hok
  simp [rvAmo, hf3, hf5, hrd, hrs1, hfault, hresv]

/-! ### Loads and stores of local memory -/

section
variable {y : Stagehand} {p next : DWord} {n : Nat}

theorem rvLoadTo_of_allowed (w : Word) (hal : p.toNat % n = 0) (hpmp : pmpAllows y (rvDataMachine y) 0 p.toNat n = true)
    (hin : p.toNat + n ≤ 0x80000) (g : Nat → Stagehand) :
    rvLoadTo y w p next n g = .ok { rvDrawn (g (leNat (tabRead 0#8 y.lm p.toNat n))) with pc := next } := by
  have hfault : rvDataFault y false p n = none := rvDataFault_eq_none hal hpmp
  have hbytes : rvLoad y w p n = leNat (tabRead 0#8 y.lm p.toNat n) := by rw [rvLoad, rvIn, if_pos (decide_eq_true hin)]
  rw [rvLoadTo, hfault, hbytes]

/-- A misaligned load traps with cause 4 (R162). -/
theorem rvLoadTo_of_misaligned (w : Word) (hmis : p.toNat % n ≠ 0) (g : Nat → Stagehand) :
    rvLoadTo y w p next n g = .trap y 4 p := by
  rw [rvLoadTo, rvDataFault, if_pos hmis]
  rfl

theorem rvStoreTo_of_allowed (hal : p.toNat % n = 0) (hpmp : pmpAllows y (rvDataMachine y) 1 p.toNat n = true)
    (hin : p.toNat + n ≤ 0x80000) (v : DWord) :
    rvStoreTo y p next n v = .ok { y with lm := tabWrite 0#8 y.lm p.toNat (leBytes n v.toNat), pc := next } := by
  have hfault : rvDataFault y true p n = none := rvDataFault_eq_none hal hpmp
  rw [rvStoreTo, hfault, rvStore, rvIn, if_pos (decide_eq_true hin)]

end

/-- An environment call in user mode traps with cause 8. -/
theorem rvSystem_ecall {y : Stagehand} (huser : y.machine = false) : rvSystem y 0x00000073#32 = .trap y 8 0 := by
  have hf3 : fld 0x00000073#32 14 12 = 0 := by decide
  simp [rvSystem, huser, hf3]

/-! ### The step (R160 to R162, R171) -/

section
variable {k : Nat} {s : State} {j : HelperJob} (h : runsJob s k j) (hreset : (shOf s k).serv.inReset = false)
  (htest : (shOf s k).serv.selftest = false) (hfetch : rvFetchOk (shOf s k) 4 = true) {w : Word} {op : Nat} (hop : fld w 6 0 = op)
  (hspace : op % 4 = 3 ∧ op ≠ 0x0B ∧ op ≠ 0x2B)
include h hreset htest hfetch hop hspace

/-- A 32-bit instruction outside Xzsh does what its opcode says; a trap in user mode ends the job. -/
theorem execStagehandInstruction_eq : execStagehandInstruction k w s =
    match rvExec (shOf s k) w 4 with
    | .ok t => .next (setSh k t s)
    | .trap t cause tval =>
      if (shOf s k).machine then .next (setSh k (rvTrap t cause tval) s)
      else .next (raiseHelperFault k (shOf s k).pc.toNat 0 [cause] (setSh k t s)) := by
  obtain ⟨hk, hjob, hphase, hwait⟩ := h
  obtain ⟨hwide, hb, h2b⟩ := hspace
  have hzsh : isZsh w = false := by simp [isZsh, hop, hb, h2b]
  have hlow : fld w 1 0 = 3 := by
    rw [fld_eq_div_mod] at hop ⊢
    omega
  have hstep : rvStep (shOf s k) w = rvExec (shOf s k) w 4 := by simp [rvStep, hlow, hfetch]
  rw [execStagehandInstruction, need_of_eq_true (decide_eq_true hk)]
  cases hexec : rvExec (shOf s k) w 4 <;>
    simp only [hwait, hreset, htest, hphase, hjob, hzsh, hstep, hexec, Option.isSome_none, Option.isNone_some, Bool.false_or,
      Bool.false_and, reduceCtorEq, decide_false, Bool.false_eq_true, if_false]

theorem execStagehandInstruction_ok {t : Stagehand} (hexec : rvExec (shOf s k) w 4 = .ok t) :
    leadsTo (execStagehandInstruction k w s) (shResult k t s) := by
  rw [execStagehandInstruction_eq h hreset htest hfetch hop hspace, hexec]
  exact ⟨_, rfl, shResult_setSh k t s⟩

theorem execStagehandInstruction_trap {cause : Nat} {tval : DWord} (huser : (shOf s k).machine = false)
    (hexec : rvExec (shOf s k) w 4 = .trap (shOf s k) cause tval) :
    leadsTo (execStagehandInstruction k w s) fun t => (shOf t k).job = none ∧ (shOf t k).phase = .idle := by
  obtain ⟨-, hjob, -, -⟩ := id h
  rw [execStagehandInstruction_eq h hreset htest hfetch hop hspace, hexec]
  dsimp only
  rw [huser, if_neg Bool.false_ne_true]
  exact ⟨_, rfl, raiseHelperFault_idle (by rw [shOf_setSh_self]; exact hjob) ..⟩

/-- An integer result. -/
theorem execStagehandInstruction_gives {rd : Nat} {v : DWord} (hexec : rvExec (shOf s k) w 4 = rvGives (shOf s k) rd v) :
    leadsTo (exec (.stagehandInstruction k w) s)
      (shResult k { wrX (shOf s k) (BitVec.ofNat 5 rd) v with pc := (shOf s k).pc + 4 } s) :=
  execStagehandInstruction_ok h hreset htest hfetch hop hspace hexec

end

/-- What a load into a register leaves: the register, the next pc, and local memory as it was. -/
theorem rvDrawn_rvSetX (y : Stagehand) (rd : Nat) (v next : DWord) :
    (∀ r, rdX { rvDrawn (rvSetX y rd v) with pc := next } r = if r = BitVec.ofNat 5 rd ∧ r ≠ 0 then v else rdX y r) ∧
    (rvSetX y rd v).lm = y.lm :=
  ⟨fun _ => rdX_wrX .., wrX_lm ..⟩

/-- What a double-precision result leaves. -/
theorem rvFpTo_result (y : Stagehand) (rd : Nat) (r : Nat × Nat) :
    (∀ q, rvF (rvFpTo y 64 rd r) q = if q = rd then BitVec.ofNat 64 r.1 else rvF y q) ∧
    rvRaw (rvFpTo y 64 rd r) 3 = rvRaw y 3 ||| BitVec.ofNat 64 (r.2 % 32) ∧ (rvFpTo y 64 rd r).lm = y.lm := by
  have hcsr : rvRaw (rvSetFp y 64 rd r.1) 3 = rvRaw y 3 := (rvRaw_rvPut ..).trans (if_neg (by omega))
  refine ⟨fun q => (rvF_rvFlags ..).trans (tabGet_set ..), ?_, rvFlags_lm ..⟩
  rw [rvFpTo, rvRaw_rvFlags, hcsr]

/-- Settles O26: the word's fields give its opcode's case of `rvExec`, and the step then writes the Stagehand, or ends its job. -/
theorem stagehandInstructions : Obligations.StagehandInstructions := by
  unfold Obligations.StagehandInstructions
  intro k rd rs1 rs2 n s j h hreset htest hrd hrs1 hrs2 hn hfetch y a b i p gives put
  have hI {op : Nat} (f3 : Nat) (hop : op < 128) (hf3 : f3 < 8) := hasI_encI hop hf3 hrd hrs1 hn
  have hR {op : Nat} (f3 f7 : Nat) (hop : op < 128) (hf3 : f3 < 8) (hf7 : f7 < 128) := hasR_encR hop hf3 hf7 hrd hrs1 hrs2
  have hgives {w : Word} {op : Nat} (hop : fld w 6 0 = op) (hspace : op % 4 = 3 ∧ op ≠ 0x0B ∧ op ≠ 0x2B) {v : DWord}
      (hexec : rvExec y w 4 = rvGives y rd v) : gives w (put v) :=
    execStagehandInstruction_gives h hreset htest hfetch hop hspace hexec
  refine ⟨?_, ?_, ?_, ?_, ?_, ?_, ?_, fun ⟨hal, hin, hpmp⟩ => ?_, fun ⟨hal, hin, hpmp⟩ => ?_, fun hon => ?_,
    fun ⟨hresv, hal, hpmp⟩ => ?_, fun huser => ⟨fun hmis => ?_, ?_⟩⟩
  · have hw := hI 0 (op := 0x13) (by omega) (by omega)
    exact hgives hw.op (by omega) (rvExec_opImm hw (by omega) (by omega))
  · have hw := hI 7 (op := 0x13) (by omega) (by omega)
    exact hgives hw.op (by omega) (rvExec_opImm hw (by omega) (by omega))
  · have hw := hR 0 0 (op := 0x33) (by omega) (by omega) (by omega)
    exact hgives hw.op (by omega) (rvExec_op hw (by omega))
  · have hw := hR 0 0x20 (op := 0x33) (by omega) (by omega) (by omega)
    exact hgives hw.op (by omega) (rvExec_op hw (by omega))
  · have hw := hR 4 0 (op := 0x33) (by omega) (by omega) (by omega)
    exact hgives hw.op (by omega) (rvExec_op hw (by omega))
  · have hw := hR 3 0 (op := 0x33) (by omega) (by omega) (by omega)
    have hless : rvAlu 3 false a b = if a.toNat < b.toNat then 1 else 0 := by
      rw [rvAlu, BitVec.ult]
      simp only [decide_eq_true_eq]
    rw [← hless]
    exact hgives hw.op (by omega) (rvExec_op hw (by omega))
  · have hw := hR 0 1 (op := 0x33) (by omega) (by omega) (by omega)
    exact hgives hw.op (by omega) (rvExec_op hw (by omega))
  · have hw := hI 3 (op := 0x03) (by omega) (by omega)
    have hexec := (rvExec_load (y := y) hw).trans (rvLoadTo_of_allowed _ hal hpmp hin _)
    obtain ⟨hregs, hlm⟩ := rvDrawn_rvSetX y rd (BitVec.ofNat 64 (leNat (tabRead 0#8 y.lm p.toNat 8))) (y.pc + 4)
    obtain ⟨t, hnext, hself, -, -⟩ := execStagehandInstruction_ok h hreset htest hfetch hw.op (by omega) hexec
    refine ⟨t, hnext, ?_⟩
    beta_reduce
    rw [hself]
    exact ⟨hregs, rfl, hlm⟩
  · have hw := hasS_encS (op := 0x23) (f3 := 3) (by omega) (by omega) hrs1 hrs2 hn
    have hexec := (rvExec_store (y := y) hw).trans (rvStoreTo_of_allowed hal hpmp hin _)
    exact execStagehandInstruction_ok h hreset htest hfetch hw.op (by omega) hexec
  · have hw := hR 0 1 (op := 0x53) (by omega) (by omega) (by omega)
    have hexec := rvExec_fp hw.op hon (rvFpOp_add (y := y) hw)
    obtain ⟨hf, hcsr, hlm⟩ := rvFpTo_result y rd (fpAdd 64 0 (fpIsSnan 64 (rvF y rs1).toNat || fpIsSnan 64 (rvF y rs2).toNat)
      (fpVal 64 (rvF y rs1).toNat) (fpVal 64 (rvF y rs2).toNat))
    obtain ⟨t, hnext, hself, -, -⟩ := execStagehandInstruction_ok h hreset htest hfetch hw.op (by omega) hexec
    refine ⟨t, hnext, ?_⟩
    beta_reduce
    rw [hself]
    exact ⟨fun q _ => hf q, hcsr, rfl, hlm⟩
  · have hw := hR 3 0x0C (op := 0x2F) (by omega) (by omega) (by omega)
    have hexec := (rvExec_amo (y := y) hw.op).trans (rvAmo_sc hw hresv hal hpmp _)
    obtain ⟨t, hnext, hself, -, -⟩ := execStagehandInstruction_ok h hreset htest hfetch hw.op (by omega) hexec
    refine ⟨t, hnext, ?_⟩
    beta_reduce
    rw [hself]
    exact ⟨fun r => rdX_wrX .., wrX_lm .., rfl⟩
  · have hw := hI 3 (op := 0x03) (by omega) (by omega)
    have hexec := (rvExec_load (y := y) hw).trans (rvLoadTo_of_misaligned _ hmis _)
    exact execStagehandInstruction_trap h hreset htest hfetch hw.op (by omega) huser hexec
  · have hop : fld 0x00000073#32 6 0 = 0x73 := by decide
    have hexec := (rvExec_system hop).trans (rvSystem_ecall huser)
    exact execStagehandInstruction_trap h hreset htest hfetch hop (by omega) huser hexec

end Sys2Proof.Machine
end

section
/-! SUPPORT. Sampler jobs (O31): what a row's work in the flats leaves alone, the write of the results, and a job from its start to its
end. -/

namespace Sys2Proof.Machine

open Sys2Proof

/-! ### The start (R429) -/

theorem execSamplerJobStart_result {k : Nat} {x : QJob} {s : State} (hk : k < 4)
    (hphys : (tabGet Sampler.init s.serve.samplers k).phys.isSome = true)
    (hreset : (tabGet Sampler.init s.serve.samplers k).inReset = false) (hcluster : s.fault.clReset.contains k = false)
    (hnone : (tabGet Sampler.init s.serve.samplers k).queue.any (fun y => y.phase = .running) = false)
    (hcuts : s.beat.cutsDone = true) (htest : samplerTested s (tabGet Sampler.init s.serve.samplers k) = false)
    (hfirst : ((tabGet Sampler.init s.serve.samplers k).queue.find? fun y => y.phase = .granted).or
      (((tabGet Sampler.init s.serve.samplers k).queue.find? fun y => y.job.walkon && jobReady s y).or
        ((tabGet Sampler.init s.serve.samplers k).queue.find? (jobReady s))) = some x) (hready : jobReady s x = true) :
    execSamplerJobStart k s = .next (modQueue k (fun l => l.replace x { x with phase := .running, startUs := s.time })
      (setCue x.job.waitCl { cueOf s x.job.waitCl with
        count := (cueOf s x.job.waitCl).count - if x.phase = .granted then 0 else x.job.waitCnt } s)) := by
  have hphys' : (tabGet Sampler.init s.serve.samplers k).phys.isNone = false := by rw [← Option.not_isSome, hphys, Bool.not_true]
  rw [execSamplerJobStart, need_of_eq_true (decide_eq_true hk)]
  dsimp only
  rw [hphys', hreset, hcluster, hnone, hcuts, htest, if_neg (by decide), hfirst]
  dsimp only
  rw [hready, Bool.not_true, if_neg Bool.false_ne_true]
  rfl

theorem samplerQueue_modQueue (k : Nat) (f : List QJob → List QJob) (s : State) :
    (tabGet Sampler.init (modQueue k f s).serve.samplers k).queue = f (tabGet Sampler.init s.serve.samplers k).queue := by
  rw [modQueue, tabGet_mod_self]

/-! ### What a row's work in the flats leaves alone -/

/-- The state without what the work of a Sampler in the flats changes: main memory and what its translation depends on, engines, Cue
Lights, and whether an error in firmware data is due. -/
def unworked (s : State) :=
  (walksBy s, s.mem, s.hbm, s.eng, s.cue, s.fault.fwPoison)

theorem unworked_bump {a : Nat} (h : ∀ p, 0x70108 + 0x20 * p ≠ a) (s : State) : unworked (bump a s) = unworked s := by
  have hregs : (fun p => regW (bump a s) (0x70108 + 0x20 * p)) = fun p => regW s (0x70108 + 0x20 * p) :=
    funext fun p => regW_setReg_of_ne _ _ (h p)
  exact congrArg (fun r => ((s.mem.pt, s.mem.journals, s.hbm.lcRetired, s.sec.keys, r), s.mem, s.hbm, s.eng, s.cue, s.fault.fwPoison)) hregs

theorem unworked_logEvent (v : FaultEvent) (s : State) : unworked (logEvent v s) = unworked s := by
  rw [logEvent]
  split
  · rfl
  · rw [unworked_bump (by omega)]
    rfl

theorem unworked_eccWords (ctx : DWord) (o : Byte) (step : Option (Nat × Nat)) (words : List Nat) (s : State) :
    unworked (eccWords ctx o step words s) = unworked s := by
  unfold eccWords
  refine List.foldlRecOn (motive := fun t => unworked t = unworked s) _ _ rfl fun t ht w _ => Eq.trans ?_ ht
  split
  · rfl
  · rw [unworked_bump (by omega)]
    rfl
  · have hfound (v : FaultEvent) : unworked (logEvent v
        (drawn (bump 0x3000C (setFlat (w / 8192) { flatOf t (w / 8192) with pending := true } t)))) = unworked t := by
      rw [unworked_logEvent]
      exact (unworked_bump (by omega) (setFlat (w / 8192) { flatOf t (w / 8192) with pending := true } t)).trans rfl
    dsimp only
    split
    · exact (hfound _)
    · exact hfound _

theorem unworked_rowFlats (j : SamplerJob) (i : Nat) (r : Request) (ys z3 : List Word) (bytes : List Byte) (s : State) :
    unworked (rowFlats j i r ys z3 bytes s) = unworked s := by
  unfold rowFlats
  extract_lets put used worked windows k last
  have hworked : unworked worked = unworked s := unworked_eccWords ..
  have hwindows : unworked windows = unworked s :=
    List.foldlRecOn (motive := fun t => unworked t = unworked s) _ _ hworked fun t ht w _ => ht
  exact hwindows

section
variable {s t : State} (h : unworked t = unworked s)
include h

theorem walksBy_of_unworked : walksBy t = walksBy s := congrArg (fun v => v.1) h
theorem mem_of_unworked : t.mem = s.mem := congrArg (fun v => v.2.1) h
theorem eng_of_unworked : t.eng = s.eng := congrArg (fun v => v.2.2.2.1) h
theorem cue_of_unworked : t.cue = s.cue := congrArg (fun v => v.2.2.2.2.1) h

theorem cleanMem_of_unworked (hs : cleanMem s) : cleanMem t := by
  have hhbm : t.hbm = s.hbm := congrArg (fun v => v.2.2.1) h
  have hfw : t.fault.fwPoison = s.fault.fwPoison := congrArg (fun v => v.2.2.2.2.2) h
  rw [cleanMem, mem_of_unworked h, hhbm, hfw]
  exact hs

end

/-! ### Translation of a range that begins in one page and ends in the next -/

theorem permCheck_ok {s : State} {part stepId : Nat} {write : Bool} {w : DWord} {pa q : Nat}
    (h : permCheck s part stepId write w pa = .ok q) : q = pa := by
  unfold permCheck at h
  dsimp only at h
  repeat' split at h
  all_goals cases h <;> rfl

theorem leafWalk_offset {s : State} {part stepId : Nat} {write : Bool} {w : DWord} {level va pa : Nat}
    (h : leafWalk s part stepId write w level va = .ok pa) : pa % 65536 = va % 65536 := by
  unfold leafWalk at h
  split at h
  · cases h
  split at h
  · cases h
  extract_lets a at h
  have ha : a % 65536 = va % 65536 := by
    simp only [a]
    split <;> omega
  split at h
  · cases h
  split at h
  · cases h
  split at h
  · cases h
  rw [permCheck_ok h, ha]

/-- A page lies at an address that is a whole number of pages. -/
theorem walkFor_offset {s : State} {c : MemCtx} {write : Bool} {va pa : Nat} (h : walkFor s c write va = .ok pa) :
    pa % 65536 = va % 65536 := by
  unfold walkFor walk at h
  dsimp only at h
  split at h
  · exact leafWalk_offset h
  split at h
  · cases h
  split at h
  · cases h
  split at h
  · cases h
  split at h
  · exact leafWalk_offset h
  split at h
  · cases h
  · exact leafWalk_offset h

/-- What a store of less than a page leaves at each address of its range. -/
theorem memByte_rangeStored {c : MemCtx} {va : Nat} {bs : List Byte} {s t : State} (h : rangeStored c va bs s t)
    (hlen : bs.length ≤ 65536) {j pa : Nat} (hj : j < bs.length) (hpa : walkFor s c true (va + j) = .ok pa) :
    memByte t pa = bs.getD j 0 := by
  obtain ⟨-, -, -, hstore⟩ := h
  refine hstore j pa hj hpa fun k hk hkj hpk => ?_
  have h1 := walkFor_offset hpa
  have h2 := walkFor_offset hpk
  omega

/-! ### The write of the result words (R326, R436) -/

theorem cowCopy_of_not_copy {c : MemCtx} {va : Nat} {s : State} (h : ∀ q, walk s c.part c.stepId true va ≠ .copy q) :
    cowCopy c va s = s := by
  rw [cowCopy]
  split
  · next q hq => exact absurd hq (h q)
  · rfl

/-- A write that meets no fault and no copy is a store. -/
theorem dvWrite_of_allowed {c : MemCtx} {va : Nat} {bs : List Byte} {s : State} (hheld : c.held = [])
    (hfault : rangeFault s c true va bs.length = none) (hcopy : rangeCopies s c va bs.length = none) :
    dvWrite c va bs s = (dvStore c va bs s, none) := by
  have hpages (p) (hp : p ∈ pagePieces va bs.length) : cowCopy c p.1 s = s := by
    refine cowCopy_of_not_copy fun q hq => ?_
    have hnone := List.findSome?_eq_none_iff.1 hcopy p hp
    simp [walkFor_not_held s c true p.1 hheld, hq] at hnone
  have hfold : (pagePieces va bs.length).foldl (fun t p => cowCopy c p.1 t) s = s :=
    List.foldlRecOn (motive := fun t => t = s) _ _ rfl fun t ht p hp => by rw [ht, hpages p hp]
  rw [dvWrite, hfault]
  dsimp only
  rw [hfold]

theorem rangeFault_congr {s t : State} (h : walksBy t = walksBy s) (c : MemCtx) (write : Bool) (va n : Nat) :
    rangeFault t c write va n = rangeFault s c write va n := by
  simp only [rangeFault, walkFor_congr h]

theorem rangeCopies_congr {s t : State} (h : walksBy t = walksBy s) (c : MemCtx) (va n : Nat) :
    rangeCopies t c va n = rangeCopies s c va n := by
  simp only [rangeCopies, walkFor_congr h]

theorem rangeFault_of_dvRead {c : MemCtx} {va n : Nat} {s : State} (h : (dvRead c va n s).fault = none) :
    rangeFault s c false va n = none := by
  cases hf : rangeFault s c false va n with
  | none => rfl
  | some e => rw [dvRead, hf] at h; cases h

/-- A read that meets no fault, of a memory without errors, changes nothing. -/
theorem dvRead_of_clean_fault_none {c : MemCtx} {va n : Nat} {s : State} (hclean : cleanMem s) (h : (dvRead c va n s).fault = none) :
    dvRead c va n s = readOf s (readBytes s c va n) := dvRead_of_clean_held hclean (rangeFault_of_dvRead h)

/-! ### A row, and a job of one row (R431 to R436) -/

/-- The first row of a job: it is the first of its request, which lies in the job's partition. -/
theorem doRow_first {j : SamplerJob} {s : State} {e : DWord} {r : Request} (hclean : cleanMem s) (he : fld e 19 16 = 0)
    (hr : reqOf s (fld e 15 0) = some r) (hpart : r.part = j.part)
    (hread : (dvRead (samplerMem j (fld e 15 0)) j.logits (4 * j.vocab) s).fault = none) :
    let bytes := (dvRead (samplerMem j (fld e 15 0)) j.logits (4 * j.vocab) s).bytes
    let logits := (List.range j.vocab).map fun i => (BitVec.ofNat 32 (leAt bytes (4 * i) 4) : Word)
    let x := doRow j ⟨s, none, [], false, [], none⟩ 0 e
    x.fault = none ∧ x.out = [resultWord (sampleRow r j.beatKey [] logits) ((e >>> 32).truncate 32)] ∧ unworked x.st = unworked s := by
  have hd := dvRead_of_clean_fault_none hclean hread
  rw [hd]
  intro bytes logits x
  have hreq : (reqOf s (fld e 15 0)).filter (fun r => r.part = j.part) = some r := by
    rw [hr, Option.filter_some, if_pos (decide_eq_true hpart)]
  have hx : x = _ := rfl
  simp only [x, doRow, he, hreq, if_true, Nat.zero_mul, Nat.add_zero, hd, readOf, Option.isSome_none, Bool.false_eq_true, if_false,
    List.length_nil, List.nil_append, Bool.not_true, ne_eq, not_true_eq_false, decide_false, Bool.or_self]
  split
  · exact ⟨rfl, rfl, unworked_rowFlats ..⟩
  · exact ⟨rfl, rfl, unworked_rowFlats ..⟩

/-- The number that eight bytes hold. -/
theorem leAt_of_length_eight {bs : List Byte} (h : bs.length = 8) : leAt bs 0 8 = leNat bs := by
  rw [leAt, slice, List.drop_zero, List.take_of_length_le (by omega), h, Nat.sub_self, List.replicate_zero, List.append_nil]

/-- The state once a job has signalled its end. -/
def jobSignalled (j : SamplerJob) (m : MemCtx) (s : State) : State :=
  if j.doneInc = 0 then s else cueSigHw j.doneCl j.doneInc m.ctx m.origin s

theorem jobSignalled_frame (j : SamplerJob) (m : MemCtx) (s : State) : ∃ regs free fifo lost cue, jobSignalled j m s =
    { s with regs := regs, free := free, fault := { s.fault with fifo := fifo, lost := lost }, cue := cue } ∧
    ∀ i, tabGet CueLight.init cue i = if i = j.doneCl ∧ j.doneInc ≠ 0 then lightAfter (cueOf s i) j.doneInc else cueOf s i := by
  rw [jobSignalled]
  by_cases h0 : j.doneInc = 0
  · rw [if_pos h0]
    exact ⟨_, _, _, _, _, rfl, fun i => (if_neg fun h => h.2 h0).symm⟩
  · obtain ⟨regs, free, fifo, lost, hsig⟩ := cueSigHw_frame j.doneCl j.doneInc m.ctx m.origin s
    rw [if_neg h0, hsig]
    refine ⟨_, _, _, _, _, rfl, fun i => ?_⟩
    by_cases hi : i = j.doneCl
    · rw [hi, if_pos ⟨rfl, h0⟩]
      exact cueOf_setCue_self ..
    · rw [if_neg (mt And.left hi)]
      exact cueOf_setCue_of_ne _ s hi

/-- A job that has ended: it stands complete, and its step's failure is carried out where it is due. What the state holds of main memory,
the Cue Lights and the engines stays. -/
theorem jobEnded_result {k : Nat} {x y : QJob} {s : State} (hfw : s.fault.fwPoison = false) :
    let t := settle (resolveStep x.job.part x.job.stepId.toNat (bump (0x90110 + 4 * k) (modQueue k (fun l => l.replace x y) s)))
    t.mem.bytes = s.mem.bytes ∧ t.cue = s.cue ∧ t.eng = s.eng := by
  intro t
  set u := bump (0x90110 + 4 * k) (modQueue k (fun l => l.replace x y) s)
  have hended := unended_resolveStep x.job.part x.job.stepId.toNat u
  have hstored := unstored_of_unended hended
  have ht : t = resolveStep x.job.part x.job.stepId.toNat u :=
    settle_of_fwPoison_false ((fwPoison_of_unended hended).trans hfw)
  rw [ht]
  exact ⟨(bytes_of_unended hended).trans rfl, (cue_of_unstored hstored).trans rfl, (eng_of_unstored hstored).trans rfl⟩

theorem execSamplerJobComplete_of_written {k : Nat} {x : QJob} {s t : State} (hk : k < 4)
    (hrun : (tabGet Sampler.init s.serve.samplers k).queue.find? (fun y => y.phase = .running) = some x)
    (hcrc : x.job.crcOk = true) (hresv : x.job.resvOk = true) (hjob : runJob k x.job s = (t, true)) :
    execSamplerJobComplete k s = .next (settle (resolveStep x.job.part x.job.stepId.toNat (bump (0x90110 + 4 * k)
      (modQueue k (fun l => l.replace x { x with phase := .complete }) t)))) := by
  rw [execSamplerJobComplete, need_of_eq_true (decide_eq_true hk), hrun]
  dsimp only
  rw [hcrc, hresv, Bool.and_self, if_pos rfl, hjob]
  rfl

section
variable {j : SamplerJob} {s : State} {r : Request} {e : DWord} (hclean : cleanMem s) (hrows : j.nrows = 1)
  (hmap : (dvRead (samplerMem j 0xFFFF) j.rowmap 8 s).fault = none)
  (hword : BitVec.ofNat 64 (leNat (dvRead (samplerMem j 0xFFFF) j.rowmap 8 s).bytes) = e) (he : fld e 19 16 = 0)
  (hr : reqOf s (fld e 15 0) = some r) (hpart : r.part = j.part)
  (hread : (dvRead (samplerMem j (fld e 15 0)) j.logits (4 * j.vocab) s).fault = none)
  (hfault : rangeFault s (samplerMem j 0xFFFF) true j.outAddr 8 = none)
  (hcopy : rangeCopies s (samplerMem j 0xFFFF) j.outAddr 8 = none)
include hclean hrows hmap hword he hr hpart hread hfault hcopy

/-- A job of one row stores its result word, and signals. -/
theorem runJob_one_row (c : Nat) :
    let m := samplerMem j 0xFFFF
    let bytes := (dvRead (samplerMem j (fld e 15 0)) j.logits (4 * j.vocab) s).bytes
    let logits := (List.range j.vocab).map fun i => (BitVec.ofNat 32 (leAt bytes (4 * i) 4) : Word)
    let word := resultWord (sampleRow r j.beatKey [] logits) ((e >>> 32).truncate 32)
    ∃ u, unworked u = unworked s ∧ runJob c j s =
      (jobSignalled j m (dvStore m j.outAddr (leBytes 8 word.toNat) u), true) := by
  intro m bytes logits word
  obtain ⟨hxfault, hxout, hxst⟩ := doRow_first hclean he hr hpart hread
  have hd := dvRead_of_clean_fault_none hclean hmap
  have hentry : BitVec.ofNat 64 (leAt (readBytes s m j.rowmap 8) 0 8) = e := by
    rw [leAt_of_length_eight (length_readBytes ..), ← hword, hd]
    rfl
  have hwalks := walksBy_of_unworked hxst
  set x := doRow j ⟨s, none, [], false, [], none⟩ 0 e
  have hbytes : x.out.flatMap (fun v => leBytes 8 v.toNat) = leBytes 8 word.toNat := by
    rw [hxout, List.flatMap_singleton]
  have hlen : (leBytes 8 word.toNat).length = 8 := length_leBytes 8 _
  have hwrite : dvWrite m j.outAddr (leBytes 8 word.toNat) x.st = (dvStore m j.outAddr (leBytes 8 word.toNat) x.st, none) :=
    dvWrite_of_allowed rfl (by rw [hlen, rangeFault_congr hwalks]; exact hfault) (by rw [hlen, rangeCopies_congr hwalks]; exact hcopy)
  have hone : (List.range 1).map (fun k => (BitVec.ofNat 64 (leAt (readBytes s m j.rowmap 8) (8 * k) 8) : DWord)) = [e] := by
    rw [← hentry]
    rfl
  refine ⟨x.st, hxst, ?_⟩
  rw [runJob, hrows]
  dsimp only
  rw [hd]
  simp only [readOf]
  rw [hone, List.zipIdx_singleton, List.foldl_cons, List.foldl_nil]
  dsimp only
  rw [hxfault]
  dsimp only
  rw [hbytes, hwrite, jobSignalled]

theorem execSamplerJobComplete_result {k : Nat} {x : QJob} (hk : k < 4) (hj : x.job = j)
    (hrun : (tabGet Sampler.init s.serve.samplers k).queue.find? (fun y => y.phase = .running) = some x)
    (hcrc : j.crcOk = true) (hresv : j.resvOk = true) :
    let m := samplerMem j 0xFFFF
    let bytes := (dvRead (samplerMem j (fld e 15 0)) j.logits (4 * j.vocab) s).bytes
    let logits := (List.range j.vocab).map fun i => (BitVec.ofNat 32 (leAt bytes (4 * i) 4) : Word)
    let word := resultWord (sampleRow r j.beatKey [] logits) ((e >>> 32).truncate 32)
    leadsTo (execSamplerJobComplete k s) fun t =>
      (∀ i pa, i < 8 → walk s m.part m.stepId true (j.outAddr + i) = .ok pa →
        memByte t pa = (leBytes 8 word.toNat).getD i 0) ∧
      (∀ i, cueOf t i = if i = j.doneCl ∧ j.doneInc ≠ 0 then lightAfter (cueOf s i) j.doneInc else cueOf s i) ∧
      t.eng = s.eng := by
  intro m bytes logits word
  obtain ⟨u, hu, hjob⟩ := runJob_one_row hclean hrows hmap hword he hr hpart hread hfault hcopy k
  have hwalks := walksBy_of_unworked hu
  have hlen : (leBytes 8 word.toNat).length = 8 := length_leBytes 8 _
  have hstored : rangeStored m j.outAddr (leBytes 8 word.toNat) u (dvStore m j.outAddr (leBytes 8 word.toNat) u) :=
    rangeStored_dvStore (cleanMem_of_unworked hu hclean) (by rw [hlen, rangeFault_congr hwalks]; exact hfault)
      (by rw [hlen, rangeCopies_congr hwalks]; exact hcopy)
  have hstore : unstored (dvStore m j.outAddr (leBytes 8 word.toNat) u) = unstored u := unstored_dvStore ..
  set v := dvStore m j.outAddr (leBytes 8 word.toNat) u with hv
  have hbyte (i pa : Nat) (hi : i < 8) (hpa : walk s m.part m.stepId true (j.outAddr + i) = .ok pa) :
      memByte v pa = (leBytes 8 word.toNat).getD i 0 := by
    refine memByte_rangeStored hstored (by omega) (by omega) ?_
    rw [walkFor_congr hwalks, walkFor_not_held s m true _ rfl, hpa]
  have hcuev : v.cue = s.cue := (cue_of_unstored hstore).trans (cue_of_unworked hu)
  have hengv : v.eng = s.eng := (eng_of_unstored hstore).trans (eng_of_unworked hu)
  obtain ⟨⟨-, -, -, hfw, -⟩, -⟩ := hstored
  clear_value v
  obtain ⟨regs, free, fifo, lost, cue, hframe, hlight⟩ := jobSignalled_frame j m v
  subst hj
  refine ⟨_, execSamplerJobComplete_of_written hk hrun hcrc hresv hjob, ?_⟩
  rw [hframe]
  obtain ⟨hbytes, hcue, heng⟩ := jobEnded_result (k := k) (x := x) (y := { x with phase := .complete })
    (s := { v with regs := regs, free := free, fault := { v.fault with fifo := fifo, lost := lost }, cue := cue }) hfw
  refine ⟨fun i pa hi hpa => ?_, fun i => ?_, heng.trans hengv⟩
  · rw [memByte, hbytes]
    exact hbyte i pa hi hpa
  · rw [cueOf, hcue, cueOf, ← hcuev]
    exact hlight i

end

/-- Settles O31: the job that the order of R429 gives starts and takes its count; at its end the store of its word, the signal and the
step's end leave the rest (`jobSignalled_frame`, `jobEnded_result`). -/
theorem samplerJobs : Obligations.SamplerJobs := by
  unfold Obligations.SamplerJobs
  refine ⟨?_, ?_⟩
  · intro k x s hk q hphys hreset hcluster hnone hcuts htest hfirst hready
    exact ⟨_, execSamplerJobStart_result hk hphys hreset hcluster hnone hcuts htest hfirst hready,
      samplerQueue_modQueue .., cueOf_setCue_self .., fun i hi => cueOf_setCue_of_ne _ s hi, rfl⟩
  · intro k x r e s hk hrun hcrc hresv hrows hclean m hmap hword he hr hpart hread hfault hcopy
    dsimp only [exec]
    exact execSamplerJobComplete_result hclean hrows hmap hword he hr hpart hread hfault hcopy hk rfl hrun hcrc hresv

end Sys2Proof.Machine
end

section
/-! SUPPORT. Program images and mask objects (O36): what the firmware window's pages leave alone, and the commands that owe a reply. -/

namespace Sys2Proof.Machine

open Sys2Proof

/-! ### What pages of the firmware window leave alone (R125, R314, R360) -/

/-- The state that no operation on images, masks, pages or slots changes. -/
def beyondServing (s : State) :=
  (s.eng, s.cue, s.flies, s.ro, s.net, s.beat, s.pair.inputBeat, s.fault.fwPoison)

/-- The same, with the serving state. -/
def outsideMemory (s : State) := (s.serve, beyondServing s)

theorem outsideMemory_of_unslotted {s t : State} (h : unslotted t = unslotted s) : outsideMemory t = outsideMemory s :=
  (congrArg outsideMemory h : outsideMemory (unslotted t) = outsideMemory (unslotted s))

theorem outsideMemory_withMem (m : Mem) (s : State) : outsideMemory { s with mem := m } = outsideMemory s := rfl

theorem outsideMemory_placeTable (size : Nat) (s : State) : outsideMemory (placeTable size s).1 = outsideMemory s := by
  rw [placeTable]
  dsimp only
  split
  · split
    · rfl
    · split <;> rfl
  · split <;> rfl

theorem outsideMemory_placeRoot (s : State) : outsideMemory (placeRoot s).1 = outsideMemory s := by
  rw [placeRoot]
  split <;> rfl

theorem outsideMemory_needTable (space level va : Nat) (s : State) : outsideMemory (needTable space level va s) = outsideMemory s := by
  rw [needTable]
  split
  · rfl
  · refine (outsideMemory_withMem _ _).trans ?_
    split
    · exact outsideMemory_placeRoot s
    · exact outsideMemory_placeTable _ s

theorem outsideMemory_linkTable (space level va : Nat) (s : State) : outsideMemory (linkTable space level va s) = outsideMemory s := by
  have hneed := outsideMemory_needTable space (level + 1) va s
  rw [linkTable]
  split
  · exact hneed
  · exact (outsideMemory_withMem _ _).trans hneed

theorem outsideMemory_mapLeaf (space va : Nat) (w : DWord) (s : State) : outsideMemory (mapLeaf space va w s) = outsideMemory s := by
  refine (outsideMemory_withMem _ _).trans ?_
  rw [outsideMemory_linkTable, outsideMemory_linkTable, outsideMemory_linkTable, outsideMemory_needTable]

theorem outsideMemory_physWrite (pa : Nat) (bs : List Byte) (s : State) : outsideMemory (physWrite pa bs s) = outsideMemory s := by
  have hdirty : outsideMemory (if bs = [] then s else markDirty (pa / 65536) s) = outsideMemory s := by
    split
    · rfl
    · exact outsideMemory_of_unslotted (unslotted_markDirty _ s)
  exact hdirty

theorem outsideMemory_holdObject (part va : Nat) (bs : List Byte) (s : State) :
    outsideMemory (holdObject part va bs s) = outsideMemory s := by
  refine foldl_keeps outsideMemory _ (fun t k => ?_) _ s
  rw [holdPage]
  split
  · rfl
  · rw [outsideMemory_physWrite, outsideMemory_mapLeaf, outsideMemory_of_unslotted (unslotted_takeFrame ..)]

theorem outsideMemory_lowerFrame (f : Nat) (s : State) : outsideMemory (lowerFrame f s) = outsideMemory s := by
  rw [lowerFrame]
  split <;> rfl

theorem outsideMemory_dropObject (part va n : Nat) (s : State) : outsideMemory (dropObject part va n s) = outsideMemory s := by
  have hpage (t : State) (e : Nat × DWord) : outsideMemory (unmapPage part e.1 t) = outsideMemory t := by
    rw [unmapPage]
    split
    · rfl
    · rw [outsideMemory_lowerFrame]
      rfl
  rw [dropObject, unmapRange]
  split
  · rfl
  · rw [foldl_keeps outsideMemory _ hpage]
    rfl

/-! ### Images and masks that go (R129, R130) -/

/-- What an image that goes leaves: its place is empty, and of the serving state nothing else has changed. -/
theorem dropImage_result (k : Nat) (s : State) :
    beyondServing (dropImage k s) = beyondServing s ∧ (dropImage k s).serve.owed = s.serve.owed ∧
    (dropImage k s).serve.masks = s.serve.masks ∧ tabGet none (dropImage k s).serve.images k = none ∧
    ∀ j, j ≠ k → tabGet none (dropImage k s).serve.images j = tabGet none s.serve.images j := by
  cases hx : tabGet none s.serve.images k with
  | none =>
    rw [dropImage, hx]
    exact ⟨rfl, rfl, rfl, hx, fun _ _ => rfl⟩
  | some x =>
    have hout : outsideMemory (dropImage k s) =
        ({ s.serve with images := tabSet none s.serve.images k none }, beyondServing s) := by
      rw [dropImage, hx]
      dsimp only
      rw [foldl_keeps outsideMemory _ fun t i => outsideMemory_of_unslotted (unregSlot_frame i t), outsideMemory_dropObject]
      rfl
    have hserve : (dropImage k s).serve = { s.serve with images := tabSet none s.serve.images k none } := congrArg Prod.fst hout
    rw [hserve]
    exact ⟨congrArg Prod.snd hout, rfl, rfl, tabGet_set_self none s.serve.images k none,
      fun j hj => tabGet_set_of_ne none s.serve.images none hj⟩

/-- What a mask object that goes leaves: its place is empty. -/
theorem dropMask_result (i : Nat) (s : State) :
    beyondServing (dropMask i s) = beyondServing s ∧ (dropMask i s).serve.owed = s.serve.owed ∧
    tabGet none (dropMask i s).serve.masks i = none := by
  cases hx : tabGet none s.serve.masks i with
  | none =>
    rw [dropMask, hx]
    exact ⟨rfl, rfl, hx⟩
  | some x =>
    have hout : outsideMemory (dropMask i s) = ({ s.serve with masks := tabSet none s.serve.masks i none }, beyondServing s) := by
      rw [dropMask, hx]
      exact (outsideMemory_dropObject ..).trans rfl
    have hserve : (dropMask i s).serve = { s.serve with masks := tabSet none s.serve.masks i none } := congrArg Prod.fst hout
    rw [hserve]
    exact ⟨congrArg Prod.snd hout, rfl, tabGet_set_self none s.serve.masks i none⟩

/-- What may go of the images that are to be unloaded: those that no command waits for. -/
def imagesSettled (s t : State) : Prop :=
  beyondServing t = beyondServing s ∧ t.serve.owed = s.serve.owed ∧ t.serve.masks = s.serve.masks ∧
  ∀ j, (tabGet none s.serve.images j = none → tabGet none t.serve.images j = none) ∧
    (s.serve.owed.any (fun q => q.1 = .image j) = true → tabGet none t.serve.images j = tabGet none s.serve.images j)

theorem imagesSettled_settleImages (s : State) : imagesSettled s (settleImages s) := by
  refine List.foldlRecOn (motive := imagesSettled s) _ _ ⟨rfl, rfl, rfl, fun _ => ⟨id, fun _ => rfl⟩⟩ fun t ht k _ => ?_
  split
  · exact ht
  · next hfree =>
    obtain ⟨hbeyond, howed, hmasks, himages⟩ := ht
    obtain ⟨hbeyond', howed', hmasks', hself, hother⟩ := dropImage_result k t
    refine ⟨hbeyond'.trans hbeyond, howed'.trans howed, hmasks'.trans hmasks, fun j => ?_⟩
    obtain ⟨hnone, hkept⟩ := himages j
    by_cases hj : j = k
    · subst hj
      refine ⟨fun _ => hself, fun hany => absurd ?_ hfree⟩
      rw [howed, hany, Bool.or_true]
    · rw [hother j hj]
      exact ⟨hnone, hkept⟩

/-! ### Commands that owe their reply (R130, R390) -/

/-- A command whose object is in use owes its reply. -/
theorem owe_of_used {c : Cmd} {k : OweKind} {s : State} (howed : s.serve.owed = []) (hused : oweUsed s k = true) :
    owe c k s = settleImages { s with serve := { s.serve with owed := [(k, replyOf c 0 0 0 0)] } } := by
  have hused' : oweUsed { s with serve := { s.serve with owed := [(k, replyOf c 0 0 0 0)] } } k = true := by
    cases k <;> exact hused
  rw [owe, howed, settleOwed, List.nil_append, List.foldl_cons, List.foldl_nil, if_pos hused']

/-- A command whose object is not in use is carried out and answered at once. -/
theorem owe_of_not_used {c : Cmd} {k : OweKind} {s : State} (howed : s.serve.owed = []) (hused : oweUsed s k = false) :
    owe c k s = settleImages (sendReply (replyOf c 0 0 0 (effectBeat (oweDrop k { s with serve := { s.serve with owed := [] } })))
      (oweDrop k { s with serve := { s.serve with owed := [] } })) := by
  have hused' : oweUsed { s with serve := { s.serve with owed := [(k, replyOf c 0 0 0 0)] } } k = false := by
    cases k <;> exact hused
  rw [owe, howed, settleOwed, List.nil_append, List.foldl_cons, List.foldl_nil, hused', if_neg Bool.false_ne_true]
  dsimp only
  rw [List.erase_cons_head]
  rfl

theorem sent_congr {r : Reply} {s s' t t' : State} (hnet : s'.net = s.net) (hbeat : s'.beat = s.beat) (htnet : t'.net = t.net)
    (h : sent r s t) : sent r s' t' := by
  simpa only [sent, qpOf, rqpOf, hnet, hbeat, htnet] using h

/-- What a command leaves that is carried out and answered at once: no image comes back, and the reply has gone out. -/
theorem owe_answered {c : Cmd} {k : OweKind} {s s' u : State} (howed : s.serve.owed = []) (hused : oweUsed s k = false)
    (hu : oweDrop k { s with serve := { s.serve with owed := [] } } = u) (hsame : beyondServing u = beyondServing s')
    (hdropped : u.serve.owed = []) :
    (owe c k s).serve.owed = [] ∧ (owe c k s).eng = s'.eng ∧ replied c 0 0 0 s' (owe c k s) ∧
    (owe c k s).serve.masks = u.serve.masks ∧
    ∀ j, tabGet none u.serve.images j = none → tabGet none (owe c k s).serve.images j = none := by
  rw [owe_of_not_used howed hused, hu]
  obtain ⟨heng, -, -, -, hnet, hbeat, hinput, -⟩ := by simpa only [beyondServing, Prod.mk.injEq] using hsame
  have hsent := sent_sendReply (replyOf c 0 0 0 (effectBeat u)) u
  have hframe := sendReply_frame (replyOf c 0 0 0 (effectBeat u)) u
  have heffect : effectBeat u = effectBeat s' := by rw [effectBeat, effectBeat, hbeat, hinput]
  generalize sendReply (replyOf c 0 0 0 (effectBeat u)) u = v at hsent hframe ⊢
  have hserve : v.serve = u.serve := (congrArg State.serve hframe :)
  have hveng : v.eng = u.eng := (congrArg State.eng hframe :)
  obtain ⟨hbeyond, howed', hmasks, himages⟩ := imagesSettled_settleImages v
  have hteng : (settleImages v).eng = v.eng := congrArg Prod.fst hbeyond
  have htnet : (settleImages v).net = v.net := congrArg (fun b => b.2.2.2.2.1) hbeyond
  rw [heffect] at hsent
  refine ⟨howed'.trans ((congrArg Serve.owed hserve).trans hdropped), hteng.trans (hveng.trans heng),
    sent_congr hnet.symm hbeat.symm htnet hsent, hmasks.trans (congrArg Serve.masks hserve), fun j hj => ?_⟩
  exact (himages j).1 ((congrArg (fun y : Serve => tabGet none y.images j) hserve).trans hj)

/-! ### PROG_UNLOAD and MASK_UNREG -/

/-- An image that is to be unloaded. -/
def imageLeaving (k : Nat) (x : Image) (s : State) : State :=
  { s with serve := { s.serve with images := tabSet none s.serve.images k (some { x with unloading := true }) } }

theorem images_imageLeaving (k : Nat) (x : Image) (s : State) :
    tabGet none (imageLeaving k x s).serve.images k = some { x with unloading := true } :=
  tabGet_set_self none s.serve.images k (some { x with unloading := true })

theorem execProgUnload_eq {c : Cmd} {k : Nat} {x : Image} {s : State} (hacc : accepted c 0x11 0 [] s)
    (himage : imageAt s c.obj.toNat = some (k, x)) (hpart : x.part = c.part) (hstays : x.unloading = false) :
    execProgUnload c s = .next (owe c (.image k) (imageLeaving k x s)) := by
  obtain ⟨hc, hstarted, hcheck, -⟩ := hacc
  rw [execProgUnload, mailbox, need_of_eq_true (decide_eq_true hc), if_pos hstarted, progUnloadOp, hcheck]
  dsimp only
  rw [himage]
  dsimp only
  rw [if_neg (not_not.2 hpart), hstays, if_neg Bool.false_ne_true]
  rfl

theorem execProgUnload_not_used {c : Cmd} {k : Nat} {x : Image} {s : State} (hacc : accepted c 0x11 0 [] s)
    (himage : imageAt s c.obj.toNat = some (k, x)) (hpart : x.part = c.part) (hstays : x.unloading = false)
    (howed : s.serve.owed = []) (hused : imageUsed s k = false) : leadsTo (execProgUnload c s) fun t =>
      tabGet none t.serve.images k = none ∧ t.serve.owed = [] ∧ t.eng = s.eng ∧ replied c 0 0 0 s t := by
  obtain ⟨hbeyond, hdropped, -, hself, -⟩ := dropImage_result k
    { imageLeaving k x s with serve := { (imageLeaving k x s).serve with owed := [] } }
  obtain ⟨howed', heng, hreply, -, himages⟩ := owe_answered (c := c) (k := .image k) (s := imageLeaving k x s) (s' := s) howed hused rfl
    hbeyond hdropped
  exact ⟨_, execProgUnload_eq hacc himage hpart hstays, himages k hself, howed', heng, hreply⟩

theorem execProgUnload_used {c : Cmd} {k : Nat} {x : Image} {s : State} (hacc : accepted c 0x11 0 [] s)
    (himage : imageAt s c.obj.toNat = some (k, x)) (hpart : x.part = c.part) (hstays : x.unloading = false)
    (howed : s.serve.owed = []) (hused : imageUsed s k = true) : leadsTo (execProgUnload c s) fun t =>
      tabGet none t.serve.images k = some { x with unloading := true } ∧
      t.serve.owed = [(.image k, replyOf c 0 0 0 0)] ∧ t.net = s.net := by
  refine ⟨_, execProgUnload_eq hacc himage hpart hstays, ?_⟩
  rw [owe_of_used (k := .image k) (s := imageLeaving k x s) howed hused]
  obtain ⟨hbeyond, howed', -, himages⟩ := imagesSettled_settleImages
    { imageLeaving k x s with serve := { (imageLeaving k x s).serve with owed := [(.image k, replyOf c 0 0 0 0)] } }
  have hwaits : [(OweKind.image k, replyOf c 0 0 0 0)].any (fun q => q.1 = .image k) = true := by simp
  exact ⟨((himages k).2 hwaits).trans (images_imageLeaving k x s), howed',
    congrArg (fun b => b.2.2.2.2.1) hbeyond⟩

/-- A mask object that is to be taken out. -/
def maskLeaving (i : Nat) (x : Mask) (s : State) : State :=
  { s with serve := { s.serve with masks := tabSet none s.serve.masks i (some { x with unloading := true }) } }

theorem masks_maskLeaving (i : Nat) (x : Mask) (s : State) :
    tabGet none (maskLeaving i x s).serve.masks i = some { x with unloading := true } :=
  tabGet_set_self none s.serve.masks i (some { x with unloading := true })

theorem execMaskUnreg_eq {c : Cmd} {i : Nat} {x : Mask} {s : State} (hacc : accepted c 0x19 0 [] s)
    (hat : maskAt c.obj.toNat = some i) (hmask : tabGet none s.serve.masks i = some x) (hpart : x.part = c.part)
    (hstays : x.unloading = false) : execMaskUnreg c s = .next (owe c (.mask i) (maskLeaving i x s)) := by
  obtain ⟨hc, hstarted, hcheck, -⟩ := hacc
  rw [execMaskUnreg, mailbox, need_of_eq_true (decide_eq_true hc), if_pos hstarted, maskUnregOp, hcheck]
  dsimp only
  rw [hat]
  dsimp only
  rw [hmask]
  dsimp only
  rw [if_neg (not_not.2 hpart), hstays, if_neg Bool.false_ne_true]
  rfl

/-- A mask object that is to be taken out is in use as its partition's masks are. -/
theorem oweUsed_maskLeaving (i : Nat) (x : Mask) (s : State) : oweUsed (maskLeaving i x s) (.mask i) = maskUsed s x.part := by
  rw [oweUsed, masks_maskLeaving]
  rfl

theorem execMaskUnreg_not_used {c : Cmd} {i : Nat} {x : Mask} {s : State} (hacc : accepted c 0x19 0 [] s)
    (hat : maskAt c.obj.toNat = some i) (hmask : tabGet none s.serve.masks i = some x) (hpart : x.part = c.part)
    (hstays : x.unloading = false) (howed : s.serve.owed = []) (hused : maskUsed s c.part = false) :
    leadsTo (execMaskUnreg c s) fun t =>
      tabGet none t.serve.masks i = none ∧ t.serve.owed = [] ∧ t.eng = s.eng ∧ replied c 0 0 0 s t := by
  obtain ⟨hbeyond, hdropped, hself⟩ := dropMask_result i
    { maskLeaving i x s with serve := { (maskLeaving i x s).serve with owed := [] } }
  obtain ⟨howed', heng, hreply, hmasks, -⟩ := owe_answered (c := c) (k := .mask i) (s := maskLeaving i x s) (s' := s) howed
    (by rw [oweUsed_maskLeaving, hpart, hused]) rfl hbeyond hdropped
  refine ⟨_, execMaskUnreg_eq hacc hat hmask hpart hstays, ?_, howed', heng, hreply⟩
  rw [hmasks]
  exact hself

theorem execMaskUnreg_used {c : Cmd} {i : Nat} {x : Mask} {s : State} (hacc : accepted c 0x19 0 [] s)
    (hat : maskAt c.obj.toNat = some i) (hmask : tabGet none s.serve.masks i = some x) (hpart : x.part = c.part)
    (hstays : x.unloading = false) (howed : s.serve.owed = []) (hused : maskUsed s c.part = true) :
    leadsTo (execMaskUnreg c s) fun t =>
      tabGet none t.serve.masks i = some { x with unloading := true } ∧ t.serve.owed = [(.mask i, replyOf c 0 0 0 0)] := by
  refine ⟨_, execMaskUnreg_eq hacc hat hmask hpart hstays, ?_⟩
  rw [owe_of_used (s := maskLeaving i x s) howed (by rw [oweUsed_maskLeaving, hpart, hused])]
  obtain ⟨-, howed', hmasks, -⟩ := imagesSettled_settleImages
    { maskLeaving i x s with serve := { (maskLeaving i x s).serve with owed := [(.mask i, replyOf c 0 0 0 0)] } }
  rw [hmasks]
  exact ⟨masks_maskLeaving i x s, howed'⟩

/-! ### Objects that are held and measured (R125, R360, R610) -/

theorem outsideMemory_heldObject (part kind va : Nat) (obj bs : List Byte) (s : State) :
    outsideMemory (extendLog part kind obj (holdObject part va bs s)) = outsideMemory s :=
  (show outsideMemory (extendLog part kind obj (holdObject part va bs s)) = outsideMemory (holdObject part va bs s) from rfl).trans
    (outsideMemory_holdObject part va bs s)

/-- An answer from a state that differs from the accepted one in its serving state and its memory. -/
theorem answer_of_outsideMemory {c : Cmd} {st : Status} {k : Nat} {v : DWord} {s t : State} {serve : Serve}
    (h : outsideMemory t = (serve, beyondServing s)) (hfw : s.fault.fwPoison = false) :
    (answer c st k v t).serve = serve ∧ (answer c st k v t).eng = s.eng ∧ (answer c st k v t).cue = s.cue ∧
    (answer c st k v t).flies = s.flies ∧ replied c st k v s (answer c st k v t) := by
  obtain ⟨hserve, heng, hcue, hflies, -, hnet, hbeat, hinput, hpoison⟩ := by
    simpa only [outsideMemory, beyondServing, Prod.mk.injEq] using h
  have hfw' : t.fault.fwPoison = false := hpoison.trans hfw
  have hframe := answer_frame c st k v hfw'
  have hreply := replied_answer c st k v hnet hbeat hinput hfw'
  generalize answer c st k v t = u at hframe hreply ⊢
  exact ⟨(congrArg State.serve hframe :).trans hserve, (congrArg State.eng hframe :).trans heng, (congrArg State.cue hframe :).trans hcue,
    (congrArg State.flies hframe :).trans hflies, hreply⟩

/-! ### PROG_LOAD (R122 to R125) -/

/-- The two low bytes of a field, as a number. -/
theorem leAt_two (bs : List Byte) (off : Nat) : leAt bs off 2 = (bs.getD off 0).toNat + 256 * (bs.getD (off + 1) 0).toNat := by
  have h0 : bs.getD off 0 = (bs.drop off).getD 0 0 := by simp [List.getD_eq_getElem?_getD]
  have h1 : bs.getD (off + 1) 0 = (bs.drop off).getD 1 0 := by simp [List.getD_eq_getElem?_getD]
  rw [leAt, slice, h0, h1]
  rcases bs.drop off with _ | ⟨a, _ | ⟨b, rest⟩⟩ <;> simp [leNat]

/-- The flags of an image's header. -/
theorem imageHead_flags (bs : List Byte) :
    (imageHead bs).walkon = bitAt (bs.getD 6 0) 0 ∧ (imageHead bs).train = bitAt (bs.getD 6 0) 1 := by
  rw [imageHead, leAt_two bs 6]
  constructor <;> rw [Bool.eq_iff_iff, decide_eq_true_eq, ← fld_bit_eq_one_iff, fld_eq_div_mod] <;> omega

/-- The image of a program's bytes. -/
def imageOf (part : Nat) (bs : List Byte) : Image :=
  ⟨part, bitAt (bs.getD 6 0) 0, bitAt (bs.getD 6 0) 1, BitVec.ofNat 32 (leAt bs 12 4), leAt bs 16 4, leAt bs 20 4, leAt bs 24 2,
    imageWords bs, false⟩

/-- An image that has been loaded at the next address. -/
def imageLoaded (part : Nat) (bs : List Byte) (s : State) : State :=
  { s with serve := { s.serve with
      nextImage := s.serve.nextImage + 1
      images := tabSet none s.serve.images s.serve.nextImage (some (imageOf part bs)) } }

section
variable {c : Cmd} {s : State} (hacc : accepted c 0x10 0 [(32, 8), (40, 4)] s) (hkey : keyHeld s c.part = true)
  (hal : inl c 32 8 % 64 = 0) (hmin : 64 ≤ inl c 40 4) (hmax : inl c 40 4 ≤ 64 + 8 * 131064)
  (hread : readable c.part (inl c 32 8) (inl c 40 4) s)
include hacc hkey hal hmin hmax hread

theorem execProgLoad_eq : execProgLoad c s = .next
    (let bs := bytesAt s c.part (inl c 32 8) (inl c 40 4)
     match imageCheck bs (guarOf s c.part) with
     | some (n, i) => answer c 0x0A n (BitVec.ofNat 64 i) s
     | none => answer c 0 0 (BitVec.ofNat 64 (imageAddr s.serve.nextImage))
         (extendLog c.part 1 bs (holdObject c.part (imageAddr s.serve.nextImage) bs (imageLoaded c.part bs s)))) := by
  obtain ⟨hc, hstarted, hcheck, -⟩ := hacc
  have hsize : (decide (inl c 40 4 < 64) || decide (inl c 40 4 > 64 + 8 * 131064)) = false := by
    rw [Bool.or_eq_false_iff, decide_eq_false_iff_not, decide_eq_false_iff_not]
    omega
  rw [execProgLoad, mailbox, need_of_eq_true (decide_eq_true hc), if_pos hstarted, progLoadOp, hcheck]
  dsimp only
  rw [hkey, Bool.not_true, if_neg Bool.false_ne_true, if_neg (not_not.2 hal), hsize, if_neg Bool.false_ne_true,
    readPart_of_readable hread]
  dsimp only
  obtain ⟨hwalkon, htrain⟩ := imageHead_flags (bytesAt s c.part (inl c 32 8) (inl c 40 4))
  cases imageCheck (bytesAt s c.part (inl c 32 8) (inl c 40 4)) (guarOf s c.part) with
  | some p => rfl
  | none =>
    dsimp only
    rw [hwalkon, htrain]
    rfl

theorem execProgLoad_loaded
    (hok : imageCheck (bytesAt s c.part (inl c 32 8) (inl c 40 4)) (guarOf s c.part) = none) :
    leadsTo (execProgLoad c s) fun t =>
      tabGet none t.serve.images s.serve.nextImage = some (imageOf c.part (bytesAt s c.part (inl c 32 8) (inl c 40 4))) ∧
      (∀ j, j ≠ s.serve.nextImage → tabGet none t.serve.images j = tabGet none s.serve.images j) ∧
      t.serve.nextImage = s.serve.nextImage + 1 ∧ t.eng = s.eng ∧ t.cue = s.cue ∧ t.flies = s.flies ∧
      replied c 0 0 (BitVec.ofNat 64 (0xF00000000000 + s.serve.nextImage * 0x100000)) s t := by
  obtain ⟨-, -, -, hfw⟩ := id hacc
  refine ⟨_, execProgLoad_eq hacc hkey hal hmin hmax hread, ?_⟩
  dsimp only
  rw [hok]
  set bs := bytesAt s c.part (inl c 32 8) (inl c 40 4)
  have hout := outsideMemory_heldObject c.part 1 (imageAddr s.serve.nextImage) bs bs (imageLoaded c.part bs s)
  obtain ⟨hserve, heng, hcue, hflies, hreply⟩ := answer_of_outsideMemory (c := c) (st := 0) (k := 0)
    (v := BitVec.ofNat 64 (imageAddr s.serve.nextImage)) (s := s) (serve := (imageLoaded c.part bs s).serve) hout hfw
  refine ⟨?_, fun j hj => ?_, ?_, heng, hcue, hflies, hreply⟩ <;> dsimp only <;> rw [hserve]
  · exact tabGet_set_self none s.serve.images s.serve.nextImage (some (imageOf c.part bs))
  · exact tabGet_set_of_ne none s.serve.images (some (imageOf c.part bs)) hj
  · rfl

theorem execProgLoad_refused {n i : Nat}
    (hbad : imageCheck (bytesAt s c.part (inl c 32 8) (inl c 40 4)) (guarOf s c.part) = some (n, i)) :
    leadsTo (execProgLoad c s) fun t =>
      t.serve = s.serve ∧ keepsUnits s t ∧ replied c 0x0A n (BitVec.ofNat 64 i) s t := by
  obtain ⟨-, -, -, hfw⟩ := id hacc
  refine ⟨_, execProgLoad_eq hacc hkey hal hmin hmax hread, ?_⟩
  dsimp only
  rw [hbad]
  have hframe := answer_frame c 0x0A n (BitVec.ofNat 64 i) hfw
  exact ⟨(congrArg State.serve hframe :), ⟨(congrArg State.eng hframe :), (congrArg State.sh hframe :), (congrArg State.cue hframe :),
    (congrArg State.flies hframe :), (congrArg (fun u : State => u.mem.bytes) hframe :)⟩, replied_answer c _ _ _ rfl rfl rfl hfw⟩

end

/-! ### MASK_REG (R357, R358) -/

/-- A mask object that has been registered. -/
def maskRegistered (i : Nat) (x : Mask) (s : State) : State :=
  { s with serve := { s.serve with masks := tabSet none s.serve.masks i (some x) } }

/-- What a registered mask object leaves. -/
theorem regMask_result {c : Cmd} {h : MaskHead} {tiles : List Word} {bitmaps : List (List Byte)} {obj : List Byte} {s : State} {i : Nat}
    (hfw : s.fault.fwPoison = false) (hfree : tabFree s.serve.masks (2 ^ 15) = some i) :
    let t := regMask c h tiles bitmaps obj s
    tabGet none t.serve.masks i =
      some ⟨c.part, h.nqt, h.nkt, (maskCanon tiles bitmaps).1, (maskCanon tiles bitmaps).2, false⟩ ∧
    (∀ j, j ≠ i → tabGet none t.serve.masks j = tabGet none s.serve.masks j) ∧ t.eng = s.eng ∧ t.cue = s.cue ∧
    replied c 0 0 (BitVec.ofNat 64 (maskBase i)) s t := by
  set x : Mask := ⟨c.part, h.nqt, h.nkt, (maskCanon tiles bitmaps).1, (maskCanon tiles bitmaps).2, false⟩
  have heq : regMask c h tiles bitmaps obj s = answer c 0 0 (BitVec.ofNat 64 (maskBase i)) (extendLog c.part 4 obj
      (holdObject c.part (maskBase i) (maskBytes h.nqt h.nkt x.tiles x.bitmaps) (maskRegistered i x s))) := by
    unfold regMask maskRegistered
    rw [hfree]
  have hout := outsideMemory_heldObject c.part 4 (maskBase i) obj (maskBytes h.nqt h.nkt x.tiles x.bitmaps) (maskRegistered i x s)
  obtain ⟨hserve, heng, hcue, -, hreply⟩ := answer_of_outsideMemory (c := c) (st := 0) (k := 0)
    (v := BitVec.ofNat 64 (maskBase i)) (s := s) (serve := (maskRegistered i x s).serve) hout hfw
  rw [heq]
  dsimp only
  rw [hserve]
  exact ⟨tabGet_set_self none s.serve.masks i (some x), fun j hj => tabGet_set_of_ne none s.serve.masks (some x) hj, heng, hcue,
    hreply⟩

theorem execMaskReg_eq {c : Cmd} {s : State} (hacc : accepted c 0x18 0 [] s) (hkey : keyHeld s c.part = true)
    (hal : c.obj.toNat % 64 = 0) (hva : c.obj.toNat < 2 ^ 47) {h : MaskHead} {tb bb : List Byte}
    (hhead : readable c.part c.obj.toNat 64 s) (hh : maskHead (bytesAt s c.part c.obj.toNat 64) = h) (hok : h.ok = true)
    (htable : c.obj.toNat + h.tbl + 4 * h.nqt * h.nkt ≤ 2 ^ 47) (hbitmaps : c.obj.toNat + h.bmp + 2048 * h.nbmp ≤ 2 ^ 47)
    (hrt : readable c.part (c.obj.toNat + h.tbl) (4 * h.nqt * h.nkt) s)
    (htb : bytesAt s c.part (c.obj.toNat + h.tbl) (4 * h.nqt * h.nkt) = tb)
    (hrb : readable c.part (c.obj.toNat + h.bmp) (2048 * h.nbmp) s)
    (hbb : bytesAt s c.part (c.obj.toNat + h.bmp) (2048 * h.nbmp) = bb)
    (hcrc : leAt (bytesAt s c.part c.obj.toNat 64) 60 4 = crc32c ((bytesAt s c.part c.obj.toNat 64).take 60 ++ tb ++ bb))
    (htiles : (maskTiles (h.nqt * h.nkt) tb).all (tileOk h.nbmp) = true) :
    execMaskReg c s = .next (regMask c h (maskTiles (h.nqt * h.nkt) tb)
      ((List.range h.nbmp).map fun i => slice bb (2048 * i) 2048) (bytesAt s c.part c.obj.toNat 64 ++ tb ++ bb) s) := by
  obtain ⟨hc, hstarted, hcheck, -⟩ := hacc
  rw [execMaskReg, mailbox, need_of_eq_true (decide_eq_true hc), if_pos hstarted, maskRegOp, hcheck]
  dsimp only
  rw [hkey, Bool.not_true, if_neg Bool.false_ne_true, if_neg (by simp [hal]; omega), readPart_of_readable hhead]
  dsimp only
  rw [hh, if_neg (by simp [hok]; omega), readPart_of_readable hrt]
  dsimp only
  rw [readPart_of_readable hrb]
  dsimp only
  rw [htb, hbb, htiles, if_neg (by simp [hcrc])]

/-- Settles O36: each command's checks lead to one operation on the serving state; pages, records and replies leave the rest
(`outsideMemory_heldObject`, `imagesSettled_settleImages`, `owe_answered`). -/
theorem imagesAndMasks : Obligations.ImagesAndMasks := by
  unfold Obligations.ImagesAndMasks
  refine ⟨?_, ?_, ?_, ?_⟩
  · intro c s hacc hkey hal hmin hmax hread bs k
    exact ⟨fun hok => execProgLoad_loaded hacc hkey hal hmin hmax hread hok,
      fun n i hbad => execProgLoad_refused hacc hkey hal hmin hmax hread hbad⟩
  · intro c k x s hacc himage hpart hstays howed
    exact ⟨fun hused => execProgUnload_not_used hacc himage hpart hstays howed hused,
      fun hused => execProgUnload_used hacc himage hpart hstays howed hused⟩
  · intro c i s hacc hkey hal hva va hb h tb bb tiles canon htable hbitmaps hhead hok hrt hrb hcrc htiles hfree
    have ⟨_, _, _, hfw⟩ := hacc
    have heq := execMaskReg_eq hacc hkey hal hva hhead rfl hok htable hbitmaps hrt rfl hrb rfl hcrc htiles
    have hresult := regMask_result (c := c) (h := h) (tiles := tiles) (obj := hb ++ tb ++ bb)
      (bitmaps := (List.range h.nbmp).map fun n => slice bb (2048 * n) 2048) hfw hfree
    refine ⟨_, ?_, hresult⟩
    dsimp only [exec]
    exact heq
  · intro c i x s hacc hat hmask hpart hstays howed
    exact ⟨fun hused => execMaskUnreg_not_used hacc hat hmask hpart hstays howed hused,
      fun hused => execMaskUnreg_used hacc hat hmask hpart hstays howed hused⟩

end Sys2Proof.Machine
end

section
/-! SUPPORT. Words of Isvex instructions (O18): the fields of a packed word, and the instruction that a class, a function and fields spell. -/

namespace Sys2Proof.Machine

open Sys2Proof

/-! ### Fields of a packed word (R174) -/

section
variable {major func : Nat} (hmajor : major < 64) (hfunc : func < 64) (f : Fields)
include hmajor hfunc

theorem toNat_packWord : (packWord major func f).toNat = major * 2 ^ 58 + func * 2 ^ 52 + f.a.toNat * 2 ^ 47 +
    f.b.toNat * 2 ^ 42 + f.c.toNat * 2 ^ 37 + f.d.toNat * 2 ^ 32 + f.imm.toNat := by
  rw [packWord, BitVec.toNat_ofNat, Nat.mod_eq_of_lt]
  omega

theorem wordMajor_packWord : wordMajor (packWord major func f) = major := by
  rw [wordMajor, fld_eq_div_mod, toNat_packWord hmajor hfunc]
  omega

theorem wordFunc_packWord : wordFunc (packWord major func f) = func := by
  rw [wordFunc, fld_eq_div_mod, toNat_packWord hmajor hfunc]
  omega

theorem wordFields_packWord : wordFields (packWord major func f) = f := by
  obtain ⟨a, b, c, d, imm⟩ := f
  simp only [wordFields, fld_eq_div_mod, toNat_packWord hmajor hfunc, Fields.mk.injEq]
  refine ⟨?_, ?_, ?_, ?_, ?_⟩ <;> refine BitVec.eq_of_toNat_eq ?_ <;> rw [BitVec.toNat_ofNat] <;> omega

end

/-- A number from bit `lo` on is its `k` bits there, and the rest above them. -/
theorem div_two_pow_eq (n lo k : Nat) : n / 2 ^ lo = n / 2 ^ (lo + k) * 2 ^ k + n / 2 ^ lo % 2 ^ k := by
  rw [pow_add, ← Nat.div_div_eq_div_mul, Nat.div_add_mod']

/-- A word is the packing of its own fields. -/
theorem packWord_word (w : DWord) : packWord (wordMajor w) (wordFunc w) (wordFields w) = w := by
  have hmajor : w.toNat / 2 ^ 58 % 2 ^ 6 = w.toNat / 2 ^ 58 := Nat.mod_eq_of_lt (by have := w.isLt; omega)
  have hsum : w.toNat / 2 ^ 58 % 2 ^ 6 * 2 ^ 58 + w.toNat / 2 ^ 52 % 2 ^ 6 * 2 ^ 52 + w.toNat / 2 ^ 47 % 2 ^ 5 * 2 ^ 47 +
      w.toNat / 2 ^ 42 % 2 ^ 5 * 2 ^ 42 + w.toNat / 2 ^ 37 % 2 ^ 5 * 2 ^ 37 + w.toNat / 2 ^ 32 % 2 ^ 5 * 2 ^ 32 +
      w.toNat / 2 ^ 0 % 2 ^ 32 = w.toNat := by
    have hfunc : w.toNat / 2 ^ 52 = w.toNat / 2 ^ 58 * 2 ^ 6 + w.toNat / 2 ^ 52 % 2 ^ 6 := div_two_pow_eq _ 52 6
    have ha : w.toNat / 2 ^ 47 = w.toNat / 2 ^ 52 * 2 ^ 5 + w.toNat / 2 ^ 47 % 2 ^ 5 := div_two_pow_eq _ 47 5
    have hb : w.toNat / 2 ^ 42 = w.toNat / 2 ^ 47 * 2 ^ 5 + w.toNat / 2 ^ 42 % 2 ^ 5 := div_two_pow_eq _ 42 5
    have hc : w.toNat / 2 ^ 37 = w.toNat / 2 ^ 42 * 2 ^ 5 + w.toNat / 2 ^ 37 % 2 ^ 5 := div_two_pow_eq _ 37 5
    have hd : w.toNat / 2 ^ 32 = w.toNat / 2 ^ 37 * 2 ^ 5 + w.toNat / 2 ^ 32 % 2 ^ 5 := div_two_pow_eq _ 32 5
    have himm : w.toNat = w.toNat / 2 ^ 32 * 2 ^ 32 + w.toNat / 2 ^ 0 % 2 ^ 32 := by
      conv_lhs => rw [← Nat.div_one w.toNat]
      exact div_two_pow_eq _ 0 32
    rw [hmajor]
    linarith only [hfunc, ha, hb, hc, hd, himm]
  refine BitVec.eq_of_toNat_eq ?_
  simp only [packWord, wordMajor, wordFunc, wordFields, fld_eq_div_mod, BitVec.toNat_ofNat, Nat.reduceAdd, Nat.reduceSub, Nat.mod_mod]
  rw [hsum, Nat.mod_eq_of_lt w.isLt]

/-! ### The opcode map -/

/-- The classes and the functions of the map fit their fields, and the map spells each instruction that it numbers. -/
theorem isvexInstr_of_isvexOf {i : Instr} {e major func : Nat} {f : Fields} (h : isvexOf i = some (e, major, func, f)) :
    major < 64 ∧ func < 64 ∧ (wordOk major func f = true → isvexInstr e major func f = some i) := by
  cases i <;> cases h <;> exact ⟨by decide, by decide, fun hw => if_pos hw⟩

/-- What the map spells has that class, that function and those fields. -/
theorem isvexOf_of_isvexInstr {i : Instr} {e major func : Nat} {f : Fields} (h : isvexInstr e major func f = some i) :
    wordOk major func f = true ∧ isvexOf i = some (e, major, func, f) := by
  unfold isvexInstr at h
  split at h
  case isTrue hw =>
    refine ⟨hw, ?_⟩
    split at h
    case h_1 => unfold isvexCtrl at h; split at h <;> cases h <;> rfl
    case h_2 => unfold isvexScalar at h; split at h <;> cases h <;> rfl
    case h_3 => unfold isvexImm at h; split at h <;> cases h <;> rfl
    case h_4 => unfold isvexBranch at h; split at h <;> cases h <;> rfl
    case h_5 => unfold isvexLm at h; split at h <;> cases h <;> rfl
    case h_6 => unfold isvexXfer at h; split at h <;> cases h <;> rfl
    case h_7 => unfold isvexMx at h; split at h <;> cases h <;> rfl
    case h_8 => unfold isvexVec at h; split at h <;> cases h <;> rfl
    case h_9 => unfold isvexAttn at h; split at h <;> cases h <;> rfl
    case h_10 => unfold isvexCue at h; split at h <;> cases h <;> rfl
    case h_11 => unfold isvexFly at h; split at h <;> cases h <;> rfl
    case h_12 => unfold isvexSys at h; split at h <;> cases h <;> rfl
    case h_13 => cases h
  case isFalse => cases h

theorem isvexEncode_eq_some_iff {i : Instr} {w : DWord} : isvexEncode i = some w ↔ ∃ e major func f,
    isvexOf i = some (e, major, func, f) ∧ wordOk major func f = true ∧ packWord major func f = w := by
  rw [isvexEncode]
  cases isvexOf i with
  | none => simp
  | some p =>
    obtain ⟨e, major, func, f⟩ := p
    simp

/-- Settles O18: packing a word and reading its fields undo each other, and so do the map of the instructions and what it spells. -/
theorem isvexWordsRoundTrip : Obligations.IsvexWordsRoundTrip := by
  unfold Obligations.IsvexWordsRoundTrip
  refine ⟨fun i e major func f w hof hencode => ?_, fun e w i hdecode => ?_⟩
  · obtain ⟨e', major', func', f', hof', hw, rfl⟩ := isvexEncode_eq_some_iff.1 hencode
    cases hof.symm.trans hof'
    obtain ⟨hmajor, hfunc, hspells⟩ := isvexInstr_of_isvexOf hof
    rw [isvexDecode, wordMajor_packWord hmajor hfunc, wordFunc_packWord hmajor hfunc, wordFields_packWord hmajor hfunc]
    exact hspells hw
  · obtain ⟨hw, hof⟩ := isvexOf_of_isvexInstr hdecode
    exact ⟨isvexEncode_eq_some_iff.2 ⟨_, _, _, _, hof, hw, packWord_word w⟩, hof⟩

end Sys2Proof.Machine
end

section
/-! SUPPORT. SCALAR instructions (O2, O3, O4): the scalar register that an instruction writes, and the values of R174's table. -/

namespace Sys2Proof.Machine

open Sys2Proof

/-! ### Signed and unsigned values -/

section
variable {n : Nat} (a b : BitVec n)

theorem smin_eq_ofInt : (if a.slt b then a else b) = BitVec.ofInt n (min a.toInt b.toInt) := by
  rw [BitVec.slt_eq_decide]
  by_cases h : a.toInt < b.toInt
  · rw [min_eq_left h.le, BitVec.ofInt_toInt, if_pos (decide_eq_true h)]
  · rw [min_eq_right (not_lt.1 h), BitVec.ofInt_toInt, if_neg (by simp [h])]

theorem smax_eq_ofInt : (if a.slt b then b else a) = BitVec.ofInt n (max a.toInt b.toInt) := by
  rw [BitVec.slt_eq_decide]
  by_cases h : a.toInt < b.toInt
  · rw [max_eq_right h.le, BitVec.ofInt_toInt, if_pos (decide_eq_true h)]
  · rw [max_eq_left (not_lt.1 h), BitVec.ofInt_toInt, if_neg (by simp [h])]

theorem umin_eq_ofNat : (if a.ult b then a else b) = BitVec.ofNat n (min a.toNat b.toNat) := by
  rw [BitVec.ult_eq_decide]
  by_cases h : a.toNat < b.toNat
  · rw [min_eq_left h.le, if_pos (decide_eq_true h), BitVec.ofNat_toNat, BitVec.setWidth_eq]
  · rw [min_eq_right (not_lt.1 h), if_neg (by simp [h]), BitVec.ofNat_toNat, BitVec.setWidth_eq]

theorem umax_eq_ofNat : (if a.ult b then b else a) = BitVec.ofNat n (max a.toNat b.toNat) := by
  rw [BitVec.ult_eq_decide]
  by_cases h : a.toNat < b.toNat
  · rw [max_eq_right h.le, if_pos (decide_eq_true h), BitVec.ofNat_toNat, BitVec.setWidth_eq]
  · rw [max_eq_left (not_lt.1 h), if_neg (by simp [h]), BitVec.ofNat_toNat, BitVec.setWidth_eq]

theorem mul_eq_ofNat : a * b = BitVec.ofNat n (a.toNat * b.toNat) := by
  simp only [BitVec.ofNat_mul, BitVec.ofNat_toNat, BitVec.setWidth_eq]

end

theorem flag64_slt (a b : DWord) : flag64 (a.slt b) = if a.toInt < b.toInt then 1 else 0 := by
  simp only [flag64, BitVec.slt_eq_decide, decide_eq_true_eq]
  rfl

theorem flag64_ult (a b : DWord) : flag64 (a.ult b) = if a.toNat < b.toNat then 1 else 0 := by
  simp only [flag64, BitVec.ult_eq_decide, decide_eq_true_eq]
  rfl

/-! ### sext(IMM) (R186, R187) -/

/-- The low bits of sext(IMM) are those of IMM. -/
theorem toNat_sext_mod (i : Word) {k : Nat} (hk : k ≤ 32) : (sext i).toNat % 2 ^ k = i.toNat % 2 ^ k := by
  have hdvd : 2 ^ k ∣ 2 ^ 64 - 2 ^ 32 := Nat.dvd_sub (pow_dvd_pow 2 (by omega)) (pow_dvd_pow 2 hk)
  have hwide : i.toNat % 2 ^ 64 = i.toNat := Nat.mod_eq_of_lt (by have := i.isLt; omega)
  rw [sext, BitVec.toNat_signExtend, BitVec.toNat_setWidth, hwide]
  split
  · obtain ⟨m, hm⟩ := hdvd
    rw [hm, Nat.add_mul_mod_self_left]
  · rfl

theorem truncate_sext (i : Word) : (sext i).truncate 20 = BitVec.ofInt 20 i.toInt := by
  have hlow : BitVec.ofInt 20 i.toInt = i.setWidth 20 := BitVec.signExtend_eq_setWidth_of_le i (by decide)
  rw [hlow, BitVec.truncate_eq_setWidth]
  refine BitVec.eq_of_toNat_eq ?_
  rw [BitVec.toNat_setWidth, BitVec.toNat_setWidth, toNat_sext_mod i (by decide)]

/-- movhi keeps the low half of rs1 and takes IMM as the high half. -/
theorem movhi_eq_ofNat (a : DWord) (i : Word) : a &&& 0xFFFFFFFF#64 ||| BitVec.ofNat 64 (i.toNat * 2 ^ 32) =
    BitVec.ofNat 64 (a.toNat % 2 ^ 32 + i.toNat * 2 ^ 32) := by
  have hlow : (a &&& 0xFFFFFFFF#64).toNat = a.toNat % 2 ^ 32 := Nat.and_two_pow_sub_one_eq_mod a.toNat 32
  have hsum : a.toNat % 2 ^ 32 + i.toNat * 2 ^ 32 < 2 ^ 64 := by have := i.isLt; omega
  have hhigh : i.toNat * 2 ^ 32 < 2 ^ 64 := by omega
  refine BitVec.eq_of_toNat_eq ?_
  rw [BitVec.toNat_or, hlow, BitVec.toNat_ofNat, BitVec.toNat_ofNat, Nat.mod_eq_of_lt hhigh, Nat.mod_eq_of_lt hsum, Nat.or_comm,
    Nat.mul_comm, ← Nat.two_pow_add_eq_or_of_lt (Nat.mod_lt _ (by decide)), Nat.add_comm]

/-! ### Instructions that write one scalar register (R107) -/

theorem scalarResult_setEng (e : Nat) (r : BitVec 5) (v : DWord) (pc : BitVec 20) (s : State) :
    scalarResult e r v pc s (setEng e { wrS (engOf s e) r v with pc := pc } s) := by
  refine ⟨onlyEngine_setEng .., fun q => ?_, ?_, ?_⟩ <;> rw [engOf_setEng_self]
  · exact rdS_wrS (engOf s e) r q v
  · rw [wrS]
    split <;> rfl

section
variable {e major func : Nat} {f : Fields} {s : State} {c : EntryCtx}

/-- An instruction that writes one scalar register, and has no other effect, gives that result. -/
theorem runEng_scalar (h : issues s e c) {g : EntryCtx → Engine → IRes} {r : BitVec 5} {v : DWord} {pc : BitVec 20}
    (hw : wordOk major func f = true) (hg : g c (engOf s e) = .ok (setEng e { wrS (engOf s e) r v with pc := pc } s)) :
    leadsTo (runEng e major func f s g) (scalarResult e r v pc s) := ⟨_, runEng_ok h hw hg, scalarResult_setEng ..⟩

theorem advance_wrS (x : Engine) (r : BitVec 5) (v : DWord) : advance (wrS x r v) = { wrS x r v with pc := x.pc + 8#20 } := by
  rw [advance, wrS_pc]

theorem runReg_scalar (h : issues s e c) {r : BitVec 5} {g : Engine → DWord} {v : DWord} (hv : g (engOf s e) = v)
    (hw : wordOk major func f = true) :
    leadsTo (runReg e major func f s fun x => wrS x r (g x)) (scalarResult e r v (nextPc s e) s) := by
  subst hv
  exact runEng_scalar h hw (by rw [advance_wrS]; rfl)

theorem aluReg_scalar (h : issues s e c) {g : DWord → DWord → DWord} {v : DWord}
    (hv : g (rdS (engOf s e) f.b) (rdS (engOf s e) f.c) = v) (hw : wordOk 1 func f = true) :
    leadsTo (aluReg e func f s g) (scalarResult e f.a v (nextPc s e) s) := runReg_scalar h hv hw

theorem aluImm_scalar (h : issues s e c) {g : DWord → DWord → DWord} {v : DWord}
    (hv : g (rdS (engOf s e) f.b) (sext f.imm) = v) (hw : wordOk 2 func f = true) :
    leadsTo (aluImm e func f s g) (scalarResult e f.a v (nextPc s e) s) := runReg_scalar h hv hw

/-! ### Branches (R187, R188) -/

/-- Where a taken branch goes. -/
def branchTarget (s : State) (e : Nat) (f : Fields) : BitVec 20 := (engOf s e).pc + BitVec.ofInt 20 f.imm.toInt

/-- A branch leaves the registers alone and goes to its target, or to the next instruction. -/
theorem branchIf_goes (h : issues s e c) {g : DWord → DWord → Bool} {taken : Prop}
    (hg : g (rdS (engOf s e) f.a) (rdS (engOf s e) f.b) = true ↔ taken) (hw : wordOk 3 func f = true) :
    (taken → leadsTo (branchIf e func f s g) (scalarResult e 0 0 (branchTarget s e f) s)) ∧
    (¬ taken → leadsTo (branchIf e func f s g) (scalarResult e 0 0 (nextPc s e) s)) := by
  rw [← hg, branchTarget, ← truncate_sext]
  exact ⟨fun ht => runEng_scalar h hw (by rw [if_pos ht]; rfl), fun ht => runEng_scalar h hw (by rw [if_neg ht]; rfl)⟩

/-- dbnz writes s[A], and goes to its target unless the result is 0. -/
theorem execDbnz_goes (h : issues s e c) (hw : wordOk 3 9 f = true) :
    let v := rdS (engOf s e) f.a - 1
    (v ≠ 0 → leadsTo (execDbnz e f s) (scalarResult e f.a v (branchTarget s e f) s)) ∧
    (¬ v ≠ 0 → leadsTo (execDbnz e f s) (scalarResult e f.a v (nextPc s e) s)) := by
  intro v
  rw [branchTarget, ← truncate_sext]
  refine ⟨fun hv => runEng_scalar h hw ?_, fun hv => runEng_scalar h hw ?_⟩
  · dsimp only
    rw [if_pos hv, branchTo, wrS_pc]
  · dsimp only
    rw [if_neg hv, advance_wrS]
    rfl

end

/-- Settles O2: each instruction writes the value of its row of the table to rd. -/
theorem scalarRegisterResults : Obligations.ScalarRegisterResults := by
  unfold Obligations.ScalarRegisterResults
  intro e f s c h
  dsimp only [exec]
  exact ⟨aluReg_scalar h rfl, aluReg_scalar h rfl, aluReg_scalar h rfl, aluReg_scalar h rfl, aluReg_scalar h rfl,
    aluReg_scalar h rfl, aluReg_scalar h rfl, aluReg_scalar h rfl, aluReg_scalar h (mul_eq_ofNat ..), aluReg_scalar h rfl,
    aluReg_scalar h rfl, aluReg_scalar h rfl, aluReg_scalar h rfl, aluReg_scalar h (flag64_slt ..),
    aluReg_scalar h (flag64_ult ..), aluReg_scalar h (smin_eq_ofInt ..), aluReg_scalar h (smax_eq_ofInt ..),
    aluReg_scalar h (umin_eq_ofNat ..), aluReg_scalar h (umax_eq_ofNat ..), runReg_scalar h rfl⟩

/-- Settles O3: each instruction writes the value of its row of the table to rd; a shift's count is IMM itself. -/
theorem scalarImmediateResults : Obligations.ScalarImmediateResults := by
  unfold Obligations.ScalarImmediateResults
  intro e f s c h
  dsimp only [exec]
  have hcount : (sext f.imm).toNat % 64 = f.imm.toNat % 64 := toNat_sext_mod f.imm (k := 6) (by decide)
  exact ⟨aluImm_scalar h rfl, aluImm_scalar h rfl, aluImm_scalar h rfl, aluImm_scalar h rfl,
    aluImm_scalar h (by rw [hcount]), aluImm_scalar h (by rw [hcount]), aluImm_scalar h (by rw [hcount]),
    aluImm_scalar h (flag64_slt ..), aluImm_scalar h (flag64_ult ..), runReg_scalar h (movhi_eq_ofNat ..)⟩

/-- Settles O4: a branch goes to its target when its condition, signed or unsigned, holds. -/
theorem branchTargets : Obligations.BranchTargets := by
  unfold Obligations.BranchTargets
  intro e f s c h
  dsimp only [exec]
  refine ⟨branchIf_goes h ?_, branchIf_goes h ?_, branchIf_goes h BitVec.slt_iff_toInt_lt, branchIf_goes h ?_,
    branchIf_goes h ?_, branchIf_goes h ?_, branchIf_goes h (by simp), execDbnz_goes h⟩
  · exact decide_eq_true_iff
  · exact decide_eq_true_iff
  · rw [BitVec.slt_eq_decide, Bool.not_eq_true', decide_eq_false_iff_not, not_lt]
  · rw [BitVec.ult_eq_decide, decide_eq_true_iff]
  · rw [BitVec.ult_eq_decide, Bool.not_eq_true', decide_eq_false_iff_not, not_lt]

end Sys2Proof.Machine
end

section
/-! SUPPORT. LM instructions (O5, O6): the register or the bytes that an access writes, and the flag of R273 for what moves. -/

namespace Sys2Proof.Machine

open Sys2Proof

/-! ### Bytes that are read -/

/-- A part of a range that is read is the range of that part. -/
theorem slice_tabRead (t : Tab Byte) (a : Nat) {off n m : Nat} (h : off + n ≤ m) :
    slice (tabRead 0#8 t a m) off n = tabRead 0#8 t (a + off) n := by
  have hlen : (((tabRead 0#8 t a m).drop off).take n).length = n := by
    rw [List.length_take, List.length_drop, tabRead_length]
    omega
  rw [slice, hlen, Nat.sub_self, List.replicate_zero, List.append_nil]
  refine List.ext_getElem (by rw [hlen, tabRead_length]) fun i hi _ => ?_
  simp [tabRead, Nat.add_assoc]

/-- A byte of a range that is read, with 0 for a default. -/
theorem getD_tabRead_zero (t : Tab Byte) (a : Nat) {n i : Nat} (h : i < n) :
    (tabRead 0#8 t a n).getD i 0 = tabGet 0#8 t (a + i) := getD_tabRead 0#8 t a h

theorem lanesOf_tabRead (t : Tab Byte) (a : Nat) : lanesOf (tabRead 0#8 t a 512) =
    (List.range 128).map fun i => BitVec.ofNat 32 (leNat (tabRead 0#8 t (a + 4 * i) 4)) := by
  refine List.map_congr_left fun i hi => ?_
  rw [leAt, slice_tabRead t a (by have := List.mem_range.1 hi; omega)]

theorem length_lanesOf (bs : List Byte) : (lanesOf bs).length = 128 := by rw [lanesOf, List.length_map, List.length_range]

theorem bytesNan_tabRead_four (t : Tab Byte) (a : Nat) :
    bytesNan (tabRead 0#8 t a 4) = isNan32 (BitVec.ofNat 32 (leNat (tabRead 0#8 t a 4))) := Bool.or_false _

/-- A 64-bit value that is repeated holds a NaN where it holds one itself. -/
theorem bytesNan_replicate_leBytes (v k : Nat) :
    bytesNan (List.replicate (k + 1) (leBytes 8 v)).flatten = bytesNan (leBytes 8 v) := by
  have happend (bs : List Byte) : bytesNan (leBytes 8 v ++ bs) = (bytesNan (leBytes 8 v) || bytesNan bs) := by
    simp [leBytes, bytesNan, Bool.or_assoc]
  induction k with
  | zero => simp
  | succ k ih => rw [List.replicate_succ, List.flatten_cons, happend, ih, Bool.or_self]

/-! ### Register files and LM of an engine that goes on (R107) -/

/-- A further change of the same engine is still one of that engine alone. -/
theorem onlyEngine_setEng_of {e : Nat} {s t : State} (h : onlyEngine e s t) (y : Engine) : onlyEngine e s (setEng e y t) := by
  obtain ⟨hk, hrest⟩ := h
  exact ⟨fun k hne => by rw [engOf_setEng_of_ne _ _ hne, hk k hne], hrest⟩

theorem vectorResult_of_eq {e r : Nat} {ls : List Word} {fl : Byte} {s t : State} (hls : ls.length = 128)
    (hother : onlyEngine e s t) (hself : engOf t e = { wrV (engOf s e) r ls with pc := nextPc s e, flags := fl }) :
    vectorResult e r ls fl s t := by
  refine ⟨hother, fun q _ => ?_, ?_, ?_, ?_⟩ <;> rw [hself]
  · exact rdV_wrV (engOf s e) r q ls hls
  · rfl

theorem vectorResult_setEng {e r : Nat} {ls : List Word} (hls : ls.length = 128) (fl : Byte) (s : State) :
    vectorResult e r ls fl s (setEng e { wrV (engOf s e) r ls with pc := nextPc s e, flags := fl } s) :=
  vectorResult_of_eq hls (onlyEngine_setEng ..) (engOf_setEng_self ..)

theorem advance_wrP (x : Engine) (r : Nat) (v : BitVec 128) : advance (wrP x r v) = { wrP x r v with pc := x.pc + 8#20 } := by
  rw [advance, wrP_pc]

theorem predicateResult_setEng (e r : Nat) (v : BitVec 128) (s : State) :
    predicateResult e r v s (setEng e { wrP (engOf s e) r v with pc := nextPc s e } s) := by
  refine ⟨onlyEngine_setEng .., fun q _ => ?_, ?_, ?_⟩ <;> rw [engOf_setEng_self]
  · exact rdP_wrP (engOf s e) r q v
  · rw [wrP]
    split <;> rfl

/-- The engine after a move to a vector register. -/
theorem advance_withMoved_wrV (s : State) (e r : Nat) (ls : List Word) (bs : List Byte) :
    advance (withMoved (wrV (engOf s e) r ls) bs) =
      { wrV (engOf s e) r ls with pc := nextPc s e, flags := flagsWith s e false (bytesNan bs) } := rfl

/-- The engine after a move to LM. -/
theorem advance_withMoved_lm (s : State) (e : Nat) (lm : Tab Byte) (bs : List Byte) :
    advance (withMoved { engOf s e with lm := lm } bs) =
      { engOf s e with lm := lm, pc := nextPc s e, flags := flagsWith s e false (bytesNan bs) } := rfl

/-- LM reads `bs` from `a`, and every other byte as it was. -/
def lmHolds (lm lm' : Tab Byte) (a : Nat) (bs : List Byte) : Prop :=
  ∀ b, tabGet 0#8 lm' b = if a ≤ b ∧ b < a + bs.length then bs.getD (b - a) 0 else tabGet 0#8 lm b

theorem lmHolds_tabWrite (lm : Tab Byte) (a : Nat) (bs : List Byte) : lmHolds lm (tabWrite 0#8 lm a bs) a bs :=
  tabGet_write 0#8 bs lm a

section
variable {e a : Nat} {bs : List Byte} {s t : State} {lm : Tab Byte}

theorem lmResult_of_lmHolds (hother : onlyEngine e s t) (hlm : lmHolds (engOf s e).lm lm a bs)
    (hself : engOf t e = { engOf s e with lm := lm, pc := nextPc s e }) : lmResult e a bs s t := by
  refine ⟨hother, fun b => ?_, ?_, ?_⟩ <;> rw [hself]
  exact hlm b

theorem lmMoved_of_lmHolds (hother : onlyEngine e s t) (hlm : lmHolds (engOf s e).lm lm a bs)
    (hself : engOf t e = { engOf s e with lm := lm, pc := nextPc s e, flags := flagsWith s e false (bytesNan bs) }) :
    lmMoved e a bs s t := by
  refine ⟨lmResult_of_lmHolds (onlyEngine_setEng_of hother _) hlm ?_, ?_⟩
  · rw [engOf_setEng_self, hself]
  · rw [hself]
    exact congrArg (· ||| _) BitVec.or_zero

end

/-! ### Loads and stores (R189) -/

/-- The access to `n` bytes of LM, aligned to `al`, goes ahead. -/
def lmReady (e func n al : Nat) (f : Fields) (s : State) : Prop :=
  wordOk 8 func f = true ∧ effAddr (engOf s e) f % al = 0 ∧ effAddr (engOf s e) f + n ≤ 0xC00000 ∧
    lmBusy (engOf s e) (effAddr (engOf s e) f) n = false

section
variable {e func n al : Nat} {f : Fields} {s : State} {c : EntryCtx} (h : issues s e c)
include h

theorem lmAccess_eq {g : Engine → Engine} {y : Engine} (hr : lmReady e func n al f s) (hy : advance (g (engOf s e)) = y) :
    runEng e 8 func f s (fun _ x => (chkLm x (effAddr x f) n al).run (.ok (setEng e (advance (g x)) s))) =
      .next (setEng e y s) := by
  obtain ⟨hw, hal, hn, hbusy⟩ := hr
  exact runEng_ok h hw (by rw [chkLm_ok hal hn hbusy, Chk.run_ok, hy])

theorem lmLoad_result {g : Nat → DWord} (hr : lmReady e func n n f s) : leadsTo (lmLoad e func n f s g)
    (scalarResult e f.a (g (leNat (tabRead 0#8 (engOf s e).lm (effAddr (engOf s e) f) n))) (nextPc s e) s) :=
  ⟨_, lmAccess_eq h hr (advance_wrS ..), scalarResult_setEng ..⟩

theorem lmStore_result (hal : min n 64 = n) (hr : lmReady e func n (min n 64) f s) :
    leadsTo (lmStore e func n f s) (lmResult e (effAddr (engOf s e) f) (leBytes n (rdS (engOf s e) f.a).toNat) s) := by
  rw [hal] at hr
  exact ⟨_, lmAccess_eq h hr rfl, lmResult_of_lmHolds (onlyEngine_setEng ..) (lmHolds_tabWrite _ _ _) (engOf_setEng_self ..)⟩

theorem execLmVld_result (hr : lmReady e 0x10 512 64 f s) :
    let a := effAddr (engOf s e) f
    leadsTo (execLmVld e f s) (vectorResult e f.a.toNat
      ((List.range 128).map fun i => BitVec.ofNat 32 (leNat (tabRead 0#8 (engOf s e).lm (a + 4 * i) 4)))
      (flagsWith s e false (bytesNan (tabRead 0#8 (engOf s e).lm a 512))) s) := by
  intro a
  rw [← lanesOf_tabRead]
  exact ⟨_, lmAccess_eq h hr (advance_withMoved_wrV ..), vectorResult_setEng (length_lanesOf _) _ s⟩

theorem execLmVldBc_result (hr : lmReady e 0x12 4 4 f s) :
    let w := BitVec.ofNat 32 (leNat (tabRead 0#8 (engOf s e).lm (effAddr (engOf s e) f) 4))
    leadsTo (execLmVldBc e f s)
      (vectorResult e f.a.toNat (List.replicate 128 w) (flagsWith s e false (isNan32 w)) s) := by
  intro w
  rw [← bytesNan_tabRead_four]
  exact ⟨_, lmAccess_eq h hr (advance_withMoved_wrV ..), vectorResult_setEng List.length_replicate _ s⟩

theorem execLmPld_result (hr : lmReady e 0x14 16 16 f s) : leadsTo (execLmPld e f s) (predicateResult e f.a.toNat
    (BitVec.ofNat 128 (leNat (tabRead 0#8 (engOf s e).lm (effAddr (engOf s e) f) 16))) s) :=
  ⟨_, lmAccess_eq h hr (advance_wrP ..), predicateResult_setEng ..⟩

theorem execLmVst_result (hr : lmReady e 0x11 512 64 f s) : leadsTo (execLmVst e f s)
    (lmMoved e (effAddr (engOf s e) f) (lanesBytes (rdV (engOf s e) f.a.toNat)) s) :=
  ⟨_, lmAccess_eq h hr (advance_withMoved_lm ..), lmMoved_of_lmHolds (onlyEngine_setEng ..) (lmHolds_tabWrite _ _ _) (engOf_setEng_self ..)⟩

theorem execLmPst_result (hr : lmReady e 0x15 16 16 f s) : leadsTo (execLmPst e f s)
    (lmResult e (effAddr (engOf s e) f) (leBytes 16 (rdP (engOf s e) f.a.toNat).toNat) s) :=
  ⟨_, lmAccess_eq h hr rfl, lmResult_of_lmHolds (onlyEngine_setEng ..) (lmHolds_tabWrite _ _ _) (engOf_setEng_self ..)⟩

end

/-! ### Block instructions (R191 to R193) -/

theorem lmCopy_eq (k : Nat) (x : Engine) (dst src n : Nat) :
    lmCopy k x dst src n = { x with lm := (lmCopy k x dst src n).lm } := by
  induction k generalizing x dst src n with
  | zero => rfl
  | succ k ih =>
    rw [lmCopy, ih]
    rfl

/-- A copy in pieces between ranges that do not overlap moves each byte once. -/
theorem tabGet_lmCopy {k n : Nat} (x : Engine) {dst src : Nat} (hk : n ≤ 256 * k) (hapart : dst + n ≤ src ∨ src + n ≤ dst) (b : Nat) :
    tabGet 0#8 (lmCopy k x dst src n).lm b =
      if dst ≤ b ∧ b < dst + n then tabGet 0#8 x.lm (src + (b - dst)) else tabGet 0#8 x.lm b := by
  induction k generalizing x dst src n with
  | zero =>
    rw [if_neg (by omega)]
    rfl
  | succ k ih =>
    rw [lmCopy, ih (n := n - min n 256) _ (by omega) (by omega), lm_lmWrite, lm_lmWrite, lmRead, tabRead_length]
    by_cases hhigh : dst + min n 256 ≤ b ∧ b < dst + min n 256 + (n - min n 256)
    · rw [if_pos hhigh, if_neg (by omega), if_pos (by omega)]
      congr 1
      omega
    · rw [if_neg hhigh]
      by_cases hlow : dst ≤ b ∧ b < dst + min n 256
      · rw [if_pos hlow, if_pos (by omega), getD_tabRead_zero _ _ (by omega)]
      · rw [if_neg hlow, if_neg (by omega)]

theorem lmHolds_lmCopy {k n : Nat} (x : Engine) {dst src : Nat} (hk : n ≤ 256 * k) (hapart : dst + n ≤ src ∨ src + n ≤ dst) :
    lmHolds x.lm (lmCopy k x dst src n).lm dst (tabRead 0#8 x.lm src n) := by
  intro b
  rw [tabGet_lmCopy x hk hapart, tabRead_length]
  by_cases hb : dst ≤ b ∧ b < dst + n
  · rw [if_pos hb, if_pos hb, getD_tabRead_zero _ _ (by omega)]
  · rw [if_neg hb, if_neg hb]

/-- The bytes that LM holds are those that a read finds. -/
theorem tabRead_of_lmHolds {lm lm' : Tab Byte} {a : Nat} {bs : List Byte} (h : lmHolds lm lm' a bs) :
    tabRead 0#8 lm' a bs.length = bs := by
  refine List.ext_getElem (tabRead_length ..) fun i _ hi => ?_
  simp only [tabRead, List.getElem_map, List.getElem_range]
  rw [h, if_pos (by omega), Nat.add_sub_cancel_left, ← List.getElem_eq_getD]

/-- Blocks of LM that an instruction may read and write. -/
def lmFree (e a n : Nat) (s : State) : Prop := a % 64 = 0 ∧ a + n ≤ 0xC00000 ∧ lmBusy (engOf s e) a n = false

/-- The length of a block instruction, and its destination. -/
def lmBlock (e dst n : Nat) (s : State) : Prop := n % 64 = 0 ∧ 64 ≤ n ∧ n ≤ 0xC00000 ∧ lmFree e dst n s

theorem chkLm_of_lmFree {e a n : Nat} {s : State} (h : lmFree e a n s) : chkLm (engOf s e) a n 64 = .ok := by
  obtain ⟨hal, hn, hbusy⟩ := h
  exact chkLm_ok hal hn hbusy

theorem chkLen_of_lmBlock {e dst n : Nat} {s : State} (h : lmBlock e dst n s) : chkLen n dst = .ok := by
  obtain ⟨hal, hmin, hmax, -⟩ := h
  refine if_neg ?_
  simp [lmSize]
  omega

section
variable {e : Nat} {f : Fields} {s : State} {c : EntryCtx} (h : issues s e c)
include h

theorem execLmCpy_result (hw : wordOk 8 0x18 f = true)
    (hblock : lmBlock e (rdS (engOf s e) f.a).toNat (rdS (engOf s e) f.c).toNat s)
    (hsrc : lmFree e (rdS (engOf s e) f.b).toNat (rdS (engOf s e) f.c).toNat s) :
    let n := (rdS (engOf s e) f.c).toNat
    let y := lmCopy (n / 256 + 1) (engOf s e) (rdS (engOf s e) f.a).toNat (rdS (engOf s e) f.b).toNat n
    leadsTo (execLmCpy e f s) fun t => onlyEngine e s t ∧ engOf t e = { y with
      pc := nextPc s e, flags := flagsWith s e false (bytesNan (tabRead 0#8 y.lm (rdS (engOf s e) f.a).toNat n)) } := by
  intro n y
  have ⟨_, _, _, hdst⟩ := hblock
  refine runEng_becomes h hw ?_
  simp only [chkLen_of_lmBlock hblock, chkLm_of_lmFree hsrc, chkLm_of_lmFree hdst, Chk.and, Chk.run_ok]
  have hy : y = { engOf s e with lm := y.lm } := lmCopy_eq ..
  have hadvance (bs : List Byte) : advance (withMoved y bs) =
      { y with pc := nextPc s e, flags := flagsWith s e false (bytesNan bs) } := by rw [hy]; rfl
  exact congrArg (fun z => IRes.ok (setEng e z s)) (hadvance _)

/-- A copy between ranges that do not overlap moves the source bytes (R191). -/
theorem execLmCpy_moves (hw : wordOk 8 0x18 f = true)
    (hblock : lmBlock e (rdS (engOf s e) f.a).toNat (rdS (engOf s e) f.c).toNat s)
    (hsrc : lmFree e (rdS (engOf s e) f.b).toNat (rdS (engOf s e) f.c).toNat s)
    (hapart : (rdS (engOf s e) f.a).toNat + (rdS (engOf s e) f.c).toNat ≤ (rdS (engOf s e) f.b).toNat ∨
      (rdS (engOf s e) f.b).toNat + (rdS (engOf s e) f.c).toNat ≤ (rdS (engOf s e) f.a).toNat) :
    leadsTo (execLmCpy e f s) (lmMoved e (rdS (engOf s e) f.a).toNat
      (tabRead 0#8 (engOf s e).lm (rdS (engOf s e) f.b).toNat (rdS (engOf s e) f.c).toNat) s) := by
  obtain ⟨t, ht, hother, hself⟩ := execLmCpy_result h hw hblock hsrc
  have hholds := lmHolds_lmCopy (k := (rdS (engOf s e) f.c).toNat / 256 + 1) (engOf s e) (by omega) hapart
  have hread := tabRead_of_lmHolds hholds
  rw [tabRead_length] at hread
  refine ⟨t, ht, lmMoved_of_lmHolds hother hholds ?_⟩
  rw [hself, hread, lmCopy_eq]

theorem execLmFill_result (hw : wordOk 8 0x19 f = true)
    (hblock : lmBlock e (rdS (engOf s e) f.a).toNat (rdS (engOf s e) f.c).toNat s) :
    leadsTo (execLmFill e f s) (lmMoved e (rdS (engOf s e) f.a).toNat
      (List.replicate ((rdS (engOf s e) f.c).toNat / 8) (leBytes 8 (rdS (engOf s e) f.b).toNat)).flatten s) := by
  have ⟨_, hmin, _, hdst⟩ := hblock
  have hnan : bytesNan (leBytes 8 (rdS (engOf s e) f.b).toNat) =
      bytesNan (List.replicate ((rdS (engOf s e) f.c).toNat / 8) (leBytes 8 (rdS (engOf s e) f.b).toNat)).flatten := by
    obtain ⟨k, hk⟩ : ∃ k, (rdS (engOf s e) f.c).toNat / 8 = k + 1 := ⟨(rdS (engOf s e) f.c).toNat / 8 - 1, by omega⟩
    rw [hk, bytesNan_replicate_leBytes]
  refine ⟨_, runEng_ok h hw ?_, lmMoved_of_lmHolds (onlyEngine_setEng ..) (lmHolds_tabWrite _ _ _) (engOf_setEng_self ..)⟩
  simp only [chkLen_of_lmBlock hblock, chkLm_of_lmFree hdst, Chk.and, Chk.run_ok, withMoved, hnan]
  rfl

end

/-- Settles O5: an access that goes ahead reads its bytes, and the register takes them in the form's extension. -/
theorem lmLoadResults : Obligations.LmLoadResults := by
  unfold Obligations.LmLoadResults
  intro e f s c h
  dsimp only [exec]
  exact ⟨lmLoad_result h, lmLoad_result h, lmLoad_result h, lmLoad_result h, lmLoad_result h, lmLoad_result h, lmLoad_result h,
    execLmVld_result h, execLmVldBc_result h, execLmPld_result h⟩

/-- Settles O6: a store writes its bytes and no other; a copy in pieces moves each byte once unless its ranges overlap. -/
theorem lmStoreResults : Obligations.LmStoreResults := by
  unfold Obligations.LmStoreResults
  intro e f s c h
  dsimp only [exec]
  exact ⟨lmStore_result h rfl, lmStore_result h rfl, lmStore_result h rfl, lmStore_result h rfl, execLmVst_result h,
    execLmPst_result h, fun ⟨hw, hblock, hsrc, hapart⟩ => execLmCpy_moves h hw hblock hsrc hapart,
    fun ⟨hw, hblock, hsrc⟩ => execLmCpy_result h hw hblock hsrc, fun ⟨hw, hblock⟩ => execLmFill_result h hw hblock⟩

end Sys2Proof.Machine
end

section
/-! SUPPORT. Flies atomics (O8): the old word in a register and the new one in its place, in one step. -/

namespace Sys2Proof.Machine

open Sys2Proof

theorem flRead_setEng (e : Nat) (y : Engine) (s : State) (c : EntryCtx) (a n : Nat) :
    flRead (setEng e y s) c a n = flRead s c a n := rfl

theorem engOf_flWrite (c : EntryCtx) (a : Nat) (bs : List Byte) (s : State) (k : Nat) :
    engOf (flWrite c a bs s) k = engOf s k := rfl

theorem flyAtomic_result {e func : Nat} {f : Fields} {s : State} {c : EntryCtx} (h : issues s e c) {g : Engine → DWord → DWord}
    {new : DWord} (hnew : g (engOf s e) (BitVec.ofNat 64 (leNat (flRead s c (effAddr (engOf s e) f) 8))) = new)
    (hr : flyReady e func 8 f s c) :
    let a := effAddr (engOf s e) f
    leadsTo (flyAtomic e func f s g) fun t =>
      engOf t e = { wrS (engOf s e) f.a (BitVec.ofNat 64 (leNat (flRead s c a 8))) with pc := nextPc s e } ∧
      (∀ k, k ≠ e → engOf t k = engOf s k) ∧ flRead t c a 8 = leBytes 8 new.toNat ∧
      (∀ b, (∀ j, j < 8 → b ≠ flKey c (a + j)) → tabGet 0#8 t.flies.mem b = tabGet 0#8 s.flies.mem b) ∧
      t.mem = s.mem ∧ t.cue = s.cue := by
  intro a
  have heq : flyAtomic e func f s g = .next (setEng e (advance (wrS (engOf s e) f.a (BitVec.ofNat 64 (leNat (flRead s c a 8)))))
      (flWrite c a (leBytes 8 new.toNat) (flEcc c a 8 s))) := by
    rw [← hnew]
    exact flyAccess_eq h hr true _
  have hlen : (leBytes 8 new.toNat).length = 8 := length_leBytes 8 _
  have ⟨_, hal, _, _⟩ := hr
  obtain ⟨hmem, regs, flies, free, fault, serve, hmet⟩ := wordsMet_flEcc c a 8 s
  refine ⟨_, heq, ?_, fun k hk => ?_, ?_, fun b hb => ?_, ?_, ?_⟩
  · rw [engOf_setEng_self, advance_wrS]
    rfl
  · rw [engOf_setEng_of_ne _ _ hk, engOf_flWrite, hmet]
    rfl
  · rw [flRead_setEng, flRead_flWrite _ hal hlen]
  · rw [setEng_flies, tabGet_flWrite_of_ne c a _ _ (by rw [hlen]; exact hb), hmem]
  · rw [setEng_mem, flWrite_mem, hmet]
  · rw [setEng_cue, flWrite_cue, hmet]

/-- Settles O8: each atomic is an access that reads and writes its word; the operation gives the new value. -/
theorem fliesAtomicResults : Obligations.FliesAtomicResults := by
  unfold Obligations.FliesAtomicResults
  intro e f s c h
  dsimp only [exec]
  exact ⟨flyAtomic_result h rfl, flyAtomic_result h (umax_eq_ofNat ..), flyAtomic_result h (umin_eq_ofNat ..),
    flyAtomic_result h rfl, flyAtomic_result h rfl, flyAtomic_result h rfl, flyAtomic_result h rfl⟩

end Sys2Proof.Machine
end

section
/-! SUPPORT. VEC instructions (O10, O11): the lanes of a result under PG and ZM, predicates from their lanes, and reductions. -/

namespace Sys2Proof.Machine

open Sys2Proof

/-! ### Lanes -/

theorem getD_map_range {α : Type} (g : Nat → α) (d : α) {n i : Nat} (h : i < n) : ((List.range n).map g).getD i d = g i := by
  simp [List.getD_eq_getElem?_getD, h]

/-- The lanes of a vector register, one by one. -/
theorem rdV_eq_map (x : Engine) (r : Nat) : rdV x r = (List.range 128).map fun i => (rdV x r).getD i 0 :=
  List.map_congr_left fun _ hi => (getD_tabRead 0#32 x.v (128 * r) (List.mem_range.1 hi)).symm

theorem getD_lanes1 (x : Engine) (f : Fields) (g : Word → Word) {i : Nat} (hi : i < 128) :
    (lanes1 x f g).getD i 0#32 = g ((rdV x f.b.toNat).getD i 0) := by
  rw [lanes1, rdV_eq_map, List.map_map, getD_map_range _ _ hi, ← rdV_eq_map]
  rfl

theorem getD_lanes2 (x : Engine) (f : Fields) (g : Word → Word → Word) {i : Nat} (hi : i < 128) :
    (lanes2 x f g).getD i 0#32 = g ((rdV x f.b.toNat).getD i 0) ((rdV x f.c.toNat).getD i 0) := by
  rw [lanes2, rdV_eq_map x f.b.toNat, rdV_eq_map x f.c.toNat, List.zipWith_map, List.zipWith_self, getD_map_range _ _ hi,
    ← rdV_eq_map, ← rdV_eq_map]

theorem byType_apply (f : Fields) (p q u : Word → Word → Word) (a b : Word) :
    byType f p q u a b = if imm f 27 26 = 0 then p a b else if imm f 27 26 = 1 then q a b else u a b := by
  rw [byType, vecType]
  split
  · rfl
  · split <;> rfl

/-- Only the type of 0 makes a difference where the integer operations are one. -/
theorem byType_int (f : Fields) (p q : Word → Word → Word) (a b : Word) :
    byType f p q q a b = if imm f 27 26 = 0 then p a b else q a b := by rw [byType_apply, ite_self]

/-! ### Instructions that write one vector register or one predicate (R107, R273) -/

section
variable {e func : Nat} {f : Fields} {s : State} {c : EntryCtx}

theorem advance_withFlags_wrV (s : State) (e r : Nat) (ls : List Word) (sat nan : Bool) :
    advance (withFlags (wrV (engOf s e) r ls) sat nan) =
      { wrV (engOf s e) r ls with pc := nextPc s e, flags := flagsWith s e sat nan } := rfl

theorem runReg_vector {major r : Nat} (h : issues s e c) (hw : wordOk major func f = true) {g : Engine → Engine}
    {ls : List Word} (hls : ls.length = 128) {sat nan : Bool} (hg : g (engOf s e) = withFlags (wrV (engOf s e) r ls) sat nan) :
    leadsTo (runReg e major func f s g) (vectorResult e r ls (flagsWith s e sat nan) s) :=
  ⟨_, runEng_ok h hw (by rw [hg, advance_withFlags_wrV]), vectorResult_setEng hls _ s⟩

theorem runReg_predicate {major r : Nat} (h : issues s e c) {g : Engine → BitVec 128} (hw : wordOk major func f = true) :
    leadsTo (runReg e major func f s fun x => wrP x r (g x)) (predicateResult e r (g (engOf s e)) s) :=
  ⟨_, runEng_ok h hw (by rw [advance_wrP]; rfl), predicateResult_setEng ..⟩

/-! ### Element-wise instructions (R207) -/

/-- The lanes of a result under PG and ZM: `lane` where a lane is active. -/
def mergedLanes (x : Engine) (f : Fields) (lane : Nat → Word) : List Word :=
  (List.range 128).map fun i =>
    if (rdP x (imm f 31 29)).getLsbD i then lane i else if imm f 28 28 = 1 then 0 else (rdV x f.a.toNat).getD i 0

/-- An FP32 result of an active lane is a NaN. -/
def activeNan (x : Engine) (f : Fields) (lane : Nat → Word) : Bool :=
  imm f 27 26 = 0 && (List.range 128).any fun i => (rdP x (imm f 31 29)).getLsbD i && isNan32 (lane i)

/-- The result of an element-wise instruction: an active lane of vd takes its lane of `lane`. -/
theorem vecElem_result (h : issues s e c) {g : Engine → List Word} {lane : Nat → Word}
    (hlane : ∀ i, i < 128 → (g (engOf s e)).getD i 0#32 = lane i) (hw : wordOk 0x14 func f = true) :
    leadsTo (vecElem e func f s g) (vectorResult e f.a.toNat (mergedLanes (engOf s e) f lane)
      (flagsWith s e false (activeNan (engOf s e) f lane)) s) := by
  have hnew : mergeLanes (rdP (engOf s e) (vecPg f)) true [] (g (engOf s e)) =
      (List.range 128).map fun i => if (rdP (engOf s e) (imm f 31 29)).getLsbD i then lane i else 0 :=
    List.map_congr_left fun i hi => by rw [hlane i (List.mem_range.1 hi), if_pos rfl]; rfl
  have hlanes : mergeLanes (rdP (engOf s e) (vecPg f)) (vecZm f) (rdV (engOf s e) f.a.toNat)
      (mergeLanes (rdP (engOf s e) (vecPg f)) true [] (g (engOf s e))) = mergedLanes (engOf s e) f lane := by
    refine List.map_congr_left fun i hi => ?_
    rw [hnew, getD_map_range _ _ (List.mem_range.1 hi), bitAt, vecPg]
    simp only [vecZm, decide_eq_true_eq]
    split <;> rfl
  have hnan : anyNan (mergeLanes (rdP (engOf s e) (vecPg f)) true [] (g (engOf s e))) =
      (List.range 128).any fun i => (rdP (engOf s e) (imm f 31 29)).getLsbD i && isNan32 (lane i) := by
    rw [hnew, anyNan, List.any_map]
    congr 1
    funext i
    have hzero : isNan32 0#32 = false := by decide
    cases hbit : (rdP (engOf s e) (imm f 31 29)).getLsbD i <;> simp [hbit, hzero]
  refine runReg_vector h hw (by rw [mergedLanes, List.length_map, List.length_range]) ?_
  dsimp only
  rw [hlanes, hnan, activeNan, vecType]

/-! ### Predicates (R209) -/

theorem testBit_packStream_one (bs : List Bool) (i : Nat) : (packStream 1 (bs.map b2n)).testBit i = bs.getD i false := by
  induction bs generalizing i with
  | nil => simp [packStream]
  | cons b bs ih =>
    have hb : b2n b < 2 := by cases b <;> decide
    have hcons : packStream 1 ((b :: bs).map b2n) = 2 * packStream 1 (bs.map b2n) + b2n b := by
      simp only [packStream, List.map_cons, List.foldr_cons]
      omega
    rw [hcons]
    cases i with
    | zero => cases b <;> simp [b2n]
    | succ i =>
      rw [Nat.testBit_succ, List.getD_cons_succ, ← ih]
      congr 1
      omega

/-- A predicate holds the bits that it is made of. -/
theorem getLsbD_predOf (g : Nat → Bool) {i : Nat} (hi : i < 128) : (predOf g).getLsbD i = g i := by
  have hmap : ((List.range 128).map fun i => b2n (g i)) = ((List.range 128).map g).map b2n := by rw [List.map_map]; rfl
  rw [predOf, hmap, BitVec.getLsbD_ofNat, testBit_packStream_one, getD_map_range _ _ hi, decide_eq_true hi, Bool.true_and]

/-- A predicate instruction whose result holds the bits `bit`. -/
theorem runReg_predicate_bits (h : issues s e c) {g : Engine → BitVec 128} {bit : Nat → Bool}
    (hbit : ∀ i, i < 128 → (g (engOf s e)).getLsbD i = bit i) (hw : wordOk 0x14 func f = true) :
    ∃ p : BitVec 128, (∀ i, i < 128 → p.getLsbD i = bit i) ∧
      leadsTo (runReg e 0x14 func f s fun x => wrP x f.a.toNat (g x)) (predicateResult e f.a.toNat p s) :=
  ⟨_, hbit, runReg_predicate h hw⟩

/-! ### Reductions (R211) -/

theorem vecReduce_result (h : issues s e c) {unit unit' : Word} {op : Engine → Word → Word → Word} {op' : Word → Word → Word}
    (hunit : unit = unit') (hop : ∀ p q, op (engOf s e) p q = op' p q) (hw : wordOk 0x14 func f = true) :
    let v := treeFold op' 7 ((List.range 128).map fun i =>
      if (rdP (engOf s e) (imm f 31 29)).getLsbD i then (rdV (engOf s e) f.b.toNat).getD i 0 else unit')
    leadsTo (vecReduce e func f s unit op) (vectorResult e f.a.toNat (v :: List.replicate 127 0)
      (flagsWith s e false (imm f 27 26 = 0 && isNan32 v)) s) := by
  intro v
  subst hunit
  have hop' : op (engOf s e) = op' := funext fun p => funext (hop p)
  have hlanes : ((rdV (engOf s e) f.b.toNat).mapIdx fun i w => if bitAt (rdP (engOf s e) (vecPg f)) i then w else unit) =
      (List.range 128).map fun i =>
        if (rdP (engOf s e) (imm f 31 29)).getLsbD i then (rdV (engOf s e) f.b.toNat).getD i 0 else unit := by
    refine List.ext_getElem (by simp) fun i hi _ => ?_
    rw [List.length_mapIdx] at hi
    simp only [List.getElem_mapIdx, List.getElem_map, List.getElem_range, bitAt, vecPg, ← List.getElem_eq_getD (h := hi)]
    rfl
  refine runReg_vector h hw (by rw [List.length_cons, List.length_replicate]) ?_
  dsimp only
  rw [hlanes, hop', vecType]
  rfl

/-! ### Conversions and Philox (R210, R212) -/

theorem execVlane_result (h : issues s e c) (hw : wordOk 0x14 0x1B f = true) (hlane : (rdS (engOf s e) f.c).toNat < 128) :
    leadsTo (execVlane e f s) (scalarResult e f.a
      (((rdV (engOf s e) f.b.toNat).getD (rdS (engOf s e) f.c).toNat 0).zeroExtend 64) (nextPc s e) s) := by
  refine runEng_scalar h hw ?_
  rw [if_neg (Nat.not_le.2 hlane), advance_wrS]
  rfl

/-- vcvt.dn writes the converted row, and counts itself under st.round = 2. -/
theorem execVcvtDn_result (h : issues s e c) (hw : wordOk 0x14 0x1C f = true) :
    let x := engOf s e
    let q := convertRow (imm f 25 22) (fun k => cvtRnd x (stochWord c x.pc.toNat x.dnCount k 0x10000000)) (rdV x f.b.toNat)
    let bs := slice (packRow (imm f 25 22) q.1 ++ q.2.1.map fun v => BitVec.ofNat 8 v) 0 512
    leadsTo (execVcvtDn e f s) fun t =>
      vectorResult e f.a.toNat (lanesOf bs) (flagsWith s e q.2.2.sat q.2.2.nan) s
        (setEng e { engOf t e with dnCount := x.dnCount } t) ∧
      (engOf t e).dnCount = if x.round = 2 then x.dnCount + 1 else x.dnCount := by
  intro x q bs
  generalize hls : lanesOf bs = ls
  have hlen : ls.length = 128 := hls ▸ length_lanesOf bs
  obtain ⟨t, ht, hother, hself⟩ : becomes e { wrV x f.a.toNat ls with
      dnCount := if x.round = 2 then x.dnCount + 1 else x.dnCount, pc := nextPc s e,
      flags := flagsWith s e q.2.2.sat q.2.2.nan } s (execVcvtDn e f s) :=
    runEng_becomes h hw (by dsimp only; rw [hls]; rfl)
  refine ⟨t, ht, vectorResult_of_eq hlen (onlyEngine_setEng_of hother _) ?_, ?_⟩
  · rw [engOf_setEng_self, hself]
    rfl
  · rw [hself]

theorem execVcvtUp_result (h : issues s e c) (hw : wordOk 0x14 0x1D f = true) :
    let fm := imm f 25 22
    let w := fmtWidth fm
    let bits := leNat (lanesBytes (rdV (engOf s e) f.b.toNat))
    let ls := (List.range 128).map fun i =>
      let p := 8 * (rowBytes fm + i / 32)
      BitVec.ofNat 32 (convertUp fm (nfld bits (i * w + w - 1) (i * w)) (if fmtMx fm then nfld bits (p + 7) p else 0x7F))
    leadsTo (execVcvtUp e f s) (vectorResult e f.a.toNat ls (flagsWith s e false (anyNan ls)) s) := by
  intro fm w bits ls
  exact runReg_vector h hw (by rw [List.length_map, List.length_range]) rfl

theorem length_philoxGroups (ctr key : List Word) (n : Nat) :
    ((List.range n).flatMap fun g => philoxGroup ctr key g).length = 4 * n := by
  have hfour (g : Nat) : (philoxGroup ctr key g).length = 4 := rfl
  simp [List.length_flatMap, hfour, Nat.mul_comm]

theorem execVphilox_result (h : issues s e c) (hw : wordOk 0x14 0x30 f = true) :
    leadsTo (execVphilox e f s) (vectorResult e f.a.toNat ((List.range 32).flatMap fun g =>
      philoxGroup (rdV (engOf s e) f.b.toNat) (rdV (engOf s e) f.c.toNat) g) (engOf s e).flags s) := by
  have hadvance (ls : List Word) : advance (wrV (engOf s e) f.a.toNat ls) =
      { wrV (engOf s e) f.a.toNat ls with pc := nextPc s e, flags := (engOf s e).flags } := rfl
  obtain ⟨t, ht, hother, hself⟩ := runReg_becomes h hw fun x =>
    wrV x f.a.toNat ((List.range 32).flatMap fun g => philoxGroup (rdV x f.b.toNat) (rdV x f.c.toNat) g)
  exact ⟨t, ht, vectorResult_of_eq (length_philoxGroups _ _ 32) hother (hself.trans (hadvance _))⟩

end

/-- Settles O10: each instruction gives its lanes, and PG and ZM merge them into vd. -/
theorem vectorLaneResults : Obligations.VectorLaneResults := by
  unfold Obligations.VectorLaneResults
  intro e f s c h
  dsimp only [exec]
  refine ⟨vecElem_result h fun i hi => ?_, vecElem_result h fun i hi => ?_, vecElem_result h fun i hi => ?_,
    vecElem_result h fun i hi => ?_, vecElem_result h fun i hi => ?_, vecElem_result h fun i hi => ?_,
    vecElem_result h fun i hi => ?_, vecElem_result h fun i hi => ?_, vecElem_result h fun i hi => ?_,
    vecElem_result h fun i hi => ?_, vecElem_result h fun i hi => ?_, vecElem_result h fun i hi => ?_,
    vecElem_result h fun i hi => ?_, vecElem_result h fun i hi => ?_, vecElem_result h fun i hi => ?_,
    vecElem_result h fun i hi => ?_, vecElem_result h fun i hi => ?_⟩
  · rw [getD_lanes2 _ _ _ hi, byType_int]
  · rw [getD_lanes2 _ _ _ hi, byType_int]
  · rw [getD_lanes2 _ _ _ hi, byType_int]
  · exact getD_map_range _ _ hi
  · rw [getD_lanes2 _ _ _ hi, byType_apply, smax32, umax32, smax_eq_ofInt, umax_eq_ofNat]
  · rw [getD_lanes2 _ _ _ hi, byType_apply, smin32, umin32, smin_eq_ofInt, umin_eq_ofNat]
  · exact getD_lanes2 _ _ _ hi
  · exact getD_lanes2 _ _ _ hi
  · exact getD_lanes2 _ _ _ hi
  · exact getD_lanes2 _ _ _ hi
  · exact getD_lanes2 _ _ _ hi
  · exact getD_lanes1 _ _ _ hi
  · exact getD_lanes1 _ _ _ hi
  · exact getD_lanes1 _ _ _ hi
  · exact getD_lanes1 _ _ _ hi
  · exact getD_map_range _ _ hi
  · exact List.getD_replicate _ hi

/-- Settles O11: each instruction gives the bits of its predicate, its reduction, or the row that it converts. -/
theorem vectorRowResults : Obligations.VectorRowResults := by
  unfold Obligations.VectorRowResults
  intro e f s c h
  dsimp only [exec]
  refine ⟨runReg_predicate_bits h fun i hi => getLsbD_predOf _ hi, runReg_predicate_bits h fun i _ => BitVec.getLsbD_and,
    runReg_predicate_bits h fun i _ => BitVec.getLsbD_or, runReg_predicate_bits h fun i hi => ?_,
    runReg_predicate_bits h fun i hi => getLsbD_predOf _ hi, vecReduce_result h rfl (byType_int f _ _),
    vecReduce_result h rfl fun _ _ => rfl, vecReduce_result h rfl fun _ _ => rfl, fun ⟨hw, hlane⟩ => execVlane_result h hw hlane,
    execVcvtDn_result h, execVcvtUp_result h, execVphilox_result h⟩
  rw [BitVec.getLsbD_not, decide_eq_true hi, Bool.true_and]

end Sys2Proof.Machine
end

section
/-! SUPPORT. The accumulators of an engine (R107, R218): what an element reads after rows are written, and after a skipped mark is
cleared. -/

namespace Sys2Proof.Machine

open Sys2Proof

/-! ### Lists of rows -/

theorem zipIdx_map_range {α : Type} (g : Nat → α) (n : Nat) :
    ((List.range n).map g).zipIdx = (List.range n).map fun i => (g i, i) :=
  List.ext_getElem (by simp) fun i _ _ => by simp

theorem foldl_zipIdx_map_range {α β : Type} (g : Nat → α) (op : β → α → Nat → β) (n : Nat) (b : β) :
    (((List.range n).map g).zipIdx).foldl (fun b p => op b p.1 p.2) b = (List.range n).foldl (fun b i => op b (g i) i) b := by
  rw [zipIdx_map_range, List.foldl_map]

@[simp] theorem length_accRow (x : Engine) (i r : Nat) : (accRow x i r).length = 128 := by
  rw [accRow, List.length_map, List.length_range]

/-! ### One row (R107) -/

/-- A row reads what was written to it; every other row reads as before. -/
theorem rdAcc_wrAccRow {x : Engine} {i r : Nat} {ls : List Word} (hskip : bitAt x.skip i = false) (hls : ls.length = 128)
    (hr : r < 128) {j m n : Nat} (hm : m < 128) (hn : n < 128) :
    rdAcc (wrAccRow x i r ls) j m n = if j = i ∧ m = r then ls.getD n 0 else rdAcc x j m n := by
  have hread : tabGet 0#32 (wrAccRow x i r ls).acc (16384 * j + 128 * m + n) =
      if j = i ∧ m = r then ls.getD n 0 else tabGet 0#32 x.acc (16384 * j + 128 * m + n) := by
    rw [wrAccRow, List.take_of_length_le hls.le]
    dsimp only
    rw [tabGet_write, hls]
    by_cases h : j = i ∧ m = r
    · rw [if_pos h, if_pos (by omega), h.1, h.2, Nat.add_sub_cancel_left]
      rfl
    · rw [if_neg h, if_neg (by omega)]
  rw [rdAcc, rdAcc, hread]
  by_cases h : j = i ∧ m = r
  · have hj : bitAt (wrAccRow x i r ls).skip j = false := by rw [h.1]; exact hskip
    rw [if_pos h, if_pos h, hj, if_neg Bool.false_ne_true]
  · rw [if_neg h, if_neg h]
    rfl

/-! ### Skipped marks (R218) -/

theorem bitAt_setFld_byte (x : Byte) {i : Nat} (hi : i < 8) (v j : Nat) :
    bitAt (setFld x i i v) j = if j = i then v.testBit 0 else bitAt x j := by
  rw [bitAt, getLsbD_setFld _ _ _ (Nat.le_refl i) hi]
  by_cases h : j = i
  · rw [if_pos (by omega), if_pos h, h, Nat.sub_self]
  · rw [if_neg (by omega), if_neg h, bitAt]

theorem lt_of_bitAt_byte {x : Byte} {i : Nat} (h : bitAt x i = true) : i < 8 := by
  by_contra hge
  rw [bitAt, BitVec.getLsbD_of_ge _ _ (by omega)] at h
  exact Bool.false_ne_true h

theorem bitAt_skip_unskip (x : Engine) (i j : Nat) :
    bitAt (unskip x i).skip j = if j = i then false else bitAt x.skip j := by
  rw [unskip]
  by_cases h : bitAt x.skip i = true
  · rw [if_pos h]
    exact bitAt_setFld_byte _ (lt_of_bitAt_byte h) 0 j
  · rw [if_neg h]
    by_cases hj : j = i
    · rw [if_pos hj, hj, Bool.eq_false_iff.2 h]
    · rw [if_neg hj]

/-- Elements keep what they read when a skipped mark is cleared for a write. -/
theorem rdAcc_unskip (x : Engine) (i : Nat) {j m n : Nat} (hm : m < 128) (hn : n < 128) :
    rdAcc (unskip x i) j m n = rdAcc x j m n := by
  rw [rdAcc, rdAcc, bitAt_skip_unskip]
  by_cases hi : bitAt x.skip i = true
  · have hread : tabGet 0#32 (unskip x i).acc (16384 * j + 128 * m + n) =
        if j = i then f32NegInf else tabGet 0#32 x.acc (16384 * j + 128 * m + n) := by
      rw [unskip, if_pos hi]
      dsimp only
      rw [tabFill, tabGet_write, List.length_replicate]
      by_cases hj : j = i
      · rw [if_pos (by omega), if_pos hj, List.getD_replicate _ (by omega)]
      · rw [if_neg (by omega), if_neg hj]
    rw [hread]
    by_cases hj : j = i
    · rw [if_pos hj, if_pos hj, hj, if_neg Bool.false_ne_true, if_pos hi]
    · rw [if_neg hj, if_neg hj]
  · have hsame : unskip x i = x := if_neg hi
    rw [hsame]
    by_cases hj : j = i
    · rw [if_pos hj, hj, Bool.eq_false_iff.2 hi]
    · rw [if_neg hj]

/-! ### Engines that differ in accumulators alone -/

/-- `y` differs from `x` in accumulator elements alone. -/
def accOnly (x y : Engine) : Prop := { y with acc := x.acc } = x

/-- `y` differs from `x` in accumulator elements and skipped marks alone. -/
def accSkipOnly (x y : Engine) : Prop := { y with acc := x.acc, skip := x.skip } = x

theorem accOnly_trans {x y z : Engine} (h : accOnly x y) (g : accOnly y z) : accOnly x z := by
  unfold accOnly at *
  rw [← h, ← g]

theorem accSkipOnly_trans {x y z : Engine} (h : accSkipOnly x y) (g : accSkipOnly y z) : accSkipOnly x z := by
  unfold accSkipOnly at *
  rw [← h, ← g]

theorem accSkipOnly_of_accOnly {x y : Engine} (h : accOnly x y) : accSkipOnly x y := by
  unfold accOnly accSkipOnly at *
  rw [← h]

theorem skip_of_accOnly {x y : Engine} (h : accOnly x y) : y.skip = x.skip := by
  rw [accOnly] at h
  rw [← h]

theorem accSkipOnly_update (x : Engine) (skip : Byte) (acc : Tab Word) : accSkipOnly x { x with skip := skip, acc := acc } := rfl

theorem accSkipOnly_unskip (x : Engine) (i : Nat) : accSkipOnly x (unskip x i) := by
  rw [unskip]
  split
  · exact accSkipOnly_update ..
  · rfl

theorem accOnly_foldl {α : Type} {op : Engine → α → Engine} (hop : ∀ y a, accOnly y (op y a)) (as : List α) (x : Engine) :
    accOnly x (as.foldl op x) :=
  List.foldlRecOn (motive := accOnly x) as op rfl fun y hy a _ => accOnly_trans hy (hop y a)

/-! ### One row of an accumulator, or of two that follow one another -/

/-- A row whose elements become `g` of their columns and of what they read. -/
def updRow (x : Engine) (o q : Nat) (g : Nat → Word → Word) : Engine :=
  wrAccRow x o q ((List.range 128).map fun n => g n (rdAcc x o q n))

/-- The row of accumulator `o`, and of the next one where `pair` holds. -/
def updRows (x : Engine) (o : Nat) (pair : Bool) (q : Nat) (g : Nat → Word → Word) : Engine :=
  if pair then updRow (updRow x o q g) (o + 1) q g else updRow x o q g

theorem wrAccRow_eq_updRow (x : Engine) (o q : Nat) {ls : List Word} (h : ls.length = 128) :
    wrAccRow x o q ls = updRow x o q fun n _ => ls.getD n 0 := by
  rw [updRow]
  congr 1
  exact List.ext_getElem (by simp [h]) fun i hi _ => by simp [List.getD_eq_getElem?_getD, hi]

theorem wrAccRow_map_accRow (x : Engine) (o q : Nat) (g : Word → Word) :
    wrAccRow x o q ((accRow x o q).map g) = updRow x o q fun _ => g := by rw [accRow, List.map_map]; rfl

theorem accOnly_updRows (x : Engine) (o : Nat) (pair : Bool) (q : Nat) (g : Nat → Word → Word) :
    accOnly x (updRows x o pair q g) := by
  rw [updRows]
  split <;> rfl

/-- Accumulator `i` is one of those whose rows `updRows` writes. -/
abbrev isOut (o : Nat) (pair : Bool) (i : Nat) : Prop := i = o ∨ pair = true ∧ i = o + 1

section
variable {x : Engine} {o q : Nat} {g : Nat → Word → Word}

theorem rdAcc_updRow (ho : bitAt x.skip o = false) (hq : q < 128) {i m n : Nat} (hm : m < 128) (hn : n < 128) :
    rdAcc (updRow x o q g) i m n = if i = o ∧ m = q then g n (rdAcc x i m n) else rdAcc x i m n := by
  rw [updRow, rdAcc_wrAccRow ho (by rw [List.length_map, List.length_range]) hq hm hn, getD_map_range _ _ hn]
  by_cases h : i = o ∧ m = q
  · rw [if_pos h, if_pos h, h.1, h.2]
  · rw [if_neg h, if_neg h]

theorem rdAcc_updRows {pair : Bool} (ho : bitAt x.skip o = false) (hp : pair = true → bitAt x.skip (o + 1) = false)
    (hq : q < 128) {i m n : Nat} (hm : m < 128) (hn : n < 128) :
    rdAcc (updRows x o pair q g) i m n = if isOut o pair i ∧ m = q then g n (rdAcc x i m n) else rdAcc x i m n := by
  cases pair with
  | false =>
    have hout : (isOut o false i ∧ m = q) ↔ (i = o ∧ m = q) := by simp
    rw [updRows, if_neg Bool.false_ne_true, rdAcc_updRow ho hq hm hn]
    simp only [hout]
  | true =>
    rw [updRows, if_pos rfl, rdAcc_updRow (x := updRow x o q g) (hp rfl) hq hm hn, rdAcc_updRow ho hq hm hn]
    by_cases h1 : i = o + 1 ∧ m = q
    · rw [if_pos h1, if_neg (by omega), if_pos ⟨.inr ⟨rfl, h1.1⟩, h1.2⟩]
    · rw [if_neg h1]
      by_cases h0 : i = o ∧ m = q
      · rw [if_pos h0, if_pos ⟨.inl h0.1, h0.2⟩]
      · rw [if_neg h0, if_neg fun ⟨hout, hrow⟩ => hout.elim (fun hi => h0 ⟨hi, hrow⟩) fun hi => h1 ⟨hi.2, hrow⟩]

end

section
variable {x : Engine} {o : Nat} {pair : Bool} (g : Nat → Nat → Word → Word) (k : Nat)

/-- The first `k` rows of accumulator `o`, and of the next one where `pair` holds. -/
def updAccs (x : Engine) (o : Nat) (pair : Bool) (k : Nat) (g : Nat → Nat → Word → Word) : Engine :=
  (List.range k).foldl (fun y q => updRows y o pair q (g q)) x

theorem accOnly_updAccs : accOnly x (updAccs x o pair k g) :=
  accOnly_foldl (fun _ _ => accOnly_updRows ..) _ x

/-- Each of those rows is written once. -/
theorem rdAcc_updAccs (ho : bitAt x.skip o = false) (hp : pair = true → bitAt x.skip (o + 1) = false) (hk : k ≤ 128)
    {i m n : Nat} (hm : m < 128) (hn : n < 128) :
    rdAcc (updAccs x o pair k g) i m n = if isOut o pair i ∧ m < k then g m n (rdAcc x i m n) else rdAcc x i m n := by
  induction k with
  | zero =>
    rw [if_neg (by omega)]
    rfl
  | succ k ih =>
    have hskip : (updAccs x o pair k g).skip = x.skip := skip_of_accOnly (accOnly_updAccs ..)
    have hsucc : updAccs x o pair (k + 1) g = updRows (updAccs x o pair k g) o pair k (g k) := by
      rw [updAccs, List.range_succ, List.foldl_append]
      rfl
    rw [hsucc, rdAcc_updRows (by rw [hskip, ho]) (fun h => by rw [hskip, hp h]) (by omega) hm hn, ih (by omega)]
    by_cases hlast : isOut o pair i ∧ m = k
    · rw [if_pos hlast, if_neg fun h => by omega, if_pos ⟨hlast.1, by omega⟩, hlast.2]
    · have hrows : (isOut o pair i ∧ m < k + 1) ↔ (isOut o pair i ∧ m < k) :=
        and_congr_right fun hout => ⟨fun h => by by_contra; exact hlast ⟨hout, by omega⟩, fun h => by omega⟩
      rw [if_neg hlast]
      simp only [hrows]

end

/-! ### Whole rows (R202, R205, R217) -/

/-- Rows that are written one after another from row 0 on. -/
theorem foldl_range_wrAccRow (x : Engine) (i k : Nat) {row : Nat → List Word} (hrow : ∀ m, (row m).length = 128) :
    (List.range k).foldl (fun y m => wrAccRow y i m (row m)) x = updAccs x i false k fun m n _ => (row m).getD n 0 :=
  List.foldl_ext _ _ _ fun y m _ => wrAccRow_eq_updRow y i m (hrow m)

theorem foldl_zipIdx_wrAccRow (x : Engine) (i k : Nat) {row : Nat → List Word} (hrow : ∀ m, (row m).length = 128) :
    (((List.range k).map row).zipIdx).foldl (fun y p => wrAccRow y i p.2 p.1) x =
      updAccs x i false k fun m n _ => (row m).getD n 0 := by
  rw [foldl_zipIdx_map_range row (fun y r m => wrAccRow y i m r), foldl_range_wrAccRow x i k hrow]

theorem rdAcc_foldl_wrAccRow {x : Engine} {i k : Nat} {row : Nat → List Word} (hrow : ∀ m, (row m).length = 128)
    (hskip : bitAt x.skip i = false) (hk : k ≤ 128) {j m n : Nat} (hm : m < 128) (hn : n < 128) :
    rdAcc ((((List.range k).map row).zipIdx).foldl (fun y p => wrAccRow y i p.2 p.1) x) j m n =
      if j = i ∧ m < k then (row m).getD n 0 else rdAcc x j m n := by
  have hout : (isOut i false j ∧ m < k) ↔ (j = i ∧ m < k) := by simp
  rw [foldl_zipIdx_wrAccRow x i k hrow, rdAcc_updAccs _ _ hskip (fun h => absurd h Bool.false_ne_true) hk hm hn]
  simp only [hout]

theorem accOnly_foldl_wrAccRow (x : Engine) (i : Nat) (rows : List (List Word)) :
    accOnly x ((rows.zipIdx).foldl (fun y p => wrAccRow y i p.2 p.1) x) := 
  accOnly_foldl (op := fun y (p : List Word × Nat) => wrAccRow y i p.2 p.1) (fun _ _ => rfl) _ x

/-- The rows of a result that takes an accumulator's place from row 0 on. -/
theorem rdAcc_rows {x : Engine} {i k : Nat} {row : Nat → List Word} (hrow : ∀ m, (row m).length = 128) (hk : k ≤ 128)
    {j m n : Nat} (hm : m < 128) (hn : n < 128) :
    rdAcc ((((List.range k).map row).zipIdx).foldl (fun y p => wrAccRow y i p.2 p.1) (unskip x i)) j m n =
      if j = i ∧ m < k then (row m).getD n 0 else rdAcc x j m n := by
  rw [rdAcc_foldl_wrAccRow hrow (by rw [bitAt_skip_unskip, if_pos rfl]) hk hm hn, rdAcc_unskip x i hm hn]

end Sys2Proof.Machine
end

section
/-! SUPPORT. MX instructions (O9): the checks of their operands, and what they leave in the accumulators. -/

namespace Sys2Proof.Machine

open Sys2Proof

/-! ### Engines that go on with new accumulators (R107) -/

/-- Engine `e` has gone on to its next instruction, its accumulators read `v`, and of its flags only NAN may have changed; what a read of
the Flies finds in error may have been met (R239). -/
def accsBecome (e : Nat) (v : Nat → Nat → Nat → Word) (s t : State) : Prop :=
  (∀ k, k ≠ e → engOf t k = engOf s k) ∧ t.flies.mem = s.flies.mem ∧ t.mem = s.mem ∧ t.cue = s.cue ∧
    (∀ i m n, i < 8 → m < 128 → n < 128 → rdAcc (engOf t e) i m n = v i m n) ∧
    (engOf t e).pc = nextPc s e ∧ (engOf t e).flags ||| 2#8 = (engOf s e).flags ||| 2#8 ∧
    { engOf t e with acc := (engOf s e).acc, skip := (engOf s e).skip, pc := (engOf s e).pc, flags := (engOf s e).flags } = engOf s e

section
variable {e : Nat} {v : Nat → Nat → Nat → Word} {s u : State} {y : Engine}

theorem accsBecome_setEng (hmet : wordsMet s u) (hy : accSkipOnly (engOf s e) y)
    (hv : ∀ i m n, i < 8 → m < 128 → n < 128 → rdAcc y i m n = v i m n) {fl : Byte} (hfl : fl ||| 2#8 = y.flags ||| 2#8) :
    accsBecome e v s (setEng e { y with pc := y.pc + 8#20, flags := fl } u) := by
  obtain ⟨hmem, regs, flies, free, fault, serve, rfl⟩ := hmet
  rw [accSkipOnly] at hy
  have hpc : y.pc = (engOf s e).pc := by rw [← hy]
  have hflags : y.flags = (engOf s e).flags := by rw [← hy]
  refine ⟨fun k hk => (engOf_setEng_of_ne _ _ hk).trans rfl, hmem, rfl, rfl, fun i m n hi hm hn => ?_, ?_, ?_, ?_⟩ <;>
    rw [engOf_setEng_self]
  · exact hv i m n hi hm hn
  · rw [hpc, nextPc]
  · rw [hfl, hflags]
  · rw [← hy]

/-- An instruction that writes accumulators and sets NAN where it writes one. -/
theorem accsBecome_withFlags (hmet : wordsMet s u) (hy : accSkipOnly (engOf s e) y)
    (hv : ∀ i m n, i < 8 → m < 128 → n < 128 → rdAcc y i m n = v i m n) (nan : Bool) :
    accsBecome e v s (setEng e (advance (withFlags y false nan)) u) := by
  refine accsBecome_setEng hmet hy hv (fl := (withFlags y false nan).flags) ?_
  cases nan <;> simp [withFlags, BitVec.or_assoc]

theorem accsBecome_advance (hmet : wordsMet s u) (hy : accSkipOnly (engOf s e) y)
    (hv : ∀ i m n, i < 8 → m < 128 → n < 128 → rdAcc y i m n = v i m n) :
    accsBecome e v s (setEng e (advance y) u) := accsBecome_setEng hmet hy hv (fl := y.flags) rfl

end

theorem accSkipOnly_wrAccRow (x : Engine) (i r : Nat) (ls : List Word) : accSkipOnly x (wrAccRow (unskip x i) i r ls) :=
  accSkipOnly_trans (accSkipOnly_unskip x i) rfl

theorem runReg_next {e major func : Nat} {f : Fields} {s : State} {c : EntryCtx} (h : issues s e c)
    (hw : wordOk major func f = true) (g : Engine → Engine) :
    runReg e major func f s g = .next (setEng e (advance (g (engOf s e))) s) := runEng_ok h hw rfl

/-! ### Checks (R201, R203, R205) -/

theorem chkFlSum_ok {n : Nat} (h : n ≤ 196608) (a : Nat) : chkFlSum n a = .ok := if_neg (not_lt.2 h)

theorem chkFlSum_ite_ok {p : Prop} [Decidable p] {n : Nat} (h : p → n ≤ 196608) (a : Nat) :
    chkFlSum (if p then n else 0) a = .ok := by
  refine chkFlSum_ok ?_ a
  split
  · exact h ‹_›
  · exact Nat.zero_le _

theorem Chk.and_ok {a b : Chk} (ha : a = .ok) (hb : b = .ok) : a.and b = .ok := by rw [ha, hb, Chk.and]

theorem chkRows_ok {s : State} {c : EntryCtx} {x : Engine} {fl : Bool} {a rows stride n : Nat}
    (h : ∀ m, m < rows → chkTile s c x fl (a + m * stride) n = .ok) : chkRows s c x fl a rows stride n = .ok :=
  List.foldlRecOn (motive := (· = Chk.ok)) (List.range rows) (fun k r => k.and (chkTile s c x fl (a + r * stride) n)) rfl
    fun _ hk m hm => Chk.and_ok hk (h m (List.mem_range.1 hm))

theorem wordsMet_ite_flEcc (p : Prop) [Decidable p] (c : EntryCtx) (a n : Nat) (s : State) :
    wordsMet s (if p then flEcc c a n s else s) := by
  split
  · exact wordsMet_flEcc ..
  · exact wordsMet_refl s

/-- A count of rows in 7 bits. -/
theorem imm_succ_le (f : Fields) (lo : Nat) : imm f (lo + 6) lo + 1 ≤ 128 := by
  have hlt : imm f (lo + 6) lo < 2 ^ (lo + 6 + 1 - lo) := fld_lt ..
  have hwidth : lo + 6 + 1 - lo = 7 := by omega
  rw [hwidth] at hlt
  omega

/-! ### Instructions that write rows from row 0 on (R202, R205) -/

/-- The engine in which `k` rows of accumulator `i` have been written. -/
def writeRows (x : Engine) (i k : Nat) (row : Nat → List Word) : Engine :=
  (((List.range k).map row).zipIdx).foldl (fun y p => wrAccRow y i p.2 p.1) (unskip x i)

theorem accSkipOnly_writeRows (x : Engine) (i k : Nat) (row : Nat → List Word) : accSkipOnly x (writeRows x i k row) :=
  accSkipOnly_trans (accSkipOnly_unskip x i) (accSkipOnly_of_accOnly (accOnly_foldl_wrAccRow ..))

section
variable {e : Nat} {f : Fields} {s : State} {c : EntryCtx} (h : issues s e c)
include h

theorem runEng_rows {major func k : Nat} (hw : wordOk major func f = true) (i : Nat) (row : Nat → List Word)
    (hrow : ∀ m, (row m).length = 128) (hk : k ≤ 128) {u : State} (hmet : wordsMet s u) {g : EntryCtx → Engine → IRes}
    (hg : g c (engOf s e) = .ok (setEng e
      (advance (withFlags (writeRows (engOf s e) i k row) false (((List.range k).map row).any anyNan))) u))
    {v : Nat → Nat → Nat → Word}
    (hv : ∀ j m n, n < 128 → (if j = i ∧ m < k then (row m).getD n 0 else rdAcc (engOf s e) j m n) = v j m n) :
    leadsTo (runEng e major func f s g) (accsBecome e v s) :=
  ⟨_, runEng_ok h hw hg, accsBecome_withFlags hmet (accSkipOnly_writeRows ..)
    (fun j m n _ hm hn => (rdAcc_rows hrow hk hm hn).trans (hv j m n hn)) _⟩

theorem execMxMul_result (hw : wordOk 0x10 0 f = true) :
    let x := engOf s e
    let rows := imm f 17 11 + 1
    let a := (rdS x f.a).toNat
    let b := (rdS x f.b).toNat
    let k := (rdS x f.c).toNat
    let fa := imm f 28 25
    let fb := imm f 24 21
    let spA : Bool := imm f 20 20 = 1
    let spB : Bool := imm f 19 19 = 1
    let na := tileBytes fa rows k
    let nb := tileBytes fb 128 k
    let ta := mkTile (opRead s c x spA a na) fa rows k
    let tb := mkTile (opRead s c x spB b nb) fb 128 k
    mulKOk k fa fb = true → (if spA then na else 0) + (if spB then nb else 0) ≤ 196608 →
    chkTile s c x spA a na = .ok → chkTile s c x spB b nb = .ok →
    leadsTo (execMxMul e f s) (accsBecome e (fun i m n =>
      if i = imm f 31 29 ∧ m < rows then
        (if imm f 18 18 = 1 then rowDot (arithRnd x) ta m tb n
         else add32 (arithRnd x) (rdAcc x i m n) (rowDot (arithRnd x) ta m tb n))
      else rdAcc x i m n) s) := by
  intro x rows a b k fa fb spA spB na nb ta tb hk hsum hA hB
  refine runEng_rows h hw (imm f 31 29) (fun m => (List.range 128).map fun n =>
      if imm f 18 18 = 1 then rowDot (arithRnd x) ta m tb n
      else add32 (arithRnd x) (rdAcc x (imm f 31 29) m n) (rowDot (arithRnd x) ta m tb n))
    (fun m => by rw [List.length_map, List.length_range]) (imm_succ_le f 11)
    (wordsMet_trans (wordsMet_ite_flEcc (imm f 20 20 = 1) c a na s) (wordsMet_ite_flEcc (imm f 19 19 = 1) c b nb _)) ?_
    fun i m n hn => ?_
  · simp only [spA, spB, decide_eq_true_eq] at hsum
    dsimp only
    rw [hk, Bool.not_true, if_neg Bool.false_ne_true, chkFlSum_ok hsum, Chk.and_ok rfl (Chk.and_ok hA hB), Chk.run_ok]
    rfl
  · rw [getD_map_range _ _ hn]
    by_cases hrow : i = imm f 31 29 ∧ m < rows
    · rw [if_pos hrow, if_pos hrow, hrow.1]
    · rw [if_neg hrow, if_neg hrow]

theorem execMxFill_result (hw : wordOk 0x10 3 f = true) :
    let x := engOf s e
    let rows := imm f 17 11 + 1
    let a := (rdS x f.a).toNat
    let b := (rdS x f.b).toNat
    let fl : Bool := imm f 20 20 = 1
    let stride := if b = 0 then 512 else b
    (b = 0 ∨ b % 64 = 0 ∧ 512 ≤ b) → (fl = true → rows * 512 ≤ 196608) →
    (∀ m, m < rows → chkTile s c x fl (a + m * stride) 512 = .ok) →
    leadsTo (execMxFill e f s) (accsBecome e (fun i m n =>
      if i = imm f 31 29 ∧ m < rows then
        canon32 (BitVec.ofNat 32 (leAt (opRead s c x fl (a + m * stride) 512) (4 * n) 4))
      else rdAcc x i m n) s) := by
  intro x rows a b fl stride hb hsum hchk
  have hecc : wordsMet s (if imm f 20 20 = 1 then
      (List.range rows).foldl (fun t m => flEcc c (a + m * stride) 512 t) s else s) := by
    split
    · exact List.foldlRecOn (motive := wordsMet s) _ _ (wordsMet_refl s) fun t ht _ _ => wordsMet_trans ht (wordsMet_flEcc ..)
    · exact wordsMet_refl s
  refine runEng_rows h hw (imm f 31 29) (fun m => (List.range 128).map fun n =>
      canon32 (BitVec.ofNat 32 (leAt (opRead s c x fl (a + m * stride) 512) (4 * n) 4)))
    (fun m => by rw [List.length_map, List.length_range]) (imm_succ_le f 11) hecc ?_ fun i m n hn => ?_
  · have hlegal : (decide (b ≠ 0) && (decide (b % 64 ≠ 0) || decide (b < 512))) = false := by
      simp only [Bool.and_eq_false_iff, Bool.or_eq_false_iff, decide_eq_false_iff_not]
      omega
    simp only [fl, decide_eq_true_eq] at hsum
    dsimp only
    rw [hlegal, if_neg Bool.false_ne_true, Chk.and_ok (chkFlSum_ite_ok hsum _) (chkRows_ok hchk), Chk.run_ok]
    rfl
  · rw [getD_map_range _ _ hn]

theorem execMxRowr_result (hw : wordOk 0x10 4 f = true) (hb : (rdS (engOf s e) f.b).toNat < 128) :
    let row := accRow (engOf s e) (imm f 31 29) (rdS (engOf s e) f.b).toNat
    leadsTo (execMxRowr e f s) (vectorResult e f.a.toNat row (flagsWith s e false (anyNan row)) s) :=
  ⟨_, runEng_ok h hw (by rw [if_neg (Nat.not_le.2 hb)]; dsimp only; rw [advance_withFlags_wrV]), vectorResult_setEng (length_accRow ..) _ s⟩

theorem execMxRoww_result (hw : wordOk 0x10 5 f = true) (hb : (rdS (engOf s e) f.b).toNat < 128) :
    leadsTo (execMxRoww e f s) (accsBecome e (fun i m n =>
      if i = imm f 31 29 ∧ m = (rdS (engOf s e) f.b).toNat then (rdV (engOf s e) f.a.toNat).getD n 0
      else rdAcc (engOf s e) i m n) s) := by
  refine ⟨_, runEng_ok h hw (if_neg (Nat.not_le.2 hb)), accsBecome_withFlags (wordsMet_refl s)
    (accSkipOnly_wrAccRow (engOf s e) (imm f 31 29) _ _) (fun i m n _ hm hn => ?_) _⟩
  rw [rdAcc_wrAccRow (by rw [bitAt_skip_unskip, if_pos rfl]) (rdV_length ..) hb hm hn, rdAcc_unskip _ _ hm hn]

/-! ### mx.zero -/

omit h in
/-- The accumulators that mx.zero selects read 0. -/
theorem zeroAccs_result (x : Engine) (w : Word) {k : Nat} (hk : k ≤ 8) :
    let y := (List.range k).foldl (fun y i =>
      if bitAt w i then { y with acc := tabClear y.acc (16384 * i) 16384, skip := setFld y.skip i i 0 } else y) x
    accSkipOnly x y ∧ ∀ i m n, m < 128 → n < 128 → rdAcc y i m n = if i < k ∧ bitAt w i = true then 0 else rdAcc x i m n := by
  induction k with
  | zero => exact ⟨rfl, fun i m n _ _ => by rw [if_neg (by omega)]; rfl⟩
  | succ k ih =>
    obtain ⟨hsame, hread⟩ := ih (by omega)
    rw [List.range_succ, List.foldl_append, List.foldl_cons, List.foldl_nil]
    generalize (List.range k).foldl _ x = y at hsame hread
    by_cases hbit : bitAt w k = true
    · rw [if_pos hbit]
      refine ⟨accSkipOnly_trans hsame rfl, fun i m n hm hn => ?_⟩
      rw [rdAcc]
      dsimp only
      rw [bitAt_setFld_byte _ (by omega), tabGet_clear]
      by_cases hi : i = k
      · rw [if_pos hi, if_neg (by decide), if_pos (by omega), if_pos ⟨by omega, by rw [hi, hbit]⟩]
        rfl
      · have hlast : (i < k + 1 ∧ bitAt w i = true) ↔ (i < k ∧ bitAt w i = true) := by
          have : i < k + 1 ↔ i < k := by omega
          rw [this]
        have hout : ¬ (16384 * k ≤ 16384 * i + 128 * m + n ∧ 16384 * i + 128 * m + n < 16384 * k + 16384) := by omega
        rw [if_neg hi, if_neg hout]
        exact (hread i m n hm hn).trans (by simp only [hlast])
    · rw [if_neg hbit]
      refine ⟨hsame, fun i m n hm hn => ?_⟩
      have hlast : (i < k + 1 ∧ bitAt w i = true) ↔ (i < k ∧ bitAt w i = true) :=
        and_congr_left fun hb => ⟨fun hi => by by_contra; exact hbit (by rwa [show i = k by omega] at hb), fun hi => by omega⟩
      rw [hread i m n hm hn]
      simp only [hlast]

theorem execMxZero_result (hw : wordOk 0x10 1 f = true) : leadsTo (execMxZero e f s)
    (accsBecome e (fun i m n => if bitAt f.imm i then 0 else rdAcc (engOf s e) i m n) s) := by
  obtain ⟨hsame, hread⟩ := zeroAccs_result (engOf s e) f.imm (Nat.le_refl 8)
  refine ⟨_, runReg_next h hw _, accsBecome_advance (wordsMet_refl s) hsame fun i m n hi hm hn => ?_⟩
  rw [hread i m n hm hn]
  simp only [hi, true_and]

/-! ### mx.drain (R204, R205) -/

/-- The converted rows of an accumulator, and the state in which its engine has gone on. -/
theorem execMxDrain_result (hw : wordOk 0x10 2 f = true) :
    let x := engOf s e
    let rows := imm f 17 11 + 1
    let a := (rdS x f.a).toNat
    let b := (rdS x f.b).toNat
    let fm := imm f 28 25
    let fl : Bool := imm f 20 20 = 1
    let rnd (m k : Nat) : Rnd :=
      cvtRnd x (stochWord c (fld (rdS x f.c) 31 0) (fld (rdS x f.c) 63 32) (m * 128 + k) 0)
    let rs := (List.range rows).map fun m => convertRow fm (rnd m) (accRow x (imm f 31 29) m)
    let done := setEng e { x with
      pc := nextPc s e, flags := flagsWith s e (rs.any fun r => r.2.2.sat) (rs.any fun r => r.2.2.nan) } s
    (b = 0 → (fl = true → tileBytes fm rows 128 ≤ 196608) → chkTile s c x fl a (tileBytes fm rows 128) = .ok →
      execMxDrain e f s = .next (opWrite e c fl a
        (rs.flatMap (fun r => packRow fm r.1) ++ (rs.flatMap fun r => r.2.1.map fun v => BitVec.ofNat 8 v)) done)) ∧
    (b ≠ 0 → fmtMx fm = false → b % 64 = 0 → rowBytes fm ≤ b → (fl = true → rows * rowBytes fm ≤ 196608) →
      (∀ m, m < rows → chkTile s c x fl (a + m * b) (rowBytes fm) = .ok) →
      execMxDrain e f s =
        .next (rs.zipIdx.foldl (fun u p => opWrite e c fl (a + p.2 * b) (packRow fm p.1.1) u) done)) := by
  intro x rows a b fm fl rnd rs done
  refine ⟨fun hb hsum hchk => runEng_ok h hw ?_, fun hb hmx hal hmin hsum hchk => runEng_ok h hw ?_⟩
  · have hlegal : (decide (b ≠ 0) && (fmtMx fm || decide (b % 64 ≠ 0) || decide (b < rowBytes fm))) = false := by simp [hb]
    simp only [fl, decide_eq_true_eq] at hsum
    dsimp only
    rw [hlegal, if_neg Bool.false_ne_true, if_pos hb, if_pos hb, Chk.and_ok (chkFlSum_ite_ok hsum _) hchk, Chk.run_ok]
    rfl
  · have hlegal : (decide (b ≠ 0) && (fmtMx fm || decide (b % 64 ≠ 0) || decide (b < rowBytes fm))) = false := by
      simp [hmx, hal, hmin]
    simp only [fl, decide_eq_true_eq] at hsum
    dsimp only
    rw [hlegal, if_neg Bool.false_ne_true, if_neg hb, if_neg hb, Chk.and_ok (chkFlSum_ite_ok hsum _) (chkRows_ok hchk), Chk.run_ok]
    rfl

end

/-- Settles O9: each instruction's checks pass, and the rows that it writes read their new elements. -/
theorem matrixArrayResults : Obligations.MatrixArrayResults := by
  unfold Obligations.MatrixArrayResults
  intro e f s c h
  dsimp only [exec]
  refine ⟨fun ⟨hw, hk, hsum, hA, hB⟩ => execMxMul_result h hw hk hsum hA hB, execMxZero_result h,
    ⟨fun ⟨hw, hb, hsum, hchk⟩ => ⟨_, (execMxDrain_result h hw).1 hb hsum hchk, rfl⟩,
      fun ⟨hw, hb, hmx, hal, hmin, hsum, hchk⟩ => ⟨_, (execMxDrain_result h hw).2 hb hmx hal hmin hsum hchk, rfl⟩⟩,
    fun ⟨hw, hb, hsum, hchk⟩ => execMxFill_result h hw hb hsum hchk, fun ⟨hw, hb⟩ => execMxRowr_result h hw hb,
    fun ⟨hw, hb⟩ => execMxRoww_result h hw hb⟩

end Sys2Proof.Machine
end

section
/-! SUPPORT. ATTN instructions (O12): the scores that fill an accumulator, and the output rows that are scaled, added to and divided. -/

namespace Sys2Proof.Machine

open Sys2Proof

/-! ### attn.score and attn.recomp (R213 to R218, R222) -/

theorem attnTile_rows (s : State) (c : EntryCtx) (x : Engine) (f : Fields) (inside : Nat → Word → Word) (outside : Word) :
    ∃ row : Nat → List Word, (∀ m, (row m).length = 128) ∧ attnTile s c x f inside outside = (List.range 128).map row := by
  unfold attnTile
  exact ⟨_, fun _ => by rw [List.length_map, List.length_range], rfl⟩

theorem accSkipOnly_wrAcc (x : Engine) (i : Nat) (rows : List (List Word)) : accSkipOnly x (wrAcc x i rows) := by
  have hmark : accSkipOnly x { x with skip := setFld x.skip i i 0 } := rfl
  exact accSkipOnly_trans hmark (accSkipOnly_of_accOnly (accOnly_foldl_wrAccRow _ i rows))

/-- A skipped mark says nothing of the other accumulators. -/
theorem rdAcc_setFld_skip_of_ne (x : Engine) {i j : Nat} (hi : i < 8) (hj : j ≠ i) (v m n : Nat) :
    rdAcc { x with skip := setFld x.skip i i v } j m n = rdAcc x j m n := by
  rw [rdAcc, rdAcc]
  dsimp only
  rw [bitAt_setFld_byte _ hi, if_neg hj]

/-- An accumulator reads what was written to it whole. -/
theorem rdAcc_wrAcc (x : Engine) {i : Nat} (hi : i < 8) {row : Nat → List Word} (hrow : ∀ m, (row m).length = 128)
    {j m n : Nat} (hm : m < 128) (hn : n < 128) :
    rdAcc (wrAcc x i ((List.range 128).map row)) j m n = if j = i then (row m).getD n 0 else rdAcc x j m n := by
  have hskip : bitAt (setFld x.skip i i 0) i = false := by rw [bitAt_setFld_byte _ hi, if_pos rfl, Nat.zero_testBit]
  rw [wrAcc, rdAcc_foldl_wrAccRow (x := { x with skip := setFld x.skip i i 0 }) hrow hskip (Nat.le_refl 128) hm hn]
  by_cases hj : j = i
  · rw [if_pos ⟨hj, hm⟩, if_pos hj]
  · rw [if_neg (fun h => hj h.1), if_neg hj, rdAcc_setFld_skip_of_ne x hi hj]

theorem wordsMet_maskEcc (e : Nat) (c : EntryCtx) (d : DWord) (s : State) : wordsMet s (maskEcc e c d s) :=
  wordsMet_ite_flEcc ..

/-- A register number in 3 bits. -/
theorem imm_three_lt (f : Fields) (lo : Nat) : imm f (lo + 2) lo < 8 := by
  have hlt : imm f (lo + 2) lo < 2 ^ (lo + 2 + 1 - lo) := fld_lt ..
  have hwidth : lo + 2 + 1 - lo = 3 := by omega
  rwa [hwidth] at hlt

section
variable {e : Nat} {f : Fields} {s : State} {c : EntryCtx} (h : issues s e c)
include h

/-- An instruction that fills accumulator SACC with the elements of a tile. -/
theorem runEng_attnTile {func : Nat} (hw : wordOk 0x18 func f = true) (inside : Nat → Word → Word) (outside : Word)
    {g : EntryCtx → Engine → IRes} (hg : g c (engOf s e) =
      let rows := attnTile s c (engOf s e) f inside outside
      .ok (setEng e (advance (withFlags (wrAcc (engOf s e) (imm f 31 29) rows) false (rows.any anyNan)))
        (maskEcc e c (rdS (engOf s e) f.d) s))) :
    leadsTo (runEng e 0x18 func f s g) (accsBecome e (fun i m n => if i = imm f 31 29 then
      ((attnTile s c (engOf s e) f inside outside).getD m []).getD n 0 else rdAcc (engOf s e) i m n) s) := by
  refine ⟨_, runEng_ok h hw hg, accsBecome_withFlags (wordsMet_maskEcc ..) (accSkipOnly_wrAcc ..)
    (fun i m n _ hm hn => ?_) _⟩
  obtain ⟨row, hrow, hrows⟩ := attnTile_rows s c (engOf s e) f inside outside
  rw [hrows, rdAcc_wrAcc _ (imm_three_lt f 29) hrow hm hn, getD_map_range _ _ hm]

theorem execAttnScore_result (hw : wordOk 0x18 0 f = true) (hlegal : maskLegal (rdS (engOf s e) f.d) = true)
    (hsum : maskSum (rdS (engOf s e) f.d) ≠ 1) (hchk : chkScore s c (engOf s e) f = .ok) :
    leadsTo (execAttnScore e f s) (accsBecome e (fun i m n => if i = imm f 31 29 then
      ((attnTile s c (engOf s e) f (fun _ v => v) 0xFF800000#32).getD m []).getD n 0 else rdAcc (engOf s e) i m n) s) := by
  refine runEng_attnTile h hw _ _ ?_
  dsimp only
  rw [hlegal, Bool.not_true, if_neg Bool.false_ne_true, if_neg hsum, hchk, Chk.run_ok]
  rfl

/-- A mask that allows no pair marks the accumulator as skipped (R218). -/
theorem execAttnScore_skips (hw : wordOk 0x18 0 f = true) (hlegal : maskLegal (rdS (engOf s e) f.d) = true)
    (hsum : maskSum (rdS (engOf s e) f.d) = 1) :
    leadsTo (execAttnScore e f s) (accsBecome e (fun i m n => if i = imm f 31 29 then 0xFF800000#32
      else rdAcc (engOf s e) i m n) s) := by
  have hsa : imm f 31 29 < 8 := imm_three_lt f 29
  refine ⟨_, runEng_ok h hw ?_, accsBecome_advance (y := { engOf s e with
    skip := setFld (engOf s e).skip (imm f 31 29) (imm f 31 29) 1 }) (wordsMet_refl s) rfl fun i m n _ _ _ => ?_⟩
  · dsimp only
    rw [hlegal, Bool.not_true, if_neg Bool.false_ne_true, if_pos hsum]
  · by_cases hi : i = imm f 31 29
    · rw [rdAcc]
      dsimp only
      rw [bitAt_setFld_byte _ hsa, if_pos hi, if_pos hi, Nat.testBit_one_zero, if_pos rfl, f32NegInf]
    · rw [if_neg hi, rdAcc_setFld_skip_of_ne _ hsa hi]

theorem execAttnRecomp_result (hw : wordOk 0x18 5 f = true) (hlegal : maskLegal (rdS (engOf s e) f.d) = true)
    (hchk : chkScore s c (engOf s e) f = .ok) :
    leadsTo (execAttnRecomp e f s) (accsBecome e (fun i m n => if i = imm f 31 29 then
      ((attnTile s c (engOf s e) f (fun q v =>
        expRef (sub32 .nearest v ((rdV (engOf s e) (imm f 6 3)).getD q 0))) 0).getD m []).getD n 0
      else rdAcc (engOf s e) i m n) s) := by
  refine runEng_attnTile h hw _ _ ?_
  dsimp only
  rw [hlegal, Bool.not_true, if_neg Bool.false_ne_true, hchk, Chk.run_ok]
  rfl

end

/-! ### Output accumulators (R213, R218) -/

theorem pc_of_accSkipOnly {x y : Engine} (h : accSkipOnly x y) : y.pc = x.pc := by
  rw [accSkipOnly] at h
  rw [← h]

theorem rdV_of_accSkipOnly {x y : Engine} (h : accSkipOnly x y) (r : Nat) : rdV y r = rdV x r := by
  rw [accSkipOnly] at h
  rw [← h]
  rfl

theorem rdV_advance_withFlags (x : Engine) (sat nan : Bool) (r : Nat) : rdV (advance (withFlags x sat nan)) r = rdV x r := rfl

theorem rdAcc_advance_withFlags (x : Engine) (sat nan : Bool) (i m n : Nat) :
    rdAcc (advance (withFlags x sat nan)) i m n = rdAcc x i m n := rfl

theorem pc_advance_withFlags (x : Engine) (sat nan : Bool) : (advance (withFlags x sat nan)).pc = x.pc + 8#20 := rfl

/-- The output accumulators, ready to be written: accumulator `o`, and the next one where `pair` holds. -/
def openOuts (x : Engine) (o : Nat) (pair : Bool) : Engine := if pair then unskip (unskip x o) (o + 1) else unskip x o

theorem accSkipOnly_openOuts (x : Engine) (o : Nat) (pair : Bool) : accSkipOnly x (openOuts x o pair) := by
  rw [openOuts]
  split
  · exact accSkipOnly_trans (accSkipOnly_unskip ..) (accSkipOnly_unskip ..)
  · exact accSkipOnly_unskip ..

theorem rdAcc_openOuts (x : Engine) (o : Nat) (pair : Bool) {i m n : Nat} (hm : m < 128) (hn : n < 128) :
    rdAcc (openOuts x o pair) i m n = rdAcc x i m n := by
  rw [openOuts]
  split
  · rw [rdAcc_unskip _ _ hm hn, rdAcc_unskip _ _ hm hn]
  · exact rdAcc_unskip _ _ hm hn

/-- No accumulator that is ready to be written is marked as skipped, and no other mark changes. -/
theorem bitAt_skip_openOuts (x : Engine) (o : Nat) (pair : Bool) (i : Nat) :
    bitAt (openOuts x o pair).skip i = if isOut o pair i then false else bitAt x.skip i := by
  cases pair with
  | false =>
    rw [openOuts, if_neg Bool.false_ne_true, bitAt_skip_unskip]
    simp
  | true =>
    rw [openOuts, if_pos rfl, bitAt_skip_unskip, bitAt_skip_unskip]
    by_cases h1 : i = o + 1
    · rw [if_pos h1, if_pos (.inr ⟨rfl, h1⟩)]
    · by_cases h0 : i = o
      · rw [if_neg h1, if_pos h0, if_pos (.inl h0)]
      · rw [if_neg h1, if_neg h0, if_neg fun hout => hout.elim h0 fun h => h1 h.2]

/-- The rows below `k` of the output accumulators become `g` of what they read. -/
def updOuts (x : Engine) (o : Nat) (pair : Bool) (k : Nat) (g : Nat → Nat → Word → Word) : Engine :=
  updAccs (openOuts x o pair) o pair k g

theorem accSkipOnly_updOuts (x : Engine) (o : Nat) (pair : Bool) (k : Nat) (g : Nat → Nat → Word → Word) :
    accSkipOnly x (updOuts x o pair k g) :=
  accSkipOnly_trans (accSkipOnly_openOuts x o pair) (accSkipOnly_of_accOnly (accOnly_updAccs g k))

theorem rdAcc_updOuts (x : Engine) (o : Nat) (pair : Bool) {k : Nat} (g : Nat → Nat → Word → Word) (hk : k ≤ 128)
    {i m n : Nat} (hm : m < 128) (hn : n < 128) :
    rdAcc (updOuts x o pair k g) i m n = if isOut o pair i ∧ m < k then g m n (rdAcc x i m n) else rdAcc x i m n := by
  rw [updOuts, rdAcc_updAccs g k (by rw [bitAt_skip_openOuts, if_pos (.inl rfl)])
    (fun hp => by rw [bitAt_skip_openOuts, if_pos (.inr ⟨hp, rfl⟩)]) hk hm hn, rdAcc_openOuts x o pair hm hn]

/-- The output rows one after another, each in its accumulator and where `pair` holds in the next one. -/
theorem updAccs_eq_foldl (x : Engine) (o k : Nat) (p : Prop) [Decidable p] (g : Nat → Word → Word) :
    updAccs x o (decide p) k (fun q _ => g q) = (List.range k).foldl (fun y q =>
      let z := wrAccRow y o q ((accRow y o q).map (g q))
      if p then wrAccRow z (o + 1) q ((accRow z (o + 1) q).map (g q)) else z) x := by
  refine List.foldl_ext _ _ _ fun y q _ => ?_
  dsimp only
  rw [wrAccRow_map_accRow, wrAccRow_map_accRow, updRows]
  simp only [decide_eq_true_eq]

theorem openOuts_eq_ite (x : Engine) (o : Nat) (p : Prop) [Decidable p] :
    openOuts x o (decide p) = if p then unskip (unskip x o) (o + 1) else unskip x o := by
  simp only [openOuts, decide_eq_true_eq]

/-! ### attn.smax (R219) -/

theorem getD_mapIdx {α β : Type} (l : List α) (g : Nat → α → β) (d : α) (d' : β) {i : Nat} (h : i < l.length) :
    (l.mapIdx g).getD i d' = g i (l.getD i d) := by
  simp [List.getD_eq_getElem?_getD, h]

/-- Row `q` of attn.smax: P, alpha, and the new maximum and sum. -/
def smaxRowAt (x : Engine) (f : Fields) (q : Nat) : List Word × Word × Word × Word :=
  smaxRow (imm f 25 22) (accRow x (imm f 31 29) q) ((rdV x f.a.toNat).getD q 0) ((rdV x f.b.toNat).getD q 0)

theorem length_smaxRowAt (x : Engine) (f : Fields) (q : Nat) : (smaxRowAt x f q).1.length = 128 := by
  rw [smaxRowAt, smaxRow]
  dsimp only
  rw [probRow]
  split <;> rw [List.length_map, length_accRow]

/-- The accumulators after attn.smax: P in acc[SACC], and the output rows scaled. -/
def smaxAccs (x : Engine) (f : Fields) : Engine :=
  updAccs (updAccs (openOuts x (imm f 28 26) (imm f 21 21 = 1)) (imm f 31 29) false (imm f 20 14 + 1)
    fun q n _ => (smaxRowAt x f q).1.getD n 0) (imm f 28 26) (imm f 21 21 = 1) (imm f 20 14 + 1)
    fun q _ w => mul32 .nearest w (smaxRowAt x f q).2.1

theorem accSkipOnly_smaxAccs (x : Engine) (f : Fields) : accSkipOnly x (smaxAccs x f) :=
  accSkipOnly_trans (accSkipOnly_openOuts ..) (accSkipOnly_of_accOnly
    (accOnly_trans (accOnly_updAccs ..) (accOnly_updAccs ..)))

theorem rdAcc_smaxAccs (x : Engine) (f : Fields) (hsa : bitAt x.skip (imm f 31 29) = false)
    (hout : ¬ isOut (imm f 28 26) (imm f 21 21 = 1) (imm f 31 29)) {i m n : Nat} (hm : m < 128) (hn : n < 128) :
    rdAcc (smaxAccs x f) i m n =
      if i = imm f 31 29 ∧ m < imm f 20 14 + 1 then (smaxRowAt x f m).1.getD n 0
      else if isOut (imm f 28 26) (imm f 21 21 = 1) i ∧ m < imm f 20 14 + 1 then
        mul32 .nearest (rdAcc x i m n) (smaxRowAt x f m).2.1
      else rdAcc x i m n := by
  have hnq : imm f 20 14 + 1 ≤ 128 := imm_succ_le f 14
  have hopen (j : Nat) : bitAt (openOuts x (imm f 28 26) (imm f 21 21 = 1)).skip j =
      if isOut (imm f 28 26) (imm f 21 21 = 1) j then false else bitAt x.skip j := bitAt_skip_openOuts ..
  have hskip := skip_of_accOnly (accOnly_updAccs (x := openOuts x (imm f 28 26) (imm f 21 21 = 1)) (o := imm f 31 29)
    (pair := false) (fun q n _ => (smaxRowAt x f q).1.getD n 0) (imm f 20 14 + 1))
  rw [smaxAccs, rdAcc_updAccs _ _ (by rw [hskip, hopen, if_pos (.inl rfl)])
    (fun hp => by rw [hskip, hopen, if_pos (.inr ⟨hp, rfl⟩)]) hnq hm hn,
    rdAcc_updAccs _ _ (by rw [hopen, if_neg hout, hsa]) (fun hp => absurd hp Bool.false_ne_true) hnq hm hn,
    rdAcc_openOuts _ _ _ hm hn]
  have hone : (isOut (imm f 31 29) false i ∧ m < imm f 20 14 + 1) ↔ (i = imm f 31 29 ∧ m < imm f 20 14 + 1) := by simp
  simp only [hone]
  by_cases hi : i = imm f 31 29 ∧ m < imm f 20 14 + 1
  · rw [if_pos hi, if_pos hi, if_neg fun hboth => hout (hi.1 ▸ hboth.1)]
  · rw [if_neg hi, if_neg hi]

/-- A vector register whose lanes below NQ take new values. -/
def newLanes (x : Engine) (r k : Nat) (lane : Nat → Word) : List Word :=
  (rdV x r).mapIdx fun i w => if i < k then lane i else w

theorem getD_newLanes (x : Engine) (r k : Nat) (lane : Nat → Word) {q : Nat} (hq : q < 128) :
    (newLanes x r k lane).getD q 0 = if q < k then lane q else (rdV x r).getD q 0 :=
  getD_mapIdx _ _ 0 0 (by rw [rdV_length]; exact hq)

theorem length_newLanes (x : Engine) (r k : Nat) (lane : Nat → Word) : (newLanes x r k lane).length = 128 := by
  rw [newLanes, List.length_mapIdx, rdV_length]

/-- Keeps what attn.pv takes from the attn.smax before it (R213, R220). -/
def withSmax (x : Engine) (nq fm : Nat) : Engine := { x with smaxNq := nq, smaxFmt := fm }

theorem rdV_withSmax (x : Engine) (nq fm r : Nat) : rdV (withSmax x nq fm) r = rdV x r := rfl
theorem rdAcc_withSmax (x : Engine) (nq fm i m n : Nat) : rdAcc (withSmax x nq fm) i m n = rdAcc x i m n := rfl
theorem rdAcc_wrV (x : Engine) (r : Nat) (ls : List Word) (i m n : Nat) : rdAcc (wrV x r ls) i m n = rdAcc x i m n := rfl
theorem withSmax_pc (x : Engine) (nq fm : Nat) : (withSmax x nq fm).pc = x.pc := rfl

/-- The engine after attn.smax, but for its flags and its pc. -/
def smaxEngine (x : Engine) (f : Fields) : Engine :=
  withSmax (wrV (wrV (smaxAccs x f) f.b.toNat (newLanes x f.b.toNat (imm f 20 14 + 1) fun q => (smaxRowAt x f q).2.2.2))
    f.a.toNat (newLanes x f.a.toNat (imm f 20 14 + 1) fun q => (smaxRowAt x f q).2.2.1)) (imm f 20 14 + 1) (imm f 25 22)

theorem rdV_smaxEngine (x : Engine) (f : Fields) (r : Nat) : rdV (smaxEngine x f) r =
    if r = f.a.toNat then newLanes x f.a.toNat (imm f 20 14 + 1) fun q => (smaxRowAt x f q).2.2.1
    else if r = f.b.toNat then newLanes x f.b.toNat (imm f 20 14 + 1) fun q => (smaxRowAt x f q).2.2.2 else rdV x r := by
  rw [smaxEngine, rdV_withSmax, rdV_wrV _ _ _ _ (length_newLanes ..), rdV_wrV _ _ _ _ (length_newLanes ..),
    rdV_of_accSkipOnly (accSkipOnly_smaxAccs x f)]

theorem rdAcc_smaxEngine (x : Engine) (f : Fields) (i m n : Nat) : rdAcc (smaxEngine x f) i m n = rdAcc (smaxAccs x f) i m n := by
  rw [smaxEngine, rdAcc_withSmax, rdAcc_wrV, rdAcc_wrV]

theorem smaxEngine_pc (x : Engine) (f : Fields) : (smaxEngine x f).pc = x.pc := by
  rw [smaxEngine, withSmax_pc, wrV_pc, wrV_pc, pc_of_accSkipOnly (accSkipOnly_smaxAccs x f)]

theorem newLanes_eq_mapIdx {α : Type} (x : Engine) (r k : Nat) (row : Nat → α) (g : α → Word) :
    ((rdV x r).mapIdx fun i w => if i < k then (((List.range k).map row).map g).getD i 0 else w) =
      newLanes x r k fun i => g (row i) := by
  refine List.mapIdx_eq_mapIdx_iff.2 fun i hi => ?_
  split
  · next hk => rw [List.map_map, getD_map_range _ _ hk]; rfl
  · rfl

/-- The row-by-row writes of attn.smax are those of `smaxAccs`. -/
theorem smaxAccs_eq_foldl (x : Engine) (f : Fields) :
    let rs := (List.range (imm f 20 14 + 1)).map (smaxRowAt x f)
    let y := unskip x (imm f 28 26)
    let y := if imm f 21 21 = 1 then unskip y (imm f 28 26 + 1) else y
    let y := (rs.zipIdx).foldl (fun z p => wrAccRow z (imm f 31 29) p.2 p.1.1) y
    (rs.zipIdx).foldl (fun z p =>
      let z := scaleRow z (imm f 28 26) p.2 p.1.2.1
      if imm f 21 21 = 1 then scaleRow z (imm f 28 26 + 1) p.2 p.1.2.1 else z) y = smaxAccs x f := by
  dsimp only
  rw [← openOuts_eq_ite, foldl_zipIdx_map_range (smaxRowAt x f) (fun z r q => wrAccRow z (imm f 31 29) q r.1),
    foldl_zipIdx_map_range (smaxRowAt x f) (fun z r q => if imm f 21 21 = 1 then
      scaleRow (scaleRow z (imm f 28 26) q r.2.1) (imm f 28 26 + 1) q r.2.1 else scaleRow z (imm f 28 26) q r.2.1),
    foldl_range_wrAccRow _ _ _ (length_smaxRowAt x f),
    smaxAccs, updAccs_eq_foldl _ _ _ (imm f 21 21 = 1) fun q w => mul32 .nearest w (smaxRowAt x f q).2.1]
  rfl

section
variable {e : Nat} {f : Fields} {s : State} {c : EntryCtx} (h : issues s e c)
include h

theorem execAttnSmax_eq (hw : wordOk 0x18 1 f = true) (hskip : bitAt (engOf s e).skip (imm f 31 29) = false) :
    ∃ nan, execAttnSmax e f s = .next (setEng e (advance (withFlags (smaxEngine (engOf s e) f) false nan)) s) := by
  rw [execAttnSmax, runReg_next h hw]
  dsimp only
  rw [hskip, if_neg Bool.false_ne_true, smaxEngine, ← smaxAccs_eq_foldl,
    ← newLanes_eq_mapIdx _ _ _ (smaxRowAt (engOf s e) f) fun r => r.2.2.2,
    ← newLanes_eq_mapIdx _ _ _ (smaxRowAt (engOf s e) f) fun r => r.2.2.1]
  exact ⟨_, rfl⟩

/-- On a skipped accumulator attn.smax does nothing (R218). -/
theorem execAttnSmax_skipped (hw : wordOk 0x18 1 f = true) (hskip : bitAt (engOf s e).skip (imm f 31 29) = true) :
    execAttnSmax e f s = .next (setEng e (advance (engOf s e)) s) := by
  rw [execAttnSmax, runReg_next h hw]
  dsimp only
  rw [hskip, if_pos rfl]

theorem execAttnSmax_result (hw : wordOk 0x18 1 f = true) :
    let x := engOf s e
    let sa := imm f 31 29
    let oa := imm f 28 26
    let nq := imm f 20 14 + 1
    let pair : Bool := imm f 21 21 = 1
    leadsTo (execAttnSmax e f s) fun t => (onlyEngine e s t ∧ (engOf t e).pc = nextPc s e) ∧
      (bitAt x.skip sa = true → engOf t e = { x with pc := nextPc s e }) ∧
      (bitAt x.skip sa = false → (engOf t e).smaxNq = nq ∧ (engOf t e).smaxFmt = imm f 25 22) ∧
      (bitAt x.skip sa = false ∧ f.a ≠ f.b → ∀ q, q < 128 →
        (rdV (engOf t e) f.a.toNat).getD q 0 =
          (if q < nq then (smaxRowAt x f q).2.2.1 else (rdV x f.a.toNat).getD q 0) ∧
        (rdV (engOf t e) f.b.toNat).getD q 0 = if q < nq then (smaxRowAt x f q).2.2.2 else (rdV x f.b.toNat).getD q 0) ∧
      (bitAt x.skip sa = false ∧ sa ≠ oa ∧ (pair = true → sa ≠ oa + 1) → ∀ i q n, i < 8 → q < 128 → n < 128 →
        rdAcc (engOf t e) i q n =
          if i = sa ∧ q < nq then (smaxRowAt x f q).1.getD n 0
          else if (i = oa ∨ pair = true ∧ i = oa + 1) ∧ q < nq then mul32 .nearest (rdAcc x i q n) (smaxRowAt x f q).2.1
          else rdAcc x i q n) := by
  intro x sa oa nq pair
  cases hskip : bitAt x.skip sa with
  | true =>
    refine ⟨_, execAttnSmax_skipped h hw hskip, ?_⟩
    simp only [engOf_setEng_self, Bool.true_eq_false, false_and, false_implies, and_true]
    exact ⟨⟨onlyEngine_setEng .., rfl⟩, fun _ => rfl⟩
  | false =>
    obtain ⟨nan, heq⟩ := execAttnSmax_eq h hw hskip
    refine ⟨_, heq, ⟨onlyEngine_setEng .., ?_⟩, fun hno => absurd hno Bool.false_ne_true, fun _ => ?_, fun ⟨_, hab⟩ q hq => ?_,
      fun ⟨_, hne, hne'⟩ i q n _ hq hn => ?_⟩ <;> rw [engOf_setEng_self]
    · rw [pc_advance_withFlags, smaxEngine_pc, nextPc]
    · exact ⟨rfl, rfl⟩
    · have hreg : f.b.toNat ≠ f.a.toNat := fun hb => hab (BitVec.eq_of_toNat_eq hb.symm)
      rw [rdV_advance_withFlags, rdV_advance_withFlags, rdV_smaxEngine, rdV_smaxEngine, if_pos rfl, if_neg hreg, if_pos rfl,
        getD_newLanes _ _ _ _ hq, getD_newLanes _ _ _ _ hq]
      exact ⟨rfl, rfl⟩
    · rw [rdAcc_advance_withFlags, rdAcc_smaxEngine]
      exact rdAcc_smaxAccs x f hskip (fun hout => hout.elim hne fun hp => hne' hp.1 hp.2) hq hn

end

/-! ### attn.pv (R213, R220) -/

/-- The formats of P and V that go together (R213). -/
theorem pvPairs_iff (pfmt vfmt : Nat) : pvPairs pfmt vfmt = true ↔
    pfmt = 0 ∨ pfmt = 1 ∧ vfmt = 1 ∨ pfmt ≠ 0 ∧ pfmt ≠ 1 ∧ (vfmt = 3 ∨ vfmt = 4) := by
  rw [pvPairs, Bool.or_eq_true, decide_eq_true_iff]
  by_cases h0 : pfmt = 0
  · simp [h0]
  · by_cases h1 : pfmt = 1
    · simp [h1]
    · simp [h0, h1]

/-- The columns from `lo` on, and below `hi`, of the output that attn.pv adds to accumulator `o`. -/
def pvPart (x : Engine) (f : Fields) (v : Tile) (o lo hi : Nat) (y : Engine) : Engine :=
  updAccs y o false x.smaxNq fun q n w =>
    if lo + n < hi then add32 .nearest w (pvElem (accRow x (imm f 31 29) q) v (imm f 18 12 + 1) (lo + n)) else w

/-- The columns of d. -/
def pvCols (f : Fields) : Nat := 32 * (imm f 21 19 + 1)

/-- The accumulators after attn.pv. -/
def pvAccs (x : Engine) (f : Fields) (v : Tile) : Engine :=
  let y := pvPart x f v (imm f 28 26) 0 (min (pvCols f) 128) (unskip x (imm f 28 26))
  if pvCols f > 128 then pvPart x f v (imm f 28 26 + 1) 128 (pvCols f) (unskip y (imm f 28 26 + 1)) else y

theorem accOnly_pvPart (x : Engine) (f : Fields) (v : Tile) (o lo hi : Nat) (y : Engine) : accOnly y (pvPart x f v o lo hi y) :=
  accOnly_updAccs ..

theorem accSkipOnly_pvAccs (x : Engine) (f : Fields) (v : Tile) : accSkipOnly x (pvAccs x f v) := by
  have hlow : accSkipOnly x (pvPart x f v (imm f 28 26) 0 (min (pvCols f) 128) (unskip x (imm f 28 26))) :=
    accSkipOnly_trans (accSkipOnly_unskip ..) (accSkipOnly_of_accOnly (accOnly_pvPart ..))
  rw [pvAccs]
  split
  · exact accSkipOnly_trans hlow (accSkipOnly_trans (accSkipOnly_unskip ..) (accSkipOnly_of_accOnly (accOnly_pvPart ..)))
  · exact hlow

theorem rdAcc_pvPart (x : Engine) (f : Fields) (v : Tile) (o lo hi : Nat) (y : Engine) (hnq : x.smaxNq ≤ 128)
    {i q n : Nat} (hq : q < 128) (hn : n < 128) :
    rdAcc (pvPart x f v o lo hi (unskip y o)) i q n = if (i = o ∧ lo + n < hi) ∧ q < x.smaxNq then
      add32 .nearest (rdAcc y i q n) (pvElem (accRow x (imm f 31 29) q) v (imm f 18 12 + 1) (lo + n))
      else rdAcc y i q n := by
  rw [pvPart, rdAcc_updAccs _ _ (by rw [bitAt_skip_unskip, if_pos rfl]) (fun hp => absurd hp Bool.false_ne_true) hnq hq hn,
    rdAcc_unskip _ _ hq hn]
  by_cases hi' : i = o ∧ q < x.smaxNq
  · rw [if_pos ⟨.inl hi'.1, hi'.2⟩]
    by_cases hcol : lo + n < hi
    · rw [if_pos hcol, if_pos ⟨⟨hi'.1, hcol⟩, hi'.2⟩]
    · rw [if_neg hcol, if_neg fun hall => hcol hall.1.2]
  · rw [if_neg fun hall => hi' ⟨hall.1.resolve_right (by simp), hall.2⟩,
      if_neg fun hall => hi' ⟨hall.1.1, hall.2⟩]

theorem rdAcc_pvAccs (x : Engine) (f : Fields) (v : Tile) (hnq : x.smaxNq ≤ 128) {i q n : Nat} (hq : q < 128) (hn : n < 128) :
    rdAcc (pvAccs x f v) i q n =
      if (i = imm f 28 26 ∧ n < pvCols f ∨ i = imm f 28 26 + 1 ∧ 128 + n < pvCols f) ∧ q < x.smaxNq then
        add32 .nearest (rdAcc x i q n)
          (pvElem (accRow x (imm f 31 29) q) v (imm f 18 12 + 1) (128 * (i - imm f 28 26) + n))
      else rdAcc x i q n := by
  have hlow := rdAcc_pvPart x f v (imm f 28 26) 0 (min (pvCols f) 128) x hnq (i := i) hq hn
  by_cases hi : i = imm f 28 26
  · subst hi
    have hhigh : rdAcc (pvAccs x f v) (imm f 28 26) q n =
        rdAcc (pvPart x f v (imm f 28 26) 0 (min (pvCols f) 128) (unskip x (imm f 28 26))) (imm f 28 26) q n := by
      rw [pvAccs]
      split
      · rw [rdAcc_pvPart _ _ _ _ _ _ _ hnq hq hn, if_neg (by omega)]
      · rfl
    rw [hhigh, hlow, Nat.sub_self, Nat.mul_zero]
    by_cases hcol : n < pvCols f ∧ q < x.smaxNq
    · rw [if_pos (by omega), if_pos (by omega)]
    · rw [if_neg (by omega), if_neg (by omega)]
  · rw [if_neg (by omega)] at hlow
    rw [pvAccs]
    split
    · rw [rdAcc_pvPart _ _ _ _ _ _ _ hnq hq hn, hlow]
      by_cases hcol : (i = imm f 28 26 + 1 ∧ 128 + n < pvCols f) ∧ q < x.smaxNq
      · have hone : i - imm f 28 26 = 1 := by omega
        rw [if_pos hcol, if_pos (by omega), hone]
      · rw [if_neg hcol, if_neg (by omega)]
    · rw [hlow, if_neg (by omega)]

section
variable {e : Nat} {f : Fields} {s : State} {c : EntryCtx} (h : issues s e c)
include h

theorem execAttnPv_skipped (hw : wordOk 0x18 2 f = true) (hskip : bitAt (engOf s e).skip (imm f 31 29) = true) :
    becomes e { engOf s e with pc := nextPc s e } s (execAttnPv e f s) := by
  refine runEng_becomes h hw ?_
  dsimp only
  rw [hskip, if_pos rfl]
  rfl

theorem execAttnPv_illegal (hw : wordOk 0x18 2 f = true) (hskip : bitAt (engOf s e).skip (imm f 31 29) = false)
    (hpairs : ¬ pvPairs (engOf s e).smaxFmt (imm f 25 22) = true) :
    leadsTo (execAttnPv e f s) (raised e 1 0 c s) := by
  refine runEng_exc h hw ?_
  dsimp only
  rw [hskip, if_neg Bool.false_ne_true, if_pos (by rw [Bool.eq_false_iff.2 hpairs, Bool.not_false])]

/-- attn.pv adds P × V to the output rows. -/
theorem execAttnPv_eq (hw : wordOk 0x18 2 f = true) (hskip : bitAt (engOf s e).skip (imm f 31 29) = false)
    (hpairs : pvPairs (engOf s e).smaxFmt (imm f 25 22) = true)
    (hchk : chkLm (engOf s e) (rdS (engOf s e) f.a).toNat (tileBytes (imm f 25 22) (imm f 18 12 + 1) (pvCols f)) 64 = .ok) :
    let v := mkTile (lmRead (engOf s e) (rdS (engOf s e) f.a).toNat (tileBytes (imm f 25 22) (imm f 18 12 + 1) (pvCols f)))
      (imm f 25 22) (imm f 18 12 + 1) (pvCols f)
    ∃ nan, execAttnPv e f s = .next (setEng e (advance (withFlags (pvAccs (engOf s e) f v) false nan)) s) := by
  intro v
  refine ⟨?_, runEng_ok h hw ?_⟩
  swap
  · dsimp only
    rw [hskip, if_neg Bool.false_ne_true, hpairs, Bool.not_true, if_neg Bool.false_ne_true]
    rw [pvCols] at hchk
    rw [hchk, Chk.run_ok]
    rfl

theorem execAttnPv_result (hw : wordOk 0x18 2 f = true) (hskip : bitAt (engOf s e).skip (imm f 31 29) = false)
    (hpairs : pvPairs (engOf s e).smaxFmt (imm f 25 22) = true)
    (hchk : chkLm (engOf s e) (rdS (engOf s e) f.a).toNat (tileBytes (imm f 25 22) (imm f 18 12 + 1) (pvCols f)) 64 = .ok) :
    let x := engOf s e
    let v := mkTile (lmRead x (rdS x f.a).toNat (tileBytes (imm f 25 22) (imm f 18 12 + 1) (pvCols f)))
      (imm f 25 22) (imm f 18 12 + 1) (pvCols f)
    leadsTo (execAttnPv e f s) fun t => (onlyEngine e s t ∧ (engOf t e).pc = nextPc s e) ∧
      (x.smaxNq ≤ 128 → ∀ i q n, q < 128 → n < 128 → rdAcc (engOf t e) i q n =
        if (i = imm f 28 26 ∧ n < pvCols f ∨ i = imm f 28 26 + 1 ∧ 128 + n < pvCols f) ∧ q < x.smaxNq then
          add32 .nearest (rdAcc x i q n)
            (pvElem (accRow x (imm f 31 29) q) v (imm f 18 12 + 1) (128 * (i - imm f 28 26) + n))
        else rdAcc x i q n) := by
  intro x v
  obtain ⟨nan, heq⟩ := execAttnPv_eq h hw hskip hpairs hchk
  refine ⟨_, heq, ⟨onlyEngine_setEng .., ?_⟩, fun hnq i q n hq hn => ?_⟩ <;> rw [engOf_setEng_self]
  · rw [pc_advance_withFlags, pc_of_accSkipOnly (accSkipOnly_pvAccs ..), nextPc]
  · rw [rdAcc_advance_withFlags, rdAcc_pvAccs _ _ _ hnq hq hn]

end

/-! ### attn.fin (R221, R289) -/

/-- The sum of row `q` is 0. -/
def sumIsZero (x : Engine) (f : Fields) (q : Nat) : Bool := cmp32 ((rdV x f.b.toNat).getD q 0) 0 = some 0

/-- An output element of row `q`, divided by the row's sum. -/
def finElem (x : Engine) (f : Fields) (q : Nat) (w : Word) : Word :=
  if sumIsZero x f q then 0 else div32 .nearest w ((rdV x f.b.toNat).getD q 0)

/-- The LSE of row `q`. -/
def lseAt (x : Engine) (f : Fields) (q : Nat) : Word :=
  if sumIsZero x f q then 0xFF800000#32
  else add32 .nearest ((rdV x f.a.toNat).getD q 0) (logRef ((rdV x f.b.toNat).getD q 0))

/-- The engine after attn.fin, but for its flags and its pc. -/
def finEngine (x : Engine) (f : Fields) : Engine :=
  wrV (updOuts x (imm f 28 26) (imm f 21 21 = 1) (imm f 20 14 + 1) fun q _ => finElem x f q)
    f.c.toNat (newLanes x f.c.toNat (imm f 20 14 + 1) (lseAt x f))

section
variable {e : Nat} {f : Fields} {s : State} {c : EntryCtx} (h : issues s e c)
include h

theorem execAttnFin_eq (hw : wordOk 0x18 3 f = true) :
    ∃ nan, execAttnFin e f s = .next (setEng e (advance (withFlags (finEngine (engOf s e) f) false nan)) s) := by
  rw [execAttnFin, runReg_next h hw, finEngine, updOuts, updAccs_eq_foldl _ _ _ (imm f 21 21 = 1) (finElem (engOf s e) f),
    openOuts_eq_ite]
  exact ⟨_, rfl⟩

theorem execAttnFin_result (hw : wordOk 0x18 3 f = true) :
    let x := engOf s e
    leadsTo (execAttnFin e f s) fun t => (onlyEngine e s t ∧ (engOf t e).pc = nextPc s e) ∧
      (∀ i q n, i < 8 → q < 128 → n < 128 → rdAcc (engOf t e) i q n =
        if isOut (imm f 28 26) (imm f 21 21 = 1) i ∧ q < imm f 20 14 + 1 then finElem x f q (rdAcc x i q n)
        else rdAcc x i q n) ∧
      ∀ q, q < 128 → (rdV (engOf t e) f.c.toNat).getD q 0 =
        if q < imm f 20 14 + 1 then lseAt x f q else (rdV x f.c.toNat).getD q 0 := by
  intro x
  obtain ⟨nan, heq⟩ := execAttnFin_eq h hw
  refine ⟨_, heq, ⟨onlyEngine_setEng .., ?_⟩, fun i q n _ hq hn => ?_, fun q hq => ?_⟩ <;> rw [engOf_setEng_self]
  · rw [pc_advance_withFlags, finEngine, wrV_pc, pc_of_accSkipOnly (accSkipOnly_updOuts ..), nextPc]
  · rw [rdAcc_advance_withFlags, finEngine, rdAcc_wrV, rdAcc_updOuts _ _ _ _ (imm_succ_le f 14) hq hn]
  · rw [rdV_advance_withFlags, finEngine, rdV_wrV _ _ _ _ (length_newLanes ..), if_pos rfl, getD_newLanes _ _ _ _ hq]

end

/-- Settles O12: each instruction checks its operands, and the rows that it writes read their new elements. -/
theorem attentionResults : Obligations.AttentionResults := by
  unfold Obligations.AttentionResults
  intro e f s c h
  dsimp only [exec]
  refine ⟨?_, ?_, ?_, execAttnSmax_result h, ?_, execAttnFin_result h⟩
  · rintro ⟨hw, hlegal, hsum, hchk⟩
    obtain ⟨t, ht, hk, hflies, -, -, hacc, hpc, -, hrest⟩ := execAttnScore_result h hw hlegal hsum hchk
    exact ⟨t, ht, hacc, hpc, hk, hrest, hflies⟩
  · rintro ⟨hw, hlegal, hsum⟩
    obtain ⟨t, ht, hk, hflies, -, -, hacc, hpc, -, hrest⟩ := execAttnScore_skips h hw hlegal hsum
    exact ⟨t, ht, hacc, hpc, hk, hrest, hflies⟩
  · rintro ⟨hw, hlegal, hchk⟩
    obtain ⟨t, ht, hk, hflies, -, -, hacc, hpc, -, hrest⟩ := execAttnRecomp_result h hw hlegal hchk
    exact ⟨t, ht, hacc, hpc, hk, hrest, hflies⟩
  · refine ⟨fun ⟨hw, hskip⟩ => execAttnPv_skipped h hw hskip, fun ⟨hw, hskip, hpairs⟩ => ?_,
      fun ⟨hw, hskip, hpairs, hchk⟩ => ?_⟩
    · exact execAttnPv_illegal h hw hskip (mt (pvPairs_iff _ _).1 hpairs)
    · obtain ⟨t, ht, hgoes, hacc⟩ := execAttnPv_result h hw hskip ((pvPairs_iff _ _).2 hpairs) hchk
      exact ⟨t, ht, hgoes, fun ⟨_, _, hnq⟩ i q n _ hq hn => hacc hnq i q n hq hn⟩

end Sys2Proof.Machine
end

section
/-! SUPPORT. Leaves of pages (O38): what the leaf of a page reads after writes to other leaves, and the leaves of a range. -/

namespace Sys2Proof.Machine

open Sys2Proof

/-! ### Entries of a table -/

section
variable {α β : Type} {d : α} {t : Tab α}

/-- An entry of a sorted table is what its key reads. -/
theorem tabGet_of_mem (h : tabSorted t) {e : Nat × α} (he : e ∈ t) : tabGet d t e.1 = e.2 := by
  induction t with
  | nil => exact absurd he List.not_mem_nil
  | cons x t ih =>
    obtain ⟨hhead, htail⟩ := List.pairwise_cons.1 h
    obtain rfl | he := List.mem_cons.1 he
    · exact if_pos rfl
    · have := hhead e he
      rw [tabGet, if_neg (by omega), ih htail he]

/-- What every write to a key gives it holds of the key after the writes, if there is one or if it held before. -/
theorem tabGet_foldl_set_of_forall [DecidableEq α] {key : β → Nat} {val : β → α} {a : Nat} (p : α → Prop) (xs : List β)
    (hval : ∀ x ∈ xs, key x = a → p (val x)) (h : p (tabGet d t a) ∨ ∃ x ∈ xs, key x = a) :
    p (tabGet d (xs.foldl (fun t x => tabSet d t (key x) (val x)) t) a) := by
  induction xs generalizing t with
  | nil => exact h.resolve_right (by simp)
  | cons x xs ih =>
    refine ih (fun y hy => hval y (List.mem_cons_of_mem _ hy)) ?_
    by_cases hx : key x = a
    · rw [← hx, tabGet_set_self]
      exact .inl (hval x List.mem_cons_self hx)
    · rw [tabGet_set_of_ne _ _ _ (Ne.symm hx)]
      refine h.imp_right fun ⟨y, hy, hya⟩ => ⟨y, (List.mem_cons.1 hy).resolve_left ?_, hya⟩
      rintro rfl
      exact hx hya

end

/-! ### Pages and their keys (R317, R318) -/

theorem ptKey_page (space va : Nat) : ptKey space 3 va = (space * 4 + 3) * 2 ^ 32 + va / 65536 := rfl

/-- The leaf of a page has a key of its own among all page tables of all spaces. -/
theorem ptKey_eq_page_iff {space level va va' : Nat} (hlevel : level ≤ 3) (hva : va < 2 ^ 48) (hva' : va' < 2 ^ 48) :
    ptKey space level va = ptKey space 3 va' ↔ level = 3 ∧ va / 65536 = va' / 65536 := by
  rw [ptKey_page]
  obtain rfl | rfl | rfl | rfl : level = 0 ∨ level = 1 ∨ level = 2 ∨ level = 3 := by omega
  all_goals
    simp only [ptKey, reduceIte, OfNat.ofNat_ne_zero, OfNat.ofNat_ne_one, one_ne_zero, Nat.reduceEqDiff, Nat.reducePow, false_and,
      true_and, iff_false]
    omega

theorem ptOf_setPt (space level va : Nat) (w : DWord) (s : State) (va' : Nat) :
    ptOf (setPt space level va w s) space 3 va' = if ptKey space 3 va' = ptKey space level va then w else ptOf s space 3 va' :=
  tabGet_set 0#64 s.mem.pt _ _ w

/-- The leaves of a range are the valid leaves of its pages. -/
theorem mem_leavesIn {s : State} {space lo hi : Nat} {e : Nat × DWord} : e ∈ leavesIn s space lo hi ↔
    (ptKey space 3 e.1, e.2) ∈ s.mem.pt ∧ bitAt e.2 63 = true ∧ lo ≤ e.1 ∧ e.1 < hi ∧ e.1 % 65536 = 0 ∧ e.1 < 2 ^ 48 := by
  obtain ⟨va, w⟩ := e
  rw [leavesIn, List.mem_filterMap]
  constructor
  · rintro ⟨⟨key, w'⟩, hmem, hif⟩
    simp only [Option.ite_none_right_eq_some, Option.some.injEq, Prod.mk.injEq, Bool.and_eq_true, decide_eq_true_eq] at hif
    obtain ⟨⟨hkey, hvalid⟩, ⟨hlo, hhi⟩, rfl, rfl⟩ := hif
    have hpage : ptKey space 3 (key % 2 ^ 32 * 65536) = key := by rw [ptKey_page]; omega
    exact ⟨hpage.symm ▸ hmem, hvalid, hlo, hhi, by omega, by omega⟩
  · rintro ⟨hmem, hvalid, hlo, hhi, halign, hlt⟩
    dsimp only at hmem hvalid hlo hhi halign hlt
    have hspace : ptKey space 3 va / 2 ^ 32 = space * 4 + 3 := by rw [ptKey_page]; omega
    have hpage : ptKey space 3 va % 2 ^ 32 * 65536 = va := by rw [ptKey_page]; omega
    refine ⟨(ptKey space 3 va, w), hmem, ?_⟩
    simp only [hspace, hpage, hvalid, hlo, hhi, decide_true, Bool.and_self, if_true]

/-- The valid leaf of a page of a range is among the range's leaves. -/
theorem mem_leavesIn_of_valid {s : State} {space lo hi va : Nat} (hvalid : bitAt (ptOf s space 3 va) 63 = true) (hlo : lo ≤ va)
    (hhi : va < hi) (halign : va % 65536 = 0) (hlt : va < 2 ^ 48) : (va, ptOf s space 3 va) ∈ leavesIn s space lo hi := by
  refine mem_leavesIn.2 ⟨mem_of_tabGet_ne fun h => ?_, hvalid, hlo, hhi, halign, hlt⟩
  rw [ptOf, h] at hvalid
  exact absurd hvalid (by decide)

/-- A page of a range of whole pages. -/
theorem page_of_rangeOk {va n k : Nat} (h : rangeOk va n = true) (hk : k < n / 65536) :
    va ≤ va + 65536 * k ∧ va + 65536 * k < va + n ∧ (va + 65536 * k) % 65536 = 0 ∧ va + 65536 * k < 2 ^ 47 := by
  simp only [rangeOk, Bool.and_eq_true, decide_eq_true_eq] at h
  omega

/-! ### Writes to many leaves -/

/-- Writes to leaves change the page tables alone. -/
theorem foldl_setPt (space : Nat) (f : Nat × DWord → DWord) (es : List (Nat × DWord)) (s : State) :
    es.foldl (fun t e => setPt space 3 e.1 (f e) t) s =
      { s with mem := { s.mem with pt := es.foldl (fun p e => tabSet 0#64 p (ptKey space 3 e.1) (f e)) s.mem.pt } } := by
  induction es generalizing s with
  | nil => rfl
  | cons e es ih =>
    rw [List.foldl_cons, ih]
    rfl

theorem lowerFrame_eq (f : Nat) (s : State) : ∃ frames, lowerFrame f s = { s with mem := { s.mem with frames := frames } } := by
  rw [lowerFrame]
  split
  · exact ⟨_, rfl⟩
  · exact ⟨_, rfl⟩

/-- The leaves of a range that await the completion of the epoch command that unmaps them (R340). -/
def releasable (space va n : Nat) (s : State) : List (Nat × DWord) :=
  s.mem.pt.filter fun e => e.1 / 2 ^ 32 = space * 4 + 3 && va ≤ e.1 % 2 ^ 32 * 65536 && e.1 % 2 ^ 32 * 65536 < va + n && !bitAt e.2 63

/-- The release of a range empties its leaves and changes the frames besides. -/
theorem releaseRange_eq (space va n : Nat) (s : State) : ∃ frames, releaseRange space va n s = { s with mem := { s.mem with
    frames := frames
    pt := (releasable space va n s).foldl (fun p e => tabSet 0#64 p (ptKey space 3 (e.1 % 2 ^ 32 * 65536)) 0) s.mem.pt } } := by
  have hfold (es : List (Nat × DWord)) (u : State) : ∃ frames,
      es.foldl (fun t e => lowerFrame (leafFrame e.2) (setPt space 3 (e.1 % 2 ^ 32 * 65536) 0 t)) u = { u with mem := { u.mem with
        frames := frames
        pt := es.foldl (fun p e => tabSet 0#64 p (ptKey space 3 (e.1 % 2 ^ 32 * 65536)) 0) u.mem.pt } } := by
    induction es generalizing u with
    | nil => exact ⟨u.mem.frames, rfl⟩
    | cons e es ih =>
      rw [List.foldl_cons]
      obtain ⟨frames, hframes⟩ := lowerFrame_eq (leafFrame e.2) (setPt space 3 (e.1 % 2 ^ 32 * 65536) 0 u)
      rw [hframes]
      obtain ⟨frames', hframes'⟩ := ih { setPt space 3 (e.1 % 2 ^ 32 * 65536) 0 u with
        mem := { (setPt space 3 (e.1 % 2 ^ 32 * 65536) 0 u).mem with frames := frames } }
      exact ⟨frames', hframes'⟩
  exact hfold _ s

/-- A released page has no leaf. -/
theorem ptOf_releaseRange {space va n k : Nat} {s : State} (hrange : rangeOk va n = true) (hk : k < n / 65536)
    (hinvalid : bitAt (ptOf s space 3 (va + 65536 * k)) 63 = false) : ptOf (releaseRange space va n s) space 3 (va + 65536 * k) = 0 := by
  obtain ⟨hlo, hhi, halign, hlt⟩ := page_of_rangeOk hrange hk
  obtain ⟨frames, hframes⟩ := releaseRange_eq space va n s
  rw [hframes, ptOf]
  refine tabGet_foldl_set_of_forall (· = 0) _ (fun _ _ _ => rfl) ?_
  by_cases hzero : ptOf s space 3 (va + 65536 * k) = 0
  · exact .inl hzero
  · have hspace : ptKey space 3 (va + 65536 * k) / 2 ^ 32 = space * 4 + 3 := by rw [ptKey_page]; omega
    have hpage : ptKey space 3 (va + 65536 * k) % 2 ^ 32 * 65536 = va + 65536 * k := by rw [ptKey_page]; omega
    refine .inr ⟨(ptKey space 3 (va + 65536 * k), ptOf s space 3 (va + 65536 * k)),
      List.mem_filter.2 ⟨mem_of_tabGet_ne hzero, ?_⟩, congrArg (ptKey space 3) hpage⟩
    simp only [hspace, hpage, hinvalid, hlo, hhi, decide_true, Bool.and_true, Bool.not_false]

end Sys2Proof.Machine
end

section
/-! SUPPORT. Epoch commands (O38): what they leave of the transfers under way, and the leaves that they change. -/

namespace Sys2Proof.Machine

open Sys2Proof

/-! ### Transfers under way (R338) -/

/-- A transfer without what of it is checked, and under which epoch. -/
def unheld (x : Xfer) : Xfer := { x with held := [], epoch := 0 }

/-- An engine differs in what its transfers hold as checked alone. -/
def engineRechecked (x y : Engine) : Prop := { y with xq := [] } = { x with xq := [] } ∧ y.xq.map unheld = x.xq.map unheld

/-- A Stagehand differs in what its transfers hold as checked alone. -/
def stagehandRechecked (x y : Stagehand) : Prop := { y with xq := [] } = { x with xq := [] } ∧ y.xq.map unheld = x.xq.map unheld

/-- A state differs in what transfers hold as checked, and in the free values drawn, alone. -/
def rechecked (s t : State) : Prop :=
  { t with eng := s.eng, sh := s.sh, free := s.free } = s ∧ (∀ k, engineRechecked (engOf s k) (engOf t k)) ∧
    ∀ k, stagehandRechecked (shOf s k) (shOf t k)

theorem rechecked_refl (s : State) : rechecked s s := ⟨rfl, fun _ => ⟨rfl, rfl⟩, fun _ => ⟨rfl, rfl⟩⟩

theorem rechecked_trans {s t u : State} (h : rechecked s t) (g : rechecked t u) : rechecked s u := by
  obtain ⟨hrest, heng, hsh⟩ := h
  obtain ⟨grest, geng, gsh⟩ := g
  refine ⟨?_, fun k => ⟨(geng k).1.trans (heng k).1, (geng k).2.trans (heng k).2⟩,
    fun k => ⟨(gsh k).1.trans (hsh k).1, (gsh k).2.trans (hsh k).2⟩⟩
  rw [← hrest, ← grest]

theorem map_unheld_keepXfer (x : EpochCmd) (m : MemCtx) (pick : Nat → Nat) (epoch : Word) (q : List Xfer) (s : State) :
    (q.zipIdx.map fun p => keepXfer x m (pick p.2) epoch p.1 s).map unheld = q.map unheld := by
  have hkeep : (unheld ∘ fun p : Xfer × Nat => keepXfer x m (pick p.2) epoch p.1 s) = unheld ∘ Prod.fst := rfl
  rw [List.map_map, hkeep, ← List.map_map, List.zipIdx_map_fst]

theorem rechecked_modEng {e : Nat} {q : List Xfer} {s : State} (hq : q.map unheld = (engOf s e).xq.map unheld) :
    rechecked s (drawn (modEng e (fun x => { x with xq := q }) s)) := by
  refine ⟨rfl, fun k => ?_, fun _ => ⟨rfl, rfl⟩⟩
  by_cases hk : k = e
  · subst hk
    exact (engOf_setEng_self k { engOf s k with xq := q } s).symm ▸ ⟨rfl, hq⟩
  · exact (engOf_setEng_of_ne { engOf s e with xq := q } s hk).symm ▸ ⟨rfl, rfl⟩

theorem rechecked_modSh {n : Nat} {q : List Xfer} {s : State} (hq : q.map unheld = (shOf s n).xq.map unheld) :
    rechecked s (drawn (modSh n (fun x => { x with xq := q }) s)) := by
  refine ⟨rfl, fun _ => ⟨rfl, rfl⟩, fun k => ?_⟩
  by_cases hk : k = n
  · subst hk
    exact (shOf_setSh_self k { shOf s k with xq := q } s).symm ▸ ⟨rfl, hq⟩
  · exact (shOf_setSh_of_ne { shOf s n with xq := q } s hk).symm ▸ ⟨rfl, rfl⟩

/-- Of a unit's transfers under way an epoch command changes what they hold as checked alone. -/
theorem rechecked_keepUnit (x : EpochCmd) (epoch : Word) (u : Nat) (s : State) : rechecked s (keepUnit x epoch u s) := by
  rw [keepUnit]
  split
  · next c _ =>
    split
    · have hq := map_unheld_keepXfer x (xferMem u c) (fun i => (Config.freeValue 42 (4096 * s.free + i)).toNat) epoch (xferQueue s u) s
      by_cases hu : u < 64
      · rw [xferQueue, if_pos hu] at hq
        simp only [xferQueue, if_pos hu]
        exact rechecked_modEng hq
      · rw [xferQueue, if_neg hu] at hq
        simp only [xferQueue, if_neg hu]
        exact rechecked_modSh hq
    · exact rechecked_refl s
  · exact rechecked_refl s

theorem rechecked_keepUnits (x : EpochCmd) (epoch : Word) (us : List Nat) (s : State) :
    rechecked s (us.foldl (fun t u => keepUnit x epoch u t) s) :=
  List.foldlRecOn (motive := rechecked s) us _ (rechecked_refl s) fun t ht u _ => rechecked_trans ht (rechecked_keepUnit x epoch u t)

/-! ### The start of an epoch command (R337) -/

/-- What the start of an epoch command leaves: the units with their transfers, the Cue Lights, the Flies and the stored bytes. -/
def epochKeeps (s t : State) : Prop :=
  t.cue = s.cue ∧ t.flies = s.flies ∧ t.mem.bytes = s.mem.bytes ∧ (∀ k, engineRechecked (engOf s k) (engOf t k)) ∧
    ∀ k, stagehandRechecked (shOf s k) (shOf t k)

theorem startEpoch_result (x : EpochCmd) (s : State) :
    epochKeeps s (startEpoch x s) ∧ (startEpoch x s).net = s.net ∧ (startEpoch x s).mem.epochQ = s.mem.epochQ ∧
    (startEpoch x s).mem.epochs = tabMod 0#32 s.mem.epochs x.space (· + 1) ∧
    (startEpoch x s).mem.pt = (leavesIn s x.space x.va (x.va + x.len)).foldl
      (fun p e => tabSet 0#64 p (ptKey x.space 3 e.1) (epochLeaf x.op e.2)) s.mem.pt := by
  obtain ⟨hrest, heng, hsh⟩ := rechecked_keepUnits x (tabGet 0#32 s.mem.epochs x.space + 1) xferUnits s
  rw [startEpoch, foldl_setPt]
  generalize xferUnits.foldl (fun t u => keepUnit x (tabGet 0#32 s.mem.epochs x.space + 1) u t) s = u at hrest heng hsh ⊢
  have hmem : u.mem = s.mem := (congrArg State.mem hrest :)
  refine ⟨⟨(congrArg State.cue hrest :), (congrArg State.flies hrest :), (congrArg Mem.bytes hmem :), heng, hsh⟩,
    (congrArg State.net hrest :), (congrArg Mem.epochQ hmem :), ?_, ?_⟩
  · exact congrArg (fun m : Mem => tabMod 0#32 m.epochs x.space (· + 1)) hmem
  · have hleaves : leavesIn (raiseEpoch x.space x.va (x.va + x.len) u) = leavesIn s := by
      funext space lo hi
      exact (congrArg (fun m : Mem => leavesIn { s with mem := m } space lo hi) hmem :)
    rw [hleaves]
    exact congrArg (fun m : Mem => (leavesIn s x.space x.va (x.va + x.len)).foldl
      (fun p e => tabSet 0#64 p (ptKey x.space 3 e.1) (epochLeaf x.op e.2)) m.pt) hmem

end Sys2Proof.Machine
end

section
/-! SUPPORT. MEM_UNMAP, MEM_PROTECT and the completion of an epoch command (O38). -/

namespace Sys2Proof.Machine

open Sys2Proof

/-! ### Acceptance (R337, R342) -/

theorem cmdCheck_of_accepted {c : Cmd} {opcode argLen : Nat} {used : List (Nat × Nat)} {s : State}
    (h : accepted c opcode argLen used s) : cmdCheck c opcode argLen used = none := h.2.2.1

theorem fwPoison_of_accepted {c : Cmd} {opcode argLen : Nat} {used : List (Nat × Nat)} {s : State}
    (h : accepted c opcode argLen used s) : s.fault.fwPoison = false := h.2.2.2

theorem mailbox_of_accepted {c : Cmd} {opcode argLen : Nat} {used : List (Nat × Nat)} {s : State} (h : accepted c opcode argLen used s)
    (k : State) : mailbox c s k = .next k := by
  obtain ⟨hpart, hstarted, -, -⟩ := h
  rw [mailbox, need_of_eq_true (decide_eq_true hpart), if_pos hstarted]

/-- An epoch command as its mailbox command asks for it. -/
def epochCmd (c : Cmd) (op : EpochOp) : EpochCmd := ⟨c.part, inl c 32 8, inl c 40 8, op, replyOf c 0 0 0 0⟩

/-- The state in which an epoch command that waits for none has been taken, before it starts. -/
def epochTaken (x : EpochCmd) (s : State) : State :=
  mapReqs (fun _ r => if r.part = x.space && r.state.live then { r with revoked := r.revoked ++ [(x.va, x.len)] } else r)
    { s with mem := { s.mem with epochQ := [x], epochStatus := 0 } }

/-- An epoch command starts at once when none is in progress. -/
theorem takeEpoch_of_idle (c : Cmd) (op : EpochOp) {s : State} (hidle : s.mem.epochQ = []) :
    takeEpoch c op (inl c 32 8) (inl c 40 8) s = startEpoch (epochCmd c op) (epochTaken (epochCmd c op) s) := by
  rw [takeEpoch, hidle, List.length_nil, if_neg (by decide), List.isEmpty_nil, if_pos rfl]
  rfl

/-- What an epoch command comes to that starts at once. -/
theorem takeEpoch_result (c : Cmd) (op : EpochOp) {s : State} (hidle : s.mem.epochQ = []) :
    let t := takeEpoch c op (inl c 32 8) (inl c 40 8) s
    epochKeeps s t ∧ t.net = s.net ∧ t.mem.epochQ = [epochCmd c op] ∧
    tabGet 0#32 t.mem.epochs c.part = tabGet 0#32 s.mem.epochs c.part + 1 ∧
    t.mem.pt = (leavesIn s c.part (inl c 32 8) (inl c 32 8 + inl c 40 8)).foldl
      (fun p e => tabSet 0#64 p (ptKey c.part 3 e.1) (epochLeaf op e.2)) s.mem.pt := by
  intro t
  obtain ⟨hkeeps, hnet, hq, hepochs, hpt⟩ := startEpoch_result (epochCmd c op) (epochTaken (epochCmd c op) s)
  rw [← takeEpoch_of_idle c op hidle] at hkeeps hnet hq hepochs hpt
  refine ⟨hkeeps, hnet, hq, ?_, hpt⟩
  rw [hepochs]
  exact tabGet_mod_self 0#32 s.mem.epochs c.part (· + 1)

/-- An epoch command that five wait before is refused (R342). -/
theorem takeEpoch_of_full (c : Cmd) (op : EpochOp) (va n : Nat) {s : State} (hfull : 5 ≤ s.mem.epochQ.length)
    (hfw : s.fault.fwPoison = false) :
    let t := takeEpoch c op va n s
    t.mem.epochStatus = 0x0E ∧ t.mem.epochQ = s.mem.epochQ ∧ t.mem.pt = s.mem.pt ∧ replied c 0x0E 0 0 s t := by
  intro t
  have ht : t = answer c 0x0E 0 0 { s with mem := { s.mem with epochStatus := 0x0E } } := if_pos hfull
  have hframe := answer_frame c 0x0E 0 0 (t := { s with mem := { s.mem with epochStatus := 0x0E } }) hfw
  have hmem := (congrArg State.mem hframe :)
  rw [← ht] at hmem
  refine ⟨(congrArg Mem.epochStatus hmem :), (congrArg Mem.epochQ hmem :), (congrArg Mem.pt hmem :), ?_⟩
  rw [ht]
  exact replied_answer c 0x0E 0 0 rfl rfl rfl hfw

/-! ### The leaves of the range -/

section
variable {c : Cmd} {op : EpochOp} {k : Nat} {s : State}

theorem ptOf_takeEpoch (hidle : s.mem.epochQ = []) (p : DWord → Prop)
    (hrange : rangeOk (inl c 32 8) (inl c 40 8) = true) (hk : k < inl c 40 8 / 65536)
    (hval : ∀ w, (ptKey c.part 3 (inl c 32 8 + 65536 * k), w) ∈ s.mem.pt → bitAt w 63 = true → p (epochLeaf op w))
    (hinvalid : bitAt (ptOf s c.part 3 (inl c 32 8 + 65536 * k)) 63 = false → p (ptOf s c.part 3 (inl c 32 8 + 65536 * k))) :
    p (ptOf (takeEpoch c op (inl c 32 8) (inl c 40 8) s) c.part 3 (inl c 32 8 + 65536 * k)) := by
  obtain ⟨hlo, hhi, halign, hlt⟩ := page_of_rangeOk hrange hk
  obtain ⟨-, -, -, -, hpt⟩ := takeEpoch_result c op hidle
  rw [ptOf, hpt]
  refine tabGet_foldl_set_of_forall p _ (fun e he hkey => ?_) ?_
  · obtain ⟨hmem, hvalid, -⟩ := mem_leavesIn.1 he
    exact hval e.2 (hkey ▸ hmem) hvalid
  · cases hvalid : bitAt (ptOf s c.part 3 (inl c 32 8 + 65536 * k)) 63 with
    | false => exact .inl (hinvalid hvalid)
    | true => exact .inr ⟨_, mem_leavesIn_of_valid hvalid hlo hhi halign (by omega), rfl⟩

theorem bitAt_unmapped (w : DWord) : bitAt (epochLeaf .unmap w) 63 = false := by
  rw [epochLeaf, bitAt, getLsbD_setFld _ _ _ (le_refl 63) (by decide), if_pos ⟨le_refl 63, le_refl 63⟩, Nat.zero_testBit]

/-- A page that an epoch command unmaps has no valid leaf from then on. -/
theorem leafAt_takeEpoch_unmap (hidle : s.mem.epochQ = []) (hrange : rangeOk (inl c 32 8) (inl c 40 8) = true)
    (hk : k < inl c 40 8 / 65536) :
    leafAt (takeEpoch c .unmap (inl c 32 8) (inl c 40 8) s) c.part (inl c 32 8 + 65536 * k) = none := by
  have hbit := ptOf_takeEpoch (op := .unmap) hidle (fun w => bitAt w 63 = false) hrange hk (fun w _ _ => bitAt_unmapped w) id
  rw [leafAt, hbit]
  rfl

/-- A page whose permissions an epoch command changes has its leaf with them. -/
theorem ptOf_takeEpoch_protect {w : DWord} {x y : Bool} (hidle : s.mem.epochQ = []) (hwf : tabWf 0#64 s.mem.pt = true)
    (hrange : rangeOk (inl c 32 8) (inl c 40 8) = true) (hk : k < inl c 40 8 / 65536)
    (hleaf : leafAt s c.part (inl c 32 8 + 65536 * k) = some w) :
    ptOf (takeEpoch c (.protect x y) (inl c 32 8) (inl c 40 8) s) c.part 3 (inl c 32 8 + 65536 * k) =
      setFld (setFld w 61 61 (b2n x)) 60 60 (b2n y) := by
  obtain ⟨hvalid, hw⟩ := Option.ite_none_right_eq_some.1 hleaf
  refine ptOf_takeEpoch (op := .protect x y) hidle (· = epochLeaf (.protect x y) w) hrange hk (fun v hv _ => ?_) fun h => ?_
  · rw [← Option.some.inj hw, ptOf, tabGet_of_mem (tabWf_sorted hwf) hv]
  · rw [hvalid] at h
    cases h

end

theorem b2n_bitAt {n : Nat} (x : BitVec n) (i : Nat) : b2n (bitAt x i) = fld x i i := by
  have hlt : fld x i i < 2 := by simpa using fld_lt x i i
  have hone := fld_bit_eq_one_iff x i
  rw [b2n]
  split
  · next h => exact (hone.2 h).symm
  · next h =>
    have := mt hone.1 h
    omega

/-! ### The commands -/

theorem memUnmap_eq {c : Cmd} {s : State} (hacc : accepted c 0x21 0 [(32, 8), (40, 8)] s)
    (hrange : rangeOk (inl c 32 8) (inl c 40 8) = true) :
    exec (.memUnmap c) s = .next (takeEpoch c .unmap (inl c 32 8) (inl c 40 8) s) := by
  rw [exec_memUnmap, execMemUnmap, mailbox_of_accepted hacc]
  simp only [memUnmapOp, cmdCheck_of_accepted hacc, rangeOf, hrange, Bool.not_true, Bool.false_eq_true, if_false]

theorem memProtect_eq {c : Cmd} {s : State} (hacc : accepted c 0x22 0 [(32, 8), (40, 8), (48, 1)] s) (hperm : inl c 48 1 < 4)
    (hrange : rangeOk (inl c 32 8) (inl c 40 8) = true) :
    exec (.memProtect c) s = .next (takeEpoch c (.protect (bitAt (c.inline.getD 16 0) 0) (bitAt (c.inline.getD 16 0) 1))
      (inl c 32 8) (inl c 40 8) s) := by
  rw [exec_memProtect, execMemProtect, mailbox_of_accepted hacc]
  simp only [memProtectOp, cmdCheck_of_accepted hacc, permBitsOk, hperm, decide_true, rangeOf, hrange, Bool.not_true,
    Bool.false_eq_true, if_false]

/-! ### Completion (R339 to R341) -/

/-- What the completion of an epoch command releases before its reply. -/
def epochReleased (x : EpochCmd) (s : State) : State := if x.op = .unmap then releaseRange x.space x.va x.len s else s

theorem epochReleased_eq (x : EpochCmd) (s : State) :
    ∃ frames pt, epochReleased x s = { s with mem := { s.mem with frames := frames, pt := pt } } := by
  rw [epochReleased]
  split
  · obtain ⟨frames, hframes⟩ := releaseRange_eq x.space x.va x.len s
    exact ⟨frames, _, hframes⟩
  · exact ⟨s.mem.frames, s.mem.pt, rfl⟩

/-- The state in which an epoch command alone has completed, before its reply. -/
def epochEnded (x : EpochCmd) (s : State) : State :=
  bump 0x7004C { epochReleased x s with mem := { (epochReleased x s).mem with epochQ := [] } }

theorem epochComplete_eq {x : EpochCmd} {s : State} (hspace : x.space < 9) (hq : s.mem.epochQ = [x]) :
    exec (.epochComplete x.space) s = .next (if oldAccess s x.space then s else
      sendReply { x.reply with beat := effectBeat (epochEnded x s) } (epochEnded x s)) := by
  rw [exec_epochComplete, execEpochComplete, need_of_eq_true (decide_eq_true hspace), hq]
  cases hold : oldAccess s x.space
  · simp only [ne_eq, not_true_eq_false, decide_false, Bool.or_self, Bool.false_eq_true, if_false]
    rfl
  · simp only [Bool.or_true, if_true]

theorem epochEnded_result {x : EpochCmd} (s : State) :
    let t := sendReply { x.reply with beat := effectBeat (epochEnded x s) } (epochEnded x s)
    t.mem.epochQ = [] ∧ regW t 0x7004C = regW s 0x7004C + 1 ∧ keepsUnits s t ∧ sent { x.reply with beat := effectBeat s } s t ∧
    t.mem.pt = (epochReleased x s).mem.pt := by
  obtain ⟨frames, pt, hrel⟩ := epochReleased_eq x s
  have hframe := sendReply_frame { x.reply with beat := effectBeat (epochEnded x s) } (epochEnded x s)
  have hsent := sent_sendReply { x.reply with beat := effectBeat (epochEnded x s) } (epochEnded x s)
  have hreg : regW (epochEnded x s) 0x7004C = regW s 0x7004C + 1 := by
    rw [epochEnded, regW_bump_self, hrel]
    rfl
  have hpt : (epochEnded x s).mem.pt = (epochReleased x s).mem.pt := rfl
  have hended : ∃ regs mem, epochEnded x s = { s with regs := regs, mem := mem } ∧ mem.epochQ = [] ∧ mem.bytes = s.mem.bytes := by
    rw [epochEnded, hrel]
    exact ⟨_, _, rfl, rfl, rfl⟩
  obtain ⟨regs, mem, hended, hempty, hbytes⟩ := hended
  have heffect : effectBeat (epochEnded x s) = effectBeat s := by rw [hended]; rfl
  rw [heffect] at hframe hsent
  intro t
  simp only [t, heffect]
  generalize sendReply { x.reply with beat := effectBeat s } (epochEnded x s) = v at hframe hsent ⊢
  have hmem : v.mem = (epochEnded x s).mem := (congrArg State.mem hframe :)
  rw [← hpt, hmem]
  refine ⟨?_, (congrArg (regW · 0x7004C) hframe :).trans hreg, ?_, ?_, rfl⟩
  · rw [hended, hempty]
  · rw [hended] at hframe
    exact ⟨(congrArg State.eng hframe :), (congrArg State.sh hframe :), (congrArg State.cue hframe :),
      (congrArg State.flies hframe :), (congrArg (fun u : State => u.mem.bytes) hframe :).trans hbytes⟩
  · refine sent_congr ?_ ?_ rfl hsent
    · rw [hended]
    · rw [hended]

end Sys2Proof.Machine
end

section
/-! SUPPORT. MEM_MAP (O38): fresh frames over a range, and what a page that is mapped leaves alone. -/

namespace Sys2Proof.Machine

open Sys2Proof

/-! ### Free frames lie in the pool (R296, R299) -/

theorem lt_poolFrames_of_mem_gapFrames {retired : List Nat} {fuel n c : Nat} {t : Tab Frame} {f : Nat}
    (h : f ∈ gapFrames retired fuel n c t) : f < poolFrames := by
  induction fuel generalizing n c t with
  | zero => simp [gapFrames] at h
  | succ fuel ih =>
    cases n with
    | zero => simp [gapFrames] at h
    | succ n =>
      have hcons (t' : Tab Frame) (hc : ¬ c ≥ poolFrames) (hf : f ∈ c :: gapFrames retired fuel n (c + 1) t') : f < poolFrames := by
        obtain rfl | hf := List.mem_cons.1 hf
        · exact Nat.lt_of_not_le hc
        · exact ih hf
      cases t with
      | nil =>
        rw [gapFrames] at h
        split at h
        · exact absurd h List.not_mem_nil
        · next hc =>
          split at h
          · exact ih h
          · exact hcons _ hc h
      | cons e t =>
        rw [gapFrames] at h
        split at h
        · exact absurd h List.not_mem_nil
        · next hc =>
          split at h
          · exact ih h
          · split at h
            · exact ih h
            · split at h
              · split at h
                · exact hcons _ hc h
                · exact ih h
              · exact hcons _ hc h

theorem lt_poolFrames_of_mem_freeFrames {s : State} {n f : Nat} (h : f ∈ freeFrames s n) : f < poolFrames :=
  lt_poolFrames_of_mem_gapFrames h

/-! ### Page tables take frames of the firmware hold (R316, R317) -/

theorem holdFrame_ge {s : State} {fuel f g : Nat} (h : holdFrame s fuel f = some g) : f ≤ g := by
  induction fuel generalizing f with
  | zero => simp [holdFrame] at h
  | succ fuel ih =>
    rw [holdFrame] at h
    split at h
    · cases h
    · split at h
      · exact (Option.some.inj h).le
      · exact (Nat.le_succ f).trans (ih h)

theorem poolFrames_le_freeHold {s : State} {g : Nat} (h : freeHold s = some g) : poolFrames ≤ g :=
  le_trans (by decide) (holdFrame_ge h)

theorem poolFrames_le_rootFrames {f : Nat} (h : f ∈ rootFrames) : poolFrames ≤ f := by
  obtain ⟨i, -, rfl⟩ := List.mem_map.1 h
  omega

/-- The page tables and the frames of the pool are as they were. -/
def keepsPool (s t : State) : Prop :=
  t.mem.pt = s.mem.pt ∧ ∀ f, f < poolFrames → frameOf t f = frameOf s f

theorem keepsPool_refl (s : State) : keepsPool s s := ⟨rfl, fun _ _ => rfl⟩

theorem keepsPool_ownHold {g : Nat} (h : poolFrames ≤ g) (s : State) : keepsPool s (ownHold g s) :=
  ⟨rfl, fun f hf => tabGet_set_of_ne Frame.init s.mem.frames { frameOf s g with owner := some 8, count := 1, resv := false }
    (by omega : f ≠ g)⟩

theorem keepsPool_placeRoot (s : State) : keepsPool s (placeRoot s).1 := by
  rw [placeRoot]
  split
  · next f hf => exact keepsPool_ownHold (poolFrames_le_rootFrames (List.mem_of_find?_eq_some hf)) s
  · exact keepsPool_refl s

theorem keepsPool_placeTable (size : Nat) (s : State) : keepsPool s (placeTable size s).1 := by
  have hfresh : keepsPool s (match freeHold s with
      | none => (s, 0)
      | some f => (ownHold f { s with mem := { s.mem with tableFrame := some (f, size) } }, 65536 * f)).1 := by
    split
    · exact keepsPool_refl s
    · next f hf => exact keepsPool_ownHold (poolFrames_le_freeHold hf) { s with mem := { s.mem with tableFrame := some (f, size) } }
  rw [placeTable]
  dsimp only
  split
  · split
    · exact ⟨rfl, fun _ _ => rfl⟩
    · exact hfresh
  · exact hfresh

theorem keepsPool_needTable (space level va : Nat) (s : State) : keepsPool s (needTable space level va s) := by
  have hput (r : State × Nat) (h : keepsPool s r.1) : keepsPool s
      { r.1 with mem := { r.1.mem with tables := tabSet 0 r.1.mem.tables (tableKey space level va) r.2 } } := h
  rw [needTable]
  split
  · exact keepsPool_refl s
  · refine hput _ ?_
    split
    · exact keepsPool_placeRoot s
    · exact keepsPool_placeTable _ s

theorem ptOf_congr {s t : State} (h : t.mem.pt = s.mem.pt) (space level va : Nat) : ptOf t space level va = ptOf s space level va := by
  rw [ptOf, h, ptOf]

/-! ### A page that is mapped -/

theorem frameOf_setPt (space level va : Nat) (w : DWord) (s : State) (f : Nat) : frameOf (setPt space level va w s) f = frameOf s f := rfl

/-- A page is mapped by its leaf; every other page of every space keeps its own. -/
def mapsPage (space va : Nat) (w : DWord) (s t : State) : Prop :=
  (∀ va', va' < 2 ^ 48 → ptOf t space 3 va' = if va' / 65536 = va / 65536 then w else ptOf s space 3 va') ∧
    ∀ f, f < poolFrames → frameOf t f = frameOf s f

theorem linkTable_result {space level va : Nat} (hlevel : level < 3) (hva : va < 2 ^ 48) (s : State) :
    (∀ va', va' < 2 ^ 48 → ptOf (linkTable space level va s) space 3 va' = ptOf s space 3 va') ∧
      ∀ f, f < poolFrames → frameOf (linkTable space level va s) f = frameOf s f := by
  obtain ⟨hpt, hframes⟩ := keepsPool_needTable space (level + 1) va s
  rw [linkTable]
  generalize needTable space (level + 1) va s = u at hpt hframes ⊢
  split
  · exact ⟨fun va' _ => ptOf_congr hpt space 3 va', hframes⟩
  · refine ⟨fun va' hva' => ?_, fun f hf => (frameOf_setPt ..).trans (hframes f hf)⟩
    have hkey : ptKey space 3 va' ≠ ptKey space level va := fun h => by
      have := (ptKey_eq_page_iff hlevel.le hva hva').1 h.symm
      omega
    rw [ptOf_setPt, if_neg hkey, ptOf_congr hpt]

theorem mapLeaf_result {space va : Nat} (hva : va < 2 ^ 48) (w : DWord) (s : State) : mapsPage space va w s (mapLeaf space va w s) := by
  obtain ⟨hpt, hframes⟩ := keepsPool_needTable space 0 va s
  rw [mapLeaf]
  generalize needTable space 0 va s = s0 at hpt hframes ⊢
  obtain ⟨hpt0, hframes0⟩ := linkTable_result (space := space) (level := 0) (by decide) hva s0
  obtain ⟨hpt1, hframes1⟩ := linkTable_result (space := space) (level := 1) (by decide) hva (linkTable space 0 va s0)
  obtain ⟨hpt2, hframes2⟩ := linkTable_result (space := space) (level := 2) (by decide) hva
    (linkTable space 1 va (linkTable space 0 va s0))
  refine ⟨fun va' hva' => ?_, fun f hf => ?_⟩
  · rw [ptOf_setPt, hpt2 va' hva', hpt1 va' hva', hpt0 va' hva', ptOf_congr hpt]
    have hkey := ptKey_eq_page_iff (space := space) (level := 3) (le_refl 3) hva' hva
    simp only [hkey, true_and]
  · rw [frameOf_setPt, hframes2 f hf, hframes1 f hf, hframes0 f hf, hframes f hf]

/-- A fresh frame of a partition under a page (R335). -/
def mapFrame (part : Nat) (w : Nat → DWord) (t : State) (p : Nat × Nat) : State :=
  mapLeaf part p.1 (w p.2) (takeFrame p.2 part 1 false t)

/-- A frame is a partition's, and one page maps it. -/
def ownedBy (part f : Nat) (s : State) : Prop := (frameOf s f).owner = some part ∧ (frameOf s f).count = 1

section
variable {part : Nat} {w : Nat → DWord}

theorem mem_pt_takeFrame (f space count : Nat) (resv : Bool) (s : State) : (takeFrame f space count resv s).mem.pt = s.mem.pt := by
  show (markDirty f _).mem.pt = _
  rw [markDirty_mem]
  rfl

theorem ptOf_mapFrame {p : Nat × Nat} (hp : p.1 < 2 ^ 48) (t : State) {va : Nat} (hva : va < 2 ^ 48) :
    ptOf (mapFrame part w t p) part 3 va = if va / 65536 = p.1 / 65536 then w p.2 else ptOf t part 3 va := by
  rw [mapFrame, (mapLeaf_result hp (w p.2) _).1 va hva, ptOf_congr (mem_pt_takeFrame ..)]

theorem memByte_mapFrame (p : Nat × Nat) (t : State) (a : Nat) :
    memByte (mapFrame part w t p) a = if a / 65536 = p.2 then 0 else memByte t a := by
  have hbytes := (sameBytes_mapLeaf part p.1 (w p.2) (takeFrame p.2 part 1 false t)).1
  rw [mapFrame, memByte, hbytes, ← memByte, memByte_takeFrame]

theorem ownedBy_mapFrame_self {p : Nat × Nat} (hp : p.1 < 2 ^ 48) (hf : p.2 < poolFrames) (t : State) :
    ownedBy part p.2 (mapFrame part w t p) := by
  have hframe := frameOf_takeFrame p.2 part 1 false t p.2
  rw [if_pos rfl] at hframe
  rw [ownedBy, mapFrame, (mapLeaf_result hp (w p.2) _).2 p.2 hf]
  exact ⟨congrArg Frame.owner hframe, congrArg Frame.count hframe⟩

theorem ownedBy_mapFrame {p : Nat × Nat} (hp : p.1 < 2 ^ 48) {f : Nat} (hf : f < poolFrames) {t : State} (h : ownedBy part f t) :
    ownedBy part f (mapFrame part w t p) := by
  by_cases hfp : f = p.2
  · subst hfp
    exact ownedBy_mapFrame_self hp hf t
  · rw [ownedBy, mapFrame, (mapLeaf_result hp (w p.2) _).2 f hf, frameOf_takeFrame, if_neg hfp]
    exact h

theorem beyondServing_mapFrame (p : Nat × Nat) (t : State) : beyondServing (mapFrame part w t p) = beyondServing t :=
  congrArg Prod.snd ((outsideMemory_mapLeaf part p.1 (w p.2) _).trans
    (outsideMemory_of_unslotted (unslotted_takeFrame p.2 part 1 false t)))

/-! ### Many pages -/

theorem memByte_mapFrames (ps : List (Nat × Nat)) (s : State) (a : Nat) :
    memByte (ps.foldl (mapFrame part w) s) a = if a / 65536 ∈ ps.map Prod.snd then 0 else memByte s a := by
  induction ps generalizing s with
  | nil => rfl
  | cons p ps ih =>
    rw [List.foldl_cons, ih, memByte_mapFrame, List.map_cons]
    by_cases hhead : a / 65536 = p.2
    · simp only [hhead, List.mem_cons, true_or, if_true, ite_self]
    · simp only [hhead, List.mem_cons, false_or, if_false]

theorem ptOf_mapFrames_of_not_mem {ps : List (Nat × Nat)} (hlt : ∀ p ∈ ps, p.1 < 2 ^ 48) {va : Nat} (hva : va < 2 ^ 48)
    (h : ∀ p ∈ ps, va / 65536 ≠ p.1 / 65536) (s : State) : ptOf (ps.foldl (mapFrame part w) s) part 3 va = ptOf s part 3 va := by
  induction ps generalizing s with
  | nil => rfl
  | cons p ps ih =>
    obtain ⟨hp, hps⟩ := List.forall_mem_cons.1 hlt
    obtain ⟨hhead, htail⟩ := List.forall_mem_cons.1 h
    rw [List.foldl_cons, ih hps htail, ptOf_mapFrame hp s hva, if_neg hhead]

theorem ptOf_mapFrames {ps : List (Nat × Nat)} (hlt : ∀ p ∈ ps, p.1 < 2 ^ 48)
    (hpages : ps.Pairwise fun p q => p.1 / 65536 ≠ q.1 / 65536) {p : Nat × Nat} (hp : p ∈ ps) (s : State) :
    ptOf (ps.foldl (mapFrame part w) s) part 3 p.1 = w p.2 := by
  induction ps generalizing s with
  | nil => exact absurd hp List.not_mem_nil
  | cons q ps ih =>
    obtain ⟨hq, hps⟩ := List.forall_mem_cons.1 hlt
    obtain ⟨hhead, htail⟩ := List.pairwise_cons.1 hpages
    rw [List.foldl_cons]
    obtain rfl | hp := List.mem_cons.1 hp
    · rw [ptOf_mapFrames_of_not_mem hps hq hhead, ptOf_mapFrame hq s hq, if_pos rfl]
    · exact ih hps htail hp _

theorem ownedBy_mapFrames {ps : List (Nat × Nat)} (hlt : ∀ p ∈ ps, p.1 < 2 ^ 48) (hpool : ∀ p ∈ ps, p.2 < poolFrames) {f : Nat}
    (hf : f ∈ ps.map Prod.snd) (s : State) : ownedBy part f (ps.foldl (mapFrame part w) s) := by
  induction ps generalizing s with
  | nil => exact absurd hf List.not_mem_nil
  | cons p ps ih =>
    obtain ⟨hp, hps⟩ := List.forall_mem_cons.1 hlt
    obtain ⟨hframe, hframes⟩ := List.forall_mem_cons.1 hpool
    rw [List.foldl_cons]
    obtain rfl | hf := List.mem_cons.1 hf
    · exact List.foldlRecOn (motive := ownedBy part p.2) ps _ (ownedBy_mapFrame_self hp hframe s) fun t ht q hq =>
        ownedBy_mapFrame (hps q hq) hframe ht
    · exact ih hps hframes hf _

end

/-! ### The command -/

theorem mapRange_eq (part va n : Nat) (r w : Bool) (s : State) : mapRange part va n r w s =
    ((rangePages va n).zip (freeFrames s (n / 65536))).foldl
      (mapFrame part fun f => ptLeaf r w false false part f 0xFFFF) s := rfl

/-- Fresh frames over a range: each page has its leaf, and its frame reads as 0 and is the partition's (R335). -/
theorem mapRange_result {part va n : Nat} (r w : Bool) {s : State} (hrange : rangeOk va n = true)
    (hcover : framesCover s (n / 65536) = true) :
    let t := mapRange part va n r w s
    let fs := freeFrames s (n / 65536)
    (∀ k f, fs[k]? = some f → ptOf t part 3 (va + 65536 * k) = ptLeaf r w false false part f 0xFFFF) ∧
    (∀ a, memByte t a = if a / 65536 ∈ fs then 0 else memByte s a) ∧ (∀ f, f ∈ fs → ownedBy part f t) ∧
    beyondServing t = beyondServing s := by
  rw [mapRange_eq]
  intro t fs
  have hlen : fs.length = n / 65536 := of_decide_eq_true hcover
  have hpageslen : (rangePages va n).length = n / 65536 := by rw [rangePages, List.length_map, List.length_range]
  have hpage (k : Nat) (hk : k < n / 65536) : (rangePages va n)[k]? = some (va + 65536 * k) := by
    rw [rangePages, List.getElem?_map, List.getElem?_range hk, Option.map_some]
  have hsnd : ((rangePages va n).zip fs).map Prod.snd = fs := List.map_snd_zip (by omega)
  have hfst : ((rangePages va n).zip fs).map Prod.fst = rangePages va n := List.map_fst_zip (by omega)
  have hlt : ∀ p ∈ (rangePages va n).zip fs, p.1 < 2 ^ 48 := fun p hp => by
    have hmem : p.1 ∈ rangePages va n := hfst ▸ List.mem_map_of_mem hp
    obtain ⟨k, hk, hkp⟩ := List.mem_map.1 hmem
    obtain ⟨-, -, -, hlt⟩ := page_of_rangeOk hrange (List.mem_range.1 hk)
    omega
  have hpool : ∀ p ∈ (rangePages va n).zip fs, p.2 < poolFrames := fun p hp =>
    lt_poolFrames_of_mem_freeFrames (hsnd ▸ List.mem_map_of_mem hp : p.2 ∈ fs)
  have hpages : ((rangePages va n).zip fs).Pairwise fun p q => p.1 / 65536 ≠ q.1 / 65536 := by
    have hrangePages : (rangePages va n).Pairwise fun a b => a / 65536 ≠ b / 65536 := by
      refine List.pairwise_map.2 (List.pairwise_lt_range.imp fun {i j} hij => ?_)
      omega
    rwa [← hfst, List.pairwise_map] at hrangePages
  refine ⟨fun k f hf => ?_, fun a => ?_, fun f hf => ?_, foldl_keeps beyondServing _ (fun u p => beyondServing_mapFrame p u) _ s⟩
  · obtain ⟨hk, -⟩ := List.getElem?_eq_some_iff.1 hf
    have hp : (va + 65536 * k, f) ∈ (rangePages va n).zip fs :=
      List.mem_of_getElem? (List.getElem?_zip_eq_some.2 ⟨hpage k (hlen ▸ hk), hf⟩)
    exact ptOf_mapFrames hlt hpages hp s
  · have := memByte_mapFrames (part := part) (w := fun f => ptLeaf r w false false part f 0xFFFF) ((rangePages va n).zip fs) s a
    rwa [hsnd] at this
  · exact ownedBy_mapFrames hlt hpool (hsnd.symm ▸ hf) s

theorem memMap_eq {c : Cmd} {s : State} (hacc : accepted c 0x20 0 [(32, 8), (40, 8), (48, 1)] s) (hperm : inl c 48 1 < 4)
    (hkey : keyHeld s c.part = true) (hrange : rangeOk (inl c 32 8) (inl c 40 8) = true)
    (hfree : rangeTaken s c.part (inl c 32 8) (inl c 40 8) = false) (hcover : framesCover s (inl c 40 8 / 65536) = true) :
    exec (.memMap c) s = .next (answer c 0 0 0 (mapRange c.part (inl c 32 8) (inl c 40 8)
      (bitAt (c.inline.getD 16 0) 0) (bitAt (c.inline.getD 16 0) 1) s)) := by
  rw [exec_memMap, execMemMap, mailbox_of_accepted hacc]
  simp only [memMapOp, cmdCheck_of_accepted hacc, permBitsOk, hperm, decide_true, hkey, rangeOf, hrange, hfree, hcover, Bool.not_true,
    Bool.or_self, Bool.false_eq_true, if_false]

/-- Settles O38: each command runs the operation of its checks, and the leaves, frames and transfers after it are those of the folds
over the range's pages. -/
theorem memoryMapping : Obligations.MemoryMapping := by
  unfold Obligations.MemoryMapping
  refine ⟨fun c s hacc hperm hkey => ?_, fun c s hacc hrange => ⟨fun hidle => ?_, fun hfull => ?_⟩,
    fun c w k s hacc hperm hrange hidle hwf hk hleaf => ?_, fun x s hspace hq => ?_⟩
  · intro va n fs hrange hfree hcover
    obtain ⟨hleaves, hbytes, howned, hkept⟩ := mapRange_result (part := c.part) (bitAt (c.inline.getD 16 0) 0)
      (bitAt (c.inline.getD 16 0) 1) hrange hcover
    refine ⟨_, memMap_eq hacc hperm hkey hrange hfree hcover, ?_⟩
    generalize mapRange c.part va n (bitAt (c.inline.getD 16 0) 0) (bitAt (c.inline.getD 16 0) 1) s = u at hleaves hbytes howned hkept
    obtain ⟨heng, hcue, hflies, -, hnet, hbeat, hinput, hfw⟩ := by simpa only [beyondServing, Prod.mk.injEq] using hkept
    have hfw' : u.fault.fwPoison = false := hfw.trans (fwPoison_of_accepted hacc)
    have hframe := answer_frame c 0 0 0 hfw'
    have hreplied := replied_answer c 0 0 0 hnet hbeat hinput hfw'
    generalize answer c 0 0 0 u = t at hframe hreplied
    have hmem : t.mem = u.mem := (congrArg State.mem hframe :)
    simp only [ptOf, memByte, frameOf, hmem]
    exact ⟨hleaves, hbytes, howned, (congrArg State.eng hframe :).trans heng, (congrArg State.cue hframe :).trans hcue,
      (congrArg State.flies hframe :).trans hflies, hreplied⟩
  · obtain ⟨hkeeps, hnet, hq, hepoch, -⟩ := takeEpoch_result c .unmap hidle
    exact ⟨_, memUnmap_eq hacc hrange, fun k hk => leafAt_takeEpoch_unmap hidle hrange hk, hepoch, hq, hkeeps, hnet⟩
  · exact ⟨_, memUnmap_eq hacc hrange, takeEpoch_of_full c .unmap _ _ hfull (fwPoison_of_accepted hacc)⟩
  · obtain ⟨hkeeps, hnet, -, hepoch, -⟩ := takeEpoch_result c
      (.protect (bitAt (c.inline.getD 16 0) 0) (bitAt (c.inline.getD 16 0) 1)) hidle
    refine ⟨_, memProtect_eq hacc hperm hrange, ?_, hepoch, hkeeps, hnet⟩
    rw [ptOf_takeEpoch_protect hidle hwf hrange hk hleaf, b2n_bitAt, b2n_bitAt]
  · refine ⟨_, epochComplete_eq hspace hq, ?_⟩
    beta_reduce
    split
    · rfl
    · obtain ⟨hempty, hreg, hkeeps, hsent, hpt⟩ := epochEnded_result (x := x) s
      refine ⟨hempty, hreg, hkeeps, hsent, fun hop hrange _ k w hk hw hinvalid => ?_⟩
      rw [ptOf_congr hpt, epochReleased, if_pos hop]
      exact ptOf_releaseRange hrange hk (hw ▸ hinvalid)

end Sys2Proof.Machine
end

section
/-! SUPPORT. Stacks (O55): the stack that an operation changes, the triggers, and what a read of a granule does. -/

namespace Sys2Proof.Machine

open Sys2Proof

/-! ### One stack -/

@[simp] theorem stackOf_setStack_self (m : Nat) (x : Stack) (s : State) : stackOf (setStack m x s) m = x :=
  tabGet_set_self Stack.init s.hbm.hbmStacks m x

theorem stackOf_setStack_of_ne {m n : Nat} (x : Stack) (s : State) (h : n ≠ m) : stackOf (setStack m x s) n = stackOf s n :=
  tabGet_set_of_ne Stack.init s.hbm.hbmStacks x h

theorem stackOf_congr {s t : State} (h : t.hbm.hbmStacks = s.hbm.hbmStacks) (m : Nat) : stackOf t m = stackOf s m := by
  rw [stackOf, h, stackOf]

theorem paStack_lt (pa : Nat) : paStack pa < 8 := Nat.mod_lt _ (by decide)

/-- A record of the log leaves every register but its counter of lost records. -/
theorem regW_logEvent_of_ne (v : FaultEvent) (s : State) {a : Nat} (h : a ≠ 0xD0054) : regW (logEvent v s) a = regW s a := by
  obtain ⟨f, n, r, hlog, -, hregs⟩ := logEvent_frame v s
  rw [hlog]
  exact hregs a h

/-! ### Triggers (R306, R307) -/

/-- Only the order of the triggers changes, and what waits goes on waiting. -/
def onlyTriggers (s t : State) : Prop :=
  { t with hbm := { t.hbm with trigQ := s.hbm.trigQ } } = s ∧ ∀ q ∈ s.hbm.trigQ, q ∈ t.hbm.trigQ

theorem onlyTriggers_refl (s : State) : onlyTriggers s s := ⟨rfl, fun _ => id⟩

theorem onlyTriggers_trans {s t u : State} (h : onlyTriggers s t) (g : onlyTriggers t u) : onlyTriggers s u := by
  obtain ⟨hrest, hq⟩ := h
  obtain ⟨grest, gq⟩ := g
  refine ⟨?_, fun q hs => gq q (hq q hs)⟩
  rw [← hrest, ← grest]

theorem onlyTriggers_ite {p : Prop} [Decidable p] {s t u : State} (ht : onlyTriggers s t) (hu : onlyTriggers s u) :
    onlyTriggers s (if p then t else u) := by split <;> assumption

theorem onlyTriggers_trigger (m pc : Nat) (s : State) : onlyTriggers s (trigger m pc s) :=
  onlyTriggers_ite ⟨rfl, fun _ hq => List.mem_append_left _ hq⟩ (onlyTriggers_refl s)

theorem hbmStacks_of_onlyTriggers {s t : State} (h : onlyTriggers s t) : t.hbm.hbmStacks = s.hbm.hbmStacks :=
  (congrArg (fun u : State => u.hbm.hbmStacks) h.1 :)

theorem state_of_onlyTriggers {s t : State} (h : onlyTriggers s t) : { t with hbm := s.hbm } = s := by
  obtain ⟨hrest, -⟩ := h
  rw [← hrest]

/-- A pseudo-channel in service whose stack does not migrate waits for its migration once it is triggered. -/
theorem mem_trigQ_trigger {m pc : Nat} {s : State} (hserves : (stackOf s m).map.any (fun e => e.2 = some pc) = true)
    (hidle : (stackOf s m).migration = none) : (m, pc) ∈ (trigger m pc s).hbm.trigQ := by
  rw [stackOf] at hserves hidle
  simp only [trigger, hserves, hidle, Bool.not_false, Bool.and_true, Bool.true_and, Bool.not_eq_true']
  split
  · exact List.mem_append_right _ (List.mem_singleton.2 rfl)
  · next h => exact List.contains_iff_mem.1 (Bool.not_eq_false _ ▸ h)

/-! ### Parity and flipped bits (R300, R302) -/

/-- The state in which a read of a granule has met what is wrong with it, before it does anything about it. -/
def granuleMet (g : Nat) (s : State) : State :=
  parityDone (paStack (64 * g)) { s with mem := { s.mem with flips := tabSet [] s.mem.flips g [] } }

/-- A read of a granule finds no flipped bit after it, and its stack meets no parity error. -/
theorem granuleMet_eq (g : Nat) (s : State) : ∃ ks, granuleMet g s = { s with
    mem := { s.mem with flips := tabSet [] s.mem.flips g [] }, hbm := { s.hbm with hbmStacks := ks } } ∧
    (tabGet Stack.init ks (paStack (64 * g))).parity = 0 := by
  rw [granuleMet, parityDone]
  split
  · next h => exact ⟨s.hbm.hbmStacks, rfl, h⟩
  · refine ⟨_, rfl, ?_⟩
    rw [tabGet_set_self]

/-- Whether a read of a granule finds an error that is not corrected (R300, R304). -/
def granuleBad (g : Nat) (s : State) : Bool :=
  tabGet false s.mem.poison g || decide (hammingDecode (tabGet [] s.mem.flips g) = .uncorrectable) || parityFails (paStack (64 * g)) s

theorem readGranule_of_bad {c : MemCtx} {g : Nat} {s : State} (h : granuleBad g s = true) :
    readGranule c g s = (poisonFound c g (granuleMet g s), true) := if_pos h

theorem readGranule_of_good {c : MemCtx} {g : Nat} {s : State} (h : granuleBad g s = false) :
    readGranule c g s = (granuleTaken (hammingDecode (tabGet [] s.mem.flips g)) g (granuleMet g s), false) :=
  if_neg (Bool.eq_false_iff.1 h)

theorem hammingDecode_one {fs : List Nat} (h : fs.length = 1) : hammingDecode fs = .corrected := by
  simp only [hammingDecode, h, if_true]

theorem hammingDecode_two {a b : Nat} (h : a ≠ b) : hammingDecode [a, b] = .uncorrectable := by
  have hsynd : [a, b].foldl Nat.xor 0 ≠ 0 := by
    show (0 ^^^ a) ^^^ b ≠ 0
    rwa [Nat.zero_xor, Nat.xor_ne_zero_iff]
  have heven : ¬ [a, b].length % 2 = 1 := by simp
  rw [hammingDecode, if_neg heven, if_pos hsynd]

theorem granuleBad_iff {g : Nat} {s : State} : granuleBad g s = true ↔ tabGet false s.mem.poison g = true ∨
    hammingDecode (tabGet [] s.mem.flips g) = .uncorrectable ∨ 3 < (stackOf s (paStack (64 * g))).parity := by
  simp only [granuleBad, Bool.or_eq_true, decide_eq_true_eq, parityFails, stackOf, or_assoc]

/-! ### A corrected error (R303, R306) -/

/-- A stack with one corrected error of a pseudo-channel more in the hour of a time. -/
def ceCounted (time pc : Nat) (k : Stack) : Stack :=
  let key := 32 * (time / 3600000000) + pc % 32
  { k with ceHour := tabSet 0 k.ceHour key (tabGet 0 k.ceHour key + 1) }

theorem onlyTriggers_countCe (m pc : Nat) (s : State) :
    onlyTriggers (setStack m (ceCounted s.time pc (stackOf s m)) s) (countCe m pc s) :=
  onlyTriggers_ite (onlyTriggers_trigger m pc _) (onlyTriggers_refl _)

/-- The count of a corrected error changes the stacks alone, and no parity error. -/
theorem countCe_result (m pc : Nat) (s : State) : { countCe m pc s with hbm := s.hbm } = s ∧
    (countCe m pc s).hbm.scrubbed = s.hbm.scrubbed ∧ (stackOf (countCe m pc s) m).parity = (stackOf s m).parity := by
  have hcount := onlyTriggers_countCe m pc s
  refine ⟨(congrArg (fun u : State => { u with hbm := s.hbm }) (state_of_onlyTriggers hcount) :),
    (congrArg (fun u : State => u.hbm.scrubbed) hcount.1 :), ?_⟩
  rw [stackOf_congr (hbmStacks_of_onlyTriggers hcount), stackOf_setStack_self]
  rfl

/-! ### An error that is not corrected (R304) -/

/-- The Stage Manager's action on a frame of the pool is an operation of serving. -/
theorem unserved_poisonAction {f : Nat} (h : f < poolFrames) (m : Nat) (s : State) : unserved (poisonAction f m s) = unserved s := by
  rw [poisonAction, if_neg (Nat.not_le.2 h)]
  dsimp only
  rw [unserved_failRequests, unserved_withServe, unserved_foldl _ fun t p => unserved_dropNodes p _ t, unserved_foldl]
  intro t q
  split
  · exact unserved_ite (unserved_endRequest _ _ _ _ t) rfl
  · rfl

theorem regs_slotTo (i : Nat) (st : SlotState) (status : Status) (s : State) : (slotTo i st status s).regs = s.regs := by
  simp only [slotTo]
  split
  · rfl
  · split
    · rw [queueEvent]
      split <;> rfl
    · rfl

section
variable {a : Nat}

theorem regW_withServe (v : Serve) (s : State) : regW { s with serve := v } a = regW s a := rfl

theorem regW_foldl {α : Type} (f : State → α → State) (hf : ∀ t x, regW (f t x) a = regW t a) (xs : List α) (s : State) :
    regW (xs.foldl f s) a = regW s a := foldl_keeps (regW · a) f hf xs s

theorem regW_slotTo (i : Nat) (st : SlotState) (status : Status) (s : State) : regW (slotTo i st status s) a = regW s a :=
  congrArg (tabGet 0#32 · a) (regs_slotTo i st status s)

theorem regW_dropNodes (part : Nat) (p : Nat → Node → Bool) (s : State) : regW (dropNodes part p s) a = regW s a := by
  refine regW_foldl (fun t f => lowerFrame f t) (fun t f => ?_) _ _
  obtain ⟨frames, hframes⟩ := lowerFrame_eq f t
  rw [hframes]
  rfl

variable (h : a ≠ 0x90048)
include h

/-- A request that fails for a unit counts in one register alone. -/
theorem regW_failRequest (i : Nat) (unit : BitVec 16) (s : State) : regW (failRequest i 3 unit s) a = regW s a := by
  simp only [failRequest, endRequest]
  split
  · rfl
  · split
    · rfl
    · rw [regW_foldl _ fun t k => regW_slotTo k _ _ t]
      exact regW_setReg_of_ne _ _ h

theorem regW_failRequests (p : Request → Bool) (unit : BitVec 16) (s : State) : regW (failRequests p 3 unit s) a = regW s a :=
  regW_foldl _ (fun t i => regW_failRequest h i unit t) _ _

theorem regW_poisonAction (f m : Nat) (s : State) : regW (poisonAction f m s) a = regW s a := by
  rw [poisonAction]
  split
  · rfl
  · rw [regW_failRequests h, regW_withServe, regW_foldl _ fun t p => regW_dropNodes p _ t, regW_foldl]
    intro t q
    split
    · split
      · exact regW_failRequest h _ _ t
      · rfl
    · rfl

end

/-- What an error comes to that the scrub finds and cannot correct: the granule is poisoned, and the error is counted. -/
theorem poisonFound_scrub {g : Nat} (hpool : g / 1024 < poolFrames) (s : State) :
    let t := poisonFound (partMem 0 6 true) g s
    unserved t = unserved { s with mem := { s.mem with poison := tabSet false s.mem.poison g true } } ∧
    regW t (0x8010C + 0x80 * paStack (64 * g)) = regW s (0x8010C + 0x80 * paStack (64 * g)) + 1 := by
  have hm := paStack_lt (64 * g)
  rw [poisonFound]
  generalize paStack (64 * g) = m at hm ⊢
  have hcount : ownCounter (0x8010C + 0x80 * m) = false := ownCounter_errorCnt (.inr rfl) m
  refine ⟨?_, ?_⟩
  · rw [unserved_poisonAction hpool]
    exact (unserved_logEvent _ _).trans ((unserved_drawn _).trans (unserved_bump hcount _))
  · rw [regW_poisonAction (by omega)]
    exact (regW_logEvent_of_ne _ _ (by omega)).trans (regW_bump_self _ _)

end Sys2Proof.Machine
end

section
/-! SUPPORT. The scrub, the temperature of a stack and the counts of its heads (O55). -/

namespace Sys2Proof.Machine

open Sys2Proof

/-! ### SCRUB_READ (R300, R303, R304) -/

/-- The state in which the scrub counts a read before it makes it. -/
def scrubCounted (s : State) : State := { s with hbm := { s.hbm with scrubbed := s.hbm.scrubbed + 1 } }

/-- The scrub's read of a granule is counted, and leaves neither a flipped bit nor a parity error. -/
def scrubbed (g : Nat) (s t : State) : Prop :=
  t.hbm.scrubbed = s.hbm.scrubbed + 1 ∧ tabGet [] t.mem.flips g = [] ∧ (stackOf t (paStack (64 * g))).parity = 0

section
variable {g : Nat} {s : State} (hg : g < 1024 * frameCount) (hup : mainUp s = true) (hin : frameIn s (g / 1024) = true)
  (hfw : s.fault.fwPoison = false)

/-- The state in which the scrub's read has met what is wrong with its granule. -/
def scrubMet (g : Nat) (s : State) : State := granuleMet g (scrubCounted s)

theorem scrubMet_eq (g : Nat) (s : State) : ∃ flips hbm, scrubMet g s = { s with mem := { s.mem with flips := flips }, hbm := hbm } ∧
    hbm.scrubbed = s.hbm.scrubbed + 1 ∧ tabGet [] flips g = [] ∧ (tabGet Stack.init hbm.hbmStacks (paStack (64 * g))).parity = 0 := by
  obtain ⟨ks, hks, hparity⟩ := granuleMet_eq g (scrubCounted s)
  exact ⟨_, _, hks, rfl, tabGet_set_self [] s.mem.flips g [], hparity⟩

theorem scrubbed_scrubMet (g : Nat) (s : State) : scrubbed g s (scrubMet g s) := by
  obtain ⟨flips, hbm, heq, hcount, hflips, hparity⟩ := scrubMet_eq g s
  rw [heq]
  exact ⟨hcount, hflips, hparity⟩

include hg hup hin

theorem scrubRead_eq : exec (.scrubRead g) s = .next (settle (readGranule (partMem 0 6 true) g (scrubCounted s)).1) := by
  rw [exec_scrubRead, execScrubRead, need_of_eq_true (decide_eq_true hg), hup, hin]
  rfl

theorem scrubRead_good (hgood : granuleBad g s = false) : exec (.scrubRead g) s =
    .next (settle (granuleTaken (hammingDecode (tabGet [] s.mem.flips g)) g (scrubMet g s))) := by
  have hgood' : granuleBad g (scrubCounted s) = false := hgood
  rw [scrubRead_eq hg hup hin, readGranule_of_good hgood', scrubMet, scrubCounted]

theorem scrubRead_poisons (hbad : granuleBad g s = true) :
    exec (.scrubRead g) s = .next (settle (poisonFound (partMem 0 6 true) g (scrubMet g s))) := by
  have hbad' : granuleBad g (scrubCounted s) = true := hbad
  rw [scrubRead_eq hg hup hin, readGranule_of_bad hbad', scrubMet]

include hfw

/-- A granule without an error is read, and nothing changes but what the read counts. -/
theorem scrubRead_clean (hgood : granuleBad g s = false) (hclean : tabGet [] s.mem.flips g = []) :
    leadsTo (exec (.scrubRead g) s) fun t => scrubbed g s t ∧ t.regs = s.regs ∧ keepsUnits s t ∧ t.serve = s.serve := by
  have htaken : granuleTaken (hammingDecode (tabGet [] s.mem.flips g)) g (scrubMet g s) = scrubMet g s := by rw [hclean]; rfl
  obtain ⟨flips, hbm, heq, -⟩ := scrubMet_eq g s
  have hsettled : settle (scrubMet g s) = scrubMet g s := settle_of_fwPoison_false (by rw [heq]; exact hfw)
  refine ⟨_, scrubRead_good hg hup hin hgood, ?_⟩
  rw [htaken, hsettled]
  refine ⟨scrubbed_scrubMet g s, ?_⟩
  rw [heq]
  exact ⟨rfl, ⟨rfl, rfl, rfl, rfl, rfl⟩, rfl⟩

/-- A corrected error is counted. -/
theorem scrubRead_corrected (hgood : granuleBad g s = false) (hone : (tabGet [] s.mem.flips g).length = 1) :
    leadsTo (exec (.scrubRead g) s) fun t => scrubbed g s t ∧ keepsUnits s t ∧ t.serve = s.serve ∧
      regW t (0x80108 + 0x80 * paStack (64 * g)) = regW s (0x80108 + 0x80 * paStack (64 * g)) + 1 ∧ t.mem.poison = s.mem.poison ∧
      t.mem.corrupt = s.mem.corrupt := by
  obtain ⟨flips, hbm, heq, hcount, hflips, hparity⟩ := scrubMet_eq g s
  set a := 0x80108 + 0x80 * paStack (64 * g)
  obtain ⟨hrest, hscrubbed, hpar⟩ := countCe_result (paStack (64 * g)) (placeOf (scrubMet g s) (64 * g)).2.1 (bump a (scrubMet g s))
  have htaken : granuleTaken (hammingDecode (tabGet [] s.mem.flips g)) g (scrubMet g s) =
      countCe (paStack (64 * g)) (placeOf (scrubMet g s) (64 * g)).2.1 (bump a (scrubMet g s)) := by rw [hammingDecode_one hone]; rfl
  refine ⟨_, scrubRead_good hg hup hin hgood, ?_⟩
  rw [htaken]
  generalize countCe (paStack (64 * g)) (placeOf (scrubMet g s) (64 * g)).2.1 (bump a (scrubMet g s)) = t at hrest hscrubbed hpar ⊢
  have hreg : regW (bump a (scrubMet g s)) a = regW s a + 1 := by rw [regW_bump_self, heq]; rfl
  have hfw' : t.fault.fwPoison = false := by
    rw [(congrArg (fun u : State => u.fault.fwPoison) hrest :), heq]
    exact hfw
  rw [settle_of_fwPoison_false hfw']
  have hmem : t.mem = (scrubMet g s).mem := (congrArg State.mem hrest :)
  refine ⟨⟨hscrubbed.trans ?_, ?_, hpar.trans ?_⟩, ?_, ?_, (congrArg (regW · a) hrest :).trans hreg, ?_, ?_⟩
  · rw [heq]
    exact hcount
  · rw [hmem, heq]
    exact hflips
  · rw [heq]
    exact hparity
  · rw [heq] at hrest
    exact ⟨(congrArg State.eng hrest :), (congrArg State.sh hrest :), (congrArg State.cue hrest :), (congrArg State.flies hrest :),
      (congrArg (fun u : State => u.mem.bytes) hrest :)⟩
  · rw [heq] at hrest
    exact (congrArg State.serve hrest :)
  · rw [hmem, heq]
  · rw [hmem, heq]

/-- An error that is not corrected poisons its granule, and is counted. -/
theorem scrubRead_bad (hbad : granuleBad g s = true) (hpool : g / 1024 < poolFrames) :
    leadsTo (exec (.scrubRead g) s) fun t => scrubbed g s t ∧ tabGet false t.mem.poison g = true ∧ t.mem.bytes = s.mem.bytes ∧
      t.eng = s.eng ∧ regW t (0x8010C + 0x80 * paStack (64 * g)) = regW s (0x8010C + 0x80 * paStack (64 * g)) + 1 := by
  obtain ⟨flips, hbm, heq, hcount, hflips, hparity⟩ := scrubMet_eq g s
  obtain ⟨hkept, hreg⟩ := poisonFound_scrub hpool (scrubMet g s)
  refine ⟨_, scrubRead_poisons hg hup hin hbad, ?_⟩
  generalize poisonFound (partMem 0 6 true) g (scrubMet g s) = t at hkept hreg ⊢
  rw [heq] at hkept hreg
  have hfw' : t.fault.fwPoison = false := (congrArg (fun v => v.1.fault.fwPoison) hkept :).trans hfw
  have hhbm : t.hbm = hbm := congrArg (fun v => v.1.hbm) hkept
  have hflips' : t.mem.flips = flips := congrArg (fun v => v.1.mem.flips) hkept
  have hpoison : t.mem.poison = tabSet false s.mem.poison g true := congrArg (fun v => v.1.mem.poison) hkept
  rw [settle_of_fwPoison_false hfw', scrubbed, stackOf, hhbm, hflips', hpoison, tabGet_set_self]
  exact ⟨⟨hcount, hflips, hparity⟩, rfl, congrArg (fun v => v.1.mem.bytes) hkept, congrArg (fun v => v.1.eng) hkept, hreg⟩

end

/-! ### REFRESH and HEAD_COUNT_REFRESH (R301, R347) -/

theorem refresh_result {m : Nat} {s : State} (hm : m < 8) (hup : mainUp s = true) : leadsTo (exec (.refresh m) s) fun t =>
    stackOf t m = { stackOf s m with refreshes := (stackOf s m).refreshes + 1 } ∧ { t with hbm := s.hbm } = s := by
  refine ⟨_, ?_, stackOf_setStack_self m { stackOf s m with refreshes := (stackOf s m).refreshes + 1 } s, rfl⟩
  rw [exec_refresh, execRefresh, need_of_eq_true (decide_eq_true hm), if_pos hup]

/-- A stack with the count of heads of a source port. -/
def headCounted (p : Nat) (ns : List Nat) (m : Nat) (k : Stack) : Stack :=
  { k with headCnt := tabSet 0 k.headCnt p (min 63 (ns.getD m 0)) }

/-- The counts of heads of the first stacks. -/
theorem headCounts_result (p : Nat) (ns : List Nat) (n : Nat) (s : State) :
    let t := (List.range n).foldl (fun t m => setStack m (headCounted p ns m (stackOf t m)) t) s
    (∀ m, stackOf t m = if m < n then headCounted p ns m (stackOf s m) else stackOf s m) ∧ { t with hbm := s.hbm } = s := by
  induction n with
  | zero => exact ⟨fun m => (if_neg (Nat.not_lt_zero m)).symm, rfl⟩
  | succ n ih =>
    obtain ⟨hstacks, hrest⟩ := ih
    rw [List.range_succ, List.foldl_append, List.foldl_cons, List.foldl_nil]
    generalize (List.range n).foldl (fun t m => setStack m (headCounted p ns m (stackOf t m)) t) s = t at hstacks hrest
    refine ⟨fun m => ?_, hrest⟩
    by_cases hm : m = n
    · subst hm
      rw [stackOf_setStack_self, hstacks, if_neg (lt_irrefl m), if_pos (Nat.lt_succ_self m)]
    · rw [stackOf_setStack_of_ne _ _ hm, hstacks]
      have hlt : m < n ↔ m < n + 1 := by omega
      simp only [hlt]

theorem headCountRefresh_result {p : Nat} (ns : List Nat) {s : State} (hp : p < 5) (hup : mainUp s = true) :
    leadsTo (exec (.headCountRefresh p ns) s) fun t => (∀ m, m < 8 → tabGet 0 (stackOf t m).headCnt p = min 63 (ns.getD m 0) ∧
      ∀ q, q ≠ p → tabGet 0 (stackOf t m).headCnt q = tabGet 0 (stackOf s m).headCnt q) ∧ { t with hbm := s.hbm } = s := by
  obtain ⟨hstacks, hrest⟩ := headCounts_result p ns 8 s
  refine ⟨(List.range 8).foldl (fun t m => setStack m (headCounted p ns m (stackOf t m)) t) s, ?_, fun m hm => ?_, hrest⟩
  · rw [exec_headCountRefresh, execHeadCountRefresh, need_of_eq_true (decide_eq_true hp), if_pos hup]
    rfl
  · rw [hstacks, if_pos hm]
    exact ⟨tabGet_set_self 0 _ _ _, fun q hq => tabGet_set_of_ne 0 _ _ hq⟩

/-! ### STACK_TEMP_READ below 100 °C (R306, R822) -/

/-- Whether a temperature lies too far from that of a pseudo-channel's last training (R306). -/
def tooFar (d : Int) (k : Stack) (t : Int) (pc : Nat) : Bool := t - tabGet 0 k.tempTrain pc > d || tabGet 0 k.tempTrain pc - t > d

theorem tempTriggers_eq (m : Nat) (t : Int) (s : State) : tempTriggers m t s = (List.range 32).foldl (fun u pc =>
    if tooFar (regF s 0x80000 15 8 : Nat) (stackOf s m) t pc then trigger m pc u else u) s := rfl

theorem onlyTriggers_triggers (m : Nat) (due : Nat → Bool) (pcs : List Nat) (s : State) :
    onlyTriggers s (pcs.foldl (fun u pc => if due pc then trigger m pc u else u) s) :=
  List.foldlRecOn (motive := onlyTriggers s) pcs _ (onlyTriggers_refl s) fun t ht pc _ =>
    onlyTriggers_ite (onlyTriggers_trans ht (onlyTriggers_trigger m pc t)) ht

theorem onlyTriggers_tempTriggers (m : Nat) (t : Int) (s : State) : onlyTriggers s (tempTriggers m t s) := by
  rw [tempTriggers_eq]
  exact onlyTriggers_triggers m _ _ s

/-- Each pseudo-channel that is due waits for its migration after the triggers. -/
theorem mem_trigQ_triggers {m pc : Nat} {due : Nat → Bool} {pcs : List Nat} {s : State} (hpc : pc ∈ pcs) (hdue : due pc = true)
    (hserves : (stackOf s m).map.any (fun e => e.2 = some pc) = true) (hidle : (stackOf s m).migration = none) :
    (m, pc) ∈ (pcs.foldl (fun u pc => if due pc then trigger m pc u else u) s).hbm.trigQ := by
  induction pcs generalizing s with
  | nil => exact absurd hpc List.not_mem_nil
  | cons q pcs ih =>
    rw [List.foldl_cons]
    obtain rfl | hpc := List.mem_cons.1 hpc
    · rw [if_pos hdue]
      exact (onlyTriggers_triggers m due pcs _).2 _ (mem_trigQ_trigger hserves hidle)
    · have hfirst : onlyTriggers s (if due q then trigger m q s else s) :=
        onlyTriggers_ite (onlyTriggers_trigger m q s) (onlyTriggers_refl s)
      have hstack := stackOf_congr (hbmStacks_of_onlyTriggers hfirst) m
      exact ih hpc (by rwa [hstack]) (by rwa [hstack])

/-- The state in which a stack's level has risen to what its temperature calls for. -/
def levelRaised (m : Nat) (s : State) : State :=
  if stackWants s m > (stackOf s m).level then
    let s' := bump 0xF0044 (setStack m { stackOf s m with level := stackWants s m } s)
    if (stackOf s m).level = 0 then logTherm 2 0 (0x4000 + m) s' else s'
  else s

/-- What a rise of a stack's level leaves. -/
theorem levelRaised_result (m : Nat) (s : State) :
    (∃ regs fault hbm, levelRaised m s = { s with regs := regs, fault := fault, hbm := hbm } ∧ hbm.trigQ = s.hbm.trigQ) ∧
    stackOf (levelRaised m s) m = { stackOf s m with level := max (stackOf s m).level (stackWants s m) } := by
  rw [levelRaised]
  split
  · next h =>
    rw [max_eq_right h.le]
    dsimp only
    split
    · rw [logTherm]
      obtain ⟨f, n, r, hlog, -⟩ := logEvent_frame _ (bump 0xF0044 (setStack m { stackOf s m with level := stackWants s m } s))
      rw [hlog]
      exact ⟨⟨_, _, _, rfl, rfl⟩, stackOf_setStack_self m _ s⟩
    · exact ⟨⟨_, _, _, rfl, rfl⟩, stackOf_setStack_self m _ s⟩
  · next h =>
    rw [max_eq_left (Nat.le_of_not_lt h)]
    exact ⟨⟨s.regs, s.fault, s.hbm, rfl, rfl⟩, rfl⟩

/-- A reading raises its stack's level to what it calls for, and touches no trigger and no other unit. -/
theorem throttleStack_result (m : Nat) (s : State) :
    (∃ regs fault hbm therm, throttleStack m s = { s with regs := regs, fault := fault, hbm := hbm, therm := therm } ∧
      hbm.trigQ = s.hbm.trigQ) ∧
    stackOf (throttleStack m s) m = { stackOf s m with level := max (stackOf s m).level (stackWants s m) } := by
  obtain ⟨⟨regs, fault, hbm, hraised, hq⟩, hlevel⟩ := levelRaised_result m s
  have hthrottle : ∃ therm, throttleStack m s = { levelRaised m s with therm := therm } := ⟨_, rfl⟩
  obtain ⟨therm, htherm⟩ := hthrottle
  rw [htherm]
  refine ⟨⟨regs, fault, hbm, therm, ?_, hq⟩, hlevel⟩
  rw [hraised]

/-- The state in which a stack's temperature has been read. -/
def tempTaken (m : Nat) (c : Int) (s : State) : State :=
  { setStack m { stackOf s m with tempC := c } s with therm := { s.therm with
    valid := if s.therm.valid.contains (80 + m) then s.therm.valid else (80 + m) :: s.therm.valid } }

theorem stackTempRead_eq {m : Nat} (c : Int) {s : State} (hm : m < 8) (hup : mainUp s = true) : exec (.stackTempRead m c) s =
    .next (if c ≥ 100 then thermalShutdown (tempTaken m c s) else throttleStack m (tempTriggers m c (tempTaken m c s))) := by
  rw [exec_stackTempRead, execStackTempRead, need_of_eq_true (decide_eq_true hm), if_pos hup]
  rfl

theorem stackTempRead_result {m : Nat} {c : Int} {s : State} (hm : m < 8) (hup : mainUp s = true) (hc : c < 100) :
    leadsTo (exec (.stackTempRead m c) s) fun t => (stackOf t m).tempC = c ∧ keepsUnits s t ∧ t.serve = s.serve ∧
      levelFor 85 c ≤ (stackOf t m).level ∧ (stackOf s m).level ≤ (stackOf t m).level ∧
      ∀ pc, pc < 32 → (stackOf s m).map.any (fun e => e.2 = some pc) = true → (stackOf s m).migration = none →
        (regF s 0x80000 15 8 : Int) < c - tabGet 0 (stackOf s m).tempTrain pc → (m, pc) ∈ t.hbm.trigQ := by
  have hstack : stackOf (tempTaken m c s) m = { stackOf s m with tempC := c } := stackOf_setStack_self m _ s
  have hqueue (pc : Nat) (hpc : pc < 32) (hserves : (stackOf s m).map.any (fun e => e.2 = some pc) = true)
      (hidle : (stackOf s m).migration = none) (hfar : (regF s 0x80000 15 8 : Int) < c - tabGet 0 (stackOf s m).tempTrain pc) :
      (m, pc) ∈ (tempTriggers m c (tempTaken m c s)).hbm.trigQ := by
    rw [tempTriggers_eq]
    refine mem_trigQ_triggers (List.mem_range.2 hpc) ?_ (by rwa [hstack]) (by rwa [hstack])
    rw [hstack, tooFar, Bool.or_eq_true]
    exact .inl (decide_eq_true hfar)
  have htrig := onlyTriggers_tempTriggers m c (tempTaken m c s)
  refine ⟨_, (stackTempRead_eq c hm hup).trans (congrArg _ (if_neg (not_le.2 hc))), ?_⟩
  generalize tempTriggers m c (tempTaken m c s) = u at htrig hqueue
  have hrest := state_of_onlyTriggers htrig
  have hustack : stackOf u m = { stackOf s m with tempC := c } := (stackOf_congr (hbmStacks_of_onlyTriggers htrig) m).trans hstack
  have hwants : levelFor 85 c ≤ stackWants u m := by
    rw [stackWants, hustack]
    exact le_max_left _ _
  obtain ⟨⟨regs, fault, hbm, therm, hthrottle, hq⟩, hlevel⟩ := throttleStack_result m u
  rw [hlevel, hustack, hthrottle]
  refine ⟨rfl, ⟨(congrArg State.eng hrest :), (congrArg State.sh hrest :), (congrArg State.cue hrest :), (congrArg State.flies hrest :),
    (congrArg (fun v : State => v.mem.bytes) hrest :)⟩, (congrArg State.serve hrest :), hwants.trans (le_max_right _ _),
    le_max_left _ _, fun pc hpc hserves hidle hfar => ?_⟩
  exact (congrArg ((m, pc) ∈ ·) hq).mpr (hqueue pc hpc hserves hidle hfar)

end Sys2Proof.Machine
end

section
/-! SUPPORT. Device resets (O55): what one loses, and what a thermal shutdown leaves. -/

namespace Sys2Proof.Machine

open Sys2Proof

/-! ### The reset of the main domain (R694) -/

/-- What `lostMain` says is lost, but for the count of resets and the readiness of the module. -/
def domainLost (bytes : Tab Byte) (t : State) : Prop :=
  t.eng = [] ∧ t.sh = [] ∧ t.cue = [] ∧ t.flies = Flies.init ∧ t.serve = Serve.init ∧ t.curtain.results = [] ∧
    t.board.slots = [] ∧ t.sec.jobs = [] ∧ (∀ k, k < 8 → keyHeld t k = false) ∧ t.mem.bytes = bytes

theorem keyHeld_eraseKeys {s : State} {k : Nat} (hk : k < 8) : keyHeld (eraseKeys s) k = false := by
  have hjobs : k ∉ (s.sec.keys.filter fun e => 10 ≤ e.1).map Prod.fst := fun hmem => by
    obtain ⟨e, he, rfl⟩ := List.mem_map.1 hmem
    have hle : 10 ≤ e.1 := of_decide_eq_true (List.mem_filter.1 he).2
    omega
  have hget : tabGet none (eraseKeys s).sec.keys k = none :=
    (tabGet_set_of_ne none _ (some (s.sec.keyGen + 1)) (by omega : k ≠ 8)).trans (tabGet_of_key_not_mem none hjobs)
  rw [keyHeld, hget]
  rfl

/-- The state of the main domain after a reset of it, before the reset is counted. -/
def mainLost (s : State) : State := resetMain (eraseKeys (dropHeld (fun _ => true) s))

theorem unserved_dropHeld (p : Result → Bool) (s : State) : unserved (dropHeld p s) = unserved s :=
  unserved_foldl (fun t (r : Result) => dropResult r.id t) (fun t r => unserved_dropResult r.id t) _ s

theorem domainLost_mainLost (s : State) : domainLost s.mem.bytes (mainLost s) := by
  have hbytes : (dropHeld (fun _ => true) s).mem.bytes = s.mem.bytes := congrArg (fun v => v.1.mem.bytes) (unserved_dropHeld _ s)
  exact ⟨rfl, rfl, rfl, rfl, rfl, rfl, rfl, rfl, fun k hk => keyHeld_eraseKeys hk, hbytes⟩

/-- What a reset keeps of the shutdown and of the count of resets. -/
theorem mainLost_keeps (s : State) : (mainLost s).therm.shutdown = s.therm.shutdown ∧ (mainLost s).fault.devTotal = s.fault.devTotal :=
  have hheld := unserved_dropHeld (fun _ => true) s
  ⟨(congrArg (fun v => v.1.therm.shutdown) hheld :), (congrArg (fun v => v.1.fault.devTotal) hheld :)⟩

/-- A record of a reset touches the log, its counter and a free value alone. -/
theorem logReset_frame (action unit : Nat) (s : State) : ∃ free regs fifo lost, logReset action unit s =
    { s with free := free, regs := regs, fault := { s.fault with fifo := fifo, lost := lost } } := by
  obtain ⟨fifo, lost, regs, hlog, -⟩ := logEvent_frame
    { evBase s 9 ((freeVal 1 s).toNat % 256) action with unit := unit, origin := originOf 7 true } (drawn s)
  exact ⟨_, regs, fifo, lost, hlog⟩

/-- The state after a reset that falls back from a bundle on trial, or does not (R805). -/
def fellBack (activation : Bool) (s : State) : State := if onTrial s && !activation then fallBack s else s

theorem fellBack_frame (activation : Bool) (s : State) : ∃ regs upd, fellBack activation s = { s with regs := regs, upd := upd } := by
  rw [fellBack]
  split
  · exact ⟨_, _, rfl⟩
  · exact ⟨s.regs, s.upd, rfl⟩

/-- The state after a reset with the main regulators off, before its record. -/
def resetCounted (win : List Nat) (mode : Mode) (s : State) : State :=
  { s with
    fault := { s.fault with devWin := win, devTotal := s.fault.devTotal + 1 }
    boot := { s.boot with mode := mode, updating := false, step := 0, ready := false, lockLate := false, failed := false, fitting := [] }
    pins := { s.pins with regulators := false, pwrGood := false } }

/-- A reset with the regulators off that counts: the record of the reset, and the Dark state when it is the third (R696). -/
theorem deviceReset_off_eq (s : State) : ∃ win mode, deviceReset true true false s =
    if true && win.length ≥ 3 then goDark (logReset 5 0xFFFF (resetCounted win mode (fellBack false (mainLost s))))
    else logReset 5 0xFFFF (resetCounted win mode (fellBack false (mainLost s))) :=
  ⟨devWindow (fellBack false (mainLost s)) ++ [(fellBack false (mainLost s)).time],
    if false || onTrial (mainLost s) && !false then .updating else if true then .standby else .resetting, rfl⟩

/-- A reset with the regulators off loses the main domain; it and its records touch little else. -/
theorem deviceReset_off_frame (s : State) : ∃ regs free upd fault boot pins pair, deviceReset true true false s =
    { mainLost s with regs := regs, free := free, upd := upd, fault := fault, boot := boot, pins := pins, pair := pair } ∧
    fault.devTotal = (mainLost s).fault.devTotal + 1 ∧ boot.ready = false ∧ pins.regulators = false := by
  obtain ⟨win, mode, heq⟩ := deviceReset_off_eq s
  obtain ⟨regs, upd, hfell⟩ := fellBack_frame false (mainLost s)
  rw [heq, hfell]
  generalize mainLost s = u
  obtain ⟨free, regs, fifo, lost, hlog⟩ := logReset_frame 5 0xFFFF (resetCounted win mode { u with regs := regs, upd := upd })
  rw [hlog, resetCounted]
  split
  · rw [goDark]
    obtain ⟨free, regs, fifo, lost, hdark⟩ := logReset_frame 6 0xFFFF _
    exact ⟨_, _, _, _, _, _, _, hdark, rfl, rfl, rfl⟩
  · exact ⟨_, _, _, _, _, _, _, rfl, rfl, rfl, rfl⟩

theorem deviceReset_off_result (s : State) :
    let t := deviceReset true true false s
    lostMain s t ∧ t.therm.shutdown = s.therm.shutdown ∧ t.pins.regulators = false := by
  obtain ⟨regs, free, upd, fault, boot, pins, pair, heq, htotal, hready, hoff⟩ := deviceReset_off_frame s
  obtain ⟨hshut, hcount⟩ := mainLost_keeps s
  obtain ⟨heng, hsh, hcue, hflies, hserve, hresults, hslots, hjobs, hkeys, hbytes⟩ := domainLost_mainLost s
  rw [hcount] at htotal
  simp only [heq, lostMain]
  exact ⟨⟨heng, hsh, hcue, hflies, hserve, hresults, hslots, hjobs, hkeys, hbytes, htotal, hready⟩, hshut, hoff⟩

/-- The state of a thermal shutdown before its reset. -/
def shutdownNoted (s : State) : State :=
  let u := bump 0xF004C (logTherm 5 5 0xFFFF s)
  { u with therm := { u.therm with shutdown := true, shutAtUs := u.time, shutLast := true } }

theorem thermalShutdown_eq (s : State) : thermalShutdown s = deviceReset true true false (shutdownNoted s) := rfl

theorem shutdownNoted_keeps (s : State) : (shutdownNoted s).therm.shutdown = true ∧ (shutdownNoted s).mem = s.mem ∧
    (shutdownNoted s).fault.devTotal = s.fault.devTotal := by
  obtain ⟨f, n, r, hlog, -⟩ := logEvent_frame { evBase s 12 5 5 with origin := originOf 7 true, unit := 0xFFFF } s
  rw [shutdownNoted, logTherm, hlog]
  exact ⟨rfl, rfl, rfl⟩

theorem thermalShutdown_result (s : State) :
    let t := thermalShutdown s
    t.therm.shutdown = true ∧ t.pins.regulators = false ∧ lostMain s t := by
  obtain ⟨hlost, hshut, hoff⟩ := deviceReset_off_result (shutdownNoted s)
  obtain ⟨hset, hmem, htotal⟩ := shutdownNoted_keeps s
  rw [lostMain, hmem, htotal] at hlost
  simp only [thermalShutdown_eq]
  exact ⟨hshut.trans hset, hoff, hlost⟩

/-- A stack at 100 °C shuts the module down. -/
theorem stackTempRead_hot {m : Nat} {c : Int} {s : State} (hm : m < 8) (hup : mainUp s = true) (hc : 100 ≤ c) :
    leadsTo (exec (.stackTempRead m c) s) fun t => t.therm.shutdown = true ∧ t.pins.regulators = false ∧ lostMain s t :=
  ⟨_, (stackTempRead_eq c hm hup).trans (congrArg _ (if_pos hc)), thermalShutdown_result (tempTaken m c s)⟩

end Sys2Proof.Machine
end

section
/-! SUPPORT. Migrations and retrainings of pseudo-channels that end well (O55, R306 to R308, R310). -/

namespace Sys2Proof.Machine

open Sys2Proof

/-! ### What asks for a migration (R306) -/

section
variable {m pc : Nat} {s : State} (hserves : (stackOf s m).map.any (fun e => e.2 = some pc) = true) (hidle : (stackOf s m).migration = none)
include hserves hidle

/-- A pseudo-channel in service that is triggered waits, and nothing else changes. -/
theorem trigger_asks : (m, pc) ∈ (trigger m pc s).hbm.trigQ ∧ { trigger m pc s with hbm := s.hbm } = s :=
  ⟨mem_trigQ_trigger hserves hidle, state_of_onlyTriggers (onlyTriggers_trigger m pc s)⟩

theorem retrainDaysElapsed_result (hm : m < 8) (hpc : pc < 32) (hup : mainUp s = true) :
    leadsTo (exec (.retrainDaysElapsed m pc) s) fun t => (m, pc) ∈ t.hbm.trigQ ∧ { t with hbm := s.hbm } = s := by
  refine ⟨trigger m pc s, ?_, trigger_asks hserves hidle⟩
  rw [exec_retrainDaysElapsed, execRetrainDaysElapsed, need_of_eq_true (by simp [hm, hpc]), if_pos hup]

theorem hbmRetrainReq_result {v : Word} (hup : linkUp s = true) (hgo : bitAt v 31 = true) (hstack : fld v 7 5 = m)
    (hchannel : fld v 4 0 = pc) :
    leadsTo (exec (.hbmRetrainReq 0 v) s) fun t => (m, pc) ∈ t.hbm.trigQ ∧ { t with hbm := s.hbm } = s := by
  refine ⟨trigger m pc s, ?_, trigger_asks hserves hidle⟩
  rw [exec_hbmRetrainReq, execHbmRetrainReq, need_of_eq_true (by simp), if_pos (by simp [hup]), retrainReqOp, if_pos hgo, hstack, hchannel]

end

/-! ### MIGRATION_START with a spare (R307, R308) -/

/-- The state after the oldest trigger is taken out of its order. -/
def triggerTaken (m pc : Nat) (s : State) : State := { s with hbm := { s.hbm with trigQ := s.hbm.trigQ.erase (m, pc) } }

theorem migrationStart_settles {m : Nat} {s : State} (hm : m < 8) (hup : mainUp s = true) :
    exec (.migrationStart m) s = .next (settle (migrationStartOp m s)) := by
  rw [exec_migrationStart, execMigrationStart, need_of_eq_true (decide_eq_true hm), if_pos hup]

section
variable {m pc : Nat} {e : Nat × Option Nat} {s : State} (hnext : nextTrigger s = some (m, pc))
  (hserves : (stackOf s m).map.find? (fun e => e.2 = some pc) = some e)
include hnext hserves

theorem migrationStartOp_of_spare {d : Nat} {rest : List Nat} (hspare : (stackOf s m).spares = d :: rest) : migrationStartOp m s =
    setStack m { stackOf s m with migration := some ⟨e.1, pc, d, s.time⟩ } (triggerTaken m pc s) := by
  have hstack : stackOf (triggerTaken m pc s) m = stackOf s m := rfl
  rw [triggerTaken] at hstack
  simp only [migrationStartOp, hnext, ne_eq, not_true_eq_false, if_false, hstack, hserves, hspare, triggerTaken]

theorem migrationStartOp_of_noSpare (hnone : (stackOf s m).spares = []) :
    migrationStartOp m s = logRetrain 7 m (retirePc m pc (triggerTaken m pc s)) := by
  have hstack : stackOf (triggerTaken m pc s) m = stackOf s m := rfl
  rw [triggerTaken] at hstack
  simp only [migrationStartOp, hnext, ne_eq, not_true_eq_false, if_false, hstack, hserves, hnone, triggerTaken]

end

theorem migrationStart_spare {m pc d : Nat} {rest : List Nat} {e : Nat × Option Nat} {s : State} (hm : m < 8) (hup : mainUp s = true)
    (hnext : nextTrigger s = some (m, pc)) (hserves : (stackOf s m).map.find? (fun e => e.2 = some pc) = some e)
    (hspare : (stackOf s m).spares = d :: rest) (hfw : s.fault.fwPoison = false) :
    leadsTo (exec (.migrationStart m) s) fun t => stackOf t m = { stackOf s m with migration := some ⟨e.1, pc, d, s.time⟩ } ∧
      t.hbm.trigQ = s.hbm.trigQ.erase (m, pc) ∧ { t with hbm := s.hbm } = s := by
  refine ⟨setStack m { stackOf s m with migration := some ⟨e.1, pc, d, s.time⟩ } (triggerTaken m pc s), ?_,
    stackOf_setStack_self m _ _, rfl, rfl⟩
  rw [migrationStart_settles hm hup, migrationStartOp_of_spare hnext hserves hspare]
  exact congrArg Host.Outcome.next (settle_of_fwPoison_false hfw)

/-! ### MIGRATION_SWITCH (R310) -/

/-- A change of the record touches the record's copies and the measurements alone. -/
theorem persist_frame (f : Inventory → Inventory) (s : State) : ∃ boot sec, persist f s = { s with boot := boot, sec := sec } :=
  ⟨_, _, rfl⟩

theorem contains_filter_ne (x : Nat) (xs : List Nat) : (xs.filter (· ≠ x)).contains x = false := by
  simp

/-- A stack whose migration has switched. -/
def switched (g : Migration) (x : Stack) : Stack :=
  { x with
    map := tabSet none x.map g.lc (some g.dst), spares := x.spares.filter (· ≠ g.dst), training := x.training ++ [g.src],
    migration := none }

/-- The record's pseudo-channels after a switch. -/
def switchNoted (m : Nat) (g : Migration) (y : Inventory) : Inventory :=
  { y with pc := (y.pc.set (32 * m + g.dst) g.lc).set (32 * m + g.src) 0xFE }

section
variable {m : Nat} {g : Migration} {s : State} (hm : m < 8) (hg : (stackOf s m).migration = some g)
include hm hg

theorem migrationSwitch_early (hcopied : copiedRows s g < channelRows) : exec (.migrationSwitch m) s = .next s := by
  rw [exec_migrationSwitch, execMigrationSwitch, need_of_eq_true (decide_eq_true hm), hg]
  exact congrArg Host.Outcome.next (if_pos hcopied)

theorem migrationSwitch_eq (hcopied : channelRows ≤ copiedRows s g) : exec (.migrationSwitch m) s =
    .next (persist (switchNoted m g) (setStack m (switched g (stackOf s m)) s)) := by
  rw [exec_migrationSwitch, execMigrationSwitch, need_of_eq_true (decide_eq_true hm), hg]
  exact congrArg Host.Outcome.next (if_neg (Nat.not_lt.2 hcopied))

theorem migrationSwitch_result (hcopied : channelRows ≤ copiedRows s g) : leadsTo (exec (.migrationSwitch m) s) fun t =>
    tabGet none (stackOf t m).map g.lc = some g.dst ∧ (stackOf t m).migration = none ∧
    (stackOf t m).training = (stackOf s m).training ++ [g.src] ∧ (stackOf t m).spares.contains g.dst = false ∧ keepsUnits s t ∧
    t.serve = s.serve := by
  obtain ⟨boot, sec, hpersist⟩ := persist_frame (switchNoted m g) (setStack m (switched g (stackOf s m)) s)
  refine ⟨_, migrationSwitch_eq hm hg hcopied, ?_⟩
  have hstack : stackOf (persist (switchNoted m g) (setStack m (switched g (stackOf s m)) s)) m = switched g (stackOf s m) := by
    rw [hpersist]
    exact stackOf_setStack_self m _ s
  beta_reduce
  rw [hstack, hpersist]
  exact ⟨tabGet_set_self none (stackOf s m).map g.lc (some g.dst), rfl, rfl, contains_filter_ne _ _, ⟨rfl, rfl, rfl, rfl, rfl⟩, rfl⟩

end

/-! ### RETRAIN_DONE (R311) -/

/-- A record of a retraining touches the log, a free value and the counter of lost records. -/
theorem logRetrain_frame (action m : Nat) (s : State) : ∃ free regs fifo lost, logRetrain action m s =
    { s with free := free, regs := regs, fault := { s.fault with fifo := fifo, lost := lost } } ∧
    ∀ a, a ≠ 0xD0054 → tabGet 0#32 regs a = regW s a := by
  obtain ⟨fifo, lost, regs, hlog, -, hregs⟩ := logEvent_frame
    { evBase s 3 ((freeVal 2 s).toNat % 256) action with unit := 0x4000 + m, origin := originOf 6 true } (drawn s)
  exact ⟨_, regs, fifo, lost, hlog, hregs⟩

theorem contains_addSpare (pc : Nat) (xs : List Nat) : (addSpare pc xs).contains pc = true := by simp [addSpare]

/-- A stack of which a retrained pseudo-channel is a spare again. -/
def retrained (pc : Nat) (x : Stack) : Stack :=
  { x with training := x.training.filter (· ≠ pc), spares := addSpare pc x.spares, tempTrain := tabSet 0 x.tempTrain pc x.tempC }

section
variable {m pc : Nat} {s : State} (hm : m < 8) (hpc : pc < 32) (htraining : (stackOf s m).training.contains pc = true)
include hm hpc htraining

theorem retrainDone_eq (ok : Bool) : exec (.retrainDone m pc ok) s = .next
    (if ok then bump (0x80110 + 0x80 * m) (logRetrain 0 m (setStack m (retrained pc (stackOf s m)) s))
      else logRetrain 7 m (retirePc m pc s)) := by
  rw [exec_retrainDone, execRetrainDone, need_of_eq_true (by simp [hm, hpc])]
  exact congrArg Host.Outcome.next (if_neg (by rw [htraining]; decide))

theorem retrainDone_ok : leadsTo (exec (.retrainDone m pc true) s) fun t => (stackOf t m).training.contains pc = false ∧
    (stackOf t m).spares.contains pc = true ∧ tabGet 0 (stackOf t m).tempTrain pc = (stackOf s m).tempC ∧
    regW t (0x80110 + 0x80 * m) = regW s (0x80110 + 0x80 * m) + 1 ∧ keepsUnits s t ∧ t.serve = s.serve := by
  obtain ⟨free, regs, fifo, lost, hlog, hregs⟩ := logRetrain_frame 0 m (setStack m (retrained pc (stackOf s m)) s)
  have hcount : regW (bump (0x80110 + 0x80 * m) (logRetrain 0 m (setStack m (retrained pc (stackOf s m)) s))) (0x80110 + 0x80 * m) =
      regW s (0x80110 + 0x80 * m) + 1 := by
    rw [regW_bump_self, hlog]
    exact congrArg (· + 1) (hregs _ (by omega))
  have hstack : stackOf (bump (0x80110 + 0x80 * m) (logRetrain 0 m (setStack m (retrained pc (stackOf s m)) s))) m =
      retrained pc (stackOf s m) := by
    rw [hlog]
    exact stackOf_setStack_self m _ s
  refine ⟨_, retrainDone_eq hm hpc htraining true, ?_⟩
  beta_reduce
  rw [if_pos rfl, hstack, hcount, hlog]
  exact ⟨contains_filter_ne _ _, contains_addSpare _ _, tabGet_set_self 0 _ _ _, rfl, ⟨rfl, rfl, rfl, rfl, rfl⟩, rfl⟩

end

end Sys2Proof.Machine
end

section
/-! SUPPORT. The retirement of a pseudo-channel and of its logical channel (O55, R311 to R313). -/

namespace Sys2Proof.Machine

open Sys2Proof

/-! ### Changes of every listed value -/

/-- A listed value that a change of every value does not make the default is changed so. -/
theorem tabGet_map {α : Type} [DecidableEq α] {d : α} (f : Nat → α → α) {t : Tab α} {a : Nat} (hlisted : tabGet d t a ≠ d)
    (hkept : f a (tabGet d t a) ≠ d) : tabGet d (tabMap d f t) a = f a (tabGet d t a) := by
  induction t with
  | nil => exact absurd rfl hlisted
  | cons e t ih =>
    obtain ⟨k, x⟩ := e
    by_cases hk : a = k
    · subst hk
      have hx : tabGet d ((a, x) :: t) a = x := if_pos rfl
      rw [hx] at hkept ⊢
      simp [tabMap, hkept, tabGet]
    · have hrest : tabGet d ((k, x) :: t) a = tabGet d t a := if_neg hk
      rw [hrest] at hlisted hkept ⊢
      rw [← ih hlisted hkept]
      by_cases hdrop : f k x = d
      · simp [tabMap, hdrop]
      · simp [tabMap, hdrop, tabGet, hk]

/-! ### What serving gives up for a logical channel -/

@[simp] theorem unserved_unmapPage (space va : Nat) (s : State) : unserved (unmapPage space va s) = unserved s := by
  rw [unmapPage]
  split
  · rfl
  · rw [unserved_lowerFrame, unserved_setPt]

@[simp] theorem unserved_ownEpoch (space lo hi : Nat) (s : State) : unserved (ownEpoch space lo hi s) = unserved s := by
  rw [ownEpoch, unserved_bump (a := 0x7004C) rfl, raiseEpoch, unserved_dropCached]
  rfl

@[simp] theorem unserved_unmapRange (space lo hi : Nat) (s : State) : unserved (unmapRange space lo hi s) = unserved s := by
  simp only [unmapRange]
  split
  · rfl
  · exact (unserved_foldl (fun t (e : Nat × DWord) => unmapPage space e.1 t) (fun t e => unserved_unmapPage space e.1 t) _ _).trans
      (unserved_ownEpoch space lo hi s)

@[simp] theorem unserved_giveUp (i : Nat) (s : State) : unserved (giveUp i s) = unserved s := by
  rw [giveUp]
  split
  · rfl
  · rw [unmapRequest, unserved_unmapRange, failRequest, unserved_endRequest, unserved_foldl]
    intro t g
    rw [unserved_stepBroken, unserved_journalRollback]

@[simp] theorem unserved_makeFit (lc fuel : Nat) (s : State) : unserved (makeFit lc fuel s) = unserved s := by
  induction fuel generalizing s with
  | zero => rfl
  | succ fuel ih =>
    rw [makeFit]
    split
    · rfl
    · split
      · rfl
      · rw [ih, unserved_giveUp]

/-! ### Moves of frames (R313) -/

/-- What neither serving nor the moves of frames change: the units, the stacks, and whether the firmware's memory has failed. -/
def beyondMoves (s : State) : Tab Engine × Hbm × Bool := (s.eng, s.hbm, s.fault.fwPoison)

theorem beyondMoves_of_unserved {s t : State} (h : unserved t = unserved s) : beyondMoves t = beyondMoves s :=
  (congrArg (fun v => (v.1.eng, v.1.hbm, v.1.fault.fwPoison)) h :)

theorem beyondMoves_eq {s : State} {eng : Tab Engine} {hbm : Hbm} {fw : Bool} (h : beyondMoves s = (eng, hbm, fw)) :
    s.eng = eng ∧ s.hbm = hbm ∧ s.fault.fwPoison = fw := by
  obtain ⟨heng, hrest⟩ := Prod.ext_iff.1 h
  obtain ⟨hhbm, hfw⟩ := Prod.ext_iff.1 hrest
  exact ⟨heng, hhbm, hfw⟩

theorem beyondMoves_withMem (m : Mem) (s : State) : beyondMoves { s with mem := m } = beyondMoves s := rfl

theorem beyondMoves_setFrame (f : Nat) (x : Frame) (s : State) : beyondMoves (setFrame f x s) = beyondMoves s := rfl

theorem beyondMoves_renameFrame (a b : Nat) (s : State) : beyondMoves (renameFrame a b s) = beyondMoves s := rfl

theorem beyondMoves_ownEpoch (space lo hi : Nat) (s : State) : beyondMoves (ownEpoch space lo hi s) = beyondMoves s :=
  beyondMoves_of_unserved (unserved_ownEpoch space lo hi s)

theorem beyondMoves_pageEpoch (t : State) (p : Nat × Nat) : beyondMoves (ownEpoch p.1 p.2 (p.2 + 65536) t) = beyondMoves t :=
  beyondMoves_ownEpoch ..

theorem beyondMoves_moveFrame (a b : Nat) (s : State) : beyondMoves (moveFrame a b s) = beyondMoves s := by
  rw [moveFrame, foldl_keeps beyondMoves _ beyondMoves_pageEpoch, beyondMoves_renameFrame, beyondMoves_setFrame, beyondMoves_setFrame,
    beyondMoves_withMem]

theorem beyondMoves_moveHold (a : Nat) (s : State) : beyondMoves (moveHold a s) = beyondMoves s := by
  simp only [moveHold]
  split
  · exact beyondMoves_moveFrame a _ s
  · rfl

/-! ### A logical channel (R312, R313) -/

/-- The state in which no frame of a retired logical channel is live. -/
def framesMoved (lc : Nat) (s : State) : State :=
  let s := makeFit lc 8192 { s with hbm := { s.hbm with lcRetired := s.hbm.lcRetired ++ [lc] } }
  let live := liveFrames s lc
  let s := (live.zip (freeFrames s live.length)).foldl (fun t q => moveFrame q.1 q.2 t) s
  (liveHold s lc).foldl (fun t f => moveHold f t) s

theorem beyondMoves_framesMoved (lc : Nat) (s : State) : beyondMoves (framesMoved lc s) =
    (s.eng, { s.hbm with lcRetired := s.hbm.lcRetired ++ [lc] }, s.fault.fwPoison) := by
  rw [framesMoved]
  dsimp only
  rw [foldl_keeps beyondMoves _ fun t f => beyondMoves_moveHold f t,
    foldl_keeps beyondMoves _ fun t (q : Nat × Nat) => beyondMoves_moveFrame q.1 q.2 t, beyondMoves_of_unserved (unserved_makeFit ..)]
  rfl

/-- A stack without a logical channel. -/
def channelDropped (lc : Nat) (k : Stack) : Stack := { k with map := tabSet none k.map lc none }

/-- The stacks without a logical channel. -/
def mapsDropped (lc : Nat) (h : Hbm) : Hbm := { h with hbmStacks := tabMap Stack.init (fun _ => channelDropped lc) h.hbmStacks }

/-- The retirement of a logical channel changes each stack's map, once its frames are moved. -/
theorem retireChannel_frame {lc : Nat} {s : State} (hin : ¬ s.hbm.lcRetired.contains lc = true) : ∃ f mem pair,
    retireChannel lc s = persist f { framesMoved lc s with mem := mem, hbm := mapsDropped lc (framesMoved lc s).hbm, pair := pair } := by
  rw [retireChannel, if_neg hin, framesMoved]
  exact ⟨_, _, _, rfl⟩

theorem beyondMoves_persist (f : Inventory → Inventory) (s : State) : beyondMoves (persist f s) = beyondMoves s := rfl

theorem beyondMoves_retireChannel {lc : Nat} {s : State} (hin : ¬ s.hbm.lcRetired.contains lc = true) :
    beyondMoves (retireChannel lc s) =
      (s.eng, mapsDropped lc { s.hbm with lcRetired := s.hbm.lcRetired ++ [lc] }, s.fault.fwPoison) := by
  obtain ⟨f, mem, pair, heq⟩ := retireChannel_frame hin
  have hmoved := beyondMoves_framesMoved lc s
  rw [heq, beyondMoves_persist]
  generalize framesMoved lc s = u at hmoved
  exact congrArg (fun v : Tab Engine × Hbm × Bool => (v.1, mapsDropped lc v.2.1, v.2.2)) hmoved

/-- A retired logical channel is among the retired ones. A stack with a retired pseudo-channel keeps all but its map. -/
theorem retireChannel_result (lc : Nat) (s : State) :
    let t := retireChannel lc s
    t.eng = s.eng ∧ t.fault.fwPoison = s.fault.fwPoison ∧ t.hbm.trigQ = s.hbm.trigQ ∧ t.hbm.lcRetired.contains lc = true ∧
    ∀ m, (stackOf s m).retired ≠ [] → ∃ x, stackOf t m = { stackOf s m with map := x } := by
  by_cases hin : s.hbm.lcRetired.contains lc = true
  · have heq : retireChannel lc s = s := if_pos hin
    rw [heq]
    exact ⟨rfl, rfl, rfl, hin, fun m _ => ⟨(stackOf s m).map, rfl⟩⟩
  · obtain ⟨heng, hhbm, hfw⟩ := beyondMoves_eq (beyondMoves_retireChannel hin)
    generalize retireChannel lc s = t at heng hhbm hfw
    refine ⟨heng, hfw, ?_, ?_, fun m hm => ⟨tabSet none (stackOf s m).map lc none, ?_⟩⟩
    · rw [hhbm]
      rfl
    · rw [hhbm]
      exact List.contains_iff_mem.2 (List.mem_append_right _ (List.mem_singleton.2 rfl))
    · have hlisted : stackOf s m ≠ Stack.init := fun h => hm (by rw [h]; rfl)
      have hkept : channelDropped lc (stackOf s m) ≠ Stack.init := fun h => hm (congrArg Stack.retired h :)
      rw [stackOf, hhbm]
      exact tabGet_map (fun _ => channelDropped lc) hlisted hkept

/-! ### A pseudo-channel (R311, R312) -/

/-- A stack that has retired a pseudo-channel. -/
def pcRetired (pc : Nat) (k : Stack) : Stack :=
  { k with retired := k.retired ++ [pc], spares := k.spares.filter (· ≠ pc), training := k.training.filter (· ≠ pc) }

/-- The state in which a pseudo-channel has been retired, and its logical channel with it. -/
def servedRetired (m pc : Nat) (s : State) : State :=
  match (stackOf s m).map.find? fun e => e.2 = some pc with
  | some e => retireChannel e.1 (setStack m (pcRetired pc (stackOf s m)) s)
  | none => setStack m (pcRetired pc (stackOf s m)) s

theorem beyondMoves_retirePc (m pc : Nat) (s : State) : beyondMoves (retirePc m pc s) = beyondMoves (servedRetired m pc s) := by
  rw [retirePc, beyondMoves_persist, servedRetired]
  cases (stackOf s m).map.find? fun e => e.2 = some pc with
  | none => rfl
  | some e => rfl

/-- The log says of a retirement what it is; nothing else comes of the record. -/
theorem beyondMoves_logRetrain (action m : Nat) (s : State) : beyondMoves (logRetrain action m s) = beyondMoves s := by
  obtain ⟨free, regs, fifo, lost, hlog, -⟩ := logRetrain_frame action m s
  rw [hlog]
  rfl

theorem servedRetired_result (m pc : Nat) (s : State) :
    let t := servedRetired m pc s
    t.eng = s.eng ∧ t.fault.fwPoison = s.fault.fwPoison ∧ t.hbm.trigQ = s.hbm.trigQ ∧
    (∀ e, (stackOf s m).map.find? (fun e => e.2 = some pc) = some e → t.hbm.lcRetired.contains e.1 = true) ∧
    pc ∈ (stackOf t m).retired ∧ (stackOf t m).training.contains pc = false ∧ (stackOf t m).spares.contains pc = false := by
  have hstack : stackOf (setStack m (pcRetired pc (stackOf s m)) s) m = pcRetired pc (stackOf s m) := stackOf_setStack_self m _ s
  have hin : pc ∈ (pcRetired pc (stackOf s m)).retired := List.mem_append_right _ (List.mem_singleton.2 rfl)
  cases hfind : (stackOf s m).map.find? fun e => e.2 = some pc with
  | some e =>
    have heq : servedRetired m pc s = retireChannel e.1 (setStack m (pcRetired pc (stackOf s m)) s) := by rw [servedRetired, hfind]
    obtain ⟨heng, hfw, hq, hlc, hkept⟩ := retireChannel_result e.1 (setStack m (pcRetired pc (stackOf s m)) s)
    obtain ⟨x, hx⟩ := hkept m (by rw [hstack]; exact List.ne_nil_of_mem hin)
    rw [hstack] at hx
    dsimp only
    rw [heq, hx]
    refine ⟨heng, hfw, hq, fun e' he' => ?_, hin, contains_filter_ne _ _, contains_filter_ne _ _⟩
    obtain rfl := Option.some.inj he'
    exact hlc
  | none =>
    have heq : servedRetired m pc s = setStack m (pcRetired pc (stackOf s m)) s := by rw [servedRetired, hfind]
    dsimp only
    rw [heq, hstack]
    exact ⟨rfl, rfl, rfl, fun e' he' => absurd he'.symm (Option.some_ne_none e'), hin, contains_filter_ne _ _, contains_filter_ne _ _⟩

/-- A retired pseudo-channel is neither in training nor a spare, and its logical channel is retired with it. -/
theorem logRetrain_retirePc (m pc : Nat) (s : State) :
    let t := logRetrain 7 m (retirePc m pc s)
    t.eng = s.eng ∧ t.fault.fwPoison = s.fault.fwPoison ∧ t.hbm.trigQ = s.hbm.trigQ ∧
    (∀ e, (stackOf s m).map.find? (fun e => e.2 = some pc) = some e → t.hbm.lcRetired.contains e.1 = true) ∧
    pc ∈ (stackOf t m).retired ∧ (stackOf t m).training.contains pc = false ∧ (stackOf t m).spares.contains pc = false := by
  obtain ⟨heng, hhbm, hfw⟩ := beyondMoves_eq ((beyondMoves_logRetrain 7 m (retirePc m pc s)).trans (beyondMoves_retirePc m pc s))
  dsimp only
  rw [heng, hfw, hhbm, stackOf_congr (congrArg Hbm.hbmStacks hhbm)]
  exact servedRetired_result m pc s

/-! ### The commands that retire -/

/-- A migration without a spare retires its pseudo-channel and the logical channel that it serves. -/
theorem migrationStart_noSpare {m pc : Nat} {e : Nat × Option Nat} {s : State} (hm : m < 8) (hup : mainUp s = true)
    (hnext : nextTrigger s = some (m, pc)) (hserves : (stackOf s m).map.find? (fun e => e.2 = some pc) = some e)
    (hnone : (stackOf s m).spares = []) (hfw : s.fault.fwPoison = false) :
    leadsTo (exec (.migrationStart m) s) fun t => pc ∈ (stackOf t m).retired ∧ t.hbm.lcRetired.contains e.1 = true ∧
      t.hbm.trigQ = s.hbm.trigQ.erase (m, pc) ∧ t.eng = s.eng := by
  obtain ⟨heng, hfw', hq, hlc, hretired, -⟩ := logRetrain_retirePc m pc (triggerTaken m pc s)
  refine ⟨logRetrain 7 m (retirePc m pc (triggerTaken m pc s)), ?_, hretired, hlc e hserves, hq, heng⟩
  rw [migrationStart_settles hm hup, migrationStartOp_of_noSpare hnext hserves hnone]
  exact congrArg Host.Outcome.next (settle_of_fwPoison_false (hfw'.trans hfw))

theorem retrainDone_fails {m pc : Nat} {s : State} (hm : m < 8) (hpc : pc < 32) (htraining : (stackOf s m).training.contains pc = true) :
    leadsTo (exec (.retrainDone m pc false) s) fun t => pc ∈ (stackOf t m).retired ∧ (stackOf t m).training.contains pc = false ∧
      (stackOf t m).spares.contains pc = false := by
  obtain ⟨-, -, -, -, hresult⟩ := logRetrain_retirePc m pc s
  exact ⟨_, retrainDone_eq hm hpc htraining false, hresult⟩

end Sys2Proof.Machine
end

section
/-! SUPPORT. O55: the upkeep of the stacks, put together. -/

namespace Sys2Proof.Machine

open Sys2Proof

/-- A granule whose stack retries its parity errors, and whose own error can be corrected, is no bad one. -/
theorem granuleBad_eq_false {g : Nat} {s : State} (hpoison : tabGet false s.mem.poison g = false)
    (hparity : (stackOf s (paStack (64 * g))).parity ≤ 3) (hflips : hammingDecode (tabGet [] s.mem.flips g) ≠ .uncorrectable) :
    granuleBad g s = false := by
  rw [Bool.eq_false_iff, Ne, granuleBad_iff, hpoison]
  exact fun hbad => hbad.elim Bool.false_ne_true fun h => h.elim hflips (Nat.not_lt.2 hparity)

/-- Settles O55: each command of the upkeep by the lemma that says what it leads to. -/
theorem stackUpkeep : Obligations.StackUpkeep := by
  unfold Obligations.StackUpkeep
  refine ⟨fun g s hg hup hin hfw => ⟨fun hpoison hparity => ⟨fun hclean => ?_, fun hone => ?_⟩, fun hbad hpool => ?_⟩,
    fun m s hm hup => refresh_result hm hup,
    fun m c s hm hup => ⟨stackTempRead_result hm hup, stackTempRead_hot hm hup⟩,
    fun p ns s hp hup => headCountRefresh_result ns hp hup,
    fun m pc v s hm hpc hserves hidle => ⟨retrainDaysElapsed_result hserves hidle hm hpc, hbmRetrainReq_result hserves hidle⟩,
    fun m pc d rest e s hm hup hfw hnext hserves => ⟨fun hspare => migrationStart_spare hm hup hnext hserves hspare hfw,
      fun hnone => migrationStart_noSpare hm hup hnext hserves hnone hfw⟩,
    fun m g s hm hg => ⟨migrationSwitch_early hm hg, migrationSwitch_result hm hg⟩,
    fun m pc s hm hpc htraining => ⟨retrainDone_ok hm hpc htraining, retrainDone_fails hm hpc htraining⟩⟩
  · have hgood := granuleBad_eq_false hpoison hparity (by rw [hclean]; decide)
    exact scrubRead_clean hg hup hin hfw hgood hclean
  · have hgood := granuleBad_eq_false hpoison hparity (by rw [hammingDecode_one hone]; decide)
    exact scrubRead_corrected hg hup hin hfw hgood hone
  · have hfound : granuleBad g s = true := granuleBad_iff.2 <| hbad.imp_right <| Or.imp_left fun ⟨a, b, hflips, hne⟩ => by
      rw [hflips]
      exact hammingDecode_two hne
    exact scrubRead_bad hg hup hin hfw hfound hpool

end Sys2Proof.Machine
end
